-- ==== Sys2Proof/Word.lean ====
section
/-! DEFINITION. The words of the hardware: bytes, dwords, and Meridian time. -/

namespace Sys2Proof

/-- A byte (R6). -/
abbrev Byte := BitVec 8

/-- A register (R25). -/
abbrev Word := BitVec 32

/-- A Meridian time, in units of 2^−16 ns since 1970-01-01T00:00:00 TAI (R48). -/
abbrev Time := Nat

/-- One nanosecond of Meridian time. -/
def oneNs : Nat := 65536
/-- One microsecond. -/
def oneUs : Nat := 65536000
/-- One millisecond. -/
def oneMs : Nat := 65536000000
/-- One second. -/
def oneSec : Nat := 65536000000000

/-- The whole seconds of a time. -/
def Time.sec (t : Time) : Nat := t / oneSec
/-- The nanoseconds field of a time, 0 to 999 999 999. -/
def Time.ns (t : Time) : Nat := t % oneSec / oneNs
/-- The fraction field of a time, in units of 2^−16 ns. -/
def Time.frac (t : Time) : Nat := t % oneNs

/-- The time with the given seconds and nanoseconds. -/
def Time.of (sec ns : Nat) : Time := sec * oneSec + ns * oneNs

end Sys2Proof
end

