-- ==== Sys2Proof/Syntax.lean ====
section
/-! DEFINITION. The commands and events of the block: one constructor for each row of the table of operations and events. -/

namespace Sys2Proof

/-- A command descriptor as the device has read it (R562): the ring that held it, its flags and its fields. -/
structure Desc where
  /-- the ring number, which GEN_CLAMPLAST records (R35) -/
  ring : Nat
  /-- 1 when the command came through a tunnel ring, 0 from the device's own host -/
  tunnel : Bool
  tag : BitVec 16
  nocmp : Bool
  fence : Bool
  len : Word
  /-- bytes 8–15 -/
  addr : BitVec 64
  /-- bytes 16–23 -/
  a : BitVec 64
  /-- bytes 24–27 -/
  b : Word
  /-- bytes 28–29 -/
  rf : BitVec 16
deriving DecidableEq, Repr

/-- What the device read for a command: the 32 bytes of the descriptor and the buffer, or nothing for a buffer
that the opcode does not read. -/
structure CmdRead where
  bytes : List Byte
  buf : List Byte
deriving DecidableEq, Repr

/-- One IRIG-B frame as received (R64): `ok` is 0 for a frame that is missing or fails its parity check, and
`year` is present in the codes that carry a year field. -/
structure IrigFrame where
  ok : Bool
  sec : Nat
  min : Nat
  hour : Nat
  day : Nat
  year : Option Nat
deriving DecidableEq, Repr

/-! ### What the frames of other standards spell

A frame whose encoding another standard gives (PTP, GOOSE, SV, the redundancy tag) enters as what that standard makes of
its bytes (log 14). -/

/-- The redundancy tag or trailer of a frame of IEC 62439-3 (R513): the source address, the LAN that it names, and its
sequence number. -/
structure RedTag where
  src : BitVec 48
  lanB : Bool
  seq : BitVec 16
deriving DecidableEq, Repr

/-- A frame at port `port`: its bytes without FCS and redundancy tag, whether its FCS is right, its tag, and its arrival time. -/
structure RxHead where
  port : Fin 8
  bytes : List Byte
  fcsOk : Bool
  tag : Option RedTag
  arr : Time
deriving DecidableEq, Repr

/-- The extension of IEC 62351-6 (R535): the key identifier, the initialization vector, the octets that the tag covers, and the
tag. -/
structure AuthExt where
  keyId : BitVec 32
  iv : List Byte
  body : List Byte
  mac : List Byte
deriving DecidableEq, Repr

/-- A member of a GOOSE data set (R530): a BOOLEAN, a Dbpos, a Quality by its validity (0 good) and its test bit,
or another type. -/
inductive GMember where
  | bool (v : Bool)
  | dbpos (v : BitVec 2)
  | quality (validity : BitVec 2) (test : Bool)
  | other
deriving DecidableEq, Repr

/-- A GOOSE frame (R529, R530). -/
structure GooseIn where
  dst : BitVec 48
  appid : BitVec 16
  gocbRef : List Byte
  stNum : Nat
  sqNum : Nat
  /-- timeAllowedToLive in ms -/
  tal : Nat
  test : Bool
  sim : Bool
  members : List GMember
  auth : Option AuthExt
deriving DecidableEq, Repr

/-- One channel value of an ASDU with its quality (R524). -/
structure SvVal where
  v : BitVec 32
  /-- validity 0 good, 1 invalid, 3 questionable -/
  validity : BitVec 2
  test : Bool
  subst : Bool
deriving DecidableEq, Repr

/-- One ASDU: smpCnt, smpSynch and its eight channels. -/
structure SvAsdu where
  smpCnt : Nat
  synch : Nat
  vals : List SvVal
deriving DecidableEq, Repr

/-- An SV frame (R524); `dataSet` tells whether it carries the data set of IEC 61869-9. -/
structure SvIn where
  dst : BitVec 48
  appid : BitVec 16
  svId : List Byte
  sim : Bool
  dataSet : Bool
  asdus : List SvAsdu
  auth : Option AuthExt
deriving DecidableEq, Repr

/-- What an Announce message says of its grandmaster and sender (IEEE 1588). -/
structure PtpData where
  pri1 : Nat
  cls : Nat
  accuracy : Nat
  variance : Nat
  pri2 : Nat
  gm : BitVec 64
  steps : Nat
  /-- the sender's clock identity and port number -/
  sender : BitVec 64
  senderPort : Nat
  timeSource : Nat
  /-- currentUtcOffset with its valid flag -/
  utc : Int
  utcValid : Bool
  /-- the IEEE_C37_238 TLV: grandmaster ID and total time inaccuracy -/
  tlv : Option (Nat × Nat)
deriving DecidableEq, Repr

/-- A Sync message beside its correction: its sequence number, its origin time, whether a Follow_Up comes after it, and the
sender's interval between Syncs as a power of 2 in seconds (IEEE 1588). -/
structure PtpSync where
  seq : Nat
  origin : Time
  twoStep : Bool
  logInt : Int
deriving DecidableEq, Repr

/-- PTP messages (R515). Times are Meridian times of the sender's stamps, corrections in units of 2^−16 ns. -/
inductive PtpMsg where
  | announce (d : PtpData)
  | sync (m : PtpSync) (corr : Int)
  /-- the Follow_Up of a two-step Sync: its sender, the Sync's sequence number, the precise origin time, and its correction -/
  | followUp (sender : BitVec 64) (seq : Nat) (origin : Time) (corr : Int)
  /-- a peer-delay request by sequence number -/
  | pdelayReq (seq : Nat)
  /-- the response: the request's receipt time, and the response's origin time with both corrections -/
  | pdelayResp (seq : Nat) (t2 t3 : Time) (corr : Int)
  | other
deriving DecidableEq, Repr

/-- Another device of the stack, as its HELLO packets describe it: serial number, strap, and its expected stack size (R580). -/
structure StackDev where
  serial : BitVec 64
  strap : Bool
  nexp : Nat
deriving DecidableEq, Repr

/-- A trained stack link between two devices, each with the number of its link; device 0 is this device, device k the k-th of the
others. -/
structure StackWire where
  a : Nat
  la : Fin 4
  b : Nat
  lb : Fin 4
deriving DecidableEq, Repr

/-- What formation finds (R577 to R580): the other devices, and the links that join devices. -/
structure StackGroup where
  others : List StackDev
  wires : List StackWire
deriving DecidableEq, Repr

/-- A packet as it arrives (R598): the link, whether its CRC is right, the source position, the hops taken, the sequence number, and the
time, in units of 2^−16 ns, that a forwarded copy stays in this device. -/
structure PktHead where
  link : Fin 4
  crcOk : Bool
  src : Fin 8
  hops : Fin 8
  seq : BitVec 16
  stay : Nat
deriving DecidableEq, Repr

/-- A packet that carries a time: the action time of a LAUNCH, the next tracked instant of a GRID. -/
structure PktTime where
  head : PktHead
  t : Time
deriving DecidableEq, Repr

/-- What a tunnel packet carries, its fragments joined (R592): a command for a position, with its buffer, or a completion for the
master. -/
inductive TunMsg where
  | command (dest : Fin 8) (ring : Fin 128) (rd : CmdRead)
  | completion (op tag status : Nat) (len addr a b rf : Nat) (buf : List Byte)
deriving DecidableEq, Repr

/-- What a host access addresses: BAR0, which holds the registers; BAR2, the window onto the Cistern (R551); or the configuration
space (R548). -/
inductive HostAddr where
  | bar0 (off : Nat)
  | bar2 (off : Nat)
  | config (off : Nat)
deriving DecidableEq, Repr

/-- The times of a second class-S pass, in ns after the device's t0: of the end of the element step and of the acknowledge of the
driver command; and of the latest t0 among the device and the members after it (R231, R288, R295). -/
structure PassTimes where
  eleNs : Nat
  ackNs : Nat
  lateNs : Nat
deriving DecidableEq, Repr

/-- One command or event, one constructor for each row of the table, those with operands first. -/
inductive Instr where
  /-- REGISTER_WRITE (R9): A host or tunnel write to a register that has no row of its own stores its fields after clamping, or is refused as not-now. -/
  | registerWrite (a : HostAddr) (be : BitVec 4) (v : Word)
  /-- RC_READ (R10): A read of an RC field returns its value and clears it, with a concurrent hardware event ordered after the read. -/
  | rcRead (a : HostAddr)
  /-- LOCK (R11): A write of 1 to XXX_CTRL.lock locks every RWL field of the block until a reset of the block's domain. -/
  | lock (blk : Fin 21)
  /-- SOFT_RESET (R28): A write of 1 to XXX_CTRL.srst resets the block's BLK domain with the effects that the block's chapter states, or is refused as not-now. -/
  | softReset (blk : Fin 21)
  /-- PTP_SYNC_RECEIVE (R516): A PTP Sync message on a SLAVE port is a servo event of source code p. -/
  | ptpSyncReceive (h : RxHead) (domain : Nat) (sender : BitVec 64) (m : PtpSync) (corr : Int) (residence : Nat)
  /-- IRIGB_FRAME (R64): A received IRIG-B frame is decoded as UTC and its on-time edge serves as a servo event. -/
  | irigbFrame (f : IrigFrame) (edge : Time)
  /-- PPS_IN_EDGE (R71): A rising PPS_IN edge is stamped by the TDC, corrected by MER_DLY[0], and serves as a servo event. -/
  | ppsInEdge (t : Time)
  /-- SOURCE_LOST (R53): A source whose events stop for its loss time becomes unqualified at once. -/
  | sourceLost (c : Fin 11)
  /-- SOURCE_QUALIFY (R53): A source that has delivered valid events for MER_QUAL.qual seconds becomes qualified. -/
  | sourceQualify (c : Fin 11)
  /-- WAIT_TO_RESTORE (R54): With revert = 1, a higher-priority source that has stayed qualified for MER_QUAL.wtr seconds is selected. -/
  | waitToRestore (c : Fin 12)
  /-- MER_HFREQ (R57): A host write of the frequency adjustment applies it and restarts the host-correction timeout. -/
  | merHfreq (v : Word)
  /-- MER_HPHASE (R58): A host phase correction is slewed or stepped and restarts the host-correction timeout. -/
  | merHphase (v : Word)
  /-- MER_TSET_HI (R60): The write gives the next whole second the label formed with MER_TSET_LO, as a step. -/
  | merTsetHi (v : Word)
  /-- TRIG_IN_EDGE (R413): An edge on TRIG_IN0 or TRIG_IN1 is stamped by the TDC and triggers the streams that select it. -/
  | trigInEdge (n : Fin 2) (rising : Bool) (t : Time)
  /-- TDC_REARM (R72): A TDC channel re-arms 40 ns after a stamp. -/
  | tdcRearm (c : Fin 20)
  /-- SA_ARM (R79): The command arms a scheduled-action slot with a time, an action and an argument. -/
  | saArm (d : Desc)
  /-- SA_CANCEL (R81): The command frees an armed slot and completes its arm with cancelled = 1. -/
  | saCancel (d : Desc)
  /-- ACTION_EXECUTE (R75): At the action time of an armed slot its action takes effect and the slot completes DONE or LATE. -/
  | actionExecute (i : Fin 64)
  /-- OUT_PULSE_END (R73): The scheduled request of an OUT_SET with a non-zero length clears after the length. -/
  | outPulseEnd (o : Fin 16)
  /-- LAUNCH_PACKET (R82): A member receives a stack-wide arm and places it in its slot of the same number or refuses it. -/
  | launchPacket (slot : Fin 64) (p : PktTime) (action : Nat) (arg : Word)
  /-- LAUNCHRES_PACKET (R84): The master receives a member's launch outcome and completes the arm once every member has executed or refused. -/
  | launchresPacket (h : PktHead) (slot : Fin 64) (st : Nat)
  /-- WEIR_FIRE (R113): A weir firing is stamped and corrected, and it updates AFE_WTS, sets AFE_STS.weir and feeds the recorder and source 164 + n. -/
  | weirFire (n : Fin 16) (pol : Bool) (t : Time)
  /-- WEIR_REARM (R111): A weir re-arms once its filtered signal has returned within ±hyst × T and 40 ns have passed. -/
  | weirRearm (n : Fin 16)
  /-- WEIR_SETTLE (R114): A weir that has been enabled produces stamps only after 10 µs. -/
  | weirSettle (n : Fin 16)
  /-- AFE_WTS_READ (R113): A read of AFE_WTS[n][0] latches the other parts of the last stamp. -/
  | afeWtsRead (n : Fin 16)
  /-- WB_SAMPLE (R128): Each CIC1 output is trimmed, range-selected and delivered as a WB-tap sample. -/
  | wbSample (codes : List (List (Int × Bool)))
  /-- FIXED_TAP_OUTPUT (R143): A FIR-B unit produces a 14 400, 4800 or 4000 samples/s output of a pipeline. -/
  | fixedTapOutput (t : Fin 3) (avail : Time) (ackNs : Nat)
  /-- CHANNEL_RESET (R155): At the first 72 kHz grid instant after a mode change or an injection switch, the chains of the channel reset. -/
  | channelReset (n : Fin 24)
  /-- PIPELINE_RESET (R155): At the first 72 kHz grid instant after a remap or a write of run = 1, the pipeline resets. -/
  | pipelineReset (p : Fin 24)
  /-- SYNC_PIN_PULSE (R153): With pinen = 1, a SYNC pulse of at least 20 ns requests a device decimator reset of cause 0. -/
  | syncPinPulse (rising : Bool) (edge : Time) (width : Nat)
  /-- DCH_SYNC (R153): The command requests a device decimator reset at the next multiple of 1.25 ms. -/
  | dchSync (d : Desc)
  /-- DCH_SYNCCFG_CMD (R153): A write of 1 to DCH_SYNCCFG.cmd requests a device decimator reset of cause 1. -/
  | dchSynccfgCmd (v : Word)
  /-- DCH_SWAP (R147): The command asks a FIR-B unit for a target bank and starts, reverses or ignores a cross-fade. -/
  | dchSwap (d : Desc)
  /-- DCH_BDEF (R144): The write loads the default length and coefficients into the selected banks, or is not-now when a bank is in use. -/
  | dchBdef (v : Word)
  /-- DCH_TRKFREQ (R137): A host write of the tracking frequency applies it and restarts the hto timer. -/
  | dchTrkfreq (v : Word)
  /-- FRAME (R22): At t0 the phasor engine holds the frame and the path of the frame runs through the table, the array and the Sluice passes. -/
  | frame (t0 : Time) (eleNs ackNs : Nat)
  /-- PHE_RFEED (R184): The command feeds host data into a remote group from the next frame. -/
  | pheRfeed (d : Desc) (buf : List Byte)
  /-- PHE_HFREQ (R176): A host write of a group frequency applies it and restarts the hto timer. -/
  | pheHfreq (g : Fin 8) (v : Word)
  /-- PHE_HOST_TIMEOUT (R176): With no PHE_HFREQ write within hto, the frequency entry carries STALE and PHE_STS.hto sets. -/
  | pheHostTimeout (g : Fin 8)
  /-- REMOTE_FEED_TIMEOUT (R182): A host-fed remote group without a feed for dly frames holds its entries with STALE. -/
  | remoteFeedTimeout (r : Fin 8)
  /-- ELE_SETW (R206): The command writes settings of one slot that take effect in one frame. -/
  | eleSetw (d : Desc) (buf : List Byte)
  /-- ELE_RESULT (R209): The host returns the result of a host-assisted slot for a given frame. -/
  | eleResult (d : Desc)
  /-- ELE_CFG (R195): A write of a slot configuration that changes type loads defaults and re-clamps the source, or clears the state. -/
  | eleCfg (n : Fin 256) (v : Word)
  /-- HOST_RESULT_AGE_EXPIRY (R211): When the result in force is older than 2 frames, the outputs hold with STALE and ELE_STS.hstale sets. -/
  | hostResultAgeExpiry (n : Fin 256)
  /-- ELEMENT_TIMER_EXPIRY (R199): An element timer or integrator reaches its setting and the slot operates. -/
  | elementTimerExpiry (n : Fin 256)
  /-- HOLD_LIMIT_EXPIRY (R202): A HOLD slot whose held time exceeds thold acts as BLOCK. -/
  | holdLimitExpiry (n : Fin 256)
  /-- CASCADE_CLASS_S_PASS (R272): The class-S rows with cascade operands are evaluated once the members' publications are in. -/
  | cascadeClassSPass (t : PassTimes)
  /-- CASCADE_DEADLINE (R589): At the cascade deadline, missing publications count as missing and late ones are discarded. -/
  | cascadeDeadline (t : PassTimes)
  /-- SEAL_LIMIT_EXPIRY (R285): A seal that has lasted tmax is released and TMX_STS.sealto sets. -/
  | sealLimitExpiry (r : Fin 64)
  /-- MIN_PULSE_END (R286): Once tmin has passed without seal or act, the drive drops. -/
  | minPulseEnd (r : Fin 64)
  /-- TMX_COMMIT (R274): The write moves the shadow of a row into force at the next frame. -/
  | tmxCommit (v : Word)
  /-- TMX_ROW_EN (R280): A write of a row enable applies it, raising VCORE and deferring a class-S enable where needed. -/
  | tmxRowEn (r : Fin 64) (v : Word)
  /-- TMX_ROWEN (R568): The command writes the enables of the masked rows for the host. -/
  | tmxRowen (d : Desc)
  /-- TCS_ON_CHECK (R298): Without an output current above 20 mA within 5 ms of an on-command, the on-state bit sets. -/
  | tcsOnCheck (o : Fin 16) (sensed : Bool)
  /-- TIME_TASK_RELEASE (R311): A TIME task is released at its Meridian release instants. -/
  | timeTaskRelease (b : Fin 4) (t : Fin 16)
  /-- KOVER_REACHED (R324): A task's consecutive count reaches kover and the watchdog fallback starts. -/
  | koverReached (b : Fin 4)
  /-- WATCHDOG_EXPIRY (R324): An instance has run longer than its wdt and the watchdog fallback starts. -/
  | watchdogExpiry (b : Fin 4)
  /-- SWITCH_POINT (R335): At the first switch point of a PENDING switch the instance data is carried over and the banks swap. -/
  | switchPoint (b : Fin 4)
  /-- SWITCH_TIMEOUT (R334): Without a switch point within swto, the BCP holds new releases. -/
  | switchTimeout (b : Fin 4)
  /-- BCP_LOAD_CHECKED (R355): The load checks of an image end and BCP_LOAD completes DONE or AUTH_FAIL. -/
  | bcpLoadChecked (b : Fin 4)
  /-- BCP_IMASK (R320): A write of the event-dispatch mask holds dispatch, and its clearing is a dispatch point. -/
  | bcpImask (b : Fin 4) (v : Word)
  /-- BCP_START (R306): The command starts a BCP with a cold or warm start. -/
  | bcpStart (d : Desc)
  /-- BCP_STOP (R307): The command stops a BCP at the next instruction boundary. -/
  | bcpStop (d : Desc)
  /-- BCP_LOAD (R330): The command loads and verifies an image into the inactive bank. -/
  | bcpLoad (d : Desc) (buf : List Byte)
  /-- BCP_SWITCH (R332): The command makes the switch to the prepared bank PENDING. -/
  | bcpSwitch (d : Desc)
  /-- BCP_MAP (R337): The command loads the host map for the inactive bank. -/
  | bcpMap (d : Desc) (buf : List Byte)
  /-- BCP_FORCE (R328): The command forces one variable of a BCP. -/
  | bcpForce (d : Desc)
  /-- BCP_UNFORCE (R329): The command releases one force or every force of a BCP. -/
  | bcpUnforce (d : Desc)
  /-- BCP_TOUT (R341): The host returns the output image of a host-assisted task, applied as its task end. -/
  | bcpTout (d : Desc) (buf : List Byte)
  /-- FBC_NOP (R363): The NOP instruction does nothing. -/
  | fbcNop (b : Fin 4)
  /-- LDI (R363): Push the immediate as LINT. -/
  | ldi (b : Fin 4)
  /-- LDC (R363): Push a constant-pool entry. -/
  | ldc (b : Fin 4)
  /-- DUP (R363): Duplicate the top cell. -/
  | dup (b : Fin 4)
  /-- DROP (R363): Drop the top cell. -/
  | drop (b : Fin 4)
  /-- SWAP (R363): Exchange the two top cells. -/
  | swap (b : Fin 4)
  /-- OVER (R363): Copy the second cell to the top. -/
  | fbcOver (b : Fin 4)
  /-- ROT (R363): Rotate the three top cells. -/
  | rot (b : Fin 4)
  /-- LDL (R360): Load from IP plus an offset. -/
  | ldl (b : Fin 4)
  /-- STL (R360): Store to IP plus an offset. -/
  | stl (b : Fin 4)
  /-- LDG (R360): Load from an absolute offset. -/
  | ldg (b : Fin 4)
  /-- STG (R360): Store to an absolute offset. -/
  | stg (b : Fin 4)
  /-- LDX (R360): Load from a popped address. -/
  | ldx (b : Fin 4)
  /-- STX (R360): Store to a popped address. -/
  | stx (b : Fin 4)
  /-- LEA (R363): Push IP plus an offset as an address. -/
  | lea (b : Fin 4)
  /-- QGET (R357): Push the quality tag of the top cell. -/
  | qget (b : Fin 4)
  /-- QSET (R357): Set the quality tag of a cell. -/
  | qset (b : Fin 4)
  /-- ADD (R365): Add with saturation. -/
  | add (b : Fin 4)
  /-- SUB (R365): Subtract with saturation. -/
  | sub (b : Fin 4)
  /-- MUL (R365): Multiply with saturation. -/
  | mul (b : Fin 4)
  /-- DIV (R365): Divide, with defined results for division by zero. -/
  | div (b : Fin 4)
  /-- MOD (R365): Remainder with the sign of the dividend. -/
  | mod (b : Fin 4)
  /-- NEG (R365): Negate. -/
  | neg (b : Fin 4)
  /-- ABS (R365): Absolute value. -/
  | abs (b : Fin 4)
  /-- MIN (R363): Smaller of two cells. -/
  | min (b : Fin 4)
  /-- MAX (R363): Larger of two cells. -/
  | max (b : Fin 4)
  /-- LIMIT (R363): Limit a value between a minimum and a maximum. -/
  | limit (b : Fin 4)
  /-- CVT (R367): Convert between types by the rules of the type table. -/
  | cvt (b : Fin 4)
  /-- MATH (R366): Apply a floating-point function selected by the operand. -/
  | math (b : Fin 4)
  /-- CMP (R366): Compare two cells under a condition and push a BOOL. -/
  | cmp (b : Fin 4)
  /-- SEL (R364): Select one of two cells by a condition. -/
  | sel (b : Fin 4)
  /-- AND (R363): Bitwise AND. -/
  | and (b : Fin 4)
  /-- OR (R363): Bitwise OR. -/
  | or (b : Fin 4)
  /-- XOR (R363): Bitwise XOR. -/
  | xor (b : Fin 4)
  /-- NOT (R363): Boolean or bitwise complement. -/
  | not (b : Fin 4)
  /-- SHL (R365): Shift left within the width of the type. -/
  | shl (b : Fin 4)
  /-- SHR (R365): Logical shift right within the width of the type. -/
  | shr (b : Fin 4)
  /-- JMP (R363): Jump by a signed offset. -/
  | jmp (b : Fin 4)
  /-- JZ (R363): Jump when the popped cell is 0. -/
  | jz (b : Fin 4)
  /-- JNZ (R363): Jump when the popped cell is not 0. -/
  | jnz (b : Fin 4)
  /-- CALL (R361): Call an FB instance. -/
  | call (b : Fin 4)
  /-- RET (R361): Return from an FB, or end the instance when the call stack is empty. -/
  | ret (b : Fin 4)
  /-- CALLX (R369): A library-block call with an unlisted block or a parameter block outside the region executes as NOP and sets the flag. -/
  | callx (b : Fin 4)
  /-- TEND (R314): End the instance and apply its output image in one arbitration. -/
  | tend (b : Fin 4)
  /-- AFLAG (R368): Push the arithmetic flag. -/
  | aflag (b : Fin 4)
  /-- NOW (R363): Push the present Meridian time. -/
  | now (b : Fin 4)
  /-- TON (R370): On-delay timer block. -/
  | ton (b : Fin 4)
  /-- TOF (R370): Off-delay timer block. -/
  | tof (b : Fin 4)
  /-- TP (R370): Pulse timer block. -/
  | tp (b : Fin 4)
  /-- R_TRIG (R370): Rising-edge detector block. -/
  | rTrig (b : Fin 4)
  /-- F_TRIG (R370): Falling-edge detector block. -/
  | fTrig (b : Fin 4)
  /-- CTU (R370): Up-counter block. -/
  | ctu (b : Fin 4)
  /-- CTD (R370): Down-counter block. -/
  | ctd (b : Fin 4)
  /-- SR (R370): Set-dominant bistable block. -/
  | sr (b : Fin 4)
  /-- RS (R370): Reset-dominant bistable block. -/
  | rs (b : Fin 4)
  /-- ELEREAD (R371): Read the state and accumulator of an element slot. -/
  | eleread (b : Fin 4)
  /-- QREAD (R371): Read one or two quantity-table entries of one frame. -/
  | qread (b : Fin 4)
  /-- ROWEN (R372): Place a row enable in the output image when the BCP controls the row. -/
  | rowen (b : Fin 4)
  /-- SAARM (R373): Arm a scheduled-action slot that the BCP owns. -/
  | saarm (b : Fin 4)
  /-- SACANCEL (R373): Cancel a scheduled-action slot that the BCP owns. -/
  | sacancel (b : Fin 4)
  /-- SAREAD (R373): Read the state and last completion of a scheduled-action slot. -/
  | saread (b : Fin 4)
  /-- RECMARK (R374): Insert a user mark into the selected record streams. -/
  | recmark (b : Fin 4)
  /-- ICU_TAKE (R384): The host claims a pending source, or the TAKE counts as bad. -/
  | icuTake (src : BitVec 8)
  /-- ICU_DONE (R386): The taker releases an active source, or the DONE counts as bad. -/
  | icuDone (src : BitVec 8)
  /-- ICU_SWSET (R378): A write of 1 raises a software interrupt source. -/
  | icuSwset (j : Fin 5) (v : Word)
  /-- ICU_RAW (R392): A host write of 1 clears the pending bit of an edge source. -/
  | icuRaw (k : Fin 8) (v : Word)
  /-- ICU_EN (R383): A write of enables gates presentation and presents pending sources. -/
  | icuEn (k : Fin 8) (v : Word)
  /-- ICU_SRC (R393): A write of target, vector or wake moves presentation to a new target, or is not-now while the source is active. -/
  | icuSrc (n : Fin 256) (v : Word)
  /-- ICU_MODE (R401): Entry into compatibility mode fixes the targets of sources 0 to 127. -/
  | icuMode (v : Word)
  /-- LEVEL_CHANGE (R380): The level of a level source changes its pending bit, and a rise counts as one raise. -/
  | levelChange (n : Fin 256) (lv : Bool)
  /-- MSIX_VECTOR_UNMASK (R397): Unmasking a vector with its PBA bit set sends one message. -/
  | msixVectorUnmask (vec : Fin 64)
  /-- REC_START (R410): The command starts a record stream in RUN or ARMED. -/
  | recStart (d : Desc)
  /-- REC_STOP (R436): The command ends a stream with an END mark of cause 1. -/
  | recStop (d : Desc)
  /-- REC_TRIG (R414): The command triggers the selected streams. -/
  | recTrig (d : Desc)
  /-- REC_FLREF (R435): The command writes a host-refined distance to entry 78. -/
  | recFlref (d : Desc)
  /-- RECORD_FLUSH (R425): A buffer whose flush time has passed since its first record is completed. -/
  | recordFlush (k : Fin 4)
  /-- TRIG_PACKET (R430): A cascade trigger-line message reaches the streams with xin = 1 as source-7 triggers. -/
  | trigPacket (h : PktHead) (t : Time) (method : Nat) (test : Bool) (code idx : Nat)
  /-- DI_SAMPLE (R441): The I/O die delivers a 1 µs sample of each digital input. -/
  | diSample (us : Nat) (samples : BitVec 32)
  /-- DI_FILTER_TICK (R442): At each filter tick the input's counter moves up or down. -/
  | diFilterTick (i : Fin 32)
  /-- DI_DECISION (R443): When the counter reaches L or 0 the filtered state changes with timestamp t_dec and raises its DI group source. -/
  | diDecision (i : Fin 32)
  /-- FIO_OREQ (R451): The command sets the requests of host-owned outputs. -/
  | fioOreq (d : Desc)
  /-- FIO_REQ (R451): A host write of output requests applies them and restarts the host watchdog. -/
  | fioReq (v : Word)
  /-- FIO_TPULSE (R465): The command starts test pulses on the named outputs. -/
  | fioTpulse (d : Desc)
  /-- TEST_PULSE_START (R465): A periodic test pulse starts, or is skipped. -/
  | testPulseStart (o : Fin 16)
  /-- TEST_PULSE_END (R464): A test pulse ends and passes or fails by the pin read-back. -/
  | testPulseEnd (o : Fin 16) (crossed : Bool)
  /-- OVERCURRENT (R456): An output in its current limit for 20 µs sets its ovc bits. -/
  | overcurrent (o : Fin 16)
  /-- THERMAL_SHUTDOWN (R457): An output switch at 170 °C switches off and sets its tsd bits. -/
  | thermalShutdown (o : Fin 16)
  /-- THERMAL_RESUME (R457): An unlatched output resumes its command once cooled to 150 °C. -/
  | thermalResume (o : Fin 16)
  /-- EXTDRV (R458): An output commanded off whose pin exceeds VSUP/2 for 50 µs is in EXTDRV. -/
  | extdrv (o : Fin 16)
  /-- EXTDRV_CLEAR (R458): EXTDRV clears after 10 ms below VSUP/2. -/
  | extdrvClear (o : Fin 16)
  /-- FIO_FLTLAT (R457): A W1C clear of a fault latch clears it and re-enables a latched output. -/
  | fioFltlat (k : Fin 4) (v : Word)
  /-- FIO_DITS_READ (R443): A read of FIO_DITS[i][0] latches the rest of the last decision. -/
  | fioDitsRead (i : Fin 32)
  /-- POLL_SEND (R475): At its slot offset a station's POLL is sent with its latched output bytes. -/
  | pollSend (l : Fin 8) (i : Fin 16)
  /-- RESP_RECEIVE (R474): A RESP is received and checked, and a valid one updates the station's inputs. -/
  | respReceive (l : Fin 8) (r : List Byte) (after : Nat)
  /-- POLL_SLOT_END (R475): At the end of a station's slot the outcome of the poll is decided. -/
  | pollSlotEnd (l : Fin 8)
  /-- STATION_DROP_OUT (R481): The n-th consecutive miss takes the station DOWN with substitute inputs. -/
  | stationDropOut (l : Fin 8) (i : Fin 16)
  /-- RIO_OUT (R488): The command writes the output bytes of a host-owned station. -/
  | rioOut (d : Desc) (buf : List Byte)
  /-- RIO_HOST_TIMEOUT (R486): Without an RIO_OUT for hto, the station's outputs go to their substitutes. -/
  | rioHostTimeout (l : Fin 8) (i : Fin 16)
  /-- AUX_CONV (R504): The command starts conversions of the named converters. -/
  | auxConv (d : Desc)
  /-- AUX_RUN (R501): A change of run from 0 to 1 allocates the circular buffer, or is not-now. -/
  | auxRun (a : Fin 2) (v : Word)
  /-- AUX_INTEGRATION_START (R496): At the first fMOD edge after a trigger and its delay the integration begins. -/
  | auxIntegrationStart (a : Fin 2)
  /-- AUX_RESULT (R501): A conversion result is written to the circular buffer. -/
  | auxResult (a : Fin 2) (raw : Int)
  /-- AUX_BUSY_END (R496): The converter stops being busy at ts_c + Tint + 4.0 ms. -/
  | auxBusyEnd (a : Fin 2)
  /-- PTMR_EVENT (R505): A PERIODIC unit produces a period event and its PWM output goes high. -/
  | ptmrEvent (u : Fin 8)
  /-- PTMR_HIGH_END (R505): The PWM output goes low after high µs. -/
  | ptmrHighEnd (u : Fin 8)
  /-- PTMR_ONESHOT_START (R508): A pending ONESHOT pulse starts at its start time. -/
  | ptmrOneshotStart (u : Fin 8)
  /-- PTMR_PULSE (R508): The command requests one pulse of a ONESHOT unit. -/
  | ptmrPulse (d : Desc)
  /-- ETH_LINK_CHANGE (R511): A port's link goes up or down and NET_STS.link sets. -/
  | ethLinkChange (p : Fin 8) (up : Bool)
  /-- RX_FRAME (R520): A received frame that no engine consumes passes to a host ring by class. -/
  | rxFrame (h : RxHead)
  /-- PTP_MESSAGE_RECEIVE (R515): A PTP general or peer-delay message is received and processed. -/
  | ptpMessageReceive (h : RxHead) (domain : Nat) (m : PtpMsg)
  /-- PTP_SYNC_SEND (R516): A port in the MASTER state sends Sync and Follow_Up. -/
  | ptpSyncSend (p : Fin 8)
  /-- PTP_ANNOUNCE_SEND (R517): A MASTER port sends an Announce message. -/
  | ptpAnnounceSend (p : Fin 8)
  /-- PDELAY_REQ_SEND (R515): A peer-delay request goes out once per second. -/
  | pdelayReqSend (p : Fin 8)
  /-- PRP_SUPERVISION_SEND (R513): A redundant pair sends a supervision frame every 2 s. -/
  | prpSupervisionSend (k : Fin 4)
  /-- DUPLICATE_FORGET (R513): A duplicate-discard entry expires after the forget time. -/
  | duplicateForget (k : Fin 4)
  /-- SV_FRAME_RECEIVE (R524): A matching SV frame delivers its ASDUs to its subscription. -/
  | svFrameReceive (h : RxHead) (f : SvIn)
  /-- SV_SUBSCRIPTION_LOST (R525): Without a valid sample for 10 sample periods the subscription is lost. -/
  | svSubscriptionLost (k : Fin 64)
  /-- GOOSE_FRAME_RECEIVE (R529): A matching GOOSE frame updates its subscription and the mapped GOOSE bits. -/
  | gooseFrameReceive (h : RxHead) (f : GooseIn)
  /-- GOOSE_TAL_EXPIRY (R529): When timeAllowedToLive expires the subscription is lost. -/
  | gooseTalExpiry (k : Fin 256)
  /-- GOOSE_REPEAT (R533): A GOOSE frame is repeated at the next interval. -/
  | gooseRepeat (j : Fin 64)
  /-- NET_GVAL (R534): A host write of publication values changes the values that the host owns. -/
  | netGval (j : Fin 8) (v : Word)
  /-- NET_TX (R522): The command sends a host frame on the named ports. -/
  | netTx (d : Desc) (buf : List Byte)
  /-- NET_SVSUB (R523): The command loads an SV subscription. -/
  | netSvsub (d : Desc) (buf : List Byte)
  /-- NET_SVPUB (R526): The command loads an SV publication. -/
  | netSvpub (d : Desc) (buf : List Byte)
  /-- NET_GSUB (R529): The command loads a GOOSE subscription. -/
  | netGsub (d : Desc) (buf : List Byte)
  /-- NET_GPUB (R532): The command loads a GOOSE publication. -/
  | netGpub (d : Desc) (buf : List Byte)
  /-- NET_KEY (R535): The command loads or empties an authentication key slot. -/
  | netKey (d : Desc) (buf : List Byte)
  /-- TP_FRAME_SEND (R539): A teleprotection frame starts with its phasors, command bits and timestamps. -/
  | tpFrameSend (p : Fin 4)
  /-- TP_FRAME_RECEIVE (R540): A CRC-correct teleprotection frame is received and its bits and packet pass on. -/
  | tpFrameReceive (p : Fin 4) (l : List Byte) (pin : Time) (rdi : Bool)
  /-- LOSS_OF_FRAME (R540): Three consecutive CRC failures declare loss of frame. -/
  | lossOfFrame (p : Fin 4)
  /-- TP_COMMAND_TIMEOUT (R542): Without a valid frame for cto, the received bits take their fallback. -/
  | tpCommandTimeout (p : Fin 4)
  /-- TPC_LOS (R537): The TPCp_LOS pin reports loss of signal from the transceiver. -/
  | tpcLos (p : Fin 4) (lost : Bool)
  /-- COMMAND_TAKE (R563): The device takes the next command of a CMD ring. -/
  | commandTake (r : Fin 128) (rd : Option CmdRead)
  /-- WRITE_BACK (R560): A batch of ready descriptors is written to a from-device ring, followed by its MSI-X message. -/
  | writeBack (r : Fin 128) (failed : Bool)
  /-- RING_ENABLE (R555): A write of en from 0 to 1 resets the ring's indexes and starts it. -/
  | ringEnable (r : Fin 128) (v : Word) (slots : List (Nat × Nat))
  /-- HIF_DB (R558): A doorbell write posts descriptors or releases them, after its checks. -/
  | hifDb (r : Fin 128) (v : Word) (slots : List (Nat × Nat))
  /-- NOP (R567): The ring command does nothing and completes DONE. -/
  | nop (d : Desc)
  /-- HOST_LINK_CHANGE (R549): The host link goes down or up, Bus Master Enable changes or D3hot is entered. -/
  | hostLinkChange (up bme d3 : Bool) (speed width : Nat)
  /-- LOHELYS_LINK_CHANGE (R577): A stack link gains or loses block lock and formation runs again. -/
  | lohelysLinkChange (j : Fin 4) (lock : Bool)
  /-- HELLO_SEND (R580): A HELLO packet is sent on each stack link every 100 µs. -/
  | helloSend (j : Fin 4)
  /-- HELLO_PACKET (R580): A HELLO packet from a neighbour is received. -/
  | helloPacket (h : PktHead) (serial : BitVec 64) (strap : Bool) (st pos plink : Nat)
  /-- FORMATION_END (R580): Formation ends as FORMED, STANDALONE or FAILED. -/
  | formationEnd (g : StackGroup)
  /-- LINK_DELAY_MEASURE (R582): Each stack link measures its delay with TIME packets every 1 ms. -/
  | linkDelayMeasure (j : Fin 4)
  /-- TIME_PACKET (R582): A TIME packet with stamps of the link-delay exchange is received. -/
  | timePacket (h : PktHead) (stamps : List Time) (arr : Time)
  /-- SYNC_PACKET (R583): A member corrects its Meridian from a SYNC packet, stepping on a step flag. -/
  | syncPacket (h : PktHead) (sent : Time) (cum tq : Nat) (step : Bool) (response : Option Int)
  /-- GRID_PACKET (R585): A member takes the next tracked instant and N from a GRID packet. -/
  | gridPacket (p : PktTime) (rate : Nat)
  /-- PUB_PACKET (R589): A member's publication arrives and counts as arrived for its frame. -/
  | pubPacket (h : PktHead) (hdr parts rest : List Byte)
  /-- LEVEL_PACKET (R398): A member's CASC view state sets the master's forward source level. -/
  | levelPacket (h : PktHead) (lv : Bool)
  /-- TUN_PACKET (R592): A tunnelled command, buffer or completion fragment is received. -/
  | tunPacket (h : PktHead) (x : TunMsg)
  /-- CSC_WR (R593): The tunnel command applies register writes on a member. -/
  | cscWr (d : Desc) (buf : List Byte)
  /-- CSC_RD (R593): The tunnel command reads registers of a member. -/
  | cscRd (d : Desc) (buf : List Byte)
  /-- CSC_CFG (R580): An accepted write of the stacking configuration restarts formation. -/
  | cscCfg (v : Word)
  /-- MEMBER_LOST (R594): The master declares a member lost after 1 ms without its packets. -/
  | memberLost (m : Fin 8)
  /-- SEC_ATTEST (R617): The command requests a signed device report for a nonce. -/
  | secAttest (d : Desc) (buf : List Byte)
  /-- SEC_SIGN (R617): The command requests a signed report of a host digest. -/
  | secSign (d : Desc) (buf : List Byte)
  /-- SEC_CERT (R608): The command returns the device certificate. -/
  | secCert (d : Desc)
  /-- SEC_ENROLL (R610): The command programs the next owner generation. -/
  | secEnroll (d : Desc) (buf : List Byte)
  /-- BOOT_IMAGE_CHECKED (R614): A boot image passes its checks and the DAWN sequence continues to MORNING. -/
  | bootImageChecked (flash : Option (List Byte))
  /-- PWR_BOOT (R633): The command supplies a boot image from the host. -/
  | pwrBoot (d : Desc) (buf : List Byte)
  /-- PWR_STATE (R635): The command requests a device state. -/
  | pwrState (d : Desc)
  /-- PWR_RESET (R642): A write of 16#D15A causes a SYS reset. -/
  | pwrReset (v : Word)
  /-- VCORE_CONFIRM (R639): The set point and measured VCORE reach 0.72 V and ok720 becomes 1. -/
  | vcoreConfirm (mv : Nat)
  /-- TEMPERATURE_MEASURE (R641): Each die temperature is measured every 1 ms. -/
  | temperatureMeasure (dig ana io : Int) (vsup : Nat)
  /-- PACE_MEASURE (R640): PWR_PACE counts reference handshakes per microsecond and sets slowpace below pmin. -/
  | paceMeasure (n : Nat)
  /-- TST_OPND (R646): The command supplies test operands to a TEST-mode slot. -/
  | tstOpnd (d : Desc) (buf : List Byte)
  /-- TST_MSUB (R650): A write of Meridian substitution selects free-run and reports the substituted tq. -/
  | tstMsub (v : Word)
  /-- SCRUB (R651): The scrubber reads and corrects SRAM words. -/
  | scrub (err : Fin 3) (blk : Fin 21)
  /-- INTERDIE_STALL (R652): A channel between the dies without acknowledge for 20 µs is an internal fault. -/
  | interdieStall (io : Bool)
  /-- CLASS_S_STALL (R652): A class-S path stage without progress for 100 µs is an internal fault. -/
  | classSStall (stage : Fin 3)
  /-- VCORE_LOW (R652): VCORE below 0.70 V for 10 µs while a class-S row is enabled is an internal fault. -/
  | vcoreLow (mv : Nat)
  /-- BLOCK_STALL (R654): A block without progress for stallt is reset as by its srst. -/
  | blockStall (blk : Fin 21)
  /-- EXTEST (R655): The boundary-scan EXTEST instruction. -/
  | extest (lanes : Bool)
  /-- OUTPUT_LEAVES_LIMIT (R456): An output that leaves its current limit clears its bit in FIO_FLTST.ovc and ends the 20 µs count toward a latched ovc. -/
  | outputLeavesLimit (o : Fin 16)
  /-- ANNOUNCE_RECEIPT_TIMEOUT (R516): A PTP port taking part in the best master clock algorithm that receives no Announce within the profile's receipt timeout changes its port state and sets NET_STS.ptpst. -/
  | announceReceiptTimeout (p : Fin 8)
  /-- TQ_EVALUATE (R61): The time-quality transitions are evaluated once per second when no source event arrives. -/
  | tqEvaluate
  /-- TQ_LOCK (R61): After lockcnt consecutive offsets within lockthr, tq becomes LOCKED and MER_STS.tqchg sets. -/
  | tqLock
  /-- HOLDOVER_LIMIT (R61): When HOLDOVER has lasted MER_HOLD.limit seconds, tq becomes FREE. -/
  | holdoverLimit
  /-- HOST_CORRECTION_TIMEOUT (R57): In host-assisted mode, no MER_HFREQ or MER_HPHASE write within hcto sets MER_STS.hcto and turns LOCKED into HOLDOVER. -/
  | hostCorrectionTimeout
  /-- SLEW_SPENT (R58): When a slewed correction has been spent, its temporary frequency offset ends. -/
  | slewSpent
  /-- MER_NOW_SLO (R48): A read returns the present seconds and latches MER_NOW_HI and MER_NOW_NS at the same instant. -/
  | merNowSlo
  /-- PPS_OUT_RISE (R66): 1PPS out rises at each Meridian whole second, after the MER_DLY[2] compensation. -/
  | ppsOutRise
  /-- PPS_OUT_FALL (R66): 1PPS out falls after MER_PORT.ppsw milliseconds. -/
  | ppsOutFall
  /-- IRIGB_OUT_FRAME (R65): With irigen = 1, an IRIG-B B004 frame is sent with its on-time edge at the Meridian whole second. -/
  | irigbOutFrame
  /-- INJECTION_WINDOW (R109): Each 20 ms window that lies wholly under injection updates AFE_INJRES and AFE_INJCNT. -/
  | injectionWindow
  /-- MAIN_POINT_SAMPLE (R129): Each FIR-A output is trimmed, range-selected and converted to the unified word at 72 kHz. -/
  | mainPointSample
  /-- TRACKED_INSTANT (R136): At each tracked instant t(k) the next instant is fixed from the tracking frequency. -/
  | trackedInstant
  /-- DECIMATOR_RESET (R154): At tr of an accepted device reset every chain and pipeline restarts and the tracked grid restarts. -/
  | decimatorReset
  /-- TRACKING_HOST_TIMEOUT (R137): After hto without a write, tracked samples carry STALE and fstale is set. -/
  | trackingHostTimeout
  /-- SLACK_MISS_LIMIT (R652): nmiss consecutive slack misses are an internal fault. -/
  | slackMissLimit
  /-- WAVEFRONT_CAPTURE_END (R431): Once the last sample of a wavefront window is available, the window is delivered. -/
  | wavefrontCaptureEnd
  /-- FAULT_LOCATION_TIMEOUT (R434): Without a qualifying second arrival by t1 + tmax, REC_STS.flnone sets. -/
  | faultLocationTimeout
  /-- FIO_HOST_TIMEOUT (R451): With hwd = 1 and no host request within T, host-owned requests go to their safe values. -/
  | fioHostTimeout
  /-- LOGIC_SILENT_EXPIRY (R461): Without a refresh for T, every output goes to its safe state. -/
  | logicSilentExpiry
  /-- REFRESH_REPEAT (R460): When no word has been sent for 500 µs, the last output word is repeated. -/
  | refreshRepeat
  /-- COMPLETION_WRITE (R564): A completion is written to its CMPL ring, or waits in the Cistern. -/
  | completionWrite
  /-- FUNCTION_LEVEL_RESET (R550): A function level reset acts as a HIF block reset. -/
  | functionLevelReset
  /-- PERST_N (R642): PERST_N low resets the PCI Express configuration space and the HIF block. -/
  | perstN
  /-- CASCADE_SYNC_SEND (R583): The master sends a SYNC packet at each whole Meridian millisecond. -/
  | cascadeSyncSend
  /-- ALIGNMENT (R584): A member whose offset has stayed within ±50 ns for 16 SYNC packets is aligned. -/
  | alignment
  /-- LEVEL_SEND (R598): A LEVEL packet is sent at each change and every 1 ms. -/
  | levelSend
  /-- DETACH (R595): A member detaches after 1 ms without SYNC or GRID packets. -/
  | detach
  /-- SIGNING_COMPLETE (R621): A signing operation ends and its report is written. -/
  | signingComplete
  /-- ENROLL_COMMIT (R610): The commit marker of an owner generation is written and the enrolment completes. -/
  | enrollCommit
  /-- POR (R627): A rise of VSUP through 16.5 V releases the POR reset. -/
  | por
  /-- VSUP_LOW (R627): VSUP below 16.5 V sets PWR_STS.vlow. -/
  | vsupLow
  /-- VSUP_FAIL (R627): VSUP below 14.0 V for 100 µs takes the device to OFF. -/
  | vsupFail
  /-- RST_N (R642): RST_N low for at least 1 µs causes a SYS reset, and DAWN starts at its release. -/
  | rstN
  /-- REFCLK_LOSS (R634): Absence of REFCLK for 10 ms enters SAFE. -/
  | refclkLoss
  /-- WAKE (R629): A presented wake source or PWR_STATE takes the device from NIGHT to MORNING. -/
  | wake
  /-- DUSK_RETURN (R638): After thermal warning has been deasserted for 10 s, the device returns from DUSK to NOON. -/
  | duskReturn
  /-- IDCODE (R656): The IDCODE instruction selects the identification register. -/
  | idcode
  /-- SAMPLE_PRELOAD (R655): The SAMPLE/PRELOAD instruction. -/
  | samplePreload
  /-- FIELD_CLAMP (R655): The CLAMP instruction. -/
  | fieldClamp
  /-- HIGHZ (R655): The HIGHZ instruction. -/
  | highz
  /-- EXTEST_PULSE (R655): The IEEE 1149.6 EXTEST_PULSE instruction. -/
  | extestPulse
  /-- EXTEST_TRAIN (R655): The IEEE 1149.6 EXTEST_TRAIN instruction. -/
  | extestTrain
  /-- BYPASS (R655): The BYPASS instruction, also loaded for every other code. -/
  | bypass
  /-- NEXT_WHOLE_SECOND_LABEL (R60): At the next Meridian whole second after a MER_TSET_HI write, that second takes the label formed with MER_TSET_LO as a step of Meridian. -/
  | nextWholeSecondLabel
  /-- RST_N_RELEASE (R642): The rising edge of RST_N ends the held reset, and the DAWN sequence starts with that instant as tp. -/
  | rstNRelease
deriving DecidableEq, Repr

end Sys2Proof
end

