-- ==== Sys2Proof/WellFormed.lean ====
section
/-! DEFINITION. The commands and events that the interfaces can present: the checks of their operands. -/

namespace Sys2Proof

/-- A register access is at a dword of BAR0, which is 16 MiB (R25). -/
def offOk (off : Nat) : Bool := off % 4 = 0 && decide (off < 2 ^ 24)

/-- A command comes from one of the 128 rings (R552). -/
def descOk (d : Desc) : Bool := d.ring < 128

/-- The device reads the 32 bytes of a descriptor (R562). -/
def readOk (rd : CmdRead) : Bool := rd.bytes.length = 32

/-- The fields of an IRIG-B frame (R64). -/
def frameOk (f : IrigFrame) : Bool :=
  decide (f.sec ≤ 60) && decide (f.min ≤ 59) && decide (f.hour ≤ 23) && decide (1 ≤ f.day) && decide (f.day ≤ 366)
    && f.year.all fun y => decide (y ≤ 99)

/-- Every modulator delivers 16 codes for one output of CIC1 (R127, R128). -/
def codesOk (l : List (List (Int × Bool))) : Bool := l.length = 40 && l.all fun c => c.length = 16

/-- A frame holds at least its addresses and its type. -/
def headOk (h : RxHead) : Bool := 14 ≤ h.bytes.length

/-- The offsets of an access: words of BAR0, bytes of BAR2, words of the configuration space (R25, R548, R551). -/
def addrOk (a : HostAddr) : Bool := match a with
  | .bar0 off => offOk off
  | .bar2 off => decide (off < 0x800000)
  | .config off => decide (off < 4096) && off % 4 = 0

/-- Slot buffers of a ring of at most 2^16 entries (R552). -/
def slotsOk (l : List (Nat × Nat)) : Bool := l.length ≤ 65536

/-- What a tunnel packet carries (R592, R593). -/
def tunOk (x : TunMsg) : Bool := match x with
  | .command _ _ rd => readOk rd
  | .completion _ tag status _ _ _ _ _ buf => decide (tag < 65536) && decide (status < 256) && decide (buf.length ≤ 256)

/-- Whether a command or event is well formed. -/
def Instr.wellFormed (i : Instr) : Bool := match i with
  | .registerWrite a _ _ => addrOk a
  | .rcRead a => addrOk a
  | .lock _ => true
  | .softReset _ => true
  | .ptpSyncReceive h _ _ _ _ _ => headOk h
  | .irigbFrame f _ => frameOk f
  | .ppsInEdge _ => true
  | .sourceLost _ => true
  | .sourceQualify _ => true
  | .waitToRestore _ => true
  | .tqEvaluate => true
  | .tqLock => true
  | .holdoverLimit => true
  | .hostCorrectionTimeout => true
  | .merHfreq _ => true
  | .merHphase _ => true
  | .slewSpent => true
  | .merTsetHi _ => true
  | .merNowSlo => true
  | .ppsOutRise => true
  | .ppsOutFall => true
  | .irigbOutFrame => true
  | .trigInEdge _ _ _ => true
  | .tdcRearm _ => true
  | .saArm d => descOk d
  | .saCancel d => descOk d
  | .actionExecute _ => true
  | .outPulseEnd _ => true
  | .launchPacket _ _ action _ => action ≤ 8
  | .launchresPacket _ _ st => st < 256
  | .weirFire _ _ _ => true
  | .weirRearm _ => true
  | .weirSettle _ => true
  | .afeWtsRead _ => true
  | .injectionWindow => true
  | .wbSample codes => codesOk codes
  | .mainPointSample => true
  | .fixedTapOutput _ _ _ => true
  | .trackedInstant => true
  | .decimatorReset => true
  | .channelReset _ => true
  | .pipelineReset _ => true
  | .syncPinPulse _ _ _ => true
  | .dchSync d => descOk d
  | .dchSynccfgCmd _ => true
  | .dchSwap d => descOk d
  | .dchBdef _ => true
  | .dchTrkfreq _ => true
  | .trackingHostTimeout => true
  | .frame _ _ _ => true
  | .pheRfeed d _ => descOk d
  | .pheHfreq _ _ => true
  | .pheHostTimeout _ => true
  | .remoteFeedTimeout _ => true
  | .eleSetw d _ => descOk d
  | .eleResult d => descOk d
  | .eleCfg _ _ => true
  | .hostResultAgeExpiry _ => true
  | .elementTimerExpiry _ => true
  | .holdLimitExpiry _ => true
  | .cascadeClassSPass t => decide (t.lateNs ≤ t.ackNs) && decide (t.eleNs ≤ t.ackNs)
  | .cascadeDeadline t => decide (t.lateNs ≤ t.ackNs) && decide (t.eleNs ≤ t.ackNs)
  | .slackMissLimit => true
  | .sealLimitExpiry _ => true
  | .minPulseEnd _ => true
  | .tmxCommit _ => true
  | .tmxRowEn _ _ => true
  | .tmxRowen d => descOk d
  | .tcsOnCheck _ _ => true
  | .timeTaskRelease _ _ => true
  | .koverReached _ => true
  | .watchdogExpiry _ => true
  | .switchPoint _ => true
  | .switchTimeout _ => true
  | .bcpLoadChecked _ => true
  | .bcpImask _ _ => true
  | .bcpStart d => descOk d
  | .bcpStop d => descOk d
  | .bcpLoad d _ => descOk d
  | .bcpSwitch d => descOk d
  | .bcpMap d _ => descOk d
  | .bcpForce d => descOk d
  | .bcpUnforce d => descOk d
  | .bcpTout d _ => descOk d
  | .fbcNop _ => true
  | .ldi _ => true
  | .ldc _ => true
  | .dup _ => true
  | .drop _ => true
  | .swap _ => true
  | .fbcOver _ => true
  | .rot _ => true
  | .ldl _ => true
  | .stl _ => true
  | .ldg _ => true
  | .stg _ => true
  | .ldx _ => true
  | .stx _ => true
  | .lea _ => true
  | .qget _ => true
  | .qset _ => true
  | .add _ => true
  | .sub _ => true
  | .mul _ => true
  | .div _ => true
  | .mod _ => true
  | .neg _ => true
  | .abs _ => true
  | .min _ => true
  | .max _ => true
  | .limit _ => true
  | .cvt _ => true
  | .math _ => true
  | .cmp _ => true
  | .sel _ => true
  | .and _ => true
  | .or _ => true
  | .xor _ => true
  | .not _ => true
  | .shl _ => true
  | .shr _ => true
  | .jmp _ => true
  | .jz _ => true
  | .jnz _ => true
  | .call _ => true
  | .ret _ => true
  | .callx _ => true
  | .tend _ => true
  | .aflag _ => true
  | .now _ => true
  | .ton _ => true
  | .tof _ => true
  | .tp _ => true
  | .rTrig _ => true
  | .fTrig _ => true
  | .ctu _ => true
  | .ctd _ => true
  | .sr _ => true
  | .rs _ => true
  | .eleread _ => true
  | .qread _ => true
  | .rowen _ => true
  | .saarm _ => true
  | .sacancel _ => true
  | .saread _ => true
  | .recmark _ => true
  | .icuTake _ => true
  | .icuDone _ => true
  | .icuSwset _ _ => true
  | .icuRaw _ _ => true
  | .icuEn _ _ => true
  | .icuSrc _ _ => true
  | .icuMode _ => true
  | .levelChange _ _ => true
  | .msixVectorUnmask _ => true
  | .recStart d => descOk d
  | .recStop d => descOk d
  | .recTrig d => descOk d
  | .recFlref d => descOk d
  | .recordFlush _ => true
  | .wavefrontCaptureEnd => true
  | .faultLocationTimeout => true
  | .trigPacket _ _ method _ _ _ => method ≤ 7
  | .diSample _ _ => true
  | .diFilterTick _ => true
  | .diDecision _ => true
  | .fioOreq d => descOk d
  | .fioReq _ => true
  | .fioHostTimeout => true
  | .fioTpulse d => descOk d
  | .testPulseStart _ => true
  | .testPulseEnd _ _ => true
  | .logicSilentExpiry => true
  | .refreshRepeat => true
  | .overcurrent _ => true
  | .thermalShutdown _ => true
  | .thermalResume _ => true
  | .extdrv _ => true
  | .extdrvClear _ => true
  | .fioFltlat _ _ => true
  | .fioDitsRead _ => true
  | .pollSend _ _ => true
  | .respReceive _ r _ => r.length ≤ 256
  | .pollSlotEnd _ => true
  | .stationDropOut _ _ => true
  | .rioOut d _ => descOk d
  | .rioHostTimeout _ _ => true
  | .auxConv d => descOk d
  | .auxRun _ _ => true
  | .auxIntegrationStart _ => true
  | .auxResult _ _ => true
  | .auxBusyEnd _ => true
  | .ptmrEvent _ => true
  | .ptmrHighEnd _ => true
  | .ptmrOneshotStart _ => true
  | .ptmrPulse d => descOk d
  | .ethLinkChange _ _ => true
  | .rxFrame h => headOk h
  | .ptpMessageReceive h _ _ => headOk h
  | .ptpSyncSend _ => true
  | .ptpAnnounceSend _ => true
  | .pdelayReqSend _ => true
  | .prpSupervisionSend _ => true
  | .duplicateForget _ => true
  | .svFrameReceive h _ => headOk h
  | .svSubscriptionLost _ => true
  | .gooseFrameReceive h _ => headOk h
  | .gooseTalExpiry _ => true
  | .gooseRepeat _ => true
  | .netGval _ _ => true
  | .netTx d _ => descOk d
  | .netSvsub d _ => descOk d
  | .netSvpub d _ => descOk d
  | .netGsub d _ => descOk d
  | .netGpub d _ => descOk d
  | .netKey d _ => descOk d
  | .tpFrameSend _ => true
  | .tpFrameReceive _ _ _ _ => true
  | .lossOfFrame _ => true
  | .tpCommandTimeout _ => true
  | .tpcLos _ _ => true
  | .commandTake _ rd => rd.all readOk
  | .completionWrite => true
  | .writeBack _ _ => true
  | .ringEnable _ _ slots => slotsOk slots
  | .hifDb _ _ slots => slotsOk slots
  | .nop d => descOk d
  | .functionLevelReset => true
  | .perstN => true
  | .hostLinkChange _ _ _ speed width => speed < 16 && width < 16
  | .lohelysLinkChange _ _ => true
  | .helloSend _ => true
  | .helloPacket _ _ _ st pos _ => st ≤ 5 && pos ≤ 7
  | .formationEnd g => g.others.length ≤ 7 && g.wires.all fun w => w.a ≠ w.b && w.a ≤ g.others.length && w.b ≤ g.others.length
  | .linkDelayMeasure _ => true
  | .timePacket _ stamps _ => stamps.length = 1 || stamps.length = 3
  | .cascadeSyncSend => true
  | .syncPacket _ _ _ tq _ _ => tq ≤ 3
  | .alignment => true
  | .gridPacket _ _ => true
  | .pubPacket _ hdr parts rest => hdr.length = 24 && parts.length = 160 && rest.length ≤ 328
  | .levelPacket _ _ => true
  | .levelSend => true
  | .tunPacket _ x => tunOk x
  | .cscWr d _ => descOk d
  | .cscRd d _ => descOk d
  | .cscCfg _ => true
  | .memberLost _ => true
  | .detach => true
  | .secAttest d _ => descOk d
  | .secSign d _ => descOk d
  | .secCert d => descOk d
  | .secEnroll d _ => descOk d
  | .signingComplete => true
  | .enrollCommit => true
  | .por => true
  | .bootImageChecked _ => true
  | .pwrBoot d _ => descOk d
  | .pwrState d => descOk d
  | .vsupLow => true
  | .vsupFail => true
  | .rstN => true
  | .pwrReset _ => true
  | .refclkLoss => true
  | .vcoreConfirm _ => true
  | .wake => true
  | .temperatureMeasure _ _ _ vsup => vsup < 65536
  | .duskReturn => true
  | .paceMeasure _ => true
  | .tstOpnd d _ => descOk d
  | .tstMsub _ => true
  | .scrub _ _ => true
  | .interdieStall _ => true
  | .classSStall _ => true
  | .vcoreLow _ => true
  | .blockStall _ => true
  | .extest _ => true
  | .idcode => true
  | .samplePreload => true
  | .fieldClamp => true
  | .highz => true
  | .extestPulse => true
  | .extestTrain => true
  | .bypass => true
  | .nextWholeSecondLabel => true
  | .rstNRelease => true
  | .outputLeavesLimit _ => true
  | .announceReceiptTimeout _ => true

end Sys2Proof
end

