-- ==== Sys2Proof/Machine/Fp.lean ====
section
/-! DEFINITION. Floating point: binary32 and binary64 as bit patterns (R8), rounding to nearest, ties to even (R366), and the roundings of the sample chains (R126). -/

namespace Sys2Proof.Machine

/-- Rounds to the nearest integer, ties away from zero (R126). -/
def roundAway (x : Rat) : Int := if x < 0 then -((-x + 1 / 2).floor) else (x + 1 / 2).floor

/-- Rounds to the nearest integer, ties to even (R366). -/
def roundEven (x : Rat) : Int :=
  let f := x.floor
  let d := x - (f : Rat)
  if d < 1 / 2 then f else if 1 / 2 < d then f + 1 else if f % 2 = 0 then f else f + 1

/-- Saturates an integer. -/
def satI (lo hi x : Int) : Int := if x < lo then lo else if hi < x then hi else x

/-- A power of 2 with an integer exponent. -/
def pow2 (e : Int) : Rat := if 0 ≤ e then ((2 ^ e.toNat : Nat) : Rat) else 1 / ((2 ^ (-e).toNat : Nat) : Rat)

/-- ⌊log2 x⌋ of a positive rational. -/
def log2Floor (x : Rat) : Int :=
  let e : Int := (Nat.log2 x.num.toNat : Int) - (Nat.log2 x.den : Int)
  if pow2 e ≤ x then (if pow2 (e + 1) ≤ x then e + 1 else e) else e - 1

/-- A floating-point format: exponent bits and mantissa bits. -/
structure Fmt where
  eb : Nat
  mb : Nat
deriving DecidableEq, Repr

def f32 : Fmt := ⟨8, 23⟩
def f64 : Fmt := ⟨11, 52⟩

def fmtBias (f : Fmt) : Int := 2 ^ (f.eb - 1) - 1
def fmtExp (f : Fmt) (n : Nat) : Nat := n / 2 ^ f.mb % 2 ^ f.eb
def fmtMan (f : Fmt) (n : Nat) : Nat := n % 2 ^ f.mb
def fmtNeg (f : Fmt) (n : Nat) : Bool := n / 2 ^ (f.mb + f.eb) % 2 = 1

/-- Whether a pattern is a NaN. -/
def isNaN (f : Fmt) (n : Nat) : Bool := fmtExp f n = 2 ^ f.eb - 1 && fmtMan f n ≠ 0
/-- Whether a pattern is an infinity. -/
def isInf (f : Fmt) (n : Nat) : Bool := fmtExp f n = 2 ^ f.eb - 1 && fmtMan f n = 0

/-- The value of a finite pattern; a subnormal is treated as zero (R8). NaN and infinities give none. -/
def fpVal (f : Fmt) (n : Nat) : Option Rat :=
  if fmtExp f n = 2 ^ f.eb - 1 then none
  else if fmtExp f n = 0 then some 0
  else
    let m : Rat := ((2 ^ f.mb + fmtMan f n : Nat) : Rat) * pow2 ((fmtExp f n : Int) - fmtBias f - f.mb)
    some (if fmtNeg f n then -m else m)

/-- The value of a pattern, with NaN and infinities read as 0. -/
def fpRat (f : Fmt) (n : Nat) : Rat := (fpVal f n).getD 0

/-- The largest finite pattern of a sign. -/
def fpMax (f : Fmt) (neg : Bool) : Nat :=
  (if neg then 2 ^ (f.mb + f.eb) else 0) + (2 ^ f.eb - 1) * 2 ^ f.mb - 1

/-- The infinity of a sign. -/
def fpInf (f : Fmt) (neg : Bool) : Nat := (if neg then 2 ^ (f.mb + f.eb) else 0) + (2 ^ f.eb - 1) * 2 ^ f.mb

/-- The pattern nearest to a value, ties to even; the flag tells a value beyond the largest finite one, which becomes
that one (R366). -/
def fpRound (f : Fmt) (x : Rat) : Nat × Bool :=
  if x = 0 then (0, false)
  else
    let neg := decide (x < 0)
    let a := if x < 0 then -x else x
    let e := max (log2Floor a) (1 - fmtBias f)
    let m := (roundEven (a * pow2 ((f.mb : Int) - e))).toNat
    let sgnv := if neg then 2 ^ (f.mb + f.eb) else 0
    -- a rounded mantissa of 2^(mb + 1) carries into the exponent by itself
    let be := (e + fmtBias f).toNat
    let n := if m < 2 ^ f.mb then m else (be - 1) * 2 ^ f.mb + m
    if (2 ^ f.eb - 1) * 2 ^ f.mb ≤ n then (fpMax f neg, true) else (sgnv + n, false)

/-- A value as binary32; beyond the range the largest finite value. -/
def toF32 (x : Rat) : Nat := (fpRound f32 x).1

/-- The value of a binary32 register, NaN and infinities as 0. -/
def ofF32 (n : Nat) : Rat := fpRat f32 n

end Sys2Proof.Machine
end

