-- ==== Sys2Proof/Machine/Math.lean ====
section
/-! DEFINITION. Square root, trigonometry, exponential and logarithm as rationals within 2^−150 of the exact value, from which a result is rounded once (log 5). -/

namespace Sys2Proof.Machine

/-- Working bits of the fixed-point series. -/
abbrev QB : Nat := 160

/-- One in fixed point. -/
abbrev QONE : Int := 2 ^ 160

/-- π · 2^1320, truncated. -/
def piBits : Nat := 0x3243F6A8885A308D313198A2E03707344A4093822299F31D0082EFA98EC4E6C89452821E638D01377BE5466CF34E90C6CC0AC29B7C97C50DD3F84D5B5B54709179216D5D98979FB1BD1310BA698DFB5AC2FFD72DBD01ADFB7B8E1AFED6A267E96BA7C9045F12C7F9924A19947B3916CF70801F2E2858EFC16636920D871574E69A458FEA3F4933D7E0D95748F728EB658718BCD5882154AEE7B54A41DC25A59B59C30D5392A

/-- ln 2 · 2^200, truncated. -/
def ln2Bits : Nat := 0xB17217F7D1CF79ABC9E3B39803F2F6AF40F343267298B62D8A

/-- π. -/
def piQ : Rat := (piBits : Rat) / ((2 ^ 1320 : Nat) : Rat)
/-- ln 2. -/
def ln2Q : Rat := (ln2Bits : Rat) / ((2 ^ 200 : Nat) : Rat)

/-- The square root of a number, rounded down, by bisection over n bits. -/
def isqrtAux (x : Nat) : Nat → Nat → Nat
  | 0, r => r
  | n + 1, r => let t := r + 2 ^ n; isqrtAux x n (if t * t ≤ x then t else r)

def isqrt (x : Nat) : Nat := isqrtAux x (Nat.log2 x / 2 + 1) 0

/-- Square root; 0 for a number below 0. -/
def sqrtQ (x : Rat) : Rat :=
  if x ≤ 0 then 0
  else ((isqrt (x.num.toNat * x.den * 2 ^ (2 * QB)) : Nat) : Rat) / ((x.den * 2 ^ QB : Nat) : Rat)

/-- A rational in fixed point. -/
def toQ (x : Rat) : Int := (x * (QONE : Rat)).floor
/-- The rational of a fixed-point number. -/
def ofQ (x : Int) : Rat := (x : Rat) / (QONE : Rat)
/-- Product and quotient in fixed point. -/
def mulQ (a b : Int) : Int := a * b / QONE
def divQ (a b : Int) : Int := if b = 0 then 0 else a * QONE / b

/-- The sum of n terms of a series in which each term is the one before times r / (k·(k + 1)), k rising by 2. -/
def trigSeries (r : Int) : Nat → Int → Int → Int
  | 0, _, _ => 0
  | n + 1, t, k => t + trigSeries r n (mulQ t r / (k * (k + 1))) (k + 2)

/-- Sine and cosine of an angle in radians within ±π. -/
def sinSmall (x : Rat) : Rat := let q := toQ x; ofQ (trigSeries (-(mulQ q q)) 45 q 2)
def cosSmall (x : Rat) : Rat := let q := toQ x; ofQ (trigSeries (-(mulQ q q)) 45 QONE 1)

/-- The angle less its whole turns, within ±π. -/
def reduce (x : Rat) : Rat := x - ((x / (2 * piQ) + 1 / 2).floor : Rat) * (2 * piQ)

def sinQ (x : Rat) : Rat := sinSmall (reduce x)
def cosQ (x : Rat) : Rat := cosSmall (reduce x)
def tanQ (x : Rat) : Rat := let c := cosQ x; if c = 0 then 0 else sinQ x / c

/-- The sum z − z³/3 + z⁵/5 − … (r = −z²), or the same with plus signs (r = z²), over n terms. -/
def oddSeries (r : Int) : Nat → Int → Int → Int
  | 0, _, _ => 0
  | n + 1, p, k => p / k + oddSeries r n (mulQ p r) (k + 2)

/-- Halves the argument of an arc tangent: atan x = 2 · atan (x / (1 + √(1 + x²))). -/
def atanHalf (x : Rat) : Rat := let h := x / (1 + sqrtQ (1 + x * x)); ofQ (toQ h)

/-- Arc tangent, in radians. -/
def atanQ (x : Rat) : Rat :=
  let h := atanHalf (atanHalf (atanHalf x))
  let q := toQ h
  8 * ofQ (oddSeries (-(mulQ q q)) 40 q 1)

/-- The angle of the point (x, y), in radians, in (−π, π]; 0 at the origin. -/
def atan2Q (y x : Rat) : Rat :=
  if x = 0 then (if 0 < y then piQ / 2 else if y < 0 then -(piQ / 2) else 0)
  else if 0 < x then atanQ (y / x)
  else if 0 ≤ y then atanQ (y / x) + piQ else atanQ (y / x) - piQ

/-- Arc sine and arc cosine of a number within ±1. -/
def asinQ (x : Rat) : Rat := atan2Q x (sqrtQ (1 - x * x))
def acosQ (x : Rat) : Rat := atan2Q (sqrtQ (1 - x * x)) x

/-- The sum of n terms of the exponential series. -/
def expSeries (r : Int) : Nat → Int → Int → Int
  | 0, _, _ => 0
  | n + 1, t, k => t + expSeries r n (mulQ t r / k) (k + 1)

/-- The exponential; beyond ±4000 it is taken as that of ±4000, which no format holds. -/
def expQ (x : Rat) : Rat :=
  let y := if 4000 < x then 4000 else if x < -4000 then -4000 else x
  let k := (y / ln2Q + 1 / 2).floor
  ofQ (expSeries (toQ (y - (k : Rat) * ln2Q)) 45 QONE 1) * pow2 k

/-- The natural logarithm of a number above 0; 0 otherwise. -/
def lnQ (x : Rat) : Rat :=
  if x ≤ 0 then 0
  else
    let k := log2Floor x
    let m := x * pow2 (-k)
    let q := toQ ((m - 1) / (m + 1))
    2 * ofQ (oddSeries (mulQ q q) 55 q 1) + (k : Rat) * ln2Q

def log10Q (x : Rat) : Rat := lnQ x / lnQ 10

/-- Powers of a number above 0. -/
def powQ (a b : Rat) : Rat := if a ≤ 0 then 0 else expQ (b * lnQ a)

end Sys2Proof.Machine
end

