-- ==== Sys2Proof/Config.lean ====
section
/-! DEFINITION. What one device is made with, and the free values: constants without a body, of which no proof can see a value. -/

namespace Sys2Proof.Config

/-- The 64-bit serial number (R5, R45). -/
opaque serial : BitVec 64
/-- GEN_REV.mask and GEN_REV.digit (R45). -/
opaque revMask : BitVec 8
opaque revDigit : BitVec 4
/-- The straps CASC_MST and BOOTSEL, sampled in DAWN (R45, R612). -/
opaque strapMaster : Bool
opaque strapBootsel : Bool

/-- The proportional and the integral gain of the hardware servo, by MER_SERVO.bw and source code: units of 10^−12 of
adjustment for 2^−16 ns of offset (R56, log 2). -/
opaque servoKp : Nat → Nat → Rat
opaque servoKi : Nat → Nat → Rat
/-- The phase correction that a servo computes from a small offset (R56, R58, R583). -/
opaque servoPhase : Nat → Int
/-- The words of the PCI Express configuration space that R548 does not fix (log 149). -/
opaque configSpace : Nat → BitVec 32
/-- Which of the free buffers a Cistern allocation takes (R572). -/
opaque pickBuffer : Nat → Nat
/-- A value of a field of a record that the spec does not state (log 7). -/
opaque freeWord : Nat → BitVec 32
/-- Component i of a phasor of a teleprotection frame whose operands give no number: no rule states it, and it is no NaN (R8, R539,
log 167). -/
opaque freePhasor : Nat → Nat → BitVec 32
/-- The value of an item of an input map whose index names nothing, by kind and index (log 9). -/
opaque noItem : Nat → Nat → BitVec 64
/-- The bytes that fill a quality variant beyond its quality byte in an exchanged image, and a short frame (log 9). -/
opaque pad : BitVec 8
/-- The public key of the Balhosen device root in ROM (R604). -/
opaque rootKey : List (BitVec 8)
/-- The trim record in OTP, but for the fields whose contents R105 fixes. -/
opaque trim : List (BitVec 8)
/-- What the unwrapping of the private key gives in a DAWN: the public key derived, or nothing when it fails (R603). -/
opaque unwrap : Nat → Option (List (BitVec 8))
/-- The set point that the adaptive controller chooses at a measurement of the pace, in mV (R638). -/
opaque adaptive : Nat → Nat
/-- The device certificate in OTP, but for the fields whose contents R607 fixes. -/
opaque cert : List (BitVec 8)
/-- The owner generations that OTP holds when the model starts: key, vroot, committed (R609). -/
opaque owners : List (List (BitVec 8) × Bool × Bool)
/-- A Falcon-1024 signature that the device makes over a message, 1280 bytes in the padded format (R606). -/
opaque falconSign : Nat → List (BitVec 8) → Vector (BitVec 8) 1280
/-- The BOOL that CVT makes of a REAL or LREAL, a conversion the type table does not list (log 10). -/
opaque realToBool : BitVec 64 → Bool
/-- Bits 63 to 32 of a cell that holds a REAL, which the spec does not state (R356, log 11). -/
opaque realHigh : BitVec 32
/-- Byte k of the output bytes that a station holds when none has been sent to it (R486, log 12). -/
opaque nothingSent : Nat → BitVec 8
/-- The octets of a sent GOOSE or SV frame that its authentication tag covers, by kind and content: the encodings of IEC 61850
and IEC 62351-6, which the spec does not give (R535, log 166). -/
opaque frameOctets : Nat → List Int → List (BitVec 8)
/-- The initialization vector of an authentication tag, 96 bits, never the same twice (R535, log 166). -/
opaque gmacIv : Nat → Vector (BitVec 8) 12
/-- The MAC address of a port (R513). -/
opaque mac : Nat → BitVec 48
/-- The PTP clock identity, the offsetScaledLogVariance, and the contents of the IEEE_C37_238 TLV (R515, R517). -/
opaque clockId : BitVec 64
opaque clockVariance : Nat
opaque c37Tlv : Nat × Nat
/-- Which output pins lie above VSUP/2 while their switches, which are on, limit the current, at a count of periods (R456, R469, log 23). -/
opaque limitedPins : Nat → BitVec 16
/-- The trim of a Lohelys link's delay, in units of 2^−16 ns, whose place in the trim record is not stated (R582, log 17). -/
opaque linkTrim : Nat → Int
/-- The gap, in units of 2^−16 ns, that the mimic sees before a first frame, which has none before it (R170, log 127). -/
opaque firstGap : Nat
/-- What a scan leaves in the boundary register: the levels of the pins and what the tester has shifted in (R657, log 89). -/
opaque scan : Nat → BitVec 162

end Sys2Proof.Config
end

