-- ==== Sys2Proof/Machine/Bytes.lean ====
section
/-! DEFINITION. Lists as arrays, bits of numbers, and byte strings. -/

namespace Sys2Proof.Machine

/-! ### Lists as arrays -/

/-- Element i of a list, or the default. -/
def nth {α : Type} (l : List α) (i : Nat) (d : α) : α := l.getD i d

/-- A number of n bits as a list of bits set. -/
def bitsOf (n v : Nat) : List Nat := (List.range n).filter (v.testBit ·)

/-- Whether bit i is set. -/
def bitAt (v i : Nat) : Bool := v.testBit i

/-- A number with bit i set or cleared. -/
def putBit (v i : Nat) (b : Bool) : Nat :=
  if b then (if v.testBit i then v else v + 2 ^ i) else (if v.testBit i then v - 2 ^ i else v)

/-- A Bool as a number. -/
def b2n (b : Bool) : Nat := if b then 1 else 0

/-! ### Bytes -/

/-- The n little-endian bytes of a number (R6). -/
def leBytes : Nat → Nat → List Byte
  | 0, _ => []
  | n + 1, v => BitVec.ofNat 8 v :: leBytes n (v / 256)

/-- The number that little-endian bytes spell. -/
def leNat : List Byte → Nat
  | [] => 0
  | b :: bs => b.toNat + 256 * leNat bs

/-- The number in bytes a to a + n − 1 of a byte string; missing bytes read 0. -/
def leAt (l : List Byte) (a n : Nat) : Nat := leNat ((l.drop a).take n)

/-- The number that big-endian bytes spell (R7). -/
def beNat (l : List Byte) : Nat := leNat l.reverse

/-- The number in big-endian bytes a to a + n − 1. -/
def beAt (l : List Byte) (a n : Nat) : Nat := beNat ((l.drop a).take n)

/-- A byte string of exactly n bytes: cut, or filled with zeros. -/
def padTo (n : Nat) (l : List Byte) : List Byte := (l ++ List.replicate n 0).take n

end Sys2Proof.Machine
end

