-- ==== Sys2Proof/Machine/Crypto.lean ====
section
/-! DEFINITION. SHAKE256 of FIPS 202 and the verification of a Falcon-1024 signature under the Falcon specification (R604 to R606). -/

namespace Sys2Proof.Machine

/-! ### SHAKE256 (FIPS 202) -/

/-- A state of 1600 bits as 25 words of 64 bits; the word of column x and row y stands at x + 5y. -/
abbrev Lanes := List (BitVec 64)

/-- The shift register behind the round constants, after t steps from 1: x^8 = x^6 + x^5 + x^4 + 1. -/
def rcReg : Nat → BitVec 8
  | 0 => 1
  | t + 1 => let r := rcReg t; (r <<< 1) ^^^ (if r.msb then 0x71 else 0)

/-- The constant that ι adds in round i: bit 2^j − 1 is the low bit of the register after 7i + j steps. -/
def iotaWord (i : Nat) : BitVec 64 :=
  BitVec.ofNat 64 ((List.range 7).map fun j => (rcReg (7 * i + j)).toNat % 2 * 2 ^ (2 ^ j - 1)).sum

/-- The walk of ρ and π over the words other than word 0: from column 1 of row 0, (x, y) goes to (y, 2x + 3y). -/
def walk : Nat → Nat × Nat
  | 0 => (1, 0)
  | t + 1 => let p := walk t; (p.2, (2 * p.1 + 3 * p.2) % 5)

def walkAt (t : Nat) : Nat := (walk t).1 + 5 * (walk t).2

/-- ρ and π: the word at step t of the walk is rotated by (t + 1)(t + 2)/2 and goes to step t + 1. -/
def rhoPi (a : Lanes) : Lanes :=
  (List.range 24).foldl (fun b t => b.set (walkAt (t + 1)) ((nth a (walkAt t) 0).rotateLeft ((t + 1) * (t + 2) / 2 % 64))) a

/-- θ: each word takes the parities of the columns before and after its own, the latter rotated by 1. -/
def theta (a : Lanes) : Lanes :=
  let par (x : Nat) : BitVec 64 := ((a.zipIdx.filter fun w => w.2 % 5 = x % 5).map (·.1)).foldl (· ^^^ ·) 0
  a.mapIdx fun i w => w ^^^ par (i + 4) ^^^ (par (i + 1)).rotateLeft 1

/-- χ: each word takes the next word of its row, complemented, and the one after. -/
def chi (a : Lanes) : Lanes :=
  let right (i k : Nat) : BitVec 64 := nth a (i / 5 * 5 + (i + k) % 5) 0
  a.mapIdx fun i w => w ^^^ (~~~ (right i 1) &&& right i 2)

/-- The permutation: 24 rounds of θ, ρ, π, χ and ι. -/
def keccakF (a : Lanes) : Lanes :=
  (List.range 24).foldl (fun s i => (chi (rhoPi (theta s))).modify 0 (· ^^^ iotaWord i)) a

/-- The 64-bit words of little-endian bytes. -/
def words64 (n : Nat) (l : List Byte) : Lanes := (List.range n).map fun i => BitVec.ofNat 64 (leAt l (8 * i) 8)

/-- Absorbs one block of 136 bytes. -/
def absorb (a : Lanes) (blk : List Byte) : Lanes :=
  keccakF (List.zipWith (· ^^^ ·) a (words64 17 blk ++ List.replicate 8 0))

/-- Absorbs n blocks. -/
def absorbAll : Nat → Lanes → List Byte → Lanes
  | 0, a, _ => a
  | n + 1, a, l => absorbAll n (absorb a (l.take 136)) (l.drop 136)

/-- The rate bytes of the state. -/
def rateBytes (a : Lanes) : List Byte := ((a.take 17).map fun w => leBytes 8 w.toNat).flatten

/-- Squeezes n blocks. -/
def squeeze : Nat → Lanes → List Byte
  | 0, _ => []
  | n + 1, a => rateBytes a ++ squeeze n (keccakF a)

/-- The padding of SHAKE256: bits 1111 and pad10*1. -/
def shakePad (l : List Byte) : List Byte :=
  let k := 135 - l.length % 136
  if k = 0 then l ++ [0x9F] else l ++ [0x1F] ++ List.replicate (k - 1) 0 ++ [0x80]

/-- SHAKE256 of a byte string, n bytes of output. -/
def shake256 (l : List Byte) (n : Nat) : List Byte :=
  let p := shakePad l
  (squeeze ((n + 135) / 136) (absorbAll (p.length / 136) (List.replicate 25 0) p)).take n

/-- A digest (R605). -/
def digest (l : List Byte) : List Byte := shake256 l 64

/-! ### AES-GMAC (FIPS 197, NIST SP 800-38D) -/

/-- x times a byte modulo x^8 + x^4 + x^3 + x + 1. -/
def xtime (b : Byte) : Byte := (b <<< 1) ^^^ (if b.msb then 0x1B else 0)

/-- The product of two bytes, over the n bits of the second from its lowest on. -/
def mulByte : Nat → Byte → Byte → Byte
  | 0, _, _ => 0
  | n + 1, a, b => (if b.getLsbD 0 then a else 0) ^^^ mulByte n (xtime a) (b >>> 1)

def mulGf (a b : Byte) : Byte := mulByte 8 a b

/-- The inverse of a byte, 0 for 0: its power 254, as the product of its powers 2, 4, …, 128. -/
def invGf (a : Byte) : Byte :=
  ((List.range 7).foldl (fun (x : Byte × Byte) _ => let q := mulGf x.1 x.1; (q, mulGf x.2 q)) (a, (1 : Byte))).2

/-- SubBytes. -/
def sbox (a : Byte) : Byte :=
  let b := invGf a
  b ^^^ b.rotateLeft 1 ^^^ b.rotateLeft 2 ^^^ b.rotateLeft 3 ^^^ b.rotateLeft 4 ^^^ 0x63

/-- The sum of two byte strings. -/
def xorBytes (a b : List Byte) : List Byte := List.zipWith (· ^^^ ·) a b

/-- The next word of a key schedule whose key has nk words; the words so far, newest first. -/
def nextKeyWord (nk : Nat) (ws : List (List Byte)) : List Byte :=
  let i := ws.length
  let t := nth ws 0 []
  let rcon : Byte := (List.range (i / nk - 1)).foldl (fun r _ => xtime r) 1
  let u :=
    if i % nk = 0 then xorBytes ((t.drop 1 ++ t.take 1).map sbox) [rcon, 0, 0, 0]
    else if 6 < nk && i % nk = 4 then t.map sbox
    else t
  xorBytes (nth ws (nk - 1) []) u

/-- The round keys of an AES key of 16 or 32 bytes. -/
def roundKeys (key : List Byte) : List (List Byte) :=
  let nk := key.length / 4
  let w0 := ((List.range nk).map fun i => (key.drop (4 * i)).take 4).reverse
  let ws := ((List.range (3 * nk + 28)).foldl (fun ws _ => nextKeyWord nk ws :: ws) w0).reverse
  (List.range (nk + 7)).map fun r => ((ws.drop (4 * r)).take 4).flatten

/-- ShiftRows, of a block by columns. -/
def shiftRows (b : List Byte) : List Byte := (List.range 16).map fun i => nth b ((i + 4 * (i % 4)) % 16) 0

/-- MixColumns. -/
def mixColumns (b : List Byte) : List Byte :=
  (List.range 16).map fun i =>
    let x (k : Nat) : Byte := nth b (i / 4 * 4 + (i + k) % 4) 0
    xtime (x 0) ^^^ xtime (x 1) ^^^ x 1 ^^^ x 2 ^^^ x 3

/-- One AES block encrypted. -/
def aesBlock (key b : List Byte) : List Byte := match roundKeys key with
  | [] => b
  | k0 :: ks =>
    let mid := ks.dropLast.foldl (fun x k => xorBytes (mixColumns (shiftRows (x.map sbox))) k) (xorBytes b k0)
    xorBytes (shiftRows (mid.map sbox)) (nth ks (ks.length - 1) [])

/-- A block of 16 bytes as a number whose most significant bit is bit 0 of the block. -/
def blockBits (l : List Byte) : BitVec 128 := BitVec.ofNat 128 (beAt (padTo 16 l) 0 16)

/-- The product of two blocks, over the bits of the first from its most significant one on. -/
def mulBlock : Nat → BitVec 128 → BitVec 128 → BitVec 128
  | 0, _, _ => 0
  | n + 1, x, v =>
    (if x.msb then v else 0) ^^^ mulBlock n (x <<< 1) ((v >>> 1) ^^^ (if v.getLsbD 0 then BitVec.ofNat 128 (0xE1 * 2 ^ 120) else 0))

/-- The hash of n blocks of a byte string. -/
def ghash (h : BitVec 128) : Nat → BitVec 128 → List Byte → BitVec 128
  | 0, y, _ => y
  | n + 1, y, l => ghash h n (mulBlock 128 (y ^^^ blockBits (l.take 16)) h) (l.drop 16)

/-- AES-GMAC of octets by algorithm (1 AES-GMAC-128, 2 AES-GMAC-256), key and initialization vector of 96 bits: 16 octets. -/
def gmac (alg : Nat) (key iv body : List Byte) : List Byte :=
  let k := padTo (16 * alg) key
  let h := blockBits (aesBlock k (List.replicate 16 0))
  let y := ghash h ((body.length + 15) / 16) 0 body
  let t := mulBlock 128 (y ^^^ BitVec.ofNat 128 (8 * body.length * 2 ^ 64)) h
  let e := blockBits (aesBlock k (padTo 12 iv ++ [0, 0, 0, 1]))
  (leBytes 16 (t ^^^ e).toNat).reverse

/-! ### Falcon-1024 verification -/

abbrev FQ : Nat := 12289
abbrev FN : Nat := 1024

/-- The bits of bytes, most significant first. -/
def bitsMsb (l : List Byte) : List Bool := (l.map fun b => (List.range 8).map fun i => b.getMsbD i).flatten

/-- The number that bits spell, most significant first. -/
def natMsb (l : List Bool) : Nat := l.foldl (fun a b => 2 * a + b2n b) 0

/-- Coefficients of k bits each. -/
def coefs (k : Nat) : Nat → List Bool → List Nat
  | 0, _ => []
  | n + 1, l => natMsb (l.take k) :: coefs k n (l.drop k)

/-- The public polynomial of an encoded key: header byte 16#0A and 1024 coefficients of 14 bits below q. -/
def falconKey (key : List Byte) : Option (List Nat) :=
  let h := coefs 14 FN (bitsMsb (key.drop 1))
  if key.length = 1793 && nth key 0 0 = 0x0A && h.all (· < FQ) then some h else none

/-- Hash to point: 16-bit words below 5q are reduced modulo q until there are 1024. -/
def hashToPoint (m : List Byte) : List Nat :=
  let l := shake256 m (2 * 4 * FN)
  let w := (List.range (4 * FN)).map fun i => beAt l (2 * i) 2
  ((w.filter (· < 5 * FQ)).map (· % FQ)).take FN

/-- The unary part of a compressed coefficient: its length and the bits after it. -/
def unary : List Bool → Nat → Option (Nat × List Bool)
  | [], _ => none
  | true :: l, n => some (n, l)
  | false :: l, n => if n = 94 then none else unary l (n + 1)

/-- Decompresses n coefficients: a sign, 7 low bits and a unary high part; no minus zero; the rest must be 0. -/
def decompress : Nat → List Bool → Option (List Int)
  | 0, l => if l.any id then none else some []
  | n + 1, l =>
    if l.length < 9 then none
    else match unary (l.drop 8) 0 with
      | none => none
      | some (k, r) =>
        let v := natMsb ((l.drop 1).take 7) + 128 * k
        let neg := nth l 0 false
        if (v = 0 && neg) || 2047 < v then none
        else match decompress n r with
          | none => none
          | some t => some ((if neg then -(v : Int) else (v : Int)) :: t)

/-- x times a polynomial modulo x^1024 + 1, over the integers. -/
def mulX (l : List Int) : List Int := match l.getLast? with
  | none => []
  | some a => -a :: l.dropLast

/-- The product of two polynomials modulo x^1024 + 1. -/
def mulPoly : List Nat → List Int → List Int → List Int
  | [], _, acc => acc
  | a :: as, b, acc => mulPoly as (mulX b) (List.zipWith (fun x y => x + a * y) acc b)

/-- The representative of least magnitude modulo q. -/
def centre (x : Int) : Int := let r := x % (FQ : Int); if 2 * r > (FQ : Int) then r - (FQ : Int) else r

/-- The squared length of a vector. -/
def sqNorm (l : List Int) : Int := l.foldl (fun a x => a + x * x) 0

/-- Whether a Falcon-1024 signature (header 16#3A, 40 bytes of salt, compressed s2) verifies against a message. -/
def falconVerify (key msg sig : List Byte) : Bool :=
  match falconKey key, decompress FN (bitsMsb (sig.drop 41)) with
  | some h, some s2 =>
    let c := hashToPoint ((sig.drop 1).take 40 ++ msg)
    let p := mulPoly h s2 (List.replicate FN 0)
    let s1 := List.zipWith (fun (a : Nat) (b : Int) => centre ((a : Int) - b)) c p
    nth sig 0 0 = 0x3A && decide (42 ≤ sig.length) && decide (c.length = FN) && decide (sqNorm s1 + sqNorm s2 ≤ 70265242)
  | _, _ => false

/-- The ASCII bytes of a tag. -/
def tagBytes (t : String) : List Byte := t.toList.map fun c => BitVec.ofNat 8 c.toNat

/-- Whether a signature field of 1280 bytes with its stated length passes for an object (R605, R606). -/
def signatureOk (key : List Byte) (tag : String) (d : List Byte) (len : Nat) (field : List Byte) : Bool :=
  decide (1 ≤ len) && decide (len ≤ 1280) && (field.drop len).all (· = 0) && falconVerify key (tagBytes tag ++ d) (field.take len)

/-- The key identifier of a public key (R604). -/
def keyId (key : List Byte) : List Byte := (digest key).take 8

end Sys2Proof.Machine
end

