-- ==== Sys2Proof/Machine/Otp.lean ====
section
/-! DEFINITION. What OTP holds from manufacture: the trim record (R105) and the device certificate (R607), with the fields that the layouts fix. -/

namespace Sys2Proof.Machine

/-- Bytes a to a + n − 1 of a record of the device. -/
def otpField (l : List Byte) (a n : Nat) : List Byte := padTo n (l.drop a)

/-- The trim record (R105): identifier, version, revision digit, serial number, length and reserved bytes are the layout's; the
values measured at trim, the signature and its length are the device's own. The bytes after the stated length are 0. -/
def trimRecord : List Byte :=
  let t := Config.trim
  let n := leAt (otpField t 0x33C 2) 0 2
  leBytes 4 0x4D495254 ++ leBytes 2 1 ++ leBytes 1 Config.revDigit.toNat ++ leBytes 1 0 ++ leBytes 8 Config.serial.toNat
    ++ otpField t 0x10 6 ++ leBytes 2 0 ++ leBytes 4 2112 ++ leBytes 4 0 ++ otpField t 0x20 4 ++ List.replicate 0x1C 0
    ++ otpField t 0x40 (0x30C - 0x40) ++ List.replicate 0x30 0 ++ otpField t 0x33C 2 ++ leBytes 2 0
    ++ padTo 1280 ((otpField t 0x340 1280).take n)

/-- The device certificate (R607): identifier, version, length, serial number, revision, key identifiers and reserved bytes are
the layout's; issue time, public key and signature are the device's own. -/
def certRecord : List Byte :=
  let c := Config.cert
  leBytes 4 0x54524346 ++ leBytes 2 1 ++ leBytes 2 3136 ++ leBytes 8 Config.serial.toNat ++ otpField c 16 6
    ++ leBytes 1 Config.revMask.toNat ++ leBytes 1 Config.revDigit.toNat ++ padTo 8 (keyId Config.rootKey)
    ++ padTo 8 (keyId (otpField c 48 1793)) ++ List.replicate 8 0 ++ otpField c 48 1793 ++ List.replicate 7 0
    ++ otpField c 1848 2 ++ List.replicate 6 0 ++ otpField c 1856 1280

end Sys2Proof.Machine
end

