-- ==== Sys2Proof/Machine/RegTypes.lean ====
section
/-! DEFINITION. What a register description is: its place, its reset domain and its fields with their access codes, reset values and legal ranges. -/

namespace Sys2Proof.Machine

/-- Access codes (R9). -/
inductive Acc where
  | ro | rw | w1c | w1s | wo | rc | rwl
deriving DecidableEq, Repr

/-- Reset domains: what returns a register to its reset value. -/
inductive Dom where
  | por | sys | blk
deriving DecidableEq, Repr

/-- The legal values of a field and what an illegal value clamps to (R32, R33). Fields whose range depends on
another field (R34) are `any` here and are clamped in `Machine/Registers.lean`. -/
inductive Legal where
  /-- every value is legal -/
  | any
  /-- `lo` to `hi`, unsigned -/
  | range (lo hi : Nat)
  /-- `lo` to `hi`, two's complement -/
  | srange (lo hi : Int)
  /-- each interval `(a, b, v)` is replaced by `v` -/
  | subst (l : List (Nat × Nat × Nat))
  /-- binary32 from `lo` to `hi`, NaN replaced by `nan` -/
  | f32 (lo hi nan : Rat)
  /-- any binary32 but NaN, which is replaced by the value -/
  | nan (v : Rat)
  /-- odd values from 1, even values to the next lower odd value (DCH_BLEN) -/
  | odd
deriving DecidableEq, Repr

/-- One field of a register. -/
structure RField where
  hi : Nat
  lo : Nat
  acc : Acc
  reset : Nat
  legal : Legal
deriving DecidableEq, Repr

/-- One register, or one array of registers: `dims` holds the stride and the count of each index. -/
structure Reg where
  base : Nat
  dims : List (Nat × Nat)
  dom : Dom
  fields : List RField
deriving DecidableEq, Repr

/-- The place of a field: the register's base, the strides of its indexes, and its bits. -/
structure Fld where
  base : Nat
  strides : List Nat
  hi : Nat
  lo : Nat
deriving DecidableEq, Repr

/-- The BAR0 offset of the field's register at the given indexes. -/
def fldOff (f : Fld) (ix : List Nat) : Nat := f.base + (List.zipWith (· * ·) f.strides ix).sum

/-- Bits `hi` to `lo` of a word, as a number. -/
def bits (w : Word) (hi lo : Nat) : Nat := w.toNat / 2 ^ lo % 2 ^ (hi + 1 - lo)

/-- A word with bits `hi` to `lo` replaced by the low bits of `v`. -/
def setBits (w : Word) (hi lo v : Nat) : Word :=
  let m := 2 ^ (hi + 1 - lo)
  BitVec.ofNat 32 (w.toNat - (w.toNat / 2 ^ lo % m) * 2 ^ lo + v % m * 2 ^ lo)

/-- The mask of a field's bits. -/
def maskOf (hi lo : Nat) : Word := BitVec.ofNat 32 ((2 ^ (hi + 1 - lo) - 1) * 2 ^ lo)

/-- Two's complement reading of the low `w` bits of a number. -/
def sgn (w v : Nat) : Int := if v % 2 ^ w < 2 ^ (w - 1) then (v % 2 ^ w : Int) else (v % 2 ^ w : Int) - 2 ^ w

/-- The low `w` bits of an integer. -/
def wrap (w : Nat) (i : Int) : Nat := (i % (2 ^ w : Int)).toNat

end Sys2Proof.Machine
end

