-- ==== Sys2Proof/Machine/Fields.lean ====
section
/-! DEFINITION. The names of the registers and of their fields: where each lies in BAR0 (R24, R25). A name is the register, an underscore and the field. -/

namespace Sys2Proof.Machine

abbrev GEN_ID : Fld := ⟨0x100, [], 31, 0⟩
abbrev GEN_ID_vendor : Fld := ⟨0x100, [], 31, 16⟩
abbrev GEN_ID_device : Fld := ⟨0x100, [], 15, 0⟩
abbrev GEN_REV : Fld := ⟨0x104, [], 31, 0⟩
abbrev GEN_REV_ucode : Fld := ⟨0x104, [], 31, 16⟩
abbrev GEN_REV_mask : Fld := ⟨0x104, [], 15, 8⟩
abbrev GEN_REV_digit : Fld := ⟨0x104, [], 3, 0⟩
abbrev GEN_SERIAL_LO : Fld := ⟨0x108, [], 31, 0⟩
abbrev GEN_SERIAL_HI : Fld := ⟨0x10C, [], 31, 0⟩
abbrev GEN_STATE : Fld := ⟨0x110, [], 31, 0⟩
abbrev GEN_STATE_member : Fld := ⟨0x110, [], 12, 10⟩
abbrev GEN_STATE_master : Fld := ⟨0x110, [], 9, 9⟩
abbrev GEN_STATE_stacked : Fld := ⟨0x110, [], 8, 8⟩
abbrev GEN_STATE_prev : Fld := ⟨0x110, [], 6, 4⟩
abbrev GEN_STATE_state : Fld := ⟨0x110, [], 2, 0⟩
abbrev GEN_CLAMPCNT : Fld := ⟨0x120, [], 31, 0⟩
abbrev GEN_CLAMPLAST : Fld := ⟨0x124, [], 31, 0⟩
abbrev GEN_CLAMPLAST_kind : Fld := ⟨0x124, [], 31, 31⟩
abbrev GEN_CLAMPLAST_ring : Fld := ⟨0x124, [], 30, 24⟩
abbrev GEN_CLAMPLAST_offset : Fld := ⟨0x124, [], 23, 0⟩
abbrev GEN_SCRATCH : Fld := ⟨0x128, [], 31, 0⟩
abbrev MER_SRC : Fld := ⟨0x20100, [], 31, 0⟩
abbrev MER_SRC_revert : Fld := ⟨0x20100, [], 21, 21⟩
abbrev MER_SRC_mode : Fld := ⟨0x20100, [], 20, 20⟩
abbrev MER_SRC_pri4 : Fld := ⟨0x20100, [], 19, 16⟩
abbrev MER_SRC_pri3 : Fld := ⟨0x20100, [], 15, 12⟩
abbrev MER_SRC_pri2 : Fld := ⟨0x20100, [], 11, 8⟩
abbrev MER_SRC_pri1 : Fld := ⟨0x20100, [], 7, 4⟩
abbrev MER_SRC_pri0 : Fld := ⟨0x20100, [], 3, 0⟩
abbrev MER_QUAL : Fld := ⟨0x20104, [], 31, 0⟩
abbrev MER_QUAL_wtr : Fld := ⟨0x20104, [], 23, 8⟩
abbrev MER_QUAL_qual : Fld := ⟨0x20104, [], 7, 0⟩
abbrev MER_SERVO : Fld := ⟨0x20108, [], 31, 0⟩
abbrev MER_SERVO_lockthr : Fld := ⟨0x20108, [], 31, 16⟩
abbrev MER_SERVO_lockcnt : Fld := ⟨0x20108, [], 15, 8⟩
abbrev MER_SERVO_stepnoon : Fld := ⟨0x20108, [], 3, 3⟩
abbrev MER_SERVO_bw : Fld := ⟨0x20108, [], 2, 0⟩
abbrev MER_STEP : Fld := ⟨0x2010C, [], 31, 0⟩
abbrev MER_STEP_slew : Fld := ⟨0x2010C, [], 31, 16⟩
abbrev MER_STEP_stepthr : Fld := ⟨0x2010C, [], 15, 0⟩
abbrev MER_HOLD : Fld := ⟨0x20110, [], 31, 0⟩
abbrev MER_HOLD_hcto : Fld := ⟨0x20110, [], 31, 24⟩
abbrev MER_HOLD_limit : Fld := ⟨0x20110, [], 16, 0⟩
abbrev MER_STAT : Fld := ⟨0x20114, [], 31, 0⟩
abbrev MER_STAT_qualmask : Fld := ⟨0x20114, [], 27, 16⟩
abbrev MER_STAT_active : Fld := ⟨0x20114, [], 5, 2⟩
abbrev MER_STAT_tq : Fld := ⟨0x20114, [], 1, 0⟩
abbrev MER_OFFS : Fld := ⟨0x20118, [], 31, 0⟩
abbrev MER_FADJ : Fld := ⟨0x2011C, [], 31, 0⟩
abbrev MER_HFREQ : Fld := ⟨0x20120, [], 31, 0⟩
abbrev MER_HPHASE : Fld := ⟨0x20124, [], 31, 0⟩
abbrev MER_UTC : Fld := ⟨0x20128, [], 31, 0⟩
abbrev MER_UTC_ptp : Fld := ⟨0x20128, [], 16, 16⟩
abbrev MER_UTC_year : Fld := ⟨0x20128, [], 15, 8⟩
abbrev MER_UTC_offset : Fld := ⟨0x20128, [], 7, 0⟩
abbrev MER_NOW_SLO : Fld := ⟨0x20130, [], 31, 0⟩
abbrev MER_NOW_HI : Fld := ⟨0x20134, [], 31, 0⟩
abbrev MER_NOW_HI_frac : Fld := ⟨0x20134, [], 31, 16⟩
abbrev MER_NOW_HI_sec : Fld := ⟨0x20134, [], 15, 0⟩
abbrev MER_NOW_NS : Fld := ⟨0x20138, [], 31, 0⟩
abbrev MER_TSET_LO : Fld := ⟨0x20140, [], 31, 0⟩
abbrev MER_TSET_HI : Fld := ⟨0x20144, [], 31, 0⟩
abbrev MER_TSET_HI_sec : Fld := ⟨0x20144, [], 15, 0⟩
abbrev MER_DLY : Fld := ⟨0x20150, [4], 31, 0⟩
abbrev MER_DLY_dly : Fld := ⟨0x20150, [4], 23, 0⟩
abbrev MER_PORT : Fld := ⟨0x20160, [], 31, 0⟩
abbrev MER_PORT_irigen : Fld := ⟨0x20160, [], 17, 17⟩
abbrev MER_PORT_ppsen : Fld := ⟨0x20160, [], 16, 16⟩
abbrev MER_PORT_ppsw : Fld := ⟨0x20160, [], 8, 0⟩
abbrev MER_SAOWN : Fld := ⟨0x20200, [4], 31, 0⟩
abbrev MER_SASTATE : Fld := ⟨0x20220, [4], 31, 0⟩
abbrev AFE_CCFG : Fld := ⟨0x30100, [4], 31, 0⟩
abbrev AFE_CCFG_hold : Fld := ⟨0x30100, [4], 31, 24⟩
abbrev AFE_CCFG_dnthr : Fld := ⟨0x30100, [4], 23, 17⟩
abbrev AFE_CCFG_upthr : Fld := ⟨0x30100, [4], 16, 10⟩
abbrev AFE_CCFG_fref : Fld := ⟨0x30100, [4], 9, 9⟩
abbrev AFE_CCFG_leak : Fld := ⟨0x30100, [4], 8, 4⟩
abbrev AFE_CCFG_rng : Fld := ⟨0x30100, [4], 3, 2⟩
abbrev AFE_CCFG_mode : Fld := ⟨0x30100, [4], 0, 0⟩
abbrev AFE_RSTAT : Fld := ⟨0x30140, [], 31, 0⟩
abbrev AFE_RSTAT_wb : Fld := ⟨0x30140, [], 31, 16⟩
abbrev AFE_RSTAT_main : Fld := ⟨0x30140, [], 15, 0⟩
abbrev AFE_OVL : Fld := ⟨0x30144, [], 31, 0⟩
abbrev AFE_OVL_lg : Fld := ⟨0x30144, [], 31, 16⟩
abbrev AFE_OVL_hg : Fld := ⟨0x30144, [], 15, 0⟩
abbrev AFE_OVLV : Fld := ⟨0x30148, [], 31, 0⟩
abbrev AFE_OVLV_cv : Fld := ⟨0x30148, [], 7, 0⟩
abbrev AFE_INJ : Fld := ⟨0x30150, [], 31, 0⟩
abbrev AFE_INJ_en : Fld := ⟨0x30150, [], 31, 31⟩
abbrev AFE_INJ_pattern : Fld := ⟨0x30150, [], 9, 8⟩
abbrev AFE_INJ_chan : Fld := ⟨0x30150, [], 4, 0⟩
abbrev AFE_INJRES_HG : Fld := ⟨0x30154, [], 31, 0⟩
abbrev AFE_INJRES_LG : Fld := ⟨0x30158, [], 31, 0⟩
abbrev AFE_INJCNT : Fld := ⟨0x3015C, [], 31, 0⟩
abbrev AFE_INJCNT_count : Fld := ⟨0x3015C, [], 15, 0⟩
abbrev AFE_OVLCNT : Fld := ⟨0x30200, [4], 31, 0⟩
abbrev AFE_OVLCNT_count : Fld := ⟨0x30200, [4], 15, 0⟩
abbrev AFE_WCFG : Fld := ⟨0x30300, [4], 31, 0⟩
abbrev AFE_WCFG_en : Fld := ⟨0x30300, [4], 31, 31⟩
abbrev AFE_WCFG_scale : Fld := ⟨0x30300, [4], 30, 30⟩
abbrev AFE_WCFG_hp : Fld := ⟨0x30300, [4], 29, 28⟩
abbrev AFE_WCFG_hyst : Fld := ⟨0x30300, [4], 27, 26⟩
abbrev AFE_WCFG_thr : Fld := ⟨0x30300, [4], 7, 0⟩
abbrev AFE_WTS_0 : Fld := ⟨0x30400, [16], 31, 0⟩
abbrev AFE_WTS_1 : Fld := ⟨0x30404, [16], 31, 0⟩
abbrev AFE_WTS_2 : Fld := ⟨0x30408, [16], 31, 0⟩
abbrev AFE_WTS_2_frac : Fld := ⟨0x30408, [16], 31, 26⟩
abbrev AFE_WTS_2_pol : Fld := ⟨0x30408, [16], 16, 16⟩
abbrev AFE_WTS_2_sechi : Fld := ⟨0x30408, [16], 15, 0⟩
abbrev AFE_WTS_3 : Fld := ⟨0x3040C, [16], 31, 0⟩
abbrev AFE_TRIMDIG : Fld := ⟨0x30600, [4], 31, 0⟩
abbrev AFE_TRIM : Fld := ⟨0x31000, [4], 31, 0⟩
abbrev DCH_TRK : Fld := ⟨0x40100, [], 31, 0⟩
abbrev DCH_TRK_hto : Fld := ⟨0x40100, [], 21, 12⟩
abbrev DCH_TRK_fnom : Fld := ⟨0x40100, [], 11, 11⟩
abbrev DCH_TRK_rate : Fld := ⟨0x40100, [], 9, 8⟩
abbrev DCH_TRK_grp : Fld := ⟨0x40100, [], 6, 4⟩
abbrev DCH_TRK_src : Fld := ⟨0x40100, [], 1, 0⟩
abbrev DCH_TRKFREQ : Fld := ⟨0x40104, [], 31, 0⟩
abbrev DCH_TRKSTAT : Fld := ⟨0x40108, [], 31, 0⟩
abbrev DCH_SEQ : Fld := ⟨0x4010C, [], 31, 0⟩
abbrev DCH_SEQ_seq : Fld := ⟨0x4010C, [], 15, 0⟩
abbrev DCH_SYNCCFG : Fld := ⟨0x40110, [], 31, 0⟩
abbrev DCH_SYNCCFG_cmd : Fld := ⟨0x40110, [], 8, 8⟩
abbrev DCH_SYNCCFG_pinpol : Fld := ⟨0x40110, [], 1, 1⟩
abbrev DCH_SYNCCFG_pinen : Fld := ⟨0x40110, [], 0, 0⟩
abbrev DCH_LASTSYNC_SLO : Fld := ⟨0x40114, [], 31, 0⟩
abbrev DCH_LASTSYNC_HI : Fld := ⟨0x40118, [], 31, 0⟩
abbrev DCH_LASTSYNC_HI_cause : Fld := ⟨0x40118, [], 18, 16⟩
abbrev DCH_LASTSYNC_HI_sec : Fld := ⟨0x40118, [], 15, 0⟩
abbrev DCH_LASTSYNC_NS : Fld := ⟨0x4011C, [], 31, 0⟩
abbrev DCH_CH : Fld := ⟨0x40200, [4], 31, 0⟩
abbrev DCH_CH_run : Fld := ⟨0x40200, [4], 31, 31⟩
abbrev DCH_CH_fade : Fld := ⟨0x40200, [4], 22, 20⟩
abbrev DCH_CH_bank : Fld := ⟨0x40200, [4], 18, 16⟩
abbrev DCH_CH_scs40 : Fld := ⟨0x40200, [4], 9, 9⟩
abbrev DCH_CH_scs48 : Fld := ⟨0x40200, [4], 8, 8⟩
abbrev DCH_CH_src : Fld := ⟨0x40200, [4], 4, 0⟩
abbrev DCH_FADE : Fld := ⟨0x40300, [16, 4], 31, 0⟩
abbrev DCH_FADE_w : Fld := ⟨0x40300, [16, 4], 24, 16⟩
abbrev DCH_FADE_c : Fld := ⟨0x40300, [16, 4], 8, 0⟩
abbrev DCH_CLIPCNT : Fld := ⟨0x40480, [4], 31, 0⟩
abbrev DCH_CLIPCNT_count : Fld := ⟨0x40480, [4], 15, 0⟩
abbrev DCH_BLEN : Fld := ⟨0x40500, [8, 4], 31, 0⟩
abbrev DCH_BLEN_len : Fld := ⟨0x40500, [8, 4], 7, 0⟩
abbrev DCH_BDEF : Fld := ⟨0x40520, [], 31, 0⟩
abbrev DCH_BDEF_load : Fld := ⟨0x40520, [], 5, 0⟩
abbrev DCH_COEF : Fld := ⟨0x41000, [1024, 512, 4], 31, 0⟩
abbrev DCH_COEF_c : Fld := ⟨0x41000, [1024, 512, 4], 23, 0⟩
abbrev PHE_GCFG : Fld := ⟨0x50100, [4], 31, 0⟩
abbrev PHE_GCFG_en : Fld := ⟨0x50100, [4], 31, 31⟩
abbrev PHE_GCFG_tau : Fld := ⟨0x50100, [4], 15, 8⟩
abbrev PHE_GCFG_fref : Fld := ⟨0x50100, [4], 7, 7⟩
abbrev PHE_GCFG_fsrc : Fld := ⟨0x50100, [4], 6, 6⟩
abbrev PHE_GCFG_v0src : Fld := ⟨0x50100, [4], 5, 5⟩
abbrev PHE_GCFG_i0src : Fld := ⟨0x50100, [4], 4, 4⟩
abbrev PHE_GCFG_rot : Fld := ⟨0x50100, [4], 3, 3⟩
abbrev PHE_GCFG_ddc : Fld := ⟨0x50100, [4], 2, 2⟩
abbrev PHE_GCFG_filt : Fld := ⟨0x50100, [4], 1, 0⟩
abbrev PHE_GCHI : Fld := ⟨0x50120, [4], 31, 0⟩
abbrev PHE_GCHI_in : Fld := ⟨0x50120, [4], 28, 24⟩
abbrev PHE_GCHI_ic : Fld := ⟨0x50120, [4], 20, 16⟩
abbrev PHE_GCHI_ib : Fld := ⟨0x50120, [4], 12, 8⟩
abbrev PHE_GCHI_ia : Fld := ⟨0x50120, [4], 4, 0⟩
abbrev PHE_GCHV : Fld := ⟨0x50140, [4], 31, 0⟩
abbrev PHE_GCHV_vx : Fld := ⟨0x50140, [4], 28, 24⟩
abbrev PHE_GCHV_vc : Fld := ⟨0x50140, [4], 20, 16⟩
abbrev PHE_GCHV_vb : Fld := ⟨0x50140, [4], 12, 8⟩
abbrev PHE_GCHV_va : Fld := ⟨0x50140, [4], 4, 0⟩
abbrev PHE_GTHR : Fld := ⟨0x50160, [4], 31, 0⟩
abbrev PHE_GTHR_umin : Fld := ⟨0x50160, [4], 31, 16⟩
abbrev PHE_GTHR_imin : Fld := ⟨0x50160, [4], 15, 0⟩
abbrev PHE_GFCFG : Fld := ⟨0x50180, [4], 31, 0⟩
abbrev PHE_GFCFG_hto : Fld := ⟨0x50180, [4], 25, 16⟩
abbrev PHE_GFCFG_rocw : Fld := ⟨0x50180, [4], 4, 0⟩
abbrev PHE_HFREQ : Fld := ⟨0x501A0, [4], 31, 0⟩
abbrev PHE_GSTAT : Fld := ⟨0x501C0, [4], 31, 0⟩
abbrev PHE_GSTAT_fmeth : Fld := ⟨0x501C0, [4], 1, 0⟩
abbrev PHE_K0RE : Fld := ⟨0x50200, [8], 31, 0⟩
abbrev PHE_K0IM : Fld := ⟨0x50204, [8], 31, 0⟩
abbrev PHE_RGRP : Fld := ⟨0x50240, [4], 31, 0⟩
abbrev PHE_RGRP_en : Fld := ⟨0x50240, [4], 31, 31⟩
abbrev PHE_RGRP_src : Fld := ⟨0x50240, [4], 29, 28⟩
abbrev PHE_RGRP_stream : Fld := ⟨0x50240, [4], 27, 22⟩
abbrev PHE_RGRP_member : Fld := ⟨0x50240, [4], 20, 18⟩
abbrev PHE_RGRP_grp : Fld := ⟨0x50240, [4], 17, 15⟩
abbrev PHE_RGRP_dly : Fld := ⟨0x50240, [4], 7, 0⟩
abbrev PHE_RCFG : Fld := ⟨0x50260, [4], 31, 0⟩
abbrev PHE_RCFG_tau : Fld := ⟨0x50260, [4], 15, 8⟩
abbrev PHE_RCFG_fref : Fld := ⟨0x50260, [4], 7, 7⟩
abbrev PHE_RCFG_fsrc : Fld := ⟨0x50260, [4], 6, 6⟩
abbrev PHE_RCFG_v0src : Fld := ⟨0x50260, [4], 5, 5⟩
abbrev PHE_RCFG_i0src : Fld := ⟨0x50260, [4], 4, 4⟩
abbrev PHE_RCFG_rot : Fld := ⟨0x50260, [4], 3, 3⟩
abbrev PHE_RCFG_ddc : Fld := ⟨0x50260, [4], 2, 2⟩
abbrev PHE_RCFG_filt : Fld := ⟨0x50260, [4], 1, 0⟩
abbrev PHE_RTHR : Fld := ⟨0x50280, [4], 31, 0⟩
abbrev PHE_RTHR_umin : Fld := ⟨0x50280, [4], 31, 16⟩
abbrev PHE_RTHR_imin : Fld := ⟨0x50280, [4], 15, 0⟩
abbrev PHE_RSTAT : Fld := ⟨0x502A0, [4], 31, 0⟩
abbrev PHE_RSTAT_subst : Fld := ⟨0x502A0, [4], 1, 1⟩
abbrev PHE_RSTAT_stale : Fld := ⟨0x502A0, [4], 0, 0⟩
abbrev PHE_SEQ : Fld := ⟨0x502C0, [], 31, 0⟩
abbrev PHE_SEQ_seq : Fld := ⟨0x502C0, [], 15, 0⟩
abbrev PHE_QV : Fld := ⟨0x51000, [4], 31, 0⟩
abbrev PHE_QQ : Fld := ⟨0x52000, [4], 31, 0⟩
abbrev ELE_CFG : Fld := ⟨0x60100, [4], 31, 0⟩
abbrev ELE_CFG_vmask : Fld := ⟨0x60100, [4], 31, 24⟩
abbrev ELE_CFG_hstr : Fld := ⟨0x60100, [4], 23, 20⟩
abbrev ELE_CFG_keep : Fld := ⟨0x60100, [4], 19, 19⟩
abbrev ELE_CFG_opq : Fld := ⟨0x60100, [4], 17, 16⟩
abbrev ELE_CFG_type : Fld := ⟨0x60100, [4], 12, 8⟩
abbrev ELE_CFG_mode : Fld := ⟨0x60100, [4], 1, 0⟩
abbrev ELE_SRC : Fld := ⟨0x60500, [4], 31, 0⟩
abbrev ELE_SRC_cplx : Fld := ⟨0x60500, [4], 18, 18⟩
abbrev ELE_SRC_q : Fld := ⟨0x60500, [4], 17, 8⟩
abbrev ELE_SRC_opnd : Fld := ⟨0x60500, [4], 7, 4⟩
abbrev ELE_SRC_grp : Fld := ⟨0x60500, [4], 3, 0⟩
abbrev ELE_LNK : Fld := ⟨0x60900, [4], 31, 0⟩
abbrev ELE_LNK_ikind : Fld := ⟨0x60900, [4], 31, 30⟩
abbrev ELE_LNK_iidx : Fld := ⟨0x60900, [4], 29, 22⟩
abbrev ELE_LNK_bmode : Fld := ⟨0x60900, [4], 21, 20⟩
abbrev ELE_LNK_bslot : Fld := ⟨0x60900, [4], 19, 12⟩
abbrev ELE_LNK_dmode : Fld := ⟨0x60900, [4], 9, 8⟩
abbrev ELE_LNK_dslot : Fld := ⟨0x60900, [4], 7, 0⟩
abbrev ELE_STAT : Fld := ⟨0x60D00, [4], 31, 0⟩
abbrev ELE_STAT_qual : Fld := ⟨0x60D00, [4], 31, 24⟩
abbrev ELE_STAT_vstate : Fld := ⟨0x60D00, [4], 23, 22⟩
abbrev ELE_STAT_stale : Fld := ⟨0x60D00, [4], 21, 21⟩
abbrev ELE_STAT_test : Fld := ⟨0x60D00, [4], 20, 20⟩
abbrev ELE_STAT_pstart : Fld := ⟨0x60D00, [4], 19, 16⟩
abbrev ELE_STAT_poper : Fld := ⟨0x60D00, [4], 15, 12⟩
abbrev ELE_STAT_x2 : Fld := ⟨0x60D00, [4], 3, 3⟩
abbrev ELE_STAT_x1 : Fld := ⟨0x60D00, [4], 2, 2⟩
abbrev ELE_STAT_operate : Fld := ⟨0x60D00, [4], 1, 1⟩
abbrev ELE_STAT_start : Fld := ⟨0x60D00, [4], 0, 0⟩
abbrev ELE_ACC : Fld := ⟨0x61100, [4], 31, 0⟩
abbrev ELE_START : Fld := ⟨0x61500, [4], 31, 0⟩
abbrev ELE_OPER : Fld := ⟨0x61520, [4], 31, 0⟩
abbrev ELE_SEQ : Fld := ⟨0x61540, [], 31, 0⟩
abbrev ELE_SEQ_seq : Fld := ⟨0x61540, [], 15, 0⟩
abbrev ELE_EVT : Fld := ⟨0x61544, [], 31, 0⟩
abbrev ELE_EVT_max : Fld := ⟨0x61544, [], 31, 16⟩
abbrev ELE_EVT_last : Fld := ⟨0x61544, [], 15, 0⟩
abbrev ELE_PIOCCNT : Fld := ⟨0x61548, [], 31, 0⟩
abbrev ELE_PIOCCNT_count : Fld := ⟨0x61548, [], 5, 0⟩
abbrev ELE_SET : Fld := ⟨0x64000, [64, 4], 31, 0⟩
abbrev ELE_UCRV : Fld := ⟨0x68000, [256, 4], 31, 0⟩
abbrev TMX_ROW : Fld := ⟨0x70100, [4], 31, 0⟩
abbrev TMX_ROW_en : Fld := ⟨0x70100, [4], 31, 31⟩
abbrev TMX_ROW_ctl : Fld := ⟨0x70100, [4], 30, 28⟩
abbrev TMX_ROW_stop : Fld := ⟨0x70100, [4], 27, 26⟩
abbrev TMX_ROW_tblk : Fld := ⟨0x70100, [4], 25, 25⟩
abbrev TMX_ROW_tpol : Fld := ⟨0x70100, [4], 24, 24⟩
abbrev TMX_ROW_inforce : Fld := ⟨0x70100, [4], 19, 19⟩
abbrev TMX_ROW_sealed : Fld := ⟨0x70100, [4], 18, 18⟩
abbrev TMX_ROW_drive : Fld := ⟨0x70100, [4], 17, 17⟩
abbrev TMX_ROW_casc : Fld := ⟨0x70100, [4], 16, 16⟩
abbrev TMX_ROW_cls : Fld := ⟨0x70100, [4], 8, 8⟩
abbrev TMX_BLK : Fld := ⟨0x70200, [8, 4], 31, 0⟩
abbrev TMX_BLK_inv1 : Fld := ⟨0x70200, [8, 4], 31, 31⟩
abbrev TMX_BLK_in1 : Fld := ⟨0x70200, [8, 4], 24, 16⟩
abbrev TMX_BLK_inv0 : Fld := ⟨0x70200, [8, 4], 15, 15⟩
abbrev TMX_BLK_in0 : Fld := ⟨0x70200, [8, 4], 8, 0⟩
abbrev TMX_DST : Fld := ⟨0x70400, [4], 31, 0⟩
abbrev TMX_DST_rec : Fld := ⟨0x70400, [4], 27, 24⟩
abbrev TMX_DST_cbit : Fld := ⟨0x70400, [4], 20, 16⟩
abbrev TMX_DST_do : Fld := ⟨0x70400, [4], 15, 0⟩
abbrev TMX_DST2 : Fld := ⟨0x70500, [4], 31, 0⟩
abbrev TMX_DST2_kmask : Fld := ⟨0x70500, [4], 31, 16⟩
abbrev TMX_DST2_tpen : Fld := ⟨0x70500, [4], 8, 8⟩
abbrev TMX_DST2_tpbit : Fld := ⟨0x70500, [4], 7, 4⟩
abbrev TMX_DST2_tpports : Fld := ⟨0x70500, [4], 3, 0⟩
abbrev TMX_SEAL : Fld := ⟨0x70600, [4], 31, 0⟩
abbrev TMX_SEAL_rst : Fld := ⟨0x70600, [4], 31, 30⟩
abbrev TMX_SEAL_cslot : Fld := ⟨0x70600, [4], 29, 22⟩
abbrev TMX_SEAL_cbdi : Fld := ⟨0x70600, [4], 21, 17⟩
abbrev TMX_SEAL_cbpol : Fld := ⟨0x70600, [4], 16, 16⟩
abbrev TMX_SEAL_tmax : Fld := ⟨0x70600, [4], 15, 8⟩
abbrev TMX_SEAL_tmin : Fld := ⟨0x70600, [4], 7, 0⟩
abbrev TMX_COMMIT : Fld := ⟨0x70700, [], 31, 0⟩
abbrev TMX_COMMIT_row : Fld := ⟨0x70700, [], 5, 0⟩
abbrev TMX_OUT : Fld := ⟨0x70710, [4], 31, 0⟩
abbrev TMX_SEALST : Fld := ⟨0x70718, [4], 31, 0⟩
abbrev TMX_REVT : Fld := ⟨0x70720, [4], 31, 0⟩
abbrev TMX_REVTCNT : Fld := ⟨0x70900, [4], 31, 0⟩
abbrev TMX_REVTCNT_count : Fld := ⟨0x70900, [4], 15, 0⟩
abbrev TMX_SLACK : Fld := ⟨0x70730, [], 31, 0⟩
abbrev TMX_SLACK_bound : Fld := ⟨0x70730, [], 31, 16⟩
abbrev TMX_SLACK_slack : Fld := ⟨0x70730, [], 15, 0⟩
abbrev TMX_SLACKMIN : Fld := ⟨0x70734, [], 31, 0⟩
abbrev TMX_SLACKMIN_min : Fld := ⟨0x70734, [], 15, 0⟩
abbrev TMX_SLACKLOW : Fld := ⟨0x70738, [], 31, 0⟩
abbrev TMX_PSLACK : Fld := ⟨0x7073C, [], 31, 0⟩
abbrev TMX_PSLACK_min : Fld := ⟨0x7073C, [], 31, 16⟩
abbrev TMX_PSLACK_last : Fld := ⟨0x7073C, [], 15, 0⟩
abbrev TMX_TCS : Fld := ⟨0x70800, [4], 31, 0⟩
abbrev TMX_TCS_en : Fld := ⟨0x70800, [4], 31, 31⟩
abbrev TMX_TCS_aux : Fld := ⟨0x70800, [4], 30, 30⟩
abbrev TMX_TCS_in : Fld := ⟨0x70800, [4], 29, 28⟩
abbrev TMX_TCS_ncnt : Fld := ⟨0x70800, [4], 27, 24⟩
abbrev TMX_TCS_vhi : Fld := ⟨0x70800, [4], 21, 12⟩
abbrev TMX_TCS_vlo : Fld := ⟨0x70800, [4], 11, 2⟩
abbrev TMX_TCS_onchk : Fld := ⟨0x70800, [4], 1, 1⟩
abbrev TMX_TCSST : Fld := ⟨0x70840, [], 31, 0⟩
abbrev TMX_TCSST_on : Fld := ⟨0x70840, [], 31, 16⟩
abbrev TMX_TCSST_off : Fld := ⟨0x70840, [], 15, 0⟩
abbrev TMX_SEL : Fld := ⟨0x71000, [64, 4], 31, 0⟩
abbrev BCP_CFG : Fld := ⟨0x80100, [4], 31, 0⟩
abbrev BCP_CFG_kover : Fld := ⟨0x80100, [4], 27, 24⟩
abbrev BCP_CFG_hstr : Fld := ⟨0x80100, [4], 23, 20⟩
abbrev BCP_CFG_hmatch : Fld := ⟨0x80100, [4], 19, 19⟩
abbrev BCP_CFG_swto : Fld := ⟨0x80100, [4], 9, 0⟩
abbrev BCP_HMASK : Fld := ⟨0x80110, [4], 31, 0⟩
abbrev BCP_HMASK_host : Fld := ⟨0x80110, [4], 15, 0⟩
abbrev BCP_STATE : Fld := ⟨0x80120, [4], 31, 0⟩
abbrev BCP_STATE_busy : Fld := ⟨0x80120, [4], 31, 16⟩
abbrev BCP_STATE_forces : Fld := ⟨0x80120, [4], 14, 6⟩
abbrev BCP_STATE_map : Fld := ⟨0x80120, [4], 5, 5⟩
abbrev BCP_STATE_pending : Fld := ⟨0x80120, [4], 4, 4⟩
abbrev BCP_STATE_iver : Fld := ⟨0x80120, [4], 3, 3⟩
abbrev BCP_STATE_bank : Fld := ⟨0x80120, [4], 2, 2⟩
abbrev BCP_STATE_state : Fld := ⟨0x80120, [4], 1, 0⟩
abbrev BCP_IMASK : Fld := ⟨0x80130, [4], 31, 0⟩
abbrev BCP_IMASK_mask : Fld := ⟨0x80130, [4], 0, 0⟩
abbrev BCP_FAIL : Fld := ⟨0x80140, [4], 31, 0⟩
abbrev BCP_FAIL_task : Fld := ⟨0x80140, [4], 7, 4⟩
abbrev BCP_FAIL_cause : Fld := ⟨0x80140, [4], 1, 0⟩
abbrev BCP_ARITH : Fld := ⟨0x80150, [4], 31, 0⟩
abbrev BCP_ARITH_flag : Fld := ⟨0x80150, [4], 15, 0⟩
abbrev BCP_ARITHCNT : Fld := ⟨0x80A00, [64, 4], 31, 0⟩
abbrev BCP_ARITHCNT_count : Fld := ⟨0x80A00, [64, 4], 15, 0⟩
abbrev BCP_IMGID : Fld := ⟨0x80160, [8, 4], 31, 0⟩
abbrev BCP_EVTLOST : Fld := ⟨0x80180, [], 31, 0⟩
abbrev BCP_EVTLOST_count : Fld := ⟨0x80180, [], 15, 0⟩
abbrev BCP_SCAN : Fld := ⟨0x80200, [128, 4], 31, 0⟩
abbrev BCP_SCAN_en : Fld := ⟨0x80200, [128, 4], 31, 31⟩
abbrev BCP_SCAN_task : Fld := ⟨0x80200, [128, 4], 19, 16⟩
abbrev BCP_SCAN_src : Fld := ⟨0x80200, [128, 4], 7, 0⟩
abbrev BCP_TASK_0 : Fld := ⟨0x80400, [256, 16], 31, 0⟩
abbrev BCP_TASK_0_prio : Fld := ⟨0x80400, [256, 16], 11, 8⟩
abbrev BCP_TASK_0_kind : Fld := ⟨0x80400, [256, 16], 2, 0⟩
abbrev BCP_TASK_1 : Fld := ⟨0x80404, [256, 16], 31, 0⟩
abbrev BCP_TASK_2 : Fld := ⟨0x80408, [256, 16], 31, 0⟩
abbrev BCP_TASK_3 : Fld := ⟨0x8040C, [256, 16], 31, 0⟩
abbrev BCP_TSTAT_0 : Fld := ⟨0x80800, [128, 8], 31, 0⟩
abbrev BCP_TSTAT_0_ovr : Fld := ⟨0x80800, [128, 8], 31, 16⟩
abbrev BCP_TSTAT_0_consec : Fld := ⟨0x80800, [128, 8], 3, 0⟩
abbrev BCP_TSTAT_1 : Fld := ⟨0x80804, [128, 8], 31, 0⟩
abbrev ICU_MODE : Fld := ⟨0x90100, [], 31, 0⟩
abbrev ICU_MODE_compat : Fld := ⟨0x90100, [], 0, 0⟩
abbrev ICU_BADDONE : Fld := ⟨0x90104, [], 31, 0⟩
abbrev ICU_BADDONE_src : Fld := ⟨0x90104, [], 31, 24⟩
abbrev ICU_BADDONE_count : Fld := ⟨0x90104, [], 15, 0⟩
abbrev ICU_BADTAKE : Fld := ⟨0x90108, [], 31, 0⟩
abbrev ICU_BADTAKE_src : Fld := ⟨0x90108, [], 31, 24⟩
abbrev ICU_BADTAKE_count : Fld := ⟨0x90108, [], 15, 0⟩
abbrev ICU_TAKE : Fld := ⟨0x90110, [], 31, 0⟩
abbrev ICU_TAKE_src : Fld := ⟨0x90110, [], 7, 0⟩
abbrev ICU_DONE : Fld := ⟨0x90114, [], 31, 0⟩
abbrev ICU_DONE_src : Fld := ⟨0x90114, [], 7, 0⟩
abbrev ICU_SWSET : Fld := ⟨0x90120, [4], 31, 0⟩
abbrev ICU_SWSET_shared : Fld := ⟨0x90120, [4], 31, 16⟩
abbrev ICU_SWSET_bcp : Fld := ⟨0x90120, [4], 15, 0⟩
abbrev ICU_RAW : Fld := ⟨0x90140, [4], 31, 0⟩
abbrev ICU_EN : Fld := ⟨0x90160, [4], 31, 0⟩
abbrev ICU_ACT : Fld := ⟨0x90180, [4], 31, 0⟩
abbrev ICU_PEND : Fld := ⟨0x90200, [32, 4], 31, 0⟩
abbrev ICU_SRC : Fld := ⟨0x90400, [4], 31, 0⟩
abbrev ICU_SRC_level : Fld := ⟨0x90400, [4], 27, 27⟩
abbrev ICU_SRC_pending : Fld := ⟨0x90400, [4], 26, 26⟩
abbrev ICU_SRC_active : Fld := ⟨0x90400, [4], 25, 25⟩
abbrev ICU_SRC_kind : Fld := ⟨0x90400, [4], 24, 24⟩
abbrev ICU_SRC_wake : Fld := ⟨0x90400, [4], 16, 16⟩
abbrev ICU_SRC_vec : Fld := ⟨0x90400, [4], 13, 8⟩
abbrev ICU_SRC_tgt : Fld := ⟨0x90400, [4], 2, 0⟩
abbrev ICU_CNT : Fld := ⟨0x90800, [4], 31, 0⟩
abbrev ICU_CNT_count : Fld := ⟨0x90800, [4], 15, 0⟩
abbrev REC_CFG : Fld := ⟨0xA0100, [4], 31, 0⟩
abbrev REC_CFG_flush : Fld := ⟨0xA0100, [4], 25, 16⟩
abbrev REC_CFG_xin : Fld := ⟨0xA0100, [4], 7, 7⟩
abbrev REC_CFG_xout : Fld := ⟨0xA0100, [4], 6, 6⟩
abbrev REC_CFG_testtrig : Fld := ⟨0xA0100, [4], 5, 5⟩
abbrev REC_CFG_mode : Fld := ⟨0xA0100, [4], 4, 4⟩
abbrev REC_CFG_tap : Fld := ⟨0xA0100, [4], 2, 0⟩
abbrev REC_LEN : Fld := ⟨0xA0110, [4], 31, 0⟩
abbrev REC_LEN_post : Fld := ⟨0xA0110, [4], 31, 16⟩
abbrev REC_LEN_pre : Fld := ⟨0xA0110, [4], 15, 0⟩
abbrev REC_CHM : Fld := ⟨0xA0120, [4], 31, 0⟩
abbrev REC_CHM_ch : Fld := ⟨0xA0120, [4], 23, 0⟩
abbrev REC_BIN : Fld := ⟨0xA0130, [4], 31, 0⟩
abbrev REC_BIN_nq : Fld := ⟨0xA0130, [4], 14, 8⟩
abbrev REC_BIN_bmask : Fld := ⟨0xA0130, [4], 7, 0⟩
abbrev REC_PTRIG : Fld := ⟨0xA0140, [4], 31, 0⟩
abbrev REC_PTRIG_weir : Fld := ⟨0xA0140, [4], 31, 16⟩
abbrev REC_PTRIG_pps : Fld := ⟨0xA0140, [4], 4, 4⟩
abbrev REC_PTRIG_pol1 : Fld := ⟨0xA0140, [4], 3, 3⟩
abbrev REC_PTRIG_in1 : Fld := ⟨0xA0140, [4], 2, 2⟩
abbrev REC_PTRIG_pol0 : Fld := ⟨0xA0140, [4], 1, 1⟩
abbrev REC_PTRIG_in0 : Fld := ⟨0xA0140, [4], 0, 0⟩
abbrev REC_DTRIG : Fld := ⟨0xA0150, [8, 4], 31, 0⟩
abbrev REC_STAT : Fld := ⟨0xA0180, [4], 31, 0⟩
abbrev REC_STAT_held : Fld := ⟨0xA0180, [4], 31, 16⟩
abbrev REC_STAT_state : Fld := ⟨0xA0180, [4], 2, 0⟩
abbrev REC_IDX : Fld := ⟨0xA0190, [4], 31, 0⟩
abbrev REC_GAPCNT : Fld := ⟨0xA01A0, [4], 31, 0⟩
abbrev REC_TRIGCNT : Fld := ⟨0xA01B0, [4], 31, 0⟩
abbrev REC_WFCFG : Fld := ⟨0xA01C0, [], 31, 0⟩
abbrev REC_WFCFG_chmask : Fld := ⟨0xA01C0, [], 31, 16⟩
abbrev REC_WFCFG_en : Fld := ⟨0xA01C0, [], 15, 0⟩
abbrev REC_FLCFG : Fld := ⟨0xA01C4, [], 31, 0⟩
abbrev REC_FLCFG_tmax : Fld := ⟨0xA01C4, [], 31, 22⟩
abbrev REC_FLCFG_tmin : Fld := ⟨0xA01C4, [], 21, 4⟩
abbrev REC_FLCFG_pol : Fld := ⟨0xA01C4, [], 3, 3⟩
abbrev REC_FLCFG_grp : Fld := ⟨0xA01C4, [], 2, 0⟩
abbrev REC_FLVEL : Fld := ⟨0xA01C8, [], 31, 0⟩
abbrev REC_FLLAST : Fld := ⟨0xA01CC, [], 31, 0⟩
abbrev REC_MRES : Fld := ⟨0xA01D0, [], 31, 0⟩
abbrev REC_MRES_max : Fld := ⟨0xA01D0, [], 31, 16⟩
abbrev REC_MRES_now : Fld := ⟨0xA01D0, [], 15, 0⟩
abbrev REC_LVL_0 : Fld := ⟨0xA0200, [32, 8], 31, 0⟩
abbrev REC_LVL_0_en : Fld := ⟨0xA0200, [32, 8], 31, 31⟩
abbrev REC_LVL_0_dir : Fld := ⟨0xA0200, [32, 8], 30, 29⟩
abbrev REC_LVL_0_kind : Fld := ⟨0xA0200, [32, 8], 28, 28⟩
abbrev REC_LVL_0_vmask : Fld := ⟨0xA0200, [32, 8], 27, 20⟩
abbrev REC_LVL_0_idx : Fld := ⟨0xA0200, [32, 8], 9, 0⟩
abbrev REC_LVL_1 : Fld := ⟨0xA0204, [32, 8], 31, 0⟩
abbrev REC_QSEL : Fld := ⟨0xA0400, [256, 4], 31, 0⟩
abbrev REC_QSEL_q : Fld := ⟨0xA0400, [256, 4], 9, 0⟩
abbrev REC_ETRIG : Fld := ⟨0xA0800, [32, 4], 31, 0⟩
abbrev FIO_DICFG : Fld := ⟨0xC0100, [4], 31, 0⟩
abbrev FIO_DICFG_lim : Fld := ⟨0xC0100, [4], 31, 16⟩
abbrev FIO_DICFG_tick : Fld := ⟨0xC0100, [4], 9, 8⟩
abbrev FIO_DICFG_raw : Fld := ⟨0xC0100, [4], 0, 0⟩
abbrev FIO_DISTATE : Fld := ⟨0xC0180, [], 31, 0⟩
abbrev FIO_DIRAW : Fld := ⟨0xC0184, [], 31, 0⟩
abbrev FIO_DITS_0 : Fld := ⟨0xC0200, [16], 31, 0⟩
abbrev FIO_DITS_1 : Fld := ⟨0xC0204, [16], 31, 0⟩
abbrev FIO_DITS_2 : Fld := ⟨0xC0208, [16], 31, 0⟩
abbrev FIO_DITS_2_level : Fld := ⟨0xC0208, [16], 16, 16⟩
abbrev FIO_DITS_2_sechi : Fld := ⟨0xC0208, [16], 15, 0⟩
abbrev FIO_DITS_3 : Fld := ⟨0xC020C, [16], 31, 0⟩
abbrev FIO_DOCFG : Fld := ⟨0xC0400, [4], 31, 0⟩
abbrev FIO_DOCFG_own : Fld := ⟨0xC0400, [4], 31, 29⟩
abbrev FIO_DOCFG_ptmr : Fld := ⟨0xC0400, [4], 28, 26⟩
abbrev FIO_DOCFG_safe : Fld := ⟨0xC0400, [4], 25, 24⟩
abbrev FIO_DOCFG_pair : Fld := ⟨0xC0400, [4], 23, 23⟩
abbrev FIO_DOCFG_tsdlatch : Fld := ⟨0xC0400, [4], 22, 22⟩
abbrev FIO_REQ : Fld := ⟨0xC0480, [], 31, 0⟩
abbrev FIO_REQ_mask : Fld := ⟨0xC0480, [], 31, 16⟩
abbrev FIO_REQ_val : Fld := ⟨0xC0480, [], 15, 0⟩
abbrev FIO_REQST : Fld := ⟨0xC0484, [], 31, 0⟩
abbrev FIO_REQST_high : Fld := ⟨0xC0484, [], 31, 16⟩
abbrev FIO_REQST_low : Fld := ⟨0xC0484, [], 15, 0⟩
abbrev FIO_CMD : Fld := ⟨0xC0488, [], 31, 0⟩
abbrev FIO_CMD_high : Fld := ⟨0xC0488, [], 31, 16⟩
abbrev FIO_CMD_low : Fld := ⟨0xC0488, [], 15, 0⟩
abbrev FIO_OUTST : Fld := ⟨0xC048C, [], 31, 0⟩
abbrev FIO_OUTST_high : Fld := ⟨0xC048C, [], 31, 16⟩
abbrev FIO_OUTST_low : Fld := ⟨0xC048C, [], 15, 0⟩
abbrev FIO_FLTST : Fld := ⟨0xC0490, [], 31, 0⟩
abbrev FIO_FLTST_tsd : Fld := ⟨0xC0490, [], 31, 16⟩
abbrev FIO_FLTST_ovc_or_ext : Fld := ⟨0xC0490, [], 15, 0⟩
abbrev FIO_EXTST : Fld := ⟨0xC0494, [], 31, 0⟩
abbrev FIO_EXTST_tsd : Fld := ⟨0xC0494, [], 31, 16⟩
abbrev FIO_EXTST_ovc_or_ext : Fld := ⟨0xC0494, [], 15, 0⟩
abbrev FIO_FLTLAT : Fld := ⟨0xC04A0, [4], 31, 0⟩
abbrev FIO_FLTLAT_lat : Fld := ⟨0xC04A0, [4], 15, 0⟩
abbrev FIO_FLTCNT : Fld := ⟨0xC0600, [64, 4], 31, 0⟩
abbrev FIO_FLTCNT_count : Fld := ⟨0xC0600, [64, 4], 15, 0⟩
abbrev FIO_WDCFG : Fld := ⟨0xC04C0, [], 31, 0⟩
abbrev FIO_WDCFG_hwd : Fld := ⟨0xC04C0, [], 17, 17⟩
abbrev FIO_WDCFG_mlive : Fld := ⟨0xC04C0, [], 16, 16⟩
abbrev FIO_WDCFG_t : Fld := ⟨0xC04C0, [], 9, 0⟩
abbrev FIO_WDSTAT : Fld := ⟨0xC04C4, [], 31, 0⟩
abbrev FIO_WDSTAT_count : Fld := ⟨0xC04C4, [], 31, 16⟩
abbrev FIO_WDSTAT_silent : Fld := ⟨0xC04C4, [], 0, 0⟩
abbrev FIO_EDGELOST : Fld := ⟨0xC04C8, [], 31, 0⟩
abbrev FIO_EDGELOST_count : Fld := ⟨0xC04C8, [], 15, 0⟩
abbrev FIO_TPCFG : Fld := ⟨0xC0500, [4], 31, 0⟩
abbrev FIO_TPCFG_mode : Fld := ⟨0xC0500, [4], 31, 30⟩
abbrev FIO_TPCFG_len : Fld := ⟨0xC0500, [4], 24, 16⟩
abbrev FIO_TPCFG_per : Fld := ⟨0xC0500, [4], 15, 0⟩
abbrev FIO_TPRES : Fld := ⟨0xC0540, [4], 31, 0⟩
abbrev FIO_TPRES_done : Fld := ⟨0xC0540, [4], 31, 16⟩
abbrev FIO_TPRES_skip : Fld := ⟨0xC0540, [4], 15, 1⟩
abbrev FIO_TPRES_fail : Fld := ⟨0xC0540, [4], 0, 0⟩
abbrev RIO_LCFG : Fld := ⟨0xD0100, [4], 31, 0⟩
abbrev RIO_LCFG_run : Fld := ⟨0xD0100, [4], 31, 31⟩
abbrev RIO_LCFG_n : Fld := ⟨0xD0100, [4], 27, 24⟩
abbrev RIO_LCFG_rto : Fld := ⟨0xD0100, [4], 20, 16⟩
abbrev RIO_LCFG_cyc : Fld := ⟨0xD0100, [4], 15, 0⟩
abbrev RIO_LPHASE : Fld := ⟨0xD0120, [4], 31, 0⟩
abbrev RIO_LPHASE_phase : Fld := ⟨0xD0120, [4], 15, 0⟩
abbrev RIO_LSTAT : Fld := ⟨0xD0140, [4], 31, 0⟩
abbrev RIO_LSTAT_mincyc : Fld := ⟨0xD0140, [4], 31, 16⟩
abbrev RIO_LSTAT_up : Fld := ⟨0xD0140, [4], 15, 0⟩
abbrev RIO_HCFG : Fld := ⟨0xD0160, [], 31, 0⟩
abbrev RIO_HCFG_hto : Fld := ⟨0xD0160, [], 9, 0⟩
abbrev RIO_ST : Fld := ⟨0xD0200, [64, 4], 31, 0⟩
abbrev RIO_ST_en : Fld := ⟨0xD0200, [64, 4], 31, 31⟩
abbrev RIO_ST_own : Fld := ⟨0xD0200, [64, 4], 30, 28⟩
abbrev RIO_ST_isub : Fld := ⟨0xD0200, [64, 4], 27, 26⟩
abbrev RIO_ST_osub : Fld := ⟨0xD0200, [64, 4], 25, 24⟩
abbrev RIO_ST_ni : Fld := ⟨0xD0200, [64, 4], 22, 16⟩
abbrev RIO_ST_no : Fld := ⟨0xD0200, [64, 4], 14, 8⟩
abbrev RIO_SST : Fld := ⟨0xD0400, [64, 4], 31, 0⟩
abbrev RIO_SST_state : Fld := ⟨0xD0400, [64, 4], 31, 30⟩
abbrev RIO_SST_miss : Fld := ⟨0xD0400, [64, 4], 27, 24⟩
abbrev RIO_SST_qual : Fld := ⟨0xD0400, [64, 4], 23, 16⟩
abbrev RIO_SST_crc : Fld := ⟨0xD0400, [64, 4], 15, 8⟩
abbrev RIO_SST_drops : Fld := ⟨0xD0400, [64, 4], 7, 0⟩
abbrev RIO_SUBIN : Fld := ⟨0xD1000, [1024, 64, 4], 31, 0⟩
abbrev RIO_SUBOUT : Fld := ⟨0xD3000, [1024, 64, 4], 31, 0⟩
abbrev RIO_IN : Fld := ⟨0xD5000, [1024, 64, 4], 31, 0⟩
abbrev AUX_CFG : Fld := ⟨0xB0100, [4], 31, 0⟩
abbrev AUX_CFG_run : Fld := ⟨0xB0100, [4], 31, 31⟩
abbrev AUX_CFG_irq : Fld := ⟨0xB0100, [4], 30, 30⟩
abbrev AUX_CFG_tint : Fld := ⟨0xB0100, [4], 29, 28⟩
abbrev AUX_CFG_grp : Fld := ⟨0xB0100, [4], 26, 24⟩
abbrev AUX_CFG_ptmr : Fld := ⟨0xB0100, [4], 22, 20⟩
abbrev AUX_CFG_start : Fld := ⟨0xB0100, [4], 18, 16⟩
abbrev AUX_CFG_delay : Fld := ⟨0xB0100, [4], 15, 0⟩
abbrev AUX_SEQ : Fld := ⟨0xB0110, [4], 31, 0⟩
abbrev AUX_SEQ_len : Fld := ⟨0xB0110, [4], 30, 28⟩
abbrev AUX_BUF : Fld := ⟨0xB0120, [4], 31, 0⟩
abbrev AUX_BUF_nbuf : Fld := ⟨0xB0120, [4], 5, 0⟩
abbrev AUX_BUFBASE : Fld := ⟨0xB0130, [4], 31, 0⟩
abbrev AUX_BUFBASE_off : Fld := ⟨0xB0130, [4], 22, 0⟩
abbrev AUX_WIDX : Fld := ⟨0xB0140, [4], 31, 0⟩
abbrev AUX_STAT : Fld := ⟨0xB0150, [4], 31, 0⟩
abbrev AUX_STAT_skip : Fld := ⟨0xB0150, [4], 31, 16⟩
abbrev AUX_STAT_idx : Fld := ⟨0xB0150, [4], 6, 4⟩
abbrev AUX_STAT_busy : Fld := ⟨0xB0150, [4], 0, 0⟩
abbrev AUX_LOST : Fld := ⟨0xB0160, [4], 31, 0⟩
abbrev AUX_LOST_count : Fld := ⟨0xB0160, [4], 15, 0⟩
abbrev PTMR_CFG_0 : Fld := ⟨0xB0200, [16], 31, 0⟩
abbrev PTMR_CFG_0_mode : Fld := ⟨0xB0200, [16], 1, 0⟩
abbrev PTMR_CFG_1 : Fld := ⟨0xB0204, [16], 31, 0⟩
abbrev PTMR_CFG_1_period : Fld := ⟨0xB0204, [16], 23, 0⟩
abbrev PTMR_CFG_2 : Fld := ⟨0xB0208, [16], 31, 0⟩
abbrev PTMR_CFG_2_phase : Fld := ⟨0xB0208, [16], 23, 0⟩
abbrev PTMR_CFG_3 : Fld := ⟨0xB020C, [16], 31, 0⟩
abbrev PTMR_CFG_3_high : Fld := ⟨0xB020C, [16], 23, 0⟩
abbrev PTMR_STAT : Fld := ⟨0xB0280, [], 31, 0⟩
abbrev PTMR_STAT_step : Fld := ⟨0xB0280, [], 31, 24⟩
abbrev PTMR_STAT_pulse : Fld := ⟨0xB0280, [], 15, 8⟩
abbrev PTMR_STAT_pwm : Fld := ⟨0xB0280, [], 7, 0⟩
abbrev NET_PORT : Fld := ⟨0xE0100, [4], 31, 0⟩
abbrev NET_PORT_en : Fld := ⟨0xE0100, [4], 31, 31⟩
abbrev NET_PORT_link : Fld := ⟨0xE0100, [4], 30, 30⟩
abbrev NET_PORT_mode : Fld := ⟨0xE0100, [4], 29, 28⟩
abbrev NET_PORT_sgspd : Fld := ⟨0xE0100, [4], 27, 27⟩
abbrev NET_PORT_an : Fld := ⟨0xE0100, [4], 26, 26⟩
abbrev NET_PAIR : Fld := ⟨0xE0120, [4], 31, 0⟩
abbrev NET_PAIR_forget : Fld := ⟨0xE0120, [4], 25, 16⟩
abbrev NET_PAIR_mode : Fld := ⟨0xE0120, [4], 1, 0⟩
abbrev NET_PTPCFG : Fld := ⟨0xE0130, [], 31, 0⟩
abbrev NET_PTPCFG_pri2 : Fld := ⟨0xE0130, [], 31, 24⟩
abbrev NET_PTPCFG_pri1 : Fld := ⟨0xE0130, [], 23, 16⟩
abbrev NET_PTPCFG_domain : Fld := ⟨0xE0130, [], 15, 8⟩
abbrev NET_PTPCFG_mupub : Fld := ⟨0xE0130, [], 1, 1⟩
abbrev NET_PTPCFG_prof : Fld := ⟨0xE0130, [], 0, 0⟩
abbrev NET_PTP : Fld := ⟨0xE0140, [4], 31, 0⟩
abbrev NET_PTP_asym : Fld := ⟨0xE0140, [4], 31, 16⟩
abbrev NET_PTP_state : Fld := ⟨0xE0140, [4], 7, 4⟩
abbrev NET_PTP_tc : Fld := ⟨0xE0140, [4], 2, 2⟩
abbrev NET_PTP_role : Fld := ⟨0xE0140, [4], 1, 0⟩
abbrev NET_RXCLS : Fld := ⟨0xE0180, [4], 31, 0⟩
abbrev NET_RXCLS_en : Fld := ⟨0xE0180, [4], 31, 31⟩
abbrev NET_RXCLS_ring : Fld := ⟨0xE0180, [4], 27, 24⟩
abbrev NET_RXCLS_ports : Fld := ⟨0xE0180, [4], 23, 16⟩
abbrev NET_RXCLS_etype : Fld := ⟨0xE0180, [4], 15, 0⟩
abbrev NET_RXDROP : Fld := ⟨0xE01C0, [4], 31, 0⟩
abbrev NET_REDCNT : Fld := ⟨0xE01E0, [4], 31, 0⟩
abbrev NET_REDCNT_wlan : Fld := ⟨0xE01E0, [4], 31, 16⟩
abbrev NET_REDCNT_sup : Fld := ⟨0xE01E0, [4], 15, 0⟩
abbrev NET_GBIT : Fld := ⟨0xE0200, [4], 31, 0⟩
abbrev NET_GBIT_en : Fld := ⟨0xE0200, [4], 31, 31⟩
abbrev NET_GBIT_fb : Fld := ⟨0xE0200, [4], 26, 25⟩
abbrev NET_GBIT_qen : Fld := ⟨0xE0200, [4], 24, 24⟩
abbrev NET_GBIT_qmem : Fld := ⟨0xE0200, [4], 21, 16⟩
abbrev NET_GBIT_mem : Fld := ⟨0xE0200, [4], 13, 8⟩
abbrev NET_GBIT_sub : Fld := ⟨0xE0200, [4], 7, 0⟩
abbrev NET_GVAL : Fld := ⟨0xE0280, [4], 31, 0⟩
abbrev NET_GVOWN : Fld := ⟨0xE02A0, [4], 31, 0⟩
abbrev NET_GSTAT : Fld := ⟨0xE0400, [4], 31, 0⟩
abbrev NET_GSTAT_state : Fld := ⟨0xE0400, [4], 31, 30⟩
abbrev NET_GSTAT_test : Fld := ⟨0xE0400, [4], 29, 29⟩
abbrev NET_GSTAT_sim : Fld := ⟨0xE0400, [4], 28, 28⟩
abbrev NET_GSTAT_bad : Fld := ⟨0xE0400, [4], 15, 0⟩
abbrev NET_SVSTAT : Fld := ⟨0xE0800, [4], 31, 0⟩
abbrev NET_SVSTAT_state : Fld := ⟨0xE0800, [4], 31, 30⟩
abbrev NET_SVSTAT_synch : Fld := ⟨0xE0800, [4], 29, 28⟩
abbrev NET_SVSTAT_bad : Fld := ⟨0xE0800, [4], 15, 0⟩
abbrev NET_KEYST : Fld := ⟨0xE0900, [], 31, 0⟩
abbrev TPC_CFG : Fld := ⟨0xF0100, [4], 31, 0⟩
abbrev TPC_CFG_en : Fld := ⟨0xF0100, [4], 31, 31⟩
abbrev TPC_CFG_iface : Fld := ⟨0xF0100, [4], 30, 30⟩
abbrev TPC_CFG_n : Fld := ⟨0xF0100, [4], 29, 26⟩
abbrev TPC_CFG_addr : Fld := ⟨0xF0100, [4], 23, 20⟩
abbrev TPC_CFG_grp : Fld := ⟨0xF0100, [4], 19, 16⟩
abbrev TPC_CFG_pub : Fld := ⟨0xF0100, [4], 15, 15⟩
abbrev TPC_CFG_acctest : Fld := ⟨0xF0100, [4], 14, 14⟩
abbrev TPC_CFG_two : Fld := ⟨0xF0100, [4], 13, 13⟩
abbrev TPC_CFG_dhost : Fld := ⟨0xF0100, [4], 12, 12⟩
abbrev TPC_CFG_cto : Fld := ⟨0xF0100, [4], 9, 0⟩
abbrev TPC_PSC_0 : Fld := ⟨0xF0120, [8], 31, 0⟩
abbrev TPC_PSC_1 : Fld := ⟨0xF0124, [8], 31, 0⟩
abbrev TPC_IODLY : Fld := ⟨0xF0140, [4], 31, 0⟩
abbrev TPC_IODLY_txd : Fld := ⟨0xF0140, [4], 31, 16⟩
abbrev TPC_IODLY_rxd : Fld := ⟨0xF0140, [4], 15, 0⟩
abbrev TPC_HDLY : Fld := ⟨0xF0150, [4], 31, 0⟩
abbrev TPC_HDLY_dly : Fld := ⟨0xF0150, [4], 24, 0⟩
abbrev TPC_DCFG : Fld := ⟨0xF0160, [4], 31, 0⟩
abbrev TPC_DCFG_dstep : Fld := ⟨0xF0160, [4], 13, 0⟩
abbrev TPC_DLY : Fld := ⟨0xF0180, [16, 4], 31, 0⟩
abbrev TPC_CMDLAT : Fld := ⟨0xF0200, [4], 31, 0⟩
abbrev TPC_CMDLAT_cmd : Fld := ⟨0xF0200, [4], 15, 0⟩
abbrev TPC_CMDST : Fld := ⟨0xF0210, [4], 31, 0⟩
abbrev TPC_CMDST_tx : Fld := ⟨0xF0210, [4], 31, 16⟩
abbrev TPC_CMDST_rx : Fld := ⟨0xF0210, [4], 15, 0⟩
abbrev TPC_FALL : Fld := ⟨0xF0220, [4], 31, 0⟩
abbrev TPC_FALL_hold : Fld := ⟨0xF0220, [4], 31, 16⟩
abbrev TPC_FALL_val : Fld := ⟨0xF0220, [4], 15, 0⟩
abbrev TPC_SLUMAP : Fld := ⟨0xF0230, [4], 31, 0⟩
abbrev TPC_STAT : Fld := ⟨0xF0240, [4], 31, 0⟩
abbrev TPC_STAT_state : Fld := ⟨0xF0240, [4], 31, 30⟩
abbrev TPC_STAT_rtq : Fld := ⟨0xF0240, [4], 29, 28⟩
abbrev TPC_STAT_rdi : Fld := ⟨0xF0240, [4], 27, 27⟩
abbrev TPC_STAT_umode : Fld := ⟨0xF0240, [4], 26, 26⟩
abbrev TPC_STAT_crc : Fld := ⟨0xF0240, [4], 15, 0⟩
abbrev HIF_RING_0 : Fld := ⟨0x110100, [16], 31, 0⟩
abbrev HIF_RING_0_base : Fld := ⟨0x110100, [16], 31, 5⟩
abbrev HIF_RING_1 : Fld := ⟨0x110104, [16], 31, 0⟩
abbrev HIF_RING_2 : Fld := ⟨0x110108, [16], 31, 0⟩
abbrev HIF_RING_2_en : Fld := ⟨0x110108, [16], 31, 31⟩
abbrev HIF_RING_2_irq : Fld := ⟨0x110108, [16], 30, 30⟩
abbrev HIF_RING_2_vec : Fld := ⟨0x110108, [16], 29, 24⟩
abbrev HIF_RING_2_state : Fld := ⟨0x110108, [16], 23, 22⟩
abbrev HIF_RING_2_err : Fld := ⟨0x110108, [16], 21, 20⟩
abbrev HIF_RING_2_k : Fld := ⟨0x110108, [16], 19, 15⟩
abbrev HIF_RING_2_cls : Fld := ⟨0x110108, [16], 14, 11⟩
abbrev HIF_RING_2_idx : Fld := ⟨0x110108, [16], 10, 7⟩
abbrev HIF_RING_2_cring : Fld := ⟨0x110108, [16], 6, 0⟩
abbrev HIF_RING_3 : Fld := ⟨0x11010C, [16], 31, 0⟩
abbrev HIF_RING_3_d : Fld := ⟨0x11010C, [16], 16, 0⟩
abbrev HIF_DB : Fld := ⟨0x114000, [4], 31, 0⟩
abbrev HIF_DB_h : Fld := ⟨0x114000, [4], 16, 0⟩
abbrev HIF_LINK : Fld := ⟨0x110900, [], 31, 0⟩
abbrev HIF_LINK_d3 : Fld := ⟨0x110900, [], 10, 10⟩
abbrev HIF_LINK_bme : Fld := ⟨0x110900, [], 9, 9⟩
abbrev HIF_LINK_up : Fld := ⟨0x110900, [], 8, 8⟩
abbrev HIF_LINK_speed : Fld := ⟨0x110900, [], 7, 4⟩
abbrev HIF_LINK_width : Fld := ⟨0x110900, [], 3, 0⟩
abbrev HIF_CMPLLOST : Fld := ⟨0x110904, [], 31, 0⟩
abbrev CIS_CFG : Fld := ⟨0x120100, [], 31, 0⟩
abbrev CIS_CFG_lowat : Fld := ⟨0x120100, [], 12, 0⟩
abbrev CIS_FREE : Fld := ⟨0x120104, [], 31, 0⟩
abbrev CIS_FREE_shared : Fld := ⟨0x120104, [], 28, 16⟩
abbrev CIS_FREE_total : Fld := ⟨0x120104, [], 12, 0⟩
abbrev CIS_Q : Fld := ⟨0x120200, [4], 31, 0⟩
abbrev CIS_Q_max : Fld := ⟨0x120200, [4], 28, 16⟩
abbrev CIS_Q_res : Fld := ⟨0x120200, [4], 12, 0⟩
abbrev CIS_USE : Fld := ⟨0x120280, [4], 31, 0⟩
abbrev CIS_USE_peak : Fld := ⟨0x120280, [4], 28, 16⟩
abbrev CIS_USE_use : Fld := ⟨0x120280, [4], 12, 0⟩
abbrev CIS_NB : Fld := ⟨0x120300, [4], 31, 0⟩
abbrev CSC_CFG : Fld := ⟨0x100100, [], 31, 0⟩
abbrev CSC_CFG_en : Fld := ⟨0x100100, [], 31, 31⟩
abbrev CSC_CFG_nexp : Fld := ⟨0x100100, [], 27, 24⟩
abbrev CSC_CFG_lmask : Fld := ⟨0x100100, [], 19, 16⟩
abbrev CSC_CFG_fto : Fld := ⟨0x100100, [], 13, 0⟩
abbrev CSC_PUB : Fld := ⟨0x100104, [], 31, 0⟩
abbrev CSC_PUB_g1en : Fld := ⟨0x100104, [], 31, 31⟩
abbrev CSC_PUB_g1 : Fld := ⟨0x100104, [], 30, 28⟩
abbrev CSC_PUB_g0en : Fld := ⟨0x100104, [], 27, 27⟩
abbrev CSC_PUB_g0 : Fld := ⟨0x100104, [], 26, 24⟩
abbrev CSC_PUB_pmask : Fld := ⟨0x100104, [], 23, 0⟩
abbrev CSC_STAT : Fld := ⟨0x100108, [], 31, 0⟩
abbrev CSC_STAT_present : Fld := ⟨0x100108, [], 31, 24⟩
abbrev CSC_STAT_aligned : Fld := ⟨0x100108, [], 23, 16⟩
abbrev CSC_STAT_count : Fld := ⟨0x100108, [], 15, 12⟩
abbrev CSC_STAT_topo : Fld := ⟨0x100108, [], 10, 8⟩
abbrev CSC_STAT_fail : Fld := ⟨0x100108, [], 7, 5⟩
abbrev CSC_STAT_state : Fld := ⟨0x100108, [], 2, 0⟩
abbrev CSC_TOFS : Fld := ⟨0x10010C, [], 31, 0⟩
abbrev CSC_LINK : Fld := ⟨0x100110, [4], 31, 0⟩
abbrev CSC_LINK_up : Fld := ⟨0x100110, [4], 31, 31⟩
abbrev CSC_LINK_ppos : Fld := ⟨0x100110, [4], 30, 28⟩
abbrev CSC_LINK_pmst : Fld := ⟨0x100110, [4], 27, 27⟩
abbrev CSC_LINK_plink : Fld := ⟨0x100110, [4], 26, 24⟩
abbrev CSC_LINK_dly : Fld := ⟨0x100110, [4], 23, 0⟩
abbrev CSC_LERR : Fld := ⟨0x100120, [4], 31, 0⟩
abbrev CSC_LERR_crc : Fld := ⟨0x100120, [4], 31, 16⟩
abbrev CSC_LERR_lock : Fld := ⟨0x100120, [4], 15, 0⟩
abbrev CSC_MEM_0 : Fld := ⟨0x100200, [16], 31, 0⟩
abbrev CSC_MEM_1 : Fld := ⟨0x100204, [16], 31, 0⟩
abbrev CSC_MEM_2 : Fld := ⟨0x100208, [16], 31, 0⟩
abbrev CSC_MEM_3 : Fld := ⟨0x10020C, [16], 31, 0⟩
abbrev CSC_MEM_3_late : Fld := ⟨0x10020C, [16], 31, 16⟩
abbrev CSC_MEM_3_lost : Fld := ⟨0x10020C, [16], 15, 0⟩
abbrev CSC_EVTLOST : Fld := ⟨0x100300, [], 31, 0⟩
abbrev CSC_EVTLOST_count : Fld := ⟨0x100300, [], 15, 0⟩
abbrev CSC_RXS : Fld := ⟨0x101000, [128, 4], 31, 0⟩
abbrev SEC_OWN : Fld := ⟨0x130100, [], 31, 0⟩
abbrev SEC_OWN_used : Fld := ⟨0x130100, [], 10, 8⟩
abbrev SEC_OWN_vroot : Fld := ⟨0x130100, [], 3, 3⟩
abbrev SEC_OWN_gen : Fld := ⟨0x130100, [], 2, 0⟩
abbrev SEC_DEVID : Fld := ⟨0x130104, [4], 31, 0⟩
abbrev SEC_ROOTID : Fld := ⟨0x13010C, [4], 31, 0⟩
abbrev SEC_OWNID : Fld := ⟨0x130114, [4], 31, 0⟩
abbrev SEC_BOOT : Fld := ⟨0x13011C, [], 31, 0⟩
abbrev SEC_BOOT_donly : Fld := ⟨0x13011C, [], 11, 11⟩
abbrev SEC_BOOT_signer : Fld := ⟨0x13011C, [], 10, 10⟩
abbrev SEC_BOOT_src : Fld := ⟨0x13011C, [], 9, 9⟩
abbrev SEC_BOOT_valid : Fld := ⟨0x13011C, [], 8, 8⟩
abbrev SEC_BOOT_code : Fld := ⟨0x13011C, [], 3, 0⟩
abbrev SEC_FBC : Fld := ⟨0x130120, [4], 31, 0⟩
abbrev SEC_FBC_donly : Fld := ⟨0x130120, [4], 9, 9⟩
abbrev SEC_FBC_signer : Fld := ⟨0x130120, [4], 8, 8⟩
abbrev SEC_FBC_code : Fld := ⟨0x130120, [4], 3, 0⟩
abbrev SEC_OPS : Fld := ⟨0x130130, [], 31, 0⟩
abbrev SEC_OPS_verify : Fld := ⟨0x130130, [], 31, 16⟩
abbrev SEC_OPS_sign : Fld := ⟨0x130130, [], 15, 0⟩
abbrev SEC_BOOTDIG : Fld := ⟨0x130200, [4], 31, 0⟩
abbrev SEC_UCDIG : Fld := ⟨0x130240, [4], 31, 0⟩
abbrev PWR_CFG : Fld := ⟨0x10100, [], 31, 0⟩
abbrev PWR_CFG_pmin : Fld := ⟨0x10100, [], 31, 20⟩
abbrev PWR_CFG_bcpstart : Fld := ⟨0x10100, [], 19, 16⟩
abbrev PWR_CFG_bootsel : Fld := ⟨0x10100, [], 4, 4⟩
abbrev PWR_CFG_tdusk : Fld := ⟨0x10100, [], 3, 3⟩
abbrev PWR_CFG_autonoon : Fld := ⟨0x10100, [], 2, 2⟩
abbrev PWR_VCFG : Fld := ⟨0x10104, [], 31, 0⟩
abbrev PWR_VCFG_mode : Fld := ⟨0x10104, [], 31, 31⟩
abbrev PWR_VCFG_vset : Fld := ⟨0x10104, [], 29, 20⟩
abbrev PWR_VCFG_dusk : Fld := ⟨0x10104, [], 19, 10⟩
abbrev PWR_VCFG_ptgt : Fld := ⟨0x10104, [], 9, 0⟩
abbrev PWR_VSTAT : Fld := ⟨0x10108, [], 31, 0⟩
abbrev PWR_VSTAT_ok720 : Fld := ⟨0x10108, [], 31, 31⟩
abbrev PWR_VSTAT_setp : Fld := ⟨0x10108, [], 25, 16⟩
abbrev PWR_VSTAT_meas : Fld := ⟨0x10108, [], 9, 0⟩
abbrev PWR_PACE : Fld := ⟨0x1010C, [], 31, 0⟩
abbrev PWR_PACE_min : Fld := ⟨0x1010C, [], 31, 16⟩
abbrev PWR_PACE_last : Fld := ⟨0x1010C, [], 15, 0⟩
abbrev PWR_TEMP : Fld := ⟨0x10110, [], 31, 0⟩
abbrev PWR_TEMP_io : Fld := ⟨0x10110, [], 29, 20⟩
abbrev PWR_TEMP_ana : Fld := ⟨0x10110, [], 19, 10⟩
abbrev PWR_TEMP_dig : Fld := ⟨0x10110, [], 9, 0⟩
abbrev PWR_VSUP : Fld := ⟨0x10114, [], 31, 0⟩
abbrev PWR_VSUP_mv : Fld := ⟨0x10114, [], 15, 0⟩
abbrev PWR_RSTCAUSE : Fld := ⟨0x10118, [], 31, 0⟩
abbrev PWR_RSTCAUSE_prev : Fld := ⟨0x10118, [], 6, 4⟩
abbrev PWR_RSTCAUSE_cause : Fld := ⟨0x10118, [], 1, 0⟩
abbrev PWR_SAFECAUSE : Fld := ⟨0x1011C, [], 31, 0⟩
abbrev PWR_SAFECAUSE_cause : Fld := ⟨0x1011C, [], 2, 0⟩
abbrev PWR_RESET : Fld := ⟨0x10120, [], 31, 0⟩
abbrev PWR_RESET_key : Fld := ⟨0x10120, [], 15, 0⟩
abbrev TST_FCFG : Fld := ⟨0x140100, [], 31, 0⟩
abbrev TST_FCFG_stallt : Fld := ⟨0x140100, [], 23, 16⟩
abbrev TST_FCFG_nmiss : Fld := ⟨0x140100, [], 7, 0⟩
abbrev TST_FLT : Fld := ⟨0x140104, [], 31, 0⟩
abbrev TST_FLT_count : Fld := ⟨0x140104, [], 31, 16⟩
abbrev TST_FLT_blk : Fld := ⟨0x140104, [], 15, 8⟩
abbrev TST_FLT_cause : Fld := ⟨0x140104, [], 2, 0⟩
abbrev TST_ECC : Fld := ⟨0x140108, [], 31, 0⟩
abbrev TST_ECC_ce : Fld := ⟨0x140108, [], 31, 16⟩
abbrev TST_ECC_cue : Fld := ⟨0x140108, [], 15, 0⟩
abbrev TST_STALL : Fld := ⟨0x14010C, [], 31, 0⟩
abbrev TST_STALL_count : Fld := ⟨0x14010C, [], 31, 16⟩
abbrev TST_STALL_blk : Fld := ⟨0x14010C, [], 7, 0⟩
abbrev TST_MSUB : Fld := ⟨0x140110, [], 31, 0⟩
abbrev TST_MSUB_en : Fld := ⟨0x140110, [], 31, 31⟩
abbrev TST_MSUB_tq : Fld := ⟨0x140110, [], 1, 0⟩
abbrev TST_JTAG : Fld := ⟨0x140114, [], 31, 0⟩
abbrev TST_JTAG_ir : Fld := ⟨0x140114, [], 12, 8⟩
abbrev TST_JTAG_bscan : Fld := ⟨0x140114, [], 0, 0⟩

end Sys2Proof.Machine
end

