-- ==== Sys2Proof/Machine/RegTable.lean ====
section
/-! DEFINITION. The register tables of every block: offset, index strides and counts, reset domain and fields, as the register descriptions of the chapters give them (the common header of R28 stands in Registers). -/

namespace Sys2Proof.Machine

/-- The registers of GEN from window offset 16#0100 (R24, R25). -/
def regsGen : List Reg := [
  -- GEN_ID (R44)
  ⟨0x100, [], .por, [⟨31, 16, .ro, 7007, .any⟩, ⟨15, 0, .ro, 18482, .any⟩]⟩,
  -- GEN_REV (R44)
  ⟨0x104, [], .por, [⟨31, 16, .ro, 0, .any⟩, ⟨15, 8, .ro, 0, .any⟩, ⟨3, 0, .ro, 0, .any⟩]⟩,
  -- GEN_SERIAL_LO (R44)
  ⟨0x108, [], .por, [⟨31, 0, .ro, 0, .any⟩]⟩,
  -- GEN_SERIAL_HI (R44)
  ⟨0x10C, [], .por, [⟨31, 0, .ro, 0, .any⟩]⟩,
  -- GEN_STATE (R45)
  ⟨0x110, [], .sys, [⟨12, 10, .ro, 0, .any⟩, ⟨9, 9, .ro, 0, .any⟩, ⟨8, 8, .ro, 0, .any⟩, ⟨6, 4, .ro, 1, .any⟩, ⟨2, 0, .ro, 1, .any⟩]⟩,
  -- GEN_CLAMPCNT (R45)
  ⟨0x120, [], .sys, [⟨31, 0, .rc, 0, .any⟩]⟩,
  -- GEN_CLAMPLAST (R45)
  ⟨0x124, [], .sys, [⟨31, 31, .ro, 0, .any⟩, ⟨30, 24, .ro, 0, .any⟩, ⟨23, 0, .ro, 0, .any⟩]⟩,
  -- GEN_SCRATCH (R46)
  ⟨0x128, [], .sys, [⟨31, 0, .rw, 0, .any⟩]⟩]

/-- The registers of PWR from window offset 16#0100 (R24, R25). -/
def regsPwr : List Reg := [
  -- PWR_CFG (R644)
  ⟨0x10100, [], .blk, [⟨31, 20, .rw, 300, .any⟩, ⟨19, 16, .rw, 0, .any⟩, ⟨4, 4, .ro, 0, .any⟩, ⟨3, 3, .rw, 0, .any⟩, ⟨2, 2, .rw, 0, .any⟩]⟩,
  -- PWR_VCFG (R644)
  ⟨0x10104, [], .blk, [⟨31, 31, .rw, 0, .any⟩, ⟨29, 20, .rw, 800, .range 650 900⟩, ⟨19, 10, .rw, 740, .range 720 900⟩, ⟨9, 0, .rw, 400, .range 200 1000⟩]⟩,
  -- PWR_VSTAT (R644)
  ⟨0x10108, [], .sys, [⟨31, 31, .ro, 0, .any⟩, ⟨25, 16, .ro, 800, .any⟩, ⟨9, 0, .ro, 0, .any⟩]⟩,
  -- PWR_PACE (R644)
  ⟨0x1010C, [], .sys, [⟨31, 16, .rc, 65535, .any⟩, ⟨15, 0, .ro, 0, .any⟩]⟩,
  -- PWR_TEMP (R644)
  ⟨0x10110, [], .sys, [⟨29, 20, .ro, 0, .any⟩, ⟨19, 10, .ro, 0, .any⟩, ⟨9, 0, .ro, 0, .any⟩]⟩,
  -- PWR_VSUP (R644)
  ⟨0x10114, [], .sys, [⟨15, 0, .ro, 0, .any⟩]⟩,
  -- PWR_RSTCAUSE (R644)
  ⟨0x10118, [], .por, [⟨6, 4, .ro, 0, .any⟩, ⟨1, 0, .ro, 0, .any⟩]⟩,
  -- PWR_SAFECAUSE (R644)
  ⟨0x1011C, [], .por, [⟨2, 0, .ro, 0, .any⟩]⟩,
  -- PWR_RESET (R644)
  ⟨0x10120, [], .sys, [⟨15, 0, .wo, 0, .any⟩]⟩]

/-- The registers of MER from window offset 16#0100 (R24, R25). -/
def regsMer : List Reg := [
  -- MER_SRC (R86)
  ⟨0x20100, [], .blk, [⟨21, 21, .rw, 1, .any⟩, ⟨20, 20, .rw, 0, .any⟩, ⟨19, 16, .rw, 12, .range 0 12⟩, ⟨15, 12, .rw, 12, .range 0 12⟩, ⟨11, 8, .rw, 12, .range 0 12⟩, ⟨7, 4, .rw, 11, .range 0 12⟩, ⟨3, 0, .rw, 0, .range 0 12⟩]⟩,
  -- MER_QUAL (R86)
  ⟨0x20104, [], .blk, [⟨23, 8, .rw, 300, .range 0 3600⟩, ⟨7, 0, .rw, 10, .range 1 255⟩]⟩,
  -- MER_SERVO (R86)
  ⟨0x20108, [], .blk, [⟨31, 16, .rw, 100, .range 20 10000⟩, ⟨15, 8, .rw, 16, .range 1 255⟩, ⟨3, 3, .rw, 0, .any⟩, ⟨2, 0, .rw, 2, .range 0 5⟩]⟩,
  -- MER_STEP (R86)
  ⟨0x2010C, [], .blk, [⟨31, 16, .rw, 100, .range 1 500⟩, ⟨15, 0, .rw, 10, .range 1 1000⟩]⟩,
  -- MER_HOLD (R86)
  ⟨0x20110, [], .blk, [⟨31, 24, .rw, 10, .range 1 255⟩, ⟨16, 0, .rw, 3600, .range 1 86400⟩]⟩,
  -- MER_STAT (R86)
  ⟨0x20114, [], .sys, [⟨27, 16, .ro, 2048, .any⟩, ⟨5, 2, .ro, 11, .any⟩, ⟨1, 0, .ro, 0, .any⟩]⟩,
  -- MER_OFFS (R86)
  ⟨0x20118, [], .sys, [⟨31, 0, .ro, 0, .any⟩]⟩,
  -- MER_FADJ (R86)
  ⟨0x2011C, [], .sys, [⟨31, 0, .ro, 0, .any⟩]⟩,
  -- MER_HFREQ (R86)
  ⟨0x20120, [], .blk, [⟨31, 0, .rw, 0, .srange (-200000000) 200000000⟩]⟩,
  -- MER_HPHASE (R86)
  ⟨0x20124, [], .blk, [⟨31, 0, .wo, 0, .any⟩]⟩,
  -- MER_UTC (R86)
  ⟨0x20128, [], .blk, [⟨16, 16, .rw, 1, .any⟩, ⟨15, 8, .rw, 25, .range 0 99⟩, ⟨7, 0, .rw, 37, .any⟩]⟩,
  -- MER_NOW_SLO (R86)
  ⟨0x20130, [], .sys, [⟨31, 0, .ro, 0, .any⟩]⟩,
  -- MER_NOW_HI (R86)
  ⟨0x20134, [], .sys, [⟨31, 16, .ro, 0, .any⟩, ⟨15, 0, .ro, 0, .any⟩]⟩,
  -- MER_NOW_NS (R86)
  ⟨0x20138, [], .sys, [⟨31, 0, .ro, 0, .any⟩]⟩,
  -- MER_TSET_LO (R86)
  ⟨0x20140, [], .blk, [⟨31, 0, .rw, 0, .any⟩]⟩,
  -- MER_TSET_HI (R86)
  ⟨0x20144, [], .blk, [⟨15, 0, .wo, 0, .any⟩]⟩,
  -- MER_DLY (R86)
  ⟨0x20150, [(4, 4)], .blk, [⟨23, 0, .rw, 0, .any⟩]⟩,
  -- MER_PORT (R86)
  ⟨0x20160, [], .blk, [⟨17, 17, .rw, 0, .any⟩, ⟨16, 16, .rw, 0, .any⟩, ⟨8, 0, .rw, 10, .range 1 500⟩]⟩,
  -- MER_SAOWN (R86)
  ⟨0x20200, [(4, 8)], .blk, [⟨3, 0, .rw, 0, .range 0 5⟩, ⟨7, 4, .rw, 0, .range 0 5⟩, ⟨11, 8, .rw, 0, .range 0 5⟩, ⟨15, 12, .rw, 0, .range 0 5⟩, ⟨19, 16, .rw, 0, .range 0 5⟩, ⟨23, 20, .rw, 0, .range 0 5⟩, ⟨27, 24, .rw, 0, .range 0 5⟩, ⟨31, 28, .rw, 0, .range 0 5⟩]⟩,
  -- MER_SASTATE (R86)
  ⟨0x20220, [(4, 4)], .sys, [⟨1, 0, .ro, 0, .any⟩, ⟨3, 2, .ro, 0, .any⟩, ⟨5, 4, .ro, 0, .any⟩, ⟨7, 6, .ro, 0, .any⟩, ⟨9, 8, .ro, 0, .any⟩, ⟨11, 10, .ro, 0, .any⟩, ⟨13, 12, .ro, 0, .any⟩, ⟨15, 14, .ro, 0, .any⟩, ⟨17, 16, .ro, 0, .any⟩, ⟨19, 18, .ro, 0, .any⟩, ⟨21, 20, .ro, 0, .any⟩, ⟨23, 22, .ro, 0, .any⟩, ⟨25, 24, .ro, 0, .any⟩, ⟨27, 26, .ro, 0, .any⟩, ⟨29, 28, .ro, 0, .any⟩, ⟨31, 30, .ro, 0, .any⟩]⟩]

/-- The registers of AFE from window offset 16#0100 (R24, R25). -/
def regsAfe : List Reg := [
  -- AFE_CCFG (R121)
  ⟨0x30100, [(4, 16)], .blk, [⟨31, 24, .rwl, 72, .range 1 255⟩, ⟨23, 17, .rwl, 70, .any⟩, ⟨16, 10, .rwl, 90, .range 50 95⟩, ⟨9, 9, .rwl, 0, .any⟩, ⟨8, 4, .rwl, 18, .range 14 22⟩, ⟨3, 2, .rwl, 0, .range 0 2⟩, ⟨0, 0, .rwl, 0, .any⟩]⟩,
  -- AFE_RSTAT (R121)
  ⟨0x30140, [], .blk, [⟨31, 16, .ro, 0, .any⟩, ⟨15, 0, .ro, 0, .any⟩]⟩,
  -- AFE_OVL (R121)
  ⟨0x30144, [], .blk, [⟨31, 16, .w1c, 0, .any⟩, ⟨15, 0, .w1c, 0, .any⟩]⟩,
  -- AFE_OVLV (R121)
  ⟨0x30148, [], .blk, [⟨7, 0, .w1c, 0, .any⟩]⟩,
  -- AFE_INJ (R121)
  ⟨0x30150, [], .blk, [⟨31, 31, .rw, 0, .any⟩, ⟨9, 8, .rw, 0, .any⟩, ⟨4, 0, .rw, 0, .range 0 23⟩]⟩,
  -- AFE_INJRES_HG (R121)
  ⟨0x30154, [], .blk, [⟨31, 0, .ro, 0, .any⟩]⟩,
  -- AFE_INJRES_LG (R121)
  ⟨0x30158, [], .blk, [⟨31, 0, .ro, 0, .any⟩]⟩,
  -- AFE_INJCNT (R121)
  ⟨0x3015C, [], .blk, [⟨15, 0, .ro, 0, .any⟩]⟩,
  -- AFE_OVLCNT (R121)
  ⟨0x30200, [(4, 40)], .blk, [⟨15, 0, .rc, 0, .any⟩]⟩,
  -- AFE_WCFG (R121)
  ⟨0x30300, [(4, 16)], .blk, [⟨31, 31, .rwl, 0, .any⟩, ⟨30, 30, .rwl, 0, .any⟩, ⟨29, 28, .rwl, 1, .range 0 2⟩, ⟨27, 26, .rwl, 0, .range 0 2⟩, ⟨7, 0, .rwl, 40, .range 1 255⟩]⟩,
  -- AFE_WTS_0 (R121)
  ⟨0x30400, [(16, 16)], .blk, [⟨31, 0, .ro, 0, .any⟩]⟩,
  -- AFE_WTS_1 (R121)
  ⟨0x30404, [(16, 16)], .blk, [⟨31, 0, .ro, 0, .any⟩]⟩,
  -- AFE_WTS_2 (R121)
  ⟨0x30408, [(16, 16)], .blk, [⟨31, 26, .ro, 0, .any⟩, ⟨16, 16, .ro, 0, .any⟩, ⟨15, 0, .ro, 0, .any⟩]⟩,
  -- AFE_WTS_3 (R121)
  ⟨0x3040C, [(16, 16)], .blk, [⟨31, 0, .ro, 0, .any⟩]⟩,
  -- AFE_TRIMDIG (R121)
  ⟨0x30600, [(4, 16)], .por, [⟨31, 0, .ro, 0, .any⟩]⟩,
  -- AFE_TRIM (R121)
  ⟨0x31000, [(4, 528)], .por, [⟨31, 0, .ro, 0, .any⟩]⟩]

/-- The registers of DCH from window offset 16#0100 (R24, R25). -/
def regsDch : List Reg := [
  -- DCH_TRK (R164)
  ⟨0x40100, [], .blk, [⟨21, 12, .rw, 100, .range 1 1000⟩, ⟨11, 11, .rw, 0, .any⟩, ⟨9, 8, .rw, 1, .range 0 2⟩, ⟨6, 4, .rw, 0, .any⟩, ⟨1, 0, .rw, 0, .range 0 2⟩]⟩,
  -- DCH_TRKFREQ (R164)
  ⟨0x40104, [], .blk, [⟨31, 0, .rw, 50000000, .range 10000000 70000000⟩]⟩,
  -- DCH_TRKSTAT (R164)
  ⟨0x40108, [], .blk, [⟨31, 0, .ro, 50000000, .any⟩]⟩,
  -- DCH_SEQ (R164)
  ⟨0x4010C, [], .blk, [⟨15, 0, .ro, 0, .any⟩]⟩,
  -- DCH_SYNCCFG (R164)
  ⟨0x40110, [], .blk, [⟨8, 8, .wo, 0, .any⟩, ⟨1, 1, .rw, 0, .any⟩, ⟨0, 0, .rw, 0, .any⟩]⟩,
  -- DCH_LASTSYNC_SLO (R164)
  ⟨0x40114, [], .sys, [⟨31, 0, .ro, 0, .any⟩]⟩,
  -- DCH_LASTSYNC_HI (R164)
  ⟨0x40118, [], .sys, [⟨18, 16, .ro, 0, .any⟩, ⟨15, 0, .ro, 0, .any⟩]⟩,
  -- DCH_LASTSYNC_NS (R164)
  ⟨0x4011C, [], .sys, [⟨31, 0, .ro, 0, .any⟩]⟩,
  -- DCH_CH (R164)
  ⟨0x40200, [(4, 24)], .blk, [⟨31, 31, .rw, 1, .any⟩, ⟨22, 20, .ro, 0, .any⟩, ⟨18, 16, .ro, 0, .any⟩, ⟨9, 9, .rw, 0, .any⟩, ⟨8, 8, .rw, 0, .any⟩, ⟨4, 0, .rw, 0, .any⟩]⟩,
  -- DCH_FADE (R164)
  ⟨0x40300, [(16, 24), (4, 3)], .blk, [⟨24, 16, .ro, 8, .any⟩, ⟨8, 0, .ro, 0, .any⟩]⟩,
  -- DCH_CLIPCNT (R164)
  ⟨0x40480, [(4, 24)], .blk, [⟨15, 0, .rc, 0, .any⟩]⟩,
  -- DCH_BLEN (R164)
  ⟨0x40500, [(8, 3), (4, 2)], .blk, [⟨7, 0, .rw, 0, .odd⟩]⟩,
  -- DCH_BDEF (R164)
  ⟨0x40520, [], .blk, [⟨5, 0, .wo, 0, .any⟩]⟩,
  -- DCH_COEF (R164)
  ⟨0x41000, [(1024, 3), (512, 2), (4, 128)], .blk, [⟨23, 0, .rw, 0, .any⟩]⟩]

/-- The registers of PHE from window offset 16#0100 (R24, R25). -/
def regsPhe : List Reg := [
  -- PHE_GCFG (R191)
  ⟨0x50100, [(4, 8)], .blk, [⟨31, 31, .rwl, 0, .any⟩, ⟨15, 8, .rwl, 40, .range 5 250⟩, ⟨7, 7, .rwl, 0, .any⟩, ⟨6, 6, .rwl, 0, .any⟩, ⟨5, 5, .rwl, 0, .any⟩, ⟨4, 4, .rwl, 0, .any⟩, ⟨3, 3, .rwl, 0, .any⟩, ⟨2, 2, .rwl, 0, .any⟩, ⟨1, 0, .rwl, 0, .range 0 2⟩]⟩,
  -- PHE_GCHI (R191)
  ⟨0x50120, [(4, 8)], .blk, [⟨28, 24, .rwl, 0, .subst [(16, 30, 31)]⟩, ⟨20, 16, .rwl, 0, .subst [(16, 30, 31)]⟩, ⟨12, 8, .rwl, 0, .subst [(16, 30, 31)]⟩, ⟨4, 0, .rwl, 0, .subst [(16, 30, 31)]⟩]⟩,
  -- PHE_GCHV (R191)
  ⟨0x50140, [(4, 8)], .blk, [⟨28, 24, .rwl, 0, .subst [(0, 15, 16), (24, 30, 31)]⟩, ⟨20, 16, .rwl, 0, .subst [(0, 15, 16), (24, 30, 31)]⟩, ⟨12, 8, .rwl, 0, .subst [(0, 15, 16), (24, 30, 31)]⟩, ⟨4, 0, .rwl, 0, .subst [(0, 15, 16), (24, 30, 31)]⟩]⟩,
  -- PHE_GTHR (R191)
  ⟨0x50160, [(4, 8)], .blk, [⟨31, 16, .rwl, 500, .range 1 10000⟩, ⟨15, 0, .rwl, 500, .range 1 65535⟩]⟩,
  -- PHE_GFCFG (R191)
  ⟨0x50180, [(4, 8)], .blk, [⟨25, 16, .rwl, 100, .range 1 1000⟩, ⟨4, 0, .rwl, 4, .range 1 16⟩]⟩,
  -- PHE_HFREQ (R191)
  ⟨0x501A0, [(4, 8)], .blk, [⟨31, 0, .rw, 50000000, .range 10000000 70000000⟩]⟩,
  -- PHE_GSTAT (R191)
  ⟨0x501C0, [(4, 8)], .blk, [⟨1, 0, .ro, 2, .any⟩]⟩,
  -- PHE_K0RE (R191)
  ⟨0x50200, [(8, 8)], .blk, [⟨31, 0, .rwl, 0, .f32 (-10) 10 0⟩]⟩,
  -- PHE_K0IM (R191)
  ⟨0x50204, [(8, 8)], .blk, [⟨31, 0, .rwl, 0, .f32 (-10) 10 0⟩]⟩,
  -- PHE_RGRP (R191)
  ⟨0x50240, [(4, 8)], .blk, [⟨31, 31, .rwl, 0, .any⟩, ⟨29, 28, .rwl, 0, .any⟩, ⟨27, 22, .rwl, 0, .any⟩, ⟨20, 18, .rwl, 0, .any⟩, ⟨17, 15, .rwl, 0, .any⟩, ⟨7, 0, .rwl, 16, .range 1 255⟩]⟩,
  -- PHE_RCFG (R191)
  ⟨0x50260, [(4, 8)], .blk, [⟨15, 8, .rwl, 40, .range 5 250⟩, ⟨7, 7, .rwl, 0, .any⟩, ⟨6, 6, .rwl, 0, .any⟩, ⟨5, 5, .rwl, 0, .any⟩, ⟨4, 4, .rwl, 0, .any⟩, ⟨3, 3, .rwl, 0, .any⟩, ⟨2, 2, .rwl, 0, .any⟩, ⟨1, 0, .rwl, 0, .range 0 2⟩]⟩,
  -- PHE_RTHR (R191)
  ⟨0x50280, [(4, 8)], .blk, [⟨31, 16, .rwl, 100, .range 1 65535⟩, ⟨15, 0, .rwl, 5, .range 1 65535⟩]⟩,
  -- PHE_RSTAT (R191)
  ⟨0x502A0, [(4, 8)], .blk, [⟨1, 1, .ro, 0, .any⟩, ⟨0, 0, .ro, 1, .any⟩]⟩,
  -- PHE_SEQ (R191)
  ⟨0x502C0, [], .blk, [⟨15, 0, .ro, 0, .any⟩]⟩,
  -- PHE_QV (R191)
  ⟨0x51000, [(4, 1024)], .blk, [⟨31, 0, .ro, 0, .any⟩]⟩,
  -- PHE_QQ (R191)
  ⟨0x52000, [(4, 256)], .blk, [⟨7, 0, .ro, 128, .any⟩, ⟨15, 8, .ro, 128, .any⟩, ⟨23, 16, .ro, 128, .any⟩, ⟨31, 24, .ro, 128, .any⟩]⟩]

/-- The registers of ELE from window offset 16#0100 (R24, R25). -/
def regsEle : List Reg := [
  -- ELE_CFG (R231)
  ⟨0x60100, [(4, 256)], .blk, [⟨31, 24, .rwl, 161, .any⟩, ⟨23, 20, .rwl, 0, .any⟩, ⟨19, 19, .rwl, 1, .any⟩, ⟨17, 16, .rwl, 1, .range 0 2⟩, ⟨12, 8, .rwl, 0, .range 0 15⟩, ⟨1, 0, .rwl, 0, .any⟩]⟩,
  -- ELE_SRC (R231)
  ⟨0x60500, [(4, 256)], .blk, [⟨18, 18, .rwl, 0, .any⟩, ⟨17, 8, .rwl, 0, .any⟩, ⟨7, 4, .rwl, 0, .any⟩, ⟨3, 0, .rwl, 0, .any⟩]⟩,
  -- ELE_LNK (R231)
  ⟨0x60900, [(4, 256)], .blk, [⟨31, 30, .rwl, 0, .any⟩, ⟨29, 22, .rwl, 0, .any⟩, ⟨21, 20, .rwl, 0, .range 0 2⟩, ⟨19, 12, .rwl, 0, .any⟩, ⟨9, 8, .rwl, 0, .range 0 2⟩, ⟨7, 0, .rwl, 0, .any⟩]⟩,
  -- ELE_STAT (R231)
  ⟨0x60D00, [(4, 256)], .blk, [⟨31, 24, .ro, 0, .any⟩, ⟨23, 22, .ro, 0, .any⟩, ⟨21, 21, .ro, 0, .any⟩, ⟨20, 20, .ro, 0, .any⟩, ⟨19, 16, .ro, 0, .any⟩, ⟨15, 12, .ro, 0, .any⟩, ⟨3, 3, .ro, 0, .any⟩, ⟨2, 2, .ro, 0, .any⟩, ⟨1, 1, .ro, 0, .any⟩, ⟨0, 0, .ro, 0, .any⟩]⟩,
  -- ELE_ACC (R231)
  ⟨0x61100, [(4, 256)], .blk, [⟨31, 0, .ro, 0, .any⟩]⟩,
  -- ELE_START (R231)
  ⟨0x61500, [(4, 8)], .blk, [⟨31, 0, .ro, 0, .any⟩]⟩,
  -- ELE_OPER (R231)
  ⟨0x61520, [(4, 8)], .blk, [⟨31, 0, .ro, 0, .any⟩]⟩,
  -- ELE_SEQ (R231)
  ⟨0x61540, [], .blk, [⟨15, 0, .ro, 0, .any⟩]⟩,
  -- ELE_EVT (R231)
  ⟨0x61544, [], .blk, [⟨31, 16, .rc, 0, .any⟩, ⟨15, 0, .ro, 0, .any⟩]⟩,
  -- ELE_PIOCCNT (R231)
  ⟨0x61548, [], .blk, [⟨5, 0, .ro, 0, .any⟩]⟩,
  -- ELE_SET (R231)
  ⟨0x64000, [(64, 256), (4, 16)], .blk, [⟨31, 0, .rw, 0, .any⟩]⟩,
  -- ELE_UCRV (R231)
  ⟨0x68000, [(256, 8), (4, 64)], .blk, [⟨31, 0, .rw, 1065353216, .f32 (1 / 1000) 10000 1⟩]⟩]

/-- The registers of TMX from window offset 16#0100 (R24, R25). -/
def regsTmx : List Reg := [
  -- TMX_ROW (R304)
  ⟨0x70100, [(4, 64)], .blk, [⟨31, 31, .rw, 0, .any⟩, ⟨30, 28, .rwl, 0, .range 0 4⟩, ⟨27, 26, .rwl, 0, .range 0 2⟩, ⟨25, 25, .rw, 0, .any⟩, ⟨24, 24, .rwl, 1, .any⟩, ⟨19, 19, .ro, 0, .any⟩, ⟨18, 18, .ro, 0, .any⟩, ⟨17, 17, .ro, 0, .any⟩, ⟨16, 16, .ro, 0, .any⟩, ⟨8, 8, .rwl, 0, .any⟩]⟩,
  -- TMX_BLK (R304)
  ⟨0x70200, [(8, 64), (4, 2)], .blk, [⟨31, 31, .rwl, 0, .any⟩, ⟨24, 16, .rwl, 511, .subst [(352, 431, 351), (432, 510, 511)]⟩, ⟨15, 15, .rwl, 0, .any⟩, ⟨8, 0, .rwl, 511, .subst [(352, 431, 351), (432, 510, 511)]⟩]⟩,
  -- TMX_DST (R304)
  ⟨0x70400, [(4, 64)], .blk, [⟨27, 24, .rwl, 0, .any⟩, ⟨20, 16, .rwl, 16, .range 0 16⟩, ⟨15, 0, .rwl, 0, .any⟩]⟩,
  -- TMX_DST2 (R304)
  ⟨0x70500, [(4, 64)], .blk, [⟨31, 16, .rwl, 0, .any⟩, ⟨8, 8, .rwl, 0, .any⟩, ⟨7, 4, .rwl, 0, .any⟩, ⟨3, 0, .rwl, 0, .any⟩]⟩,
  -- TMX_SEAL (R304)
  ⟨0x70600, [(4, 64)], .blk, [⟨31, 30, .rwl, 0, .any⟩, ⟨29, 22, .rwl, 0, .any⟩, ⟨21, 17, .rwl, 0, .any⟩, ⟨16, 16, .rwl, 0, .any⟩, ⟨15, 8, .rwl, 0, .any⟩, ⟨7, 0, .rwl, 20, .any⟩]⟩,
  -- TMX_COMMIT (R304)
  ⟨0x70700, [], .blk, [⟨5, 0, .wo, 0, .any⟩]⟩,
  -- TMX_OUT (R304)
  ⟨0x70710, [(4, 2)], .blk, [⟨31, 0, .ro, 0, .any⟩]⟩,
  -- TMX_SEALST (R304)
  ⟨0x70718, [(4, 2)], .blk, [⟨31, 0, .ro, 0, .any⟩]⟩,
  -- TMX_REVT (R304)
  ⟨0x70720, [(4, 2)], .blk, [⟨31, 0, .w1c, 0, .any⟩]⟩,
  -- TMX_REVTCNT (R304)
  ⟨0x70900, [(4, 64)], .blk, [⟨15, 0, .rc, 0, .any⟩]⟩,
  -- TMX_SLACK (R304)
  ⟨0x70730, [], .blk, [⟨31, 16, .ro, 50000, .any⟩, ⟨15, 0, .ro, 0, .any⟩]⟩,
  -- TMX_SLACKMIN (R304)
  ⟨0x70734, [], .blk, [⟨15, 0, .rc, 32767, .any⟩]⟩,
  -- TMX_SLACKLOW (R304)
  ⟨0x70738, [], .blk, [⟨31, 0, .rc, 0, .any⟩]⟩,
  -- TMX_PSLACK (R304)
  ⟨0x7073C, [], .blk, [⟨31, 16, .rc, 32767, .any⟩, ⟨15, 0, .ro, 0, .any⟩]⟩,
  -- TMX_TCS (R304)
  ⟨0x70800, [(4, 16)], .blk, [⟨31, 31, .rw, 0, .any⟩, ⟨30, 30, .rw, 0, .any⟩, ⟨29, 28, .rw, 0, .any⟩, ⟨27, 24, .rw, 3, .range 1 15⟩, ⟨21, 12, .rw, 900, .range 0 1000⟩, ⟨11, 2, .rw, 100, .any⟩, ⟨1, 1, .rw, 0, .any⟩]⟩,
  -- TMX_TCSST (R304)
  ⟨0x70840, [], .blk, [⟨31, 16, .ro, 0, .any⟩, ⟨15, 0, .ro, 0, .any⟩]⟩,
  -- TMX_SEL (R304)
  ⟨0x71000, [(64, 64), (4, 11)], .blk, [⟨31, 0, .rwl, 0, .any⟩]⟩]

/-- The registers of BCP from window offset 16#0100 (R24, R25). -/
def regsBcp : List Reg := [
  -- BCP_CFG (R346)
  ⟨0x80100, [(4, 4)], .blk, [⟨27, 24, .rwl, 3, .any⟩, ⟨23, 20, .rwl, 0, .any⟩, ⟨19, 19, .rwl, 0, .any⟩, ⟨9, 0, .rwl, 100, .range 1 1000⟩]⟩,
  -- BCP_HMASK (R346)
  ⟨0x80110, [(4, 4)], .blk, [⟨15, 0, .rwl, 0, .any⟩]⟩,
  -- BCP_STATE (R346)
  ⟨0x80120, [(4, 4)], .blk, [⟨31, 16, .ro, 0, .any⟩, ⟨14, 6, .ro, 0, .any⟩, ⟨5, 5, .ro, 0, .any⟩, ⟨4, 4, .ro, 0, .any⟩, ⟨3, 3, .ro, 0, .any⟩, ⟨2, 2, .ro, 0, .any⟩, ⟨1, 0, .ro, 0, .any⟩]⟩,
  -- BCP_IMASK (R346)
  ⟨0x80130, [(4, 4)], .blk, [⟨0, 0, .rw, 0, .any⟩]⟩,
  -- BCP_FAIL (R346)
  ⟨0x80140, [(4, 4)], .blk, [⟨7, 4, .ro, 0, .any⟩, ⟨1, 0, .ro, 0, .any⟩]⟩,
  -- BCP_ARITH (R346)
  ⟨0x80150, [(4, 4)], .blk, [⟨15, 0, .w1c, 0, .any⟩]⟩,
  -- BCP_ARITHCNT (R346)
  ⟨0x80A00, [(64, 4), (4, 16)], .blk, [⟨15, 0, .rc, 0, .any⟩]⟩,
  -- BCP_IMGID (R346)
  ⟨0x80160, [(8, 4), (4, 2)], .blk, [⟨31, 0, .ro, 0, .any⟩]⟩,
  -- BCP_EVTLOST (R346)
  ⟨0x80180, [], .blk, [⟨15, 0, .rc, 0, .any⟩]⟩,
  -- BCP_SCAN (R346)
  ⟨0x80200, [(128, 4), (4, 32)], .blk, [⟨31, 31, .rw, 0, .any⟩, ⟨19, 16, .rw, 0, .any⟩, ⟨7, 0, .rw, 0, .any⟩]⟩,
  -- BCP_TASK_0 (R346)
  ⟨0x80400, [(256, 4), (16, 16)], .blk, [⟨11, 8, .ro, 0, .any⟩, ⟨2, 0, .ro, 0, .any⟩]⟩,
  -- BCP_TASK_1 (R346)
  ⟨0x80404, [(256, 4), (16, 16)], .blk, [⟨31, 0, .ro, 0, .any⟩]⟩,
  -- BCP_TASK_2 (R346)
  ⟨0x80408, [(256, 4), (16, 16)], .blk, [⟨31, 0, .ro, 0, .any⟩]⟩,
  -- BCP_TASK_3 (R346)
  ⟨0x8040C, [(256, 4), (16, 16)], .blk, [⟨31, 0, .ro, 0, .any⟩]⟩,
  -- BCP_TSTAT_0 (R346)
  ⟨0x80800, [(128, 4), (8, 16)], .blk, [⟨31, 16, .rc, 0, .any⟩, ⟨3, 0, .ro, 0, .any⟩]⟩,
  -- BCP_TSTAT_1 (R346)
  ⟨0x80804, [(128, 4), (8, 16)], .blk, [⟨31, 0, .rc, 0, .any⟩]⟩]

/-- The registers of ICU from window offset 16#0100 (R24, R25). -/
def regsIcu : List Reg := [
  -- ICU_MODE (R404)
  ⟨0x90100, [], .blk, [⟨0, 0, .rw, 0, .any⟩]⟩,
  -- ICU_BADDONE (R404)
  ⟨0x90104, [], .blk, [⟨31, 24, .ro, 0, .any⟩, ⟨15, 0, .rc, 0, .any⟩]⟩,
  -- ICU_BADTAKE (R404)
  ⟨0x90108, [], .blk, [⟨31, 24, .ro, 0, .any⟩, ⟨15, 0, .rc, 0, .any⟩]⟩,
  -- ICU_TAKE (R404)
  ⟨0x90110, [], .blk, [⟨7, 0, .wo, 0, .any⟩]⟩,
  -- ICU_DONE (R404)
  ⟨0x90114, [], .blk, [⟨7, 0, .wo, 0, .any⟩]⟩,
  -- ICU_SWSET (R404)
  ⟨0x90120, [(4, 5)], .blk, [⟨31, 16, .w1s, 0, .any⟩, ⟨15, 0, .w1s, 0, .any⟩]⟩,
  -- ICU_RAW (R404)
  ⟨0x90140, [(4, 8)], .blk, [⟨31, 0, .w1c, 0, .any⟩]⟩,
  -- ICU_EN (R404)
  ⟨0x90160, [(4, 8)], .blk, [⟨31, 0, .rw, 0, .any⟩]⟩,
  -- ICU_ACT (R404)
  ⟨0x90180, [(4, 8)], .blk, [⟨31, 0, .ro, 0, .any⟩]⟩,
  -- ICU_PEND (R404)
  ⟨0x90200, [(32, 6), (4, 8)], .blk, [⟨31, 0, .ro, 0, .any⟩]⟩,
  -- ICU_SRC (R404)
  ⟨0x90400, [(4, 256)], .blk, [⟨27, 27, .ro, 0, .any⟩, ⟨26, 26, .ro, 0, .any⟩, ⟨25, 25, .ro, 0, .any⟩, ⟨24, 24, .ro, 0, .any⟩, ⟨16, 16, .rw, 0, .any⟩, ⟨13, 8, .rw, 0, .any⟩, ⟨2, 0, .rw, 0, .range 0 6⟩]⟩,
  -- ICU_CNT (R404)
  ⟨0x90800, [(4, 256)], .blk, [⟨15, 0, .rc, 0, .any⟩]⟩]

/-- The registers of REC from window offset 16#0100 (R24, R25). -/
def regsRec : List Reg := [
  -- REC_CFG (R439)
  ⟨0xA0100, [(4, 4)], .blk, [⟨25, 16, .rw, 10, .range 1 1000⟩, ⟨7, 7, .rw, 0, .any⟩, ⟨6, 6, .rw, 0, .any⟩, ⟨5, 5, .rw, 0, .any⟩, ⟨4, 4, .rw, 0, .any⟩, ⟨2, 0, .rw, 4, .range 0 4⟩]⟩,
  -- REC_LEN (R439)
  ⟨0xA0110, [(4, 4)], .blk, [⟨31, 16, .rw, 3200, .range 1 65535⟩, ⟨15, 0, .rw, 1600, .any⟩]⟩,
  -- REC_CHM (R439)
  ⟨0xA0120, [(4, 4)], .blk, [⟨23, 0, .rw, 16777215, .any⟩]⟩,
  -- REC_BIN (R439)
  ⟨0xA0130, [(4, 4)], .blk, [⟨14, 8, .rw, 0, .range 0 64⟩, ⟨7, 0, .rw, 0, .any⟩]⟩,
  -- REC_PTRIG (R439)
  ⟨0xA0140, [(4, 4)], .blk, [⟨31, 16, .rw, 0, .any⟩, ⟨4, 4, .rw, 0, .any⟩, ⟨3, 3, .rw, 0, .any⟩, ⟨2, 2, .rw, 0, .any⟩, ⟨1, 1, .rw, 0, .any⟩, ⟨0, 0, .rw, 0, .any⟩]⟩,
  -- REC_DTRIG (R439)
  ⟨0xA0150, [(8, 4), (4, 2)], .blk, [⟨31, 0, .rw, 0, .any⟩]⟩,
  -- REC_STAT (R439)
  ⟨0xA0180, [(4, 4)], .blk, [⟨31, 16, .ro, 0, .any⟩, ⟨2, 0, .ro, 0, .any⟩]⟩,
  -- REC_IDX (R439)
  ⟨0xA0190, [(4, 4)], .blk, [⟨31, 0, .ro, 0, .any⟩]⟩,
  -- REC_GAPCNT (R439)
  ⟨0xA01A0, [(4, 4)], .blk, [⟨31, 0, .rc, 0, .any⟩]⟩,
  -- REC_TRIGCNT (R439)
  ⟨0xA01B0, [(4, 4)], .blk, [⟨31, 0, .rc, 0, .any⟩]⟩,
  -- REC_WFCFG (R439)
  ⟨0xA01C0, [], .blk, [⟨31, 16, .rw, 65535, .range 1 65535⟩, ⟨15, 0, .rw, 0, .any⟩]⟩,
  -- REC_FLCFG (R439)
  ⟨0xA01C4, [], .blk, [⟨31, 22, .rw, 100, .range 1 1000⟩, ⟨21, 4, .rw, 50, .any⟩, ⟨3, 3, .rw, 0, .any⟩, ⟨2, 0, .rw, 0, .any⟩]⟩,
  -- REC_FLVEL (R439)
  ⟨0xA01C8, [], .blk, [⟨31, 0, .rw, 1133576192, .f32 50 300 290⟩]⟩,
  -- REC_FLLAST (R439)
  ⟨0xA01CC, [], .blk, [⟨31, 0, .ro, 0, .any⟩]⟩,
  -- REC_MRES (R439)
  ⟨0xA01D0, [], .blk, [⟨31, 16, .rc, 0, .any⟩, ⟨15, 0, .ro, 0, .any⟩]⟩,
  -- REC_LVL_0 (R439)
  ⟨0xA0200, [(32, 4), (8, 4)], .blk, [⟨31, 31, .rw, 0, .any⟩, ⟨30, 29, .rw, 0, .range 0 2⟩, ⟨28, 28, .rw, 0, .any⟩, ⟨27, 20, .rw, 161, .any⟩, ⟨9, 0, .rw, 0, .any⟩]⟩,
  -- REC_LVL_1 (R439)
  ⟨0xA0204, [(32, 4), (8, 4)], .blk, [⟨31, 0, .rw, 0, .nan 0⟩]⟩,
  -- REC_QSEL (R439)
  ⟨0xA0400, [(256, 4), (4, 64)], .blk, [⟨9, 0, .rw, 0, .any⟩]⟩,
  -- REC_ETRIG (R439)
  ⟨0xA0800, [(32, 4), (4, 8)], .blk, [⟨31, 0, .rw, 0, .any⟩]⟩]

/-- The registers of AUX from window offset 16#0100 (R24, R25). -/
def regsAux : List Reg := [
  -- AUX_CFG (R510)
  ⟨0xB0100, [(4, 2)], .blk, [⟨31, 31, .rw, 0, .any⟩, ⟨30, 30, .rw, 0, .any⟩, ⟨29, 28, .rw, 0, .any⟩, ⟨26, 24, .rw, 0, .any⟩, ⟨22, 20, .rw, 0, .any⟩, ⟨18, 16, .rw, 0, .any⟩, ⟨15, 0, .rw, 0, .any⟩]⟩,
  -- AUX_SEQ (R510)
  ⟨0xB0110, [(4, 2)], .blk, [⟨30, 28, .rw, 1, .range 1 7⟩, ⟨3, 0, .rw, 4, .range 0 9⟩, ⟨7, 4, .rw, 4, .range 0 9⟩, ⟨11, 8, .rw, 4, .range 0 9⟩, ⟨15, 12, .rw, 4, .range 0 9⟩, ⟨19, 16, .rw, 4, .range 0 9⟩, ⟨23, 20, .rw, 4, .range 0 9⟩, ⟨27, 24, .rw, 4, .range 0 9⟩]⟩,
  -- AUX_BUF (R510)
  ⟨0xB0120, [(4, 2)], .blk, [⟨5, 0, .rw, 1, .range 1 32⟩]⟩,
  -- AUX_BUFBASE (R510)
  ⟨0xB0130, [(4, 2)], .blk, [⟨22, 0, .ro, 0, .any⟩]⟩,
  -- AUX_WIDX (R510)
  ⟨0xB0140, [(4, 2)], .blk, [⟨31, 0, .ro, 0, .any⟩]⟩,
  -- AUX_STAT (R510)
  ⟨0xB0150, [(4, 2)], .blk, [⟨31, 16, .rc, 0, .any⟩, ⟨6, 4, .ro, 0, .any⟩, ⟨0, 0, .ro, 0, .any⟩]⟩,
  -- AUX_LOST (R510)
  ⟨0xB0160, [(4, 2)], .blk, [⟨15, 0, .rc, 0, .any⟩]⟩,
  -- PTMR_CFG_0 (R510)
  ⟨0xB0200, [(16, 8)], .blk, [⟨1, 0, .rw, 0, .range 0 2⟩]⟩,
  -- PTMR_CFG_1 (R510)
  ⟨0xB0204, [(16, 8)], .blk, [⟨23, 0, .rw, 1000, .range 10 10000000⟩]⟩,
  -- PTMR_CFG_2 (R510)
  ⟨0xB0208, [(16, 8)], .blk, [⟨23, 0, .rw, 0, .any⟩]⟩,
  -- PTMR_CFG_3 (R510)
  ⟨0xB020C, [(16, 8)], .blk, [⟨23, 0, .rw, 0, .any⟩]⟩,
  -- PTMR_STAT (R510)
  ⟨0xB0280, [], .blk, [⟨31, 24, .w1c, 0, .any⟩, ⟨15, 8, .ro, 0, .any⟩, ⟨7, 0, .ro, 0, .any⟩]⟩]

/-- The registers of FIO from window offset 16#0100 (R24, R25). -/
def regsFio : List Reg := [
  -- FIO_DICFG (R469)
  ⟨0xC0100, [(4, 32)], .blk, [⟨31, 16, .rw, 30, .range 1 65535⟩, ⟨9, 8, .rw, 1, .range 0 2⟩, ⟨0, 0, .rw, 0, .any⟩]⟩,
  -- FIO_DISTATE (R469)
  ⟨0xC0180, [], .blk, [⟨31, 0, .ro, 0, .any⟩]⟩,
  -- FIO_DIRAW (R469)
  ⟨0xC0184, [], .blk, [⟨31, 0, .ro, 0, .any⟩]⟩,
  -- FIO_DITS_0 (R469)
  ⟨0xC0200, [(16, 32)], .blk, [⟨31, 0, .ro, 0, .any⟩]⟩,
  -- FIO_DITS_1 (R469)
  ⟨0xC0204, [(16, 32)], .blk, [⟨31, 0, .ro, 0, .any⟩]⟩,
  -- FIO_DITS_2 (R469)
  ⟨0xC0208, [(16, 32)], .blk, [⟨16, 16, .ro, 0, .any⟩, ⟨15, 0, .ro, 0, .any⟩]⟩,
  -- FIO_DITS_3 (R469)
  ⟨0xC020C, [(16, 32)], .blk, [⟨31, 0, .ro, 0, .any⟩]⟩,
  -- FIO_DOCFG (R469)
  ⟨0xC0400, [(4, 16)], .blk, [⟨31, 29, .rwl, 0, .range 0 5⟩, ⟨28, 26, .rwl, 0, .any⟩, ⟨25, 24, .rwl, 0, .range 0 2⟩, ⟨23, 23, .rwl, 0, .any⟩, ⟨22, 22, .rw, 0, .any⟩]⟩,
  -- FIO_REQ (R469)
  ⟨0xC0480, [], .blk, [⟨31, 16, .wo, 0, .any⟩, ⟨15, 0, .wo, 0, .any⟩]⟩,
  -- FIO_REQST (R469)
  ⟨0xC0484, [], .blk, [⟨31, 16, .ro, 0, .any⟩, ⟨15, 0, .ro, 0, .any⟩]⟩,
  -- FIO_CMD (R469)
  ⟨0xC0488, [], .blk, [⟨31, 16, .ro, 0, .any⟩, ⟨15, 0, .ro, 0, .any⟩]⟩,
  -- FIO_OUTST (R469)
  ⟨0xC048C, [], .blk, [⟨31, 16, .ro, 0, .any⟩, ⟨15, 0, .ro, 0, .any⟩]⟩,
  -- FIO_FLTST (R469)
  ⟨0xC0490, [], .blk, [⟨31, 16, .ro, 0, .any⟩, ⟨15, 0, .ro, 0, .any⟩]⟩,
  -- FIO_EXTST (R469)
  ⟨0xC0494, [], .blk, [⟨31, 16, .ro, 0, .any⟩, ⟨15, 0, .ro, 0, .any⟩]⟩,
  -- FIO_FLTLAT (R469)
  ⟨0xC04A0, [(4, 4)], .blk, [⟨15, 0, .w1c, 0, .any⟩]⟩,
  -- FIO_FLTCNT (R469)
  ⟨0xC0600, [(64, 4), (4, 16)], .blk, [⟨15, 0, .rc, 0, .any⟩]⟩,
  -- FIO_WDCFG (R469)
  ⟨0xC04C0, [], .blk, [⟨17, 17, .rwl, 0, .any⟩, ⟨16, 16, .rwl, 0, .any⟩, ⟨9, 0, .rwl, 100, .range 1 1000⟩]⟩,
  -- FIO_WDSTAT (R469)
  ⟨0xC04C4, [], .blk, [⟨31, 16, .rc, 0, .any⟩, ⟨0, 0, .ro, 0, .any⟩]⟩,
  -- FIO_EDGELOST (R469)
  ⟨0xC04C8, [], .blk, [⟨15, 0, .rc, 0, .any⟩]⟩,
  -- FIO_TPCFG (R469)
  ⟨0xC0500, [(4, 16)], .blk, [⟨31, 30, .rw, 0, .range 0 2⟩, ⟨24, 16, .rw, 200, .range 10 400⟩, ⟨15, 0, .rw, 0, .subst [(1, 9, 10), (60001, 65535, 60000)]⟩]⟩,
  -- FIO_TPRES (R469)
  ⟨0xC0540, [(4, 16)], .blk, [⟨31, 16, .rc, 0, .any⟩, ⟨15, 1, .rc, 0, .any⟩, ⟨0, 0, .ro, 0, .any⟩]⟩]

/-- The registers of RIO from window offset 16#0100 (R24, R25). -/
def regsRio : List Reg := [
  -- RIO_LCFG (R490)
  ⟨0xD0100, [(4, 8)], .blk, [⟨31, 31, .rw, 0, .any⟩, ⟨27, 24, .rw, 3, .range 1 15⟩, ⟨20, 16, .rw, 4, .range 2 20⟩, ⟨15, 0, .rw, 1000, .any⟩]⟩,
  -- RIO_LPHASE (R490)
  ⟨0xD0120, [(4, 8)], .blk, [⟨15, 0, .rw, 0, .any⟩]⟩,
  -- RIO_LSTAT (R490)
  ⟨0xD0140, [(4, 8)], .blk, [⟨31, 16, .ro, 0, .any⟩, ⟨15, 0, .ro, 0, .any⟩]⟩,
  -- RIO_HCFG (R490)
  ⟨0xD0160, [], .blk, [⟨9, 0, .rw, 100, .range 1 1000⟩]⟩,
  -- RIO_ST (R490)
  ⟨0xD0200, [(64, 8), (4, 16)], .blk, [⟨31, 31, .rw, 0, .any⟩, ⟨30, 28, .rw, 0, .range 0 4⟩, ⟨27, 26, .rw, 2, .range 0 2⟩, ⟨25, 24, .rw, 2, .range 0 2⟩, ⟨22, 16, .rw, 0, .range 0 64⟩, ⟨14, 8, .rw, 0, .range 0 64⟩]⟩,
  -- RIO_SST (R490)
  ⟨0xD0400, [(64, 8), (4, 16)], .blk, [⟨31, 30, .ro, 0, .any⟩, ⟨27, 24, .ro, 0, .any⟩, ⟨23, 16, .ro, 16, .any⟩, ⟨15, 8, .rc, 0, .any⟩, ⟨7, 0, .ro, 0, .any⟩]⟩,
  -- RIO_SUBIN (R490)
  ⟨0xD1000, [(1024, 8), (64, 16), (4, 16)], .blk, [⟨31, 0, .rw, 0, .any⟩]⟩,
  -- RIO_SUBOUT (R490)
  ⟨0xD3000, [(1024, 8), (64, 16), (4, 16)], .blk, [⟨31, 0, .rw, 0, .any⟩]⟩,
  -- RIO_IN (R490)
  ⟨0xD5000, [(1024, 8), (64, 16), (4, 16)], .blk, [⟨31, 0, .ro, 0, .any⟩]⟩]

/-- The registers of NET from window offset 16#0100 (R24, R25). -/
def regsNet : List Reg := [
  -- NET_PORT (R546)
  ⟨0xE0100, [(4, 8)], .blk, [⟨31, 31, .rw, 0, .any⟩, ⟨30, 30, .ro, 0, .any⟩, ⟨29, 28, .rwl, 0, .range 0 2⟩, ⟨27, 27, .rwl, 0, .any⟩, ⟨26, 26, .rwl, 1, .any⟩]⟩,
  -- NET_PAIR (R546)
  ⟨0xE0120, [(4, 4)], .blk, [⟨25, 16, .rwl, 400, .range 10 1000⟩, ⟨1, 0, .rwl, 0, .range 0 2⟩]⟩,
  -- NET_PTPCFG (R546)
  ⟨0xE0130, [], .blk, [⟨31, 24, .rwl, 128, .any⟩, ⟨23, 16, .rwl, 128, .any⟩, ⟨15, 8, .rwl, 0, .any⟩, ⟨1, 1, .rwl, 0, .any⟩, ⟨0, 0, .rwl, 0, .any⟩]⟩,
  -- NET_PTP (R546)
  ⟨0xE0140, [(4, 8)], .blk, [⟨31, 16, .rwl, 0, .any⟩, ⟨7, 4, .ro, 1, .any⟩, ⟨2, 2, .rwl, 0, .any⟩, ⟨1, 0, .rwl, 0, .range 0 2⟩]⟩,
  -- NET_RXCLS (R546)
  ⟨0xE0180, [(4, 16)], .blk, [⟨31, 31, .rw, 0, .any⟩, ⟨27, 24, .rw, 0, .any⟩, ⟨23, 16, .rw, 255, .any⟩, ⟨15, 0, .rw, 0, .any⟩]⟩,
  -- NET_RXDROP (R546)
  ⟨0xE01C0, [(4, 8)], .blk, [⟨31, 0, .rc, 0, .any⟩]⟩,
  -- NET_REDCNT (R546)
  ⟨0xE01E0, [(4, 4)], .blk, [⟨31, 16, .rc, 0, .any⟩, ⟨15, 0, .rc, 0, .any⟩]⟩,
  -- NET_GBIT (R546)
  ⟨0xE0200, [(4, 32)], .blk, [⟨31, 31, .rw, 0, .any⟩, ⟨26, 25, .rw, 0, .range 0 2⟩, ⟨24, 24, .rw, 0, .any⟩, ⟨21, 16, .rw, 0, .any⟩, ⟨13, 8, .rw, 0, .any⟩, ⟨7, 0, .rw, 0, .any⟩]⟩,
  -- NET_GVAL (R546)
  ⟨0xE0280, [(4, 8)], .blk, [⟨31, 0, .rw, 0, .any⟩]⟩,
  -- NET_GVOWN (R546)
  ⟨0xE02A0, [(4, 32)], .blk, [⟨3, 0, .rw, 0, .range 0 4⟩, ⟨7, 4, .rw, 0, .range 0 4⟩, ⟨11, 8, .rw, 0, .range 0 4⟩, ⟨15, 12, .rw, 0, .range 0 4⟩, ⟨19, 16, .rw, 0, .range 0 4⟩, ⟨23, 20, .rw, 0, .range 0 4⟩, ⟨27, 24, .rw, 0, .range 0 4⟩, ⟨31, 28, .rw, 0, .range 0 4⟩]⟩,
  -- NET_GSTAT (R546)
  ⟨0xE0400, [(4, 256)], .blk, [⟨31, 30, .ro, 0, .any⟩, ⟨29, 29, .ro, 0, .any⟩, ⟨28, 28, .ro, 0, .any⟩, ⟨15, 0, .rc, 0, .any⟩]⟩,
  -- NET_SVSTAT (R546)
  ⟨0xE0800, [(4, 64)], .blk, [⟨31, 30, .ro, 0, .any⟩, ⟨29, 28, .ro, 0, .any⟩, ⟨15, 0, .rc, 0, .any⟩]⟩,
  -- NET_KEYST (R546)
  ⟨0xE0900, [], .sys, [⟨31, 0, .ro, 0, .any⟩]⟩]

/-- The registers of TPC from window offset 16#0100 (R24, R25). -/
def regsTpc : List Reg := [
  -- TPC_CFG (R547)
  ⟨0xF0100, [(4, 4)], .blk, [⟨31, 31, .rw, 0, .any⟩, ⟨30, 30, .rwl, 0, .any⟩, ⟨29, 26, .rwl, 1, .range 1 12⟩, ⟨23, 20, .rwl, 0, .any⟩, ⟨19, 16, .rwl, 0, .any⟩, ⟨15, 15, .rwl, 0, .any⟩, ⟨14, 14, .rwl, 0, .any⟩, ⟨13, 13, .rwl, 0, .any⟩, ⟨12, 12, .rw, 0, .any⟩, ⟨9, 0, .rwl, 20, .range 1 1000⟩]⟩,
  -- TPC_PSC_0 (R547)
  ⟨0xF0120, [(8, 4)], .blk, [⟨31, 0, .rwl, 1065353216, .f32 (1 / 1000) 1000000 1⟩]⟩,
  -- TPC_PSC_1 (R547)
  ⟨0xF0124, [(8, 4)], .blk, [⟨31, 0, .rwl, 0, .f32 (-10) 10 0⟩]⟩,
  -- TPC_IODLY (R547)
  ⟨0xF0140, [(4, 4)], .blk, [⟨31, 16, .rw, 0, .any⟩, ⟨15, 0, .rw, 0, .any⟩]⟩,
  -- TPC_HDLY (R547)
  ⟨0xF0150, [(4, 4)], .blk, [⟨24, 0, .rw, 0, .range 0 20000000⟩]⟩,
  -- TPC_DCFG (R547)
  ⟨0xF0160, [(4, 4)], .blk, [⟨13, 0, .rw, 100, .range 1 10000⟩]⟩,
  -- TPC_DLY (R547)
  ⟨0xF0180, [(16, 4), (4, 4)], .blk, [⟨31, 0, .ro, 0, .any⟩]⟩,
  -- TPC_CMDLAT (R547)
  ⟨0xF0200, [(4, 4)], .blk, [⟨15, 0, .rw, 0, .any⟩]⟩,
  -- TPC_CMDST (R547)
  ⟨0xF0210, [(4, 4)], .blk, [⟨31, 16, .ro, 0, .any⟩, ⟨15, 0, .ro, 0, .any⟩]⟩,
  -- TPC_FALL (R547)
  ⟨0xF0220, [(4, 4)], .blk, [⟨31, 16, .rw, 0, .any⟩, ⟨15, 0, .rw, 0, .any⟩]⟩,
  -- TPC_SLUMAP (R547)
  ⟨0xF0230, [(4, 2)], .blk, [⟨3, 0, .rw, 1, .any⟩, ⟨7, 4, .rw, 1, .any⟩, ⟨11, 8, .rw, 1, .any⟩, ⟨15, 12, .rw, 1, .any⟩, ⟨19, 16, .rw, 1, .any⟩, ⟨23, 20, .rw, 1, .any⟩, ⟨27, 24, .rw, 1, .any⟩, ⟨31, 28, .rw, 1, .any⟩]⟩,
  -- TPC_STAT (R547)
  ⟨0xF0240, [(4, 4)], .blk, [⟨31, 30, .ro, 0, .any⟩, ⟨29, 28, .ro, 0, .any⟩, ⟨27, 27, .ro, 0, .any⟩, ⟨26, 26, .ro, 0, .any⟩, ⟨15, 0, .rc, 0, .any⟩]⟩]

/-- The registers of CSC from window offset 16#0100 (R24, R25). -/
def regsCsc : List Reg := [
  -- CSC_CFG (R601)
  ⟨0x100100, [], .blk, [⟨31, 31, .rwl, 1, .any⟩, ⟨27, 24, .rwl, 0, .range 0 8⟩, ⟨19, 16, .rwl, 3, .any⟩, ⟨13, 0, .rwl, 500, .range 10 10000⟩]⟩,
  -- CSC_PUB (R601)
  ⟨0x100104, [], .blk, [⟨31, 31, .rw, 0, .any⟩, ⟨30, 28, .rw, 0, .any⟩, ⟨27, 27, .rw, 0, .any⟩, ⟨26, 24, .rw, 0, .any⟩, ⟨23, 0, .rw, 0, .any⟩]⟩,
  -- CSC_STAT (R601)
  ⟨0x100108, [], .sys, [⟨31, 24, .ro, 0, .any⟩, ⟨23, 16, .ro, 0, .any⟩, ⟨15, 12, .ro, 0, .any⟩, ⟨10, 8, .ro, 0, .any⟩, ⟨7, 5, .ro, 0, .any⟩, ⟨2, 0, .ro, 0, .any⟩]⟩,
  -- CSC_TOFS (R601)
  ⟨0x10010C, [], .sys, [⟨31, 0, .ro, 0, .any⟩]⟩,
  -- CSC_LINK (R601)
  ⟨0x100110, [(4, 4)], .blk, [⟨31, 31, .ro, 0, .any⟩, ⟨30, 28, .ro, 0, .any⟩, ⟨27, 27, .ro, 0, .any⟩, ⟨26, 24, .ro, 0, .any⟩, ⟨23, 0, .ro, 0, .any⟩]⟩,
  -- CSC_LERR (R601)
  ⟨0x100120, [(4, 4)], .blk, [⟨31, 16, .rc, 0, .any⟩, ⟨15, 0, .rc, 0, .any⟩]⟩,
  -- CSC_MEM_0 (R601)
  ⟨0x100200, [(16, 8)], .blk, [⟨31, 0, .ro, 0, .any⟩]⟩,
  -- CSC_MEM_1 (R601)
  ⟨0x100204, [(16, 8)], .blk, [⟨31, 0, .ro, 0, .any⟩]⟩,
  -- CSC_MEM_2 (R601)
  ⟨0x100208, [(16, 8)], .blk, [⟨31, 0, .ro, 0, .any⟩]⟩,
  -- CSC_MEM_3 (R601)
  ⟨0x10020C, [(16, 8)], .blk, [⟨31, 16, .rc, 0, .any⟩, ⟨15, 0, .rc, 0, .any⟩]⟩,
  -- CSC_EVTLOST (R601)
  ⟨0x100300, [], .blk, [⟨15, 0, .rc, 0, .any⟩]⟩,
  -- CSC_RXS (R601)
  ⟨0x101000, [(128, 8), (4, 24)], .blk, [⟨31, 0, .ro, 0, .any⟩]⟩]

/-- The registers of HIF from window offset 16#0100 (R24, R25). -/
def regsHif : List Reg := [
  -- HIF_RING_0 (R576)
  ⟨0x110100, [(16, 128)], .blk, [⟨31, 5, .rw, 0, .any⟩]⟩,
  -- HIF_RING_1 (R576)
  ⟨0x110104, [(16, 128)], .blk, [⟨31, 0, .rw, 0, .any⟩]⟩,
  -- HIF_RING_2 (R576)
  ⟨0x110108, [(16, 128)], .blk, [⟨31, 31, .rw, 0, .any⟩, ⟨30, 30, .rw, 1, .any⟩, ⟨29, 24, .rw, 0, .any⟩, ⟨23, 22, .ro, 0, .any⟩, ⟨21, 20, .ro, 0, .any⟩, ⟨19, 15, .rw, 8, .range 4 16⟩, ⟨14, 11, .rw, 0, .any⟩, ⟨10, 7, .rw, 0, .any⟩, ⟨6, 0, .rw, 0, .any⟩]⟩,
  -- HIF_RING_3 (R576)
  ⟨0x11010C, [(16, 128)], .blk, [⟨16, 0, .ro, 0, .any⟩]⟩,
  -- HIF_DB (R576)
  ⟨0x114000, [(4, 128)], .blk, [⟨16, 0, .wo, 0, .any⟩]⟩,
  -- HIF_LINK (R576)
  ⟨0x110900, [], .sys, [⟨10, 10, .ro, 0, .any⟩, ⟨9, 9, .ro, 0, .any⟩, ⟨8, 8, .ro, 0, .any⟩, ⟨7, 4, .ro, 0, .any⟩, ⟨3, 0, .ro, 0, .any⟩]⟩,
  -- HIF_CMPLLOST (R576)
  ⟨0x110904, [], .blk, [⟨31, 0, .rc, 0, .any⟩]⟩]

/-- The registers of CIS from window offset 16#0100 (R24, R25). -/
def regsCis : List Reg := [
  -- CIS_CFG (R576)
  ⟨0x120100, [], .blk, [⟨12, 0, .rw, 256, .range 0 4096⟩]⟩,
  -- CIS_FREE (R576)
  ⟨0x120104, [], .blk, [⟨28, 16, .ro, 2766, .any⟩, ⟨12, 0, .ro, 4096, .any⟩]⟩,
  -- CIS_Q (R576): every field of CIS_Q[14] to CIS_Q[23] is reserved
  ⟨0x120200, [(4, 14)], .blk, [⟨28, 16, .rw, 0, .any⟩, ⟨12, 0, .rw, 0, .any⟩]⟩,
  -- CIS_USE (R576)
  ⟨0x120280, [(4, 24)], .blk, [⟨28, 16, .rc, 0, .any⟩, ⟨12, 0, .ro, 0, .any⟩]⟩,
  -- CIS_NB (R576)
  ⟨0x120300, [(4, 24)], .blk, [⟨31, 0, .rc, 0, .any⟩]⟩]

/-- The registers of SEC from window offset 16#0100 (R24, R25). -/
def regsSec : List Reg := [
  -- SEC_OWN (R624)
  ⟨0x130100, [], .sys, [⟨10, 8, .ro, 0, .any⟩, ⟨3, 3, .ro, 0, .any⟩, ⟨2, 0, .ro, 0, .any⟩]⟩,
  -- SEC_DEVID (R624)
  ⟨0x130104, [(4, 2)], .sys, [⟨31, 0, .ro, 0, .any⟩]⟩,
  -- SEC_ROOTID (R624)
  ⟨0x13010C, [(4, 2)], .sys, [⟨31, 0, .ro, 0, .any⟩]⟩,
  -- SEC_OWNID (R624)
  ⟨0x130114, [(4, 2)], .sys, [⟨31, 0, .ro, 0, .any⟩]⟩,
  -- SEC_BOOT (R624)
  ⟨0x13011C, [], .sys, [⟨11, 11, .ro, 0, .any⟩, ⟨10, 10, .ro, 0, .any⟩, ⟨9, 9, .ro, 0, .any⟩, ⟨8, 8, .ro, 0, .any⟩, ⟨3, 0, .ro, 0, .any⟩]⟩,
  -- SEC_FBC (R624)
  ⟨0x130120, [(4, 4)], .sys, [⟨9, 9, .ro, 0, .any⟩, ⟨8, 8, .ro, 0, .any⟩, ⟨3, 0, .ro, 0, .any⟩]⟩,
  -- SEC_OPS (R624)
  ⟨0x130130, [], .sys, [⟨31, 16, .rc, 0, .any⟩, ⟨15, 0, .rc, 0, .any⟩]⟩,
  -- SEC_BOOTDIG (R624)
  ⟨0x130200, [(4, 16)], .sys, [⟨31, 0, .ro, 0, .any⟩]⟩,
  -- SEC_UCDIG (R624)
  ⟨0x130240, [(4, 16)], .sys, [⟨31, 0, .ro, 0, .any⟩]⟩]

/-- The registers of TST from window offset 16#0100 (R24, R25). -/
def regsTst : List Reg := [
  -- TST_FCFG (R660)
  ⟨0x140100, [], .blk, [⟨23, 16, .rwl, 10, .range 1 255⟩, ⟨7, 0, .rwl, 1, .range 1 255⟩]⟩,
  -- TST_FLT (R660)
  ⟨0x140104, [], .por, [⟨31, 16, .ro, 0, .any⟩, ⟨15, 8, .ro, 0, .any⟩, ⟨2, 0, .ro, 0, .any⟩]⟩,
  -- TST_ECC (R660)
  ⟨0x140108, [], .blk, [⟨31, 16, .rc, 0, .any⟩, ⟨15, 0, .rc, 0, .any⟩]⟩,
  -- TST_STALL (R660)
  ⟨0x14010C, [], .blk, [⟨31, 16, .rc, 0, .any⟩, ⟨7, 0, .ro, 0, .any⟩]⟩,
  -- TST_MSUB (R660)
  ⟨0x140110, [], .blk, [⟨31, 31, .rw, 0, .any⟩, ⟨1, 0, .rw, 0, .range 0 2⟩]⟩,
  -- TST_JTAG (R660)
  ⟨0x140114, [], .sys, [⟨12, 8, .ro, 1, .any⟩, ⟨0, 0, .rw, 0, .any⟩]⟩]

/-- The register table of one block, by its block number (R24). -/
def regsOf : Nat → List Reg
  | 0 => regsGen
  | 1 => regsPwr
  | 2 => regsMer
  | 3 => regsAfe
  | 4 => regsDch
  | 5 => regsPhe
  | 6 => regsEle
  | 7 => regsTmx
  | 8 => regsBcp
  | 9 => regsIcu
  | 10 => regsRec
  | 11 => regsAux
  | 12 => regsFio
  | 13 => regsRio
  | 14 => regsNet
  | 15 => regsTpc
  | 16 => regsCsc
  | 17 => regsHif
  | 18 => regsCis
  | 19 => regsSec
  | 20 => regsTst
  | _ => []

end Sys2Proof.Machine
end

