-- ==== Sys2Proof/Machine/RegFile.lean ====
section
/-! DEFINITION. The register file: finding the register of a BAR0 offset (R24 to R28), its reset value, and the store of the values that differ from reset. -/

namespace Sys2Proof.Machine

/-- The common header of a block (R28), at window offset 0: INFO, CTRL, STS, NNLAST and FLAGCNT. -/
def regsHeader : List Reg := [
  ⟨0x0, [(0x10000, 21)], .sys, [⟨31, 24, .ro, 0, .any⟩, ⟨23, 16, .ro, 1, .any⟩]⟩,
  ⟨0x4, [(0x10000, 21)], .sys, [⟨1, 1, .w1s, 0, .any⟩, ⟨0, 0, .wo, 0, .any⟩]⟩,
  ⟨0x8, [(0x10000, 21)], .blk, [⟨31, 0, .w1c, 0, .any⟩]⟩,
  ⟨0xC, [(0x10000, 21)], .blk, [⟨15, 0, .ro, 0, .any⟩]⟩,
  ⟨0x40, [(0x10000, 21), (4, 32)], .blk, [⟨15, 0, .rc, 0, .any⟩]⟩]

abbrev BLK_CTRL_lock : Fld := ⟨0x4, [0x10000], 1, 1⟩
abbrev BLK_STS : Fld := ⟨0x8, [0x10000], 31, 0⟩
abbrev BLK_NNLAST_offset : Fld := ⟨0xC, [0x10000], 15, 0⟩
abbrev BLK_FLAGCNT_count : Fld := ⟨0x40, [0x10000, 4], 15, 0⟩

/-- The MSI-X table of R548 at BAR0 16#0011_8000: 64 entries of address low, address high, data and vector control
(PCI Express Base Specification; the mask bit is 1 after reset, PRESUMED, log 6). -/
def regsMsix : List Reg := [
  ⟨0x118000, [(16, 64)], .blk, [⟨31, 2, .rw, 0, .any⟩]⟩,
  ⟨0x118004, [(16, 64)], .blk, [⟨31, 0, .rw, 0, .any⟩]⟩,
  ⟨0x118008, [(16, 64)], .blk, [⟨31, 0, .rw, 0, .any⟩]⟩,
  ⟨0x11800C, [(16, 64)], .blk, [⟨0, 0, .rw, 1, .any⟩]⟩,
  ⟨0x119000, [(4, 2)], .blk, [⟨31, 0, .ro, 0, .any⟩]⟩]

abbrev MSIX_mask : Fld := ⟨0x11800C, [16], 0, 0⟩
abbrev MSIX_pba : Fld := ⟨0x119000, [4], 31, 0⟩

/-- The indexes that lead from a register array's base to a distance, if it lies on the array. -/
def matchDims : List (Nat × Nat) → Nat → Option (List Nat)
  | [], d => if d = 0 then some [] else none
  | (st, n) :: ds, d => if d / st < n then (matchDims ds (d % st)).map (d / st :: ·) else none

/-- The first register of a list that holds the offset, with its indexes. -/
def findIn : List Reg → Nat → Option (Reg × List Nat)
  | [], _ => none
  | r :: rs, off =>
    if off < r.base then findIn rs off
    else match matchDims r.dims (off - r.base) with
      | some ix => some (r, ix)
      | none => findIn rs off

/-- The register at a BAR0 offset and its indexes (R24, R25, R28); none where the offset is not assigned (R27). -/
def findReg (off : Nat) : Option (Reg × List Nat) :=
  if off % 4 ≠ 0 then none
  else if off % 0x10000 < 0x100 then findIn regsHeader off
  else match findIn (regsOf (off / 0x10000)) off with
    | some r => some r
    | none => if off / 0x10000 = 0x11 then findIn regsMsix off else none

/-- The value that the fields' Reset column gives. -/
def fieldsReset : List RField → Nat
  | [] => 0
  | f :: fs => f.reset * 2 ^ f.lo + fieldsReset fs

/-- Multiplies two polynomials given by their coefficients, lowest power first. -/
def polyMul : List Nat → List Nat → List Nat
  | [], _ => []
  | a :: as, bs =>
    let hd := bs.map (a * ·)
    let tl := 0 :: polyMul as bs
    let n := max hd.length tl.length
    (List.range n).map fun i => hd.getD i 0 + tl.getD i 0

/-- The power of a polynomial. -/
def polyPow (p : List Nat) : Nat → List Nat
  | 0 => [1]
  | n + 1 => polyMul p (polyPow p n)

/-- The default length K of unit t (R144). -/
def defaultLen : Nat → Nat
  | 0 => 25
  | 1 => 43
  | _ => 53

/-- The default polynomial of unit t and its gain G (R144). -/
def defaultPoly : Nat → List Nat × Nat
  | 0 => (polyPow (List.replicate 5 1) 6, 15625)
  | 1 => (polyPow (List.replicate 15 1) 3, 3375)
  | _ => (polyMul (polyPow (List.replicate 18 1) 3) [1, 1], 11664)

/-- The default coefficient c[i] of unit t: round(2^23 · a(h − i) / G) with h = (K − 1) / 2 (R144). -/
def defaultCoef (t i : Nat) : Nat :=
  let h := (defaultLen t - 1) / 2
  let (p, g) := defaultPoly t
  if i ≤ h then (2 * 2 ^ 23 * p.getD (h - i) 0 + g) / (2 * g) else 0

/-- The default binding of ring r in HIF_RING[r][2]: class, index and cring (R570). -/
def ringDefault (r : Nat) : Nat × Nat × Nat :=
  if r ≤ 15 then (1, 0, 16 + r / 2)
  else if r ≤ 23 then (2, 0, 0)
  else if r = 24 then (3, 0, 0)
  else if r ≤ 31 then (2, 0, 0)
  else if r ≤ 35 then (4, r - 32, 0)
  else if r = 36 then (4, 4, 0)
  else if r ≤ 38 then (5, r - 37, 0)
  else if r = 39 then (6, 0, 0)
  else if r ≤ 47 then (7, r - 40, 0)
  else if r ≤ 63 then (8, r - 48, 0)
  else if r ≤ 71 then (1, 0, 25)
  else if r ≤ 79 then (1, 0, 26)
  else if r ≤ 87 then (9, r - 80, 0)
  else if r ≤ 91 then (10, r - 88, 0)
  else if r ≤ 95 then (1, 0, 27)
  else if r ≤ 111 then (11, r - 96, 0)
  else (0, 0, 0)

/-- The default reserve and maximum of Cistern consumer c (R571). -/
def quotaDefault : Nat → Nat × Nat
  | 0 | 1 | 2 | 3 => (256, 1024)
  | 4 => (64, 128)
  | 5 => (16, 64)
  | 6 | 7 => (1, 32)
  | 8 => (8, 64)
  | 9 => (128, 512)
  | 10 => (32, 128)
  | 11 => (16, 64)
  | 12 => (32, 128)
  | 13 => (8, 32)
  | _ => (0, 0)

/-- Whether an interrupt source is a level source (R378). -/
def isLevel (n : Nat) : Bool := (206 ≤ n && n ≤ 212) || n = 222 || n = 225

/-- The reset value of a register at its indexes where the Reset column names it per index. -/
def resetAt (base : Nat) (ix : List Nat) : Option Nat :=
  let i := ix.getD 0 0
  match base with
  | 0x0 => some (i * 2 ^ 24 + 2 ^ 16)
  | 0x20200 => some ((if i < 3 then 0 else i - 2) * 0x11111111)      -- MER_SAOWN
  | 0x40200 => some (2 ^ 31 + i)                                       -- DCH_CH
  | 0x40500 => some (defaultLen i)                                     -- DCH_BLEN
  | 0x41000 => some (defaultCoef i (ix.getD 2 0))                      -- DCH_COEF
  | 0x50100 => some (if i = 0 then 2 ^ 31 + 40 * 256 else 40 * 256)    -- PHE_GCFG
  | 0x50120 => some (if i = 0 then 0x03020100 else 0x1F1F1F1F)         -- PHE_GCHI
  | 0x50140 => some (if i = 0 then 0x13121110 else 0x1F1F1F1F)         -- PHE_GCHV
  | 0x64000 => some (match ix.getD 1 0 with                            -- ELE_SET of type NONE (R214)
      | 0 | 1 => 0x3F800000
      | 3 => 0x3DCCCCCD
      | _ => 0)
  | 0x90400 => some ((if i < 128 then i / 32 else 4) + (if isLevel i then 2 ^ 24 else 0))  -- ICU_SRC
  | 0x110108 =>                                                        -- HIF_RING[r][2]
    let (c, x, g) := ringDefault i
    some (2 ^ 30 + i % 64 * 2 ^ 24 + 8 * 2 ^ 15 + c * 2 ^ 11 + x * 2 ^ 7 + g)
  | 0x120200 => let (r, m) := quotaDefault i; some (m * 2 ^ 16 + r)    -- CIS_Q
  | _ => none

/-- The reset value of the register at a BAR0 offset. -/
def resetOf (off : Nat) : Word :=
  match findReg off with
  | none => 0
  | some (r, ix) =>
    match resetAt r.base ix with
    | some v => BitVec.ofNat 32 v
    | none => BitVec.ofNat 32 (fieldsReset r.fields)

/-- The registers whose value differs from reset, by BAR0 offset. -/
abbrev RegFile := List (Nat × Word)

/-- The value of a register: the entry of its offset, or its reset value. -/
def regFind : RegFile → Nat → Word
  | [], off => resetOf off
  | (a, w) :: t, off => if a = off then w else regFind t off

/-- Puts an entry before the first entry of a higher offset. -/
def regInsert (off : Nat) (v : Word) : RegFile → RegFile
  | [] => [(off, v)]
  | (a, w) :: t => if off < a then (off, v) :: (a, w) :: t else (a, w) :: regInsert off v t

/-- Drops every entry of an offset. -/
def regDrop (off : Nat) : RegFile → RegFile
  | [] => []
  | (a, w) :: t => if a = off then regDrop off t else (a, w) :: regDrop off t

/-- Stores a register; storing its reset value leaves it unlisted. -/
def regSet (f : RegFile) (off : Nat) (v : Word) : RegFile :=
  if v = resetOf off then regDrop off f else regInsert off v (regDrop off f)

/-- The canonical form: offsets strictly rising, and no entry equal to its reset value. -/
def regWf : RegFile → Bool
  | [] => true
  | [(a, w)] => w != resetOf a
  | (a, w) :: (b, v) :: t => w != resetOf a && decide (a < b) && regWf ((b, v) :: t)

/-- The reset domain of the register at an offset. -/
def domOf (off : Nat) : Dom := match findReg off with
  | some (r, _) => r.dom
  | none => .blk

/-- The register file after a reset of one block's BLK domain. -/
def regResetBlk (f : RegFile) (blk : Nat) : RegFile := f.filter fun e => !(e.1 / 0x10000 = blk && domOf e.1 = .blk)

/-- The register file after a SYS reset: every register of domain SYS or BLK is at reset. -/
def regResetSys (f : RegFile) : RegFile := f.filter fun e => domOf e.1 = .por

end Sys2Proof.Machine
end

