-- ==== Sys2Proof/Machine/St/Core.lean ====
section
/-! DEFINITION. The state of the host interface, the interrupt controller, Meridian and its scheduled actions, and what leaves the device. -/

namespace Sys2Proof.Machine

/-- Bytes by address: strictly rising addresses, no byte 0 listed. -/
abbrev Mem := List Host.Cell

/-- A descriptor that the device writes on a from-device ring (R562, R566), with its buffer. -/
structure RDesc where
  op : Nat
  tag : Nat
  len : Nat
  addr : Nat
  a : Nat
  b : Nat
  rf : Nat
  status : Nat
  buf : List Byte
deriving DecidableEq, Repr

/-- The fields of an IRIG-B B004 frame (R65): time of year, year of the century, control functions, and the straight binary
seconds of the day. -/
structure IrigOut where
  sec : Nat
  min : Nat
  hour : Nat
  day : Nat
  year : Nat
  ctl : Nat
  sbs : Nat
deriving DecidableEq, Repr

/-- The header of a packet sent on the stack (R598): source position, source is master, destination (none is broadcast), class, sequence
and source serial number; and the links that it leaves by. -/
structure PktOut where
  src : Nat
  master : Bool
  dest : Option Nat
  cls : Nat
  seq : Nat
  serial : BitVec 64
  links : List Nat
deriving DecidableEq, Repr

/-- The extension of IEC 62351-6 of a sent frame (R535): the key identifier, the initialization vector and the tag. -/
structure AuthOut where
  keyId : Nat
  iv : List Byte
  mac : List Byte
deriving DecidableEq, Repr

/-- What the device has sent out of its pins and links, newest first. -/
inductive Emit where
  /-- an MSI-X message of a vector (R396, R560) -/
  | msix (vec : Nat)
  /-- bytes 0 to 30 of the descriptor written at an index of a from-device ring; its buffer has gone before (R559) -/
  | desc (ring idx : Nat) (d : RDesc)
  /-- byte 31 of that descriptor, in a write of its own, with the pass phase of R555 (R559) -/
  | descEnd (ring idx : Nat) (phase : Bool)
  /-- an output command word accepted by the I/O die (R460): the commands, and whether it carries the safe state -/
  | word (cmd : BitVec 16) (safe : Bool)
  /-- an IRIG-B B004 frame (R65) -/
  | irig (f : IrigOut)
  /-- an Ethernet frame sent on a port, with the sequence number of its redundancy tag -/
  | eth (port : Nat) (red : Option Nat) (frame : List Byte)
  /-- a frame forwarded in an HSR ring (R513), with its tag -/
  | forward (port : Nat) (tag : RedTag) (frame : List Byte)
  /-- a PTP message of the device sent on a port (R515 to R517), with the sequence number of its redundancy trailer or tag, and
  its domain -/
  | ptp (port : Nat) (red : Option Nat) (domain : Nat) (msg : PtpMsg)
  /-- a PTP message forwarded in an HSR ring by the transparent clock (R518), with its tag and its domain -/
  | ptpForward (port : Nat) (tag : Option RedTag) (domain : Nat) (msg : PtpMsg)
  /-- a supervision frame of a redundant pair (R513), on its ports -/
  | supervision (pair : Nat) (ports : List (Nat × Option Nat))
  /-- a GOOSE frame of a publication (R533): its ports, each with the sequence number of its redundancy tag, stNum, sqNum,
  timeAllowedToLive, the time of its event, its test flag, its values, and its extension -/
  | goose (ports : List (Nat × Option Nat)) (pub st sq tal : Nat) (t : Time) (test : Bool) (vals : List GMember) (auth : Option AuthOut)
  /-- an SV frame of a publication (R527): its ports, smpSynch, per ASDU smpCnt and per channel the INT32 and its quality,
  and its extension -/
  | sv (ports : List (Nat × Option Nat)) (pub synch : Nat) (asdus : List (Nat × List (Int × Nat))) (auth : Option AuthOut)
  /-- a teleprotection frame sent on a port: the interface, the data channels used and what each of the others carries meanwhile,
  the remote-defect indication of C37.94, its bytes, and their bits in the order of the line (R537, R538) -/
  | tele (port iface n : Nat) (unused : List Byte) (rdi : Bool) (frame : List Byte) (line : List Bool)
  /-- a POLL on a Furrow link (R472): its bytes, and the bits on the line in order (R471) -/
  | poll (link station : Nat) (bytes : List Byte) (line : List Bool)
  /-- a packet on the stack, by its kind, with its header and content -/
  | stack (kind : Nat) (h : PktOut) (body : List Nat)
  /-- a packet forwarded on a stack link: its kind, source, hops taken, sequence number and content (R599) -/
  | stackForward (link kind src hops seq : Nat) (body : List Nat)
  /-- bytes written to host memory: the buffer of a descriptor or of a command -/
  | hostMem (addr : Nat) (bytes : List Byte)
  /-- the value that a read of BAR0 returned to the host -/
  | read (off : Nat) (v : Word)
  /-- the byte of the Cistern that a read of BAR2 returned (R551) -/
  | bar2 (off : Nat) (v : Byte)
  /-- the word that a read of the configuration space returned (R548) -/
  | config (off : Nat) (v : Word)
deriving DecidableEq, Repr

/-- A Cistern record that leaves when what it waits for has been written: consumer and queue (R571). -/
abbrev CisTok := Nat × Nat

/-- A descriptor that waits for its write-back, with the Cistern records that it delivers. -/
abbrev Bound := RDesc × List CisTok

/-- A completion on its way (R564): the command, the ring that held it and its fields, what it returns in a buffer, and the
Cistern records that this delivers. -/
structure Comp where
  d : Desc
  op : Nat
  status : Nat
  len : Nat
  addr : Nat
  a : Nat
  b : Nat
  rf : Nat
  buf : List Byte
  toks : List CisTok
  /-- whether consumer CMPL has refused it a buffer (R565, R572) -/
  refused : Bool
deriving DecidableEq, Repr

/-- One ring beside its registers (R555 to R557): the host index H, the buffers of the posted slots from index D on, the
records that are ready for write-back, the completions that wait in the Cistern, and whether the command rings that name it
are held (R565). -/
structure RingSt where
  h : Nat
  slots : List (Nat × Nat)
  ready : List Bound
  waiting : List Bound
  hold : Bool
deriving DecidableEq, Repr

/-- The host interface. -/
structure HifSt where
  rings : List RingSt
  /-- commands taken and not completed, in order (R563) -/
  openCmds : List Desc
  /-- completions in the host-interface engine, in completion order -/
  comps : List Comp
  /-- the stream functions, by class and index, that have lost a record since the last one written (status GAP) -/
  gaps : List (Nat × Nat)
  /-- records whose ring has gone before their write-back, by class and index, oldest first (R561, R575) -/
  held : List (Nat × Nat × Bound)
  /-- vectors of messages that wait for the host link, oldest first (R403, R549) -/
  msixWait : List Nat
deriving DecidableEq, Repr

/-- A record in a consumer's byte stream (R571): the queue it leaves by (a ring, a record stream), its stream position and
its length. -/
structure QRec where
  key : Nat
  pos : Nat
  len : Nat
deriving DecidableEq, Repr

/-- One Cistern consumer (R571): the buffers held, in allocation order, each with its place in the stream; the stream
position behind the last record; the records not delivered; and the buffers that its raised reserve still lacks (R573). -/
structure ConsSt where
  bufs : List (Nat × Nat)
  fill : Nat
  recs : List QRec
  short : Nat
deriving DecidableEq, Repr

/-- The Cistern: its consumers, and its 8 MiB of bytes. -/
structure CisSt where
  cons : List ConsSt
  mem : Mem
deriving DecidableEq, Repr

/-- The interrupt controller beside its registers: pending, active and level bits by source, and for each active
source the party that took it (0–3 BCP, 4 host, 5 CASC). -/
structure IcuSt where
  pending : BitVec 256
  active : BitVec 256
  level : BitVec 256
  taker : List (Nat × Nat)
deriving DecidableEq, Repr

/-- Who armed a scheduled-action slot. -/
inductive SaWho where
  | nobody
  | host (d : Desc)
  | bcp (b : Nat)
  | casc
deriving DecidableEq, Repr

/-- One scheduled-action slot (R73 to R84); its state stands in MER_SASTATE. -/
structure SaSlot where
  who : SaWho
  time : Time
  action : Nat
  arg : Word
  stack : Bool
  /-- a stack-wide arm: members that executed, executed LATE and refused, and the masters' own outcome -/
  exec : Nat
  late : Nat
  refused : Nat
  own : Option (Nat × Time)
  /-- BCP_BANK: it entered PENDING more than 20 ns late (R333) -/
  pendLate : Bool
  /-- the last completion: status, cancelled, execution time (R373) -/
  lastSt : Nat
  lastCanc : Bool
  lastTime : Time
deriving DecidableEq, Repr

/-- One time source (R53): the count of 4 ns periods at its last event, at the start of its unbroken run of valid
events, and since when it has been qualified. -/
structure SrcSt where
  last : Option Nat
  since : Option Nat
  qualAt : Nat
deriving DecidableEq, Repr

/-- Meridian (R48 to R72) beside its registers. -/
structure MerSt where
  /-- the Meridian time -/
  now : Time
  /-- the remainder of the frequency adjustment below 2^−16 ns, in units of 10^−12 of it -/
  rem : Int
  /-- 4 ns periods of the counter since reset -/
  cyc : Nat
  /-- periods that one step of an idle queue runs (the model's own field, log 3) -/
  stride : Nat
  /-- the correction that a slew has still to spend, in units of 2^−16 ns (R58) -/
  slew : Int
  /-- what the slew limit leaves over below 2^−16 ns, in units of 10^−6 of it (R58, log 129) -/
  slewRem : Int
  /-- the integral term of the hardware servo, in units of 10^−12 (R56) -/
  integ : Rat
  /-- consecutive events within and outside lockthr (R61) -/
  lockCnt : Nat
  outCnt : Nat
  /-- when HOLDOVER began -/
  holdAt : Nat
  /-- the values of the frequency adjustment while LOCKED, newest first, each with its period count (R62) -/
  locked : List (Nat × Int)
  /-- from when the host-correction timeout runs (R57, R681), and whether it has expired since -/
  hctoAt : Nat
  hctoDone : Bool
  srcs : List SrcSt
  /-- bad or missing IRIG-B frames in a row (code 8) -/
  irigBad : Nat
  /-- the first offset after a switch of source is to be judged (R61) -/
  switched : Bool
  /-- a label for the next whole second: the seconds at the write, and the label (R60) -/
  tset : Option (Nat × Nat)
  /-- a slew is in progress (R58) -/
  slewing : Bool
  /-- the new time of the last step (R476) -/
  stepAt : Time
  /-- the TDC channels (R72): re-armed, and the time of the last stamp -/
  tdc : List (Bool × Time)
  /-- 1PPS out -/
  pps : Bool
  ppsAt : Time
  /-- the last whole second for which 1PPS rose and for which an IRIG-B frame left -/
  ppsSec : Nat
  irigSec : Nat
deriving DecidableEq, Repr

end Sys2Proof.Machine
end

