-- ==== Sys2Proof/Machine/St/Bcp.lean ====
section
/-! DEFINITION. The state of the block-code processors and of the field inputs and outputs. -/

namespace Sys2Proof.Machine

/-- A cell of an operand stack: its 64 bits and its quality tag (R357). -/
abbrev Cell := BitVec 64 × Byte

/-- A released or running task instance (R310 to R316, R358). -/
structure Inst where
  task : Nat
  relTime : Time
  relCyc : Nat
  /-- order of release (R315) -/
  order : Nat
  /-- the source that the dispatcher took for an EVENT task (R318) -/
  src : Option Nat
  /-- host-assisted, with its release count (R340) -/
  host : Bool
  relCount : Nat
  started : Bool
  /-- the input image as offset and bytes, copied in before the first instruction (R313) -/
  image : List (Nat × List Byte)
  stack : List Cell
  /-- return address and IP (R361) -/
  calls : List (Nat × Nat)
  pc : Nat
  ip : Nat
  aflag : Bool
  /-- enables placed by ROWEN (R372), newest first -/
  rowen : List (Nat × Bool)
  /-- the stations in the snapshot with their drop counts (R482), and the count of entries into UP at the release (R484) -/
  drops : List (Nat × Nat)
  rioTick : Nat
deriving DecidableEq, Repr

/-- A code bank: the image, its instance data, whether it is verified, and a host map (R330, R337). -/
structure Bank where
  img : List Byte
  mem : Mem
  verified : Bool
  map : Option (List Byte)
  /-- who signed the image, as item flags [2] and [3] of a report show it (R619) -/
  sig : Nat
deriving DecidableEq, Repr

/-- A forced variable (R327): key, type code, value and quality. -/
structure Force where
  key : Nat
  typ : Nat
  val : BitVec 64
  qual : Byte
deriving DecidableEq, Repr

/-- A PENDING switch (R332): the scheduled-action slot or the BCP_SWITCH command that armed it, and since when. -/
structure Switch where
  slot : Option Nat
  cmd : Option Desc
  at_ : Time
  cyc : Nat
  holding : Bool
deriving DecidableEq, Repr

/-- The error record of R321. -/
structure ErrRec where
  cause : BitVec 32
  dropped : BitVec 128
  returned : BitVec 128
  overran : BitVec 16
  forces : Nat
deriving DecidableEq, Repr

/-- One BCP beside its registers. -/
structure BcpSt where
  /-- 0 EMPTY, 1 STOPPED, 2 RUNNING, 3 FAILED -/
  state : Nat
  active : Nat
  banks : List Bank
  insts : List Inst
  /-- releases held by a switch, with their instants and period counts, oldest first (R334, R335) -/
  held : List (Nat × Time × Nat)
  forces : List Force
  /-- frames completed since RUNNING was entered (R310) -/
  frames : Nat
  order : Nat
  relCounts : List Nat
  /-- the next release instant of each TIME task, in µs (R311) -/
  nextRel : List Nat
  switch : Option Switch
  err : ErrRec
  /-- an error cause waits for the running ERROR instance to end (R321) -/
  errAgain : Bool
  /-- BCP_LOAD commands accepted and not yet checked, oldest first -/
  loading : List (Desc × List Byte)
  /-- a dispatch point has been reached (R318) -/
  dispatch : Bool
deriving DecidableEq, Repr

/-- One digital input (R441 to R447) beside its registers. -/
structure DiSt where
  cnt : Nat
  started : Bool
  /-- the last decision: time, level, delay in µs -/
  decT : Time
  decLevel : Bool
  decDelay : Nat
  /-- the time of the last tick -/
  tickAt : Time
  /-- a decision that is due: t_dec, level and delay (R443) -/
  due : Option (Time × Bool × Nat)
deriving DecidableEq, Repr

/-- A test pulse in progress: its start, its kind (1 off, 2 on), and whether the pin has crossed. -/
structure Pulse where
  at_ : Time
  mode : Nat
deriving DecidableEq, Repr

/-- The field inputs and outputs beside their registers. -/
structure FioSt where
  di : List DiSt
  /-- the Meridian microsecond that the latest sample of the inputs carries (R441) -/
  sampleUs : Nat
  /-- the last word sent: commands, and whether it carries the safe state -/
  word : BitVec 16
  wordSafe : Bool
  wordCyc : Nat
  /-- the I/O die's hold of R20 until the first refresh -/
  hold : Bool
  /-- the period count of the last refresh, and the state it applied (R461, R463) -/
  refCyc : Nat
  held : BitVec 16
  /-- switches whose junction is above 150 °C, shut down, and latched (R457) -/
  hot : BitVec 16
  pulses : List (Option Pulse)
  /-- FIO_TPULSE commands whose pulses have not ended -/
  tpulse : List (Desc × BitVec 16)
  /-- requests of OUT_SET with a length: the period count at which each scheduled request clears -/
  pulseEnd : List (Option Time)
  /-- outputs commanded off, since which period count (R458) -/
  offCyc : List Nat
  /-- from when the host watchdog runs, and whether it has expired since (R451) -/
  hostCyc : Nat
  hostDone : Bool
  /-- FIO_EDGE records dropped since the last one written -/
  edgeGap : Nat
  edges : List RDesc
deriving DecidableEq, Repr

end Sys2Proof.Machine
end

