-- ==== Sys2Proof/Machine/St/Analog.lean ====
section
/-! DEFINITION. The state of the analogue front end and of the decimation chains. -/

namespace Sys2Proof.Machine

/-- One modulator's chain up to FIR-A (R122): its codes with the overload marker, the main-comb outputs and the CIC2
outputs, each newest first; and whether its last period was marked, which a reset of the chain does not change. -/
structure ModSt where
  codes : List (Int × Bool)
  cic : List (Int × Bool)
  firA : List (Int × Bool)
  ovl : Bool
deriving DecidableEq, Repr

/-- A sample inside a chain with its markers (R131). -/
structure Samp where
  v : Int
  clip : Bool
  range : Bool
  test : Bool
  /-- the sample's own SETTLE, for prefilter outputs (R156) -/
  settle : Bool
deriving DecidableEq, Repr

/-- What a reset of a channel brings into force: a mode, or the injection switched on with a pattern, or off (R99, R107). -/
inductive ChanChg where
  | mode (m : Nat)
  | injOn (pattern : Nat)
  | injOff
deriving DecidableEq, Repr

/-- One channel: the range counters of its two selection points (the states stand in AFE_RSTAT), the ROGOWSKI
integrator in units of 2^−8 of the unified word, the instant of its last reset as a count of fMOD periods, and the
resets that are due, each with its 72 kHz instant and what it brings (R99, R107). -/
structure ChanSt where
  wbCnt : Nat
  mainCnt : Nat
  y : Int
  tr : Nat
  due : List (Nat × ChanChg)
  /-- the mode in force (R119: a mode write during injection waits) -/
  mode : Nat
deriving DecidableEq, Repr

/-- One weir (R110 to R114): armed, when it was enabled, and its last stamp. -/
structure WeirSt where
  armed : Bool
  /-- settling since this period count, if it is -/
  settling : Option Nat
  stamp : Time
  pol : Bool
  count : Nat
deriving DecidableEq, Repr

/-- The reference injection: the channel and pattern in force, and the window being summed (R106 to R109). -/
structure InjSt where
  /-- channel and pattern in force, and the instant since which they are -/
  now : Option (Nat × Nat)
  on : Nat
  /-- start of the window, samples, sums of the high-gain and low-gain codes -/
  win : Nat
  n : Nat
  hg : Int
  lg : Int
  /-- a window that lay wholly under injection and has ended: its channel, samples and sums -/
  full : Option (Nat × Nat × Int × Int)
deriving DecidableEq, Repr

/-- The analogue front end. -/
structure AfeSt where
  /-- the modulators run -/
  run : Bool
  /-- when they started (R153, cause 4) -/
  mods : List ModSt
  chans : List ChanSt
  weirs : List WeirSt
  inj : InjSt
  /-- the support centre of the next WB sample, in fMOD periods -/
  next : Nat
  /-- the MAIN-point instant whose FIR-A outputs are ready -/
  mainDue : Option Nat
deriving DecidableEq, Repr

/-- A DCH_SWAP that has been accepted (R147): the unit, the pipelines it applies to, the time of its acceptance, the
target bank and W, and the command with which it completes. -/
structure Swap where
  unit : Nat
  pipes : List Nat
  at_ : Time
  bank : Nat
  w : Nat
  cmd : Desc
deriving DecidableEq, Repr

/-- One pipeline: its input history and prefilter outputs, newest first, its last reset, and the writes of DCH_CH[p]
whose 72 kHz instant has not come (R134, R155). -/
structure PipeSt where
  u : List Samp
  pre : List Samp
  tr : Nat
  due : List (Nat × Word)
  run : Bool
  src : Nat
  /-- single-cycle settling in force on units 1 and 2, and the changes written: unit, instant, value (R152) -/
  scs48 : Bool
  scs40 : Bool
  scsDue : List (Nat × Nat × Bool)
  /-- outputs whose last input came before the last reset: unit, ts, word (R154) -/
  done : List (Nat × Nat × Word)
deriving DecidableEq, Repr

/-- A tracked instant that has been placed (R136 to R140): its time and the header flags known at its placing. -/
structure Placed where
  t : Time
  /-- the steps of Meridian since, in units of 2^−16 ns, and whether there was one (R60) -/
  shift : Int
  stepped : Bool
  rate : Nat
  sync : Bool
  tstep : Bool
  fhost : Bool
  fcasc : Bool
  fstale : Bool
  flim : Bool
  tq : Nat
deriving DecidableEq, Repr

/-- A frame (R161): its time, sequence, flags, and the 24 tracked sample words. -/
structure FrameSt where
  ts : Time
  seq : Nat
  flags : Nat
  words : List Word
deriving DecidableEq, Repr

/-- The decimation chains. -/
structure DchSt where
  pipes : List PipeSt
  /-- the newest MAIN-point instant and the newest prefilter instant, in fMOD periods -/
  mainAt : Option Nat
  preAt : Option Nat
  /-- the ts of the next output of each FIR-B unit, and the last device reset, in fMOD periods -/
  next : List Nat
  tr : Nat
  /-- device resets that are due: tr, cause, and the DCH_SYNC command (R153) -/
  resets : List (Time × Nat × Option Desc)
  /-- the DCH registers that stay in force until the reset of cause 5 (DCH soft reset) -/
  held : Option RegFile
  /-- the next tracked instant, fixed and not yet reached; none while the grid places none (R60) -/
  nextT : Option Placed
  /-- tracked instants reached whose frames are not yet formed, oldest first -/
  placed : List Placed
  lastDelta : Nat
  /-- f(k − 1) in Hz -/
  fPrev : Rat
  /-- frequency estimates of the last frames since the grid restarted, by local group, newest first (R137) -/
  fEst : List (List (Option Rat))
  /-- the modulators start after DAWN, or DCH had a soft reset: f(k − 1) starts as fnom and the sequence at 0 with the
  device reset that follows (R138, R162) -/
  fresh : Bool
  /-- the next frame carries sequence 0 (R162) -/
  seq0 : Bool
  tstep : Bool
  /-- the master was lost: the last Δ stays, and samples are STALE (R137) -/
  lost : Bool
  swaps : List Swap
  hostCyc : Nat
  hostDone : Bool
  /-- the rate written by a TAP_RATE action or register stands in DCH_TRK; the rate of the last Δ -/
  lastRate : Nat
  /-- the rate of the last frame produced (R140) -/
  prodRate : Option Nat
  /-- the last frame -/
  frame : FrameSt
  /-- the last value of the tracked and fixed-tap samples, by tap (0 WB, 1 14 400, 2 4800, 3 4000) and pipeline -/
  taps : List (List Word)
  tapTs : List Nat
deriving DecidableEq, Repr

end Sys2Proof.Machine
end

