-- ==== Sys2Proof/Machine/St/Phasor.lean ====
section
/-! DEFINITION. The state of the phasor engine and of the sampled-value subscriptions that feed it. -/

namespace Sys2Proof.Machine

/-- One accepted ASDU (R524): its number (whole seconds times the rate, plus smpCnt), and for each of the eight
channels the INT32, the quality bits of R160 that it maps to, and whether its validity is invalid or questionable. -/
structure SvSamp where
  idx : Nat
  vals : List Int
  qual : List Nat
  bad : List Bool
deriving DecidableEq, Repr

/-- One sampled-value subscription (R523 to R525): the entry in force and the one that waits for the next frame
boundary, and the samples received, newest first. Its state stands in NET_SVSTAT. -/
structure SvSub where
  entry : List Byte
  next : Option (List Byte)
  samples : List SvSamp
  /-- when the last valid sample arrived -/
  last : Option Time
deriving DecidableEq, Repr

/-- What a group keeps of one frame: the frame's number and time, the reference phasor with its quality byte, and the
frequency entry; `live`: the reference phasor was computed, and not only held (R181). -/
structure FRec where
  idx : Nat
  ts : Time
  re : Word
  im : Word
  rq : Nat
  f : Word
  q : Nat
  live : Bool
deriving DecidableEq, Repr

/-- The frame numbers at which the windows of a group last restarted (R180, R181, R682). -/
structure Marks where
  inp : List Nat
  cur : Nat
  vol : Nat
  seq : Nat
  i0 : Nat
  v0 : Nat
  z : Nat
  /-- the values of the reference phasor, the samples of the reference input, and the values of the frequency entry that may
  be used -/
  ref : Nat
  zc : Nat
  f : Nat
  rate : Option Nat
  /-- the frame of a change that the frequency entry shows by SETTLE (R180) -/
  fs : Option Nat
deriving DecidableEq, Repr

/-- One measurement group. -/
structure GrpSt where
  /-- configuration in force: PHE_GCFG, GCHI, GCHV, K0RE, K0IM, or PHE_RGRP, RCFG -/
  cfg : List Word
  marks : Marks
  recs : List FRec
  /-- the last two rising crossings of the reference input, whether its RMS reached the threshold, and the quality of the
  samples around it, newest first -/
  cross : List (Rat × Bool × Nat)
  /-- the resampled SV samples of a remote group, by input, newest first -/
  xs : List (List (Rat × Nat))
  /-- frames since the last feed of a host remote group; none before the first -/
  age : Option Nat
  /-- a cascade publication has arrived for the last frame, or its deadline has passed -/
  pub : Bool
  /-- the last estimate of the recorder for entry 78 (R187) -/
  dist : Option (Word × Nat)
  hostCyc : Nat
  hostDone : Bool
deriving DecidableEq, Repr

/-- The phasor engine. -/
structure PheSt where
  qv : List Word
  qq : List Byte
  /-- frames that the engine has processed -/
  n : Nat
  /-- their tracked samples and their times, newest first -/
  words : List (List Word)
  times : List Time
  grps : List GrpSt
  /-- PHE_RFEED commands whose buffers have been read: the remote group, the command, the buffer -/
  feeds : List (Nat × Desc × List Byte)
deriving DecidableEq, Repr

end Sys2Proof.Machine
end

