-- ==== Sys2Proof/Machine/St/Elem.lean ====
section
/-! DEFINITION. The state of the element array. -/

namespace Sys2Proof.Machine

/-- The outputs of a slot (R192): the phase bits are a, b, c, n from bit 0. -/
structure ElOut where
  start : Bool
  oper : Bool
  x1 : Bool
  x2 : Bool
  ps : Nat
  po : Nat
  q : Nat
deriving DecidableEq, Repr

/-- One local frame that a LINE slot keeps (R257): the phasors Ia, Ib, Ic, the group frequency and the quality byte. -/
structure LineRec where
  ts : Time
  ph : List Word
  f : Word
  q : Nat
deriving DecidableEq, Repr

/-- One phasor packet of a teleprotection port (R257, R538). -/
structure LinePk where
  ts : Time
  arr : Time
  age : Time
  tq : Nat
  q : Nat
  ph : List Word
deriving DecidableEq, Repr

/-- A partial record (R260) of a slot of a member, in the frame with time ts. -/
structure PartRec where
  member : Nat
  ts : Time
  slot : Nat
  vals : List Word
  q : Nat
deriving DecidableEq, Repr

/-- What a LINE slot keeps (R257, R258): the last 128 frames, newest first; ts(j) and tr of the last evaluation and the remote
instant used of each port; the quality byte of its operands and whether each was a number; whether delay mode was used; whether
the frame that the newest packets need lies outside the frames kept. -/
structure LineMem where
  recs : List LineRec
  lastJ : Option Time
  lastTr : Option Time
  lastTx : List Time
  q : Nat
  fin : Bool
  delay : Bool
  far : Bool
deriving DecidableEq, Repr

/-- The internal state of a slot. -/
structure ElMem where
  /-- the integrator G or the thermal level, in steps of 2^−64 -/
  g : Rat
  /-- the timers, in seconds -/
  tst : Rat
  trr : Rat
  lat : Bool
  /-- the start bits held between pickup and dropout -/
  ps : Nat
  /-- RDIR: per polarising voltage its stored value, the group frequency and the time of storage -/
  mem : List (Option (Rat × Rat × Word × Time))
  /-- PHAR: per input the time since the condition ended -/
  hold : List (Option Rat)
  /-- PIOC: per input the count, whether it has started, and the time without a sample at or above the dropout level -/
  cnt : List (Nat × Bool × Rat)
  /-- RSYN: Δφ of the last frames, newest first; none where an operand is NaN -/
  hist : List (Time × Option Rat)
  /-- RBRF: the samples of the frames evaluated, by input, newest first -/
  smp : List (List Rat)
  /-- PDIF: what LINE keeps, and the largest Id of the last evaluation -/
  line : LineMem
  bigId : Rat
deriving DecidableEq, Repr

/-- One slot. -/
structure ElSlot where
  /-- configuration and settings in force -/
  cfg : Word
  src : Word
  lnk : Word
  set : List Word
  /-- a setting write with keep = 0 clears the state at the next frame (R205) -/
  clr : Bool
  out : ElOut
  prev : ElOut
  mem : ElMem
  /-- 0 valid, 1 holding, 2 blocked -/
  vst : Nat
  /-- the held time of R202, whether it has exceeded the hold limit, and the quality byte of the frame held (R203) -/
  held : Rat
  lim : Bool
  hq : Nat
  acc : Word
  /-- PDIS: faulted phases in bits 0 to 2, earth fault in bit 3, and whether the slot was valid in this frame -/
  sel : Nat
  ok : Bool
  /-- HOST: stale (R211), and the frame sequence and word of the result in force (R210) -/
  stale : Bool
  res : Option (Nat × Word)
  /-- TEST: the operand values of the last record (R647) -/
  subst : Option (List (Word × Nat))
  /-- PARTIAL: the record of this frame and of the last -/
  part : Option PartRec
  ppart : Option PartRec
  /-- PIOC: the outputs after each 14 400 sample, newest first (R200) -/
  view : List (Time × ElOut × Nat × Word)
deriving DecidableEq, Repr

/-- The element array. -/
structure EleSt where
  slots : List ElSlot
  /-- ELE_SETW commands that complete at the next frame: the slot and the command -/
  setw : List (Nat × Desc)
  /-- accepted ELE_RESULT commands, oldest first -/
  results : List (Nat × Desc)
  /-- accepted TST_OPND commands: the slot, the command and the operand values -/
  opnds : List (Nat × Desc × List (Word × Nat))
  /-- the last 8 packets of each teleprotection port, newest first -/
  packets : List (List LinePk)
  parts : List PartRec
  /-- ts of the last frame, and dt of R199 -/
  lastTs : Option Time
  dt : Rat
  /-- what the slots of a frame read as it stood at t0: the filtered digital inputs, the rows, and the packets (R197, R257) -/
  di : Nat
  acts : Nat
  pks : List (List LinePk)
  /-- the slots of the frame that wait for the cascade (R198) -/
  wait : List Nat
  /-- and the user curves that they use, by code, as they stood at t0 (R220) -/
  curves : List (Int × List Word)
deriving DecidableEq, Repr

/-- The frame items of the last frame whose element evaluation is complete (R313, R371): the frame header, ELE_STAT and ELE_ACC of
the slots, the quantity table, the rows, and the binary groups of R406. -/
structure FrameView where
  header : List Byte
  seq : Nat
  stats : List Nat
  accs : List Word
  qv : List Word
  qq : List Byte
  rows : Nat
  bins : List (List Byte)
deriving DecidableEq, Repr

end Sys2Proof.Machine
end

