-- ==== Sys2Proof/Machine/St/Sluice.lean ====
section
/-! DEFINITION. The state of the Sluice. -/

namespace Sys2Proof.Machine

/-- The part of a row's configuration that is shadowed (R274). -/
structure RowCfg where
  sel : List Word
  blk : List Word
  dst : Word
  dst2 : Word
  sealCfg : Word
deriving DecidableEq, Repr

/-- One row beside its registers: the configuration in force (R274, R275), the shadow that a commit brings into force at the
next frame, the enable in force and whether it is deferred (R271, R280), the value (R273), and drive, seal, t_cmd and the tnow
of the last evaluation (R285). -/
structure RowSt extends RowCfg where
  cls : Bool
  tpol : Bool
  tblk : Bool
  ctl : Nat
  stop : Nat
  commit : Option RowCfg
  armed : Bool
  deferred : Bool
  act : Bool
  drive : Bool
  sealOn : Bool
  tc : Time
  tnow : Time
  /-- no drive until the next rising act (R301) -/
  wait : Bool
deriving DecidableEq, Repr

/-- The Sluice. -/
structure TmxSt where
  rows : List RowSt
  /-- the 352 inputs of the last frame evaluation (R267), and the GOOSE bits as the subscriber holds them -/
  ins : Nat
  gbits : Nat
  /-- cascade bits of R293: first pass of this frame, and second pass and class N of this frame and the last -/
  cFirst : Nat
  cLater : Nat
  cPrev : Nat
  /-- publications of this frame: member and its cascade bits; and those that the frame needs are awaited -/
  pubs : List (Nat × Nat)
  second : Bool
  /-- a publication has been missing at the deadline of this frame (R294) -/
  missed : Bool
  /-- t0 of the last frame -/
  t0 : Time
  /-- rows that have risen and have not yet triggered the recorder -/
  rose : List Nat
  /-- trip-circuit supervision: consecutive results outside the window, and the on-command that waits for its check -/
  tcs : List Nat
  onAt : List (Option Time)
  /-- consecutive frames with TMX_STS.miss (R652) -/
  misses : Nat
deriving DecidableEq, Repr

end Sys2Proof.Machine
end

