-- ==== Sys2Proof/Machine/St/Rec.lean ====
section
/-! DEFINITION. The state of the recorder. -/

namespace Sys2Proof.Machine

/-- A trigger or a mark of type TQ or USER (R413, R420): its time, method, TEST bit, source code and index, argument, the φ
of method 2, and its mark type. -/
structure Trig where
  t : Time
  method : Nat
  test : Bool
  code : Nat
  idx : Nat
  arg : Nat
  phi : Option Nat
  typ : Nat
deriving DecidableEq, Repr

/-- What a mark is, beside its 40 bytes (R420): type, time, source, and its place in the order of all marks. -/
structure MarkInfo where
  typ : Nat
  t : Time
  code : Nat
  idx : Nat
  seq : Nat
deriving DecidableEq, Repr

/-- A record of a stream: a mark, or the sample set with an index; its number among the records, which is its queue in the
Cistern; and whether its bytes stand there. -/
structure RecItem where
  bytes : List Byte
  mark : Option MarkInfo
  set : Nat
  id : Nat
  inCis : Bool
deriving DecidableEq, Repr

/-- The host buffer that a stream fills (R424, R425): its size, its records, and the period count of the first. -/
structure OpenBuf where
  size : Nat
  items : List RecItem
  cyc : Nat
deriving DecidableEq, Repr

/-- One record stream beside its registers. -/
structure RecStream where
  /-- REC_START that waits for the first set -/
  start : Option Desc
  /-- sets produced since the start, and their times, newest first -/
  next : Nat
  times : List Time
  /-- the last set of the post-trigger period -/
  stopAt : Option Int
  /-- sets dropped since the last one that fitted: the time and index of the first, and their number (R427) -/
  run : Option (Time × Nat × Nat)
  /-- sets dropped at the head of the queue, before a set that waits there: likewise (R425, R427) -/
  head : Option (Time × Nat × Nat)
  /-- triggers and user marks whose place is not known yet -/
  pend : List Trig
  /-- marks that wait inside the recorder (R429) -/
  stuck : List RecItem
  /-- the pre-trigger store -/
  store : List RecItem
  /-- records that wait for a descriptor -/
  queue : List RecItem
  cur : Option OpenBuf
  /-- the records of the completed buffers that have not been written, oldest first -/
  done : List (List RecItem)
  /-- the last set queued: index and time -/
  last : Option (Nat × Time)
  /-- REC_STOP commands whose END mark, by its number, is not queued yet (R436) -/
  stops : List (Nat × Desc)
deriving DecidableEq, Repr

/-- A wavefront window being captured (R431): stamps with weir and polarity, first first, and the estimate. -/
structure Capture where
  t1 : Time
  stamps : List (Time × Nat × Bool)
  est : Option Word
  /-- the channels of the window, whose record has its buffers -/
  chans : List Nat
deriving DecidableEq, Repr

/-- The recorder. -/
structure RecSt where
  streams : List RecStream
  /-- the time quality of the last frame -/
  tq : Nat
  cap : Option Capture
  /-- first arrivals that wait for a second one: time and polarity (R433) -/
  arrivals : List (Time × Bool)
  /-- wavefront records that wait for a descriptor, with their number of channels -/
  waves : List (List Byte × Nat)
  /-- wavefront records that are ready and have not been written, oldest first -/
  waveDone : List (List Byte × Nat)
  /-- distances for entry 78 of the next frame -/
  dist : List Word
  /-- WB-tap outputs, newest first: time and sample words -/
  wb : List (Time × List Word)
  /-- the last output of each tap: its time and sample words, and for the tracked tap its quantities and their qualities (R415) -/
  prev : List (Option (Time × List Word))
  prevQ : List Word × List Byte
  /-- the received command bits of every teleprotection port at t0 of the last frame (R267, R407) -/
  tele : List Byte
  /-- the number of the newest record -/
  seq : Nat
deriving DecidableEq, Repr

end Sys2Proof.Machine
end

