-- ==== Sys2Proof/Machine/St/Rio.lean ====
section
/-! DEFINITION. The state of the remote I/O links. -/

namespace Sys2Proof.Machine

/-- One station beside its registers (R475 to R488). -/
structure StaSt where
  /-- RIO_ST in force since the last cycle start (R485, R489) -/
  cfg : Word
  /-- the last valid input bytes -/
  inp : List Byte
  /-- the owner's output bytes, and the last output bytes sent -/
  out : List Byte
  sent : List Byte
  /-- the station has been UP since the link started (R479), and has dropped out since (R483) -/
  seenUp : Bool
  dropped : Bool
  /-- the outputs are withheld until a complete input read (R484): the number of the entry into UP, and whether an
  RIO_IMG has carried the new inputs -/
  withhold : Bool
  upTick : Nat
  imgSeen : Bool
  /-- the RIO_IMG records that have not been written, oldest first: whether each carries inputs since the entry into UP -/
  imgs : List Bool
  /-- substitutes stand until the owner writes (R485, R486) -/
  subst : Bool
  /-- the owner has changed and has not written since (R485) -/
  newOwn : Bool
  /-- from when the host-silent time runs, and whether it has expired since -/
  hostCyc : Nat
  hostDone : Bool
deriving DecidableEq, Repr

/-- One Furrow link. -/
structure LinkSt where
  running : Bool
  /-- the run ends after the cycle in progress (R489) -/
  stopping : Bool
  /-- since when it runs: the first cycle starts at the next grid instant -/
  since : Time
  /-- the start of the present cycle, its count, and the stations polled in it -/
  cycAt : Option Time
  count : Nat
  polled : List Nat
  /-- the station whose slot is open, the sequence of its POLL, the end of the slot, and the outcome of a RESP -/
  slot : Option (Nat × Nat × Time)
  answer : Option Bool
  stas : List StaSt
deriving DecidableEq, Repr

/-- The remote I/O links, and the count of entries into UP. -/
structure RioSt where
  links : List LinkSt
  tick : Nat
deriving DecidableEq, Repr

end Sys2Proof.Machine
end

