-- ==== Sys2Proof/Machine/St/Sec.lean ====
section
/-! DEFINITION. The state of the security engine. -/

namespace Sys2Proof.Machine

/-- One owner generation in OTP (R609): public key, vroot and the commit marker. -/
structure OwnerGen where
  key : List Byte
  vroot : Bool
  committed : Bool
deriving DecidableEq, Repr

/-- A signing operation (R617 to R621): the command, the kind, nonce and host digest, the report up to its signature with the
sequence of its frame, and whether that frame has run since the acceptance. -/
structure Signing where
  d : Desc
  kind : Nat
  nonce : List Byte
  dig : List Byte
  report : List Byte × Nat
  framed : Bool
deriving DecidableEq, Repr

/-- The security engine beside its registers. -/
structure SecSt where
  /-- the device certificate in OTP (R607), 3136 bytes -/
  cert : List Byte
  /-- the owner generations programmed, first first -/
  gens : List OwnerGen
  /-- the key could not be unwrapped or is not the certificate's, since the last SYS reset (R603) -/
  keyBad : Bool
  sign : Option Signing
  /-- an enrolment whose commit marker is not yet written (R610) -/
  enroll : Option Desc
deriving DecidableEq, Repr

end Sys2Proof.Machine
end

