-- ==== Sys2Proof/Machine/St/Conv.lean ====
section
/-! DEFINITION. The state of the auxiliary converters and of the pulse timers. -/

namespace Sys2Proof.Machine

/-- A conversion in progress: ts_c, the end of its integration, Tint in µs, channel, the fq flag, and a start by the host. -/
structure ConvRun where
  ts : Time
  endAt : Time
  tint : Nat
  ch : Nat
  fq : Bool
  host : Bool
deriving DecidableEq, Repr

/-- One converter beside its registers: the starts that wait (fMOD edge, by the host), the conversion in progress, when
the converter stops being busy, and the conversion count. -/
structure ConvSt where
  starts : List (Nat × Bool)
  run : Option ConvRun
  busyTo : Time
  count : Nat
deriving DecidableEq, Repr

/-- One pulse-timer unit beside its registers: the mode, period, phase and high in force, the µs of the next event, the
end of the high phase, and a ONESHOT pulse: its start in µs, LATE, started, and its command (R505 to R508). -/
structure UnitSt where
  mode : Nat
  period : Nat
  phase : Nat
  high : Nat
  next : Nat
  hiEnd : Option Time
  shot : Option (Nat × Bool × Bool × Desc)
deriving DecidableEq, Repr

/-- The converters and the pulse timers. -/
structure AuxSt where
  convs : List ConvSt
  units : List UnitSt
  /-- AUX_CONV commands with the starts, a converter and an fMOD edge, that they wait for -/
  cmds : List (Desc × List (Nat × Nat))
deriving DecidableEq, Repr

end Sys2Proof.Machine
end

