-- ==== Sys2Proof/Machine/St/Net.lean ====
section
/-! DEFINITION. The state of the network and teleprotection ports. -/

namespace Sys2Proof.Machine

/-- One GOOSE subscription (R529): the entry in force and the one that waits for the next frame boundary, the numbers of
the last accepted frame, its members, and the period count at which it expires. Its state stands in NET_GSTAT. -/
structure GSub where
  entry : List Byte
  next : Option (List Byte)
  last : Option (Nat × Nat)
  members : List GMember
  until_ : Nat
deriving DecidableEq, Repr

/-- One GOOSE publication (R532, R533): its entry, stNum and sqNum, its values, the time of its last event, the present
interval in ms and the period count of the next repeat. -/
structure GPub where
  entry : List Byte
  st : Nat
  sq : Nat
  vals : List GMember
  eventAt : Time
  interval : Nat
  nextAt : Nat
deriving DecidableEq, Repr

/-- One SV publication (R526): the entry in force, the one that waits with the whole second after which it takes effect,
and the ASDUs collected for the next frame. -/
structure SvPub where
  entry : List Byte
  next : Option (Nat × List Byte)
  asdus : List (Nat × List (Int × Nat))
deriving DecidableEq, Repr

/-- An authentication key (R535). -/
structure AuthKey where
  alg : Nat
  id : Nat
  from_ : Nat
  until_ : Nat
  key : List Byte
deriving DecidableEq, Repr

/-- A foreign master of a PTP port: what it announces, how many announcements in a row, and the last one's period count. -/
structure Foreign where
  data : PtpData
  count : Nat
  cyc : Nat
deriving DecidableEq, Repr

/-- One PTP port (R515, R516); its state code stands in NET_PTP. -/
structure PtpPort where
  foreign : List Foreign
  /-- since when announcements are awaited -/
  annCyc : Nat
  /-- the peer-delay request under way, and the measured link delay in units of 2^−16 ns -/
  reqSeq : Nat
  reqAt : Option Time
  delay : Int
  /-- a two-step Sync that awaits its Follow_Up: sender, sequence number, arrival and correction; and the master's sync interval
  as a power of 2 in seconds -/
  synced : Option (BitVec 64 × Nat × Time × Int)
  logInt : Int
  /-- the sequence number of the last Sync sent -/
  syncSeq : Nat
  /-- period counts of the last Sync, Announce and peer-delay request sent -/
  syncCyc : Nat
  annSent : Nat
  reqCyc : Nat
deriving DecidableEq, Repr

/-- An entry of the duplicate table of a redundant pair (R513): source, sequence number, period count, and by which of the
pair's ports the frame came. -/
structure DupEntry where
  src : BitVec 48
  seq : BitVec 16
  cyc : Nat
  ports : Nat
deriving DecidableEq, Repr

/-- The network ports. -/
structure NetSt where
  rxq : List (Nat × RDesc)
  /-- frames dropped since the last one delivered, by receive stream -/
  rxLost : List Nat
  /-- per pair: the duplicate table, newest first -/
  dup : List (List DupEntry)
  /-- per pair: the sequence number of the next redundant frame, and the last supervision frame -/
  redSeq : List Nat
  supCyc : List Nat
  gsubs : List GSub
  gpubs : List GPub
  svpubs : List SvPub
  keys : List (Option AuthKey)
  ptp : List PtpPort
  /-- the frames that wait for transmission, in the order they were handed over (R519) -/
  tx : List Emit
deriving DecidableEq, Repr

/-- One teleprotection port (R537 to R544) beside its registers. -/
structure TpcPort where
  /-- consecutive CRC failures -/
  fails : Nat
  /-- the bits of the last valid frame; those in force unless the fallback is; and whether that frame had test = 1 -/
  prev : Option Nat
  bits : Option Nat
  test : Bool
  /-- t_tx in ns and the arrival time of the last valid frame -/
  echo : Option (Nat × Time)
  /-- since when the command timeout runs, and whether it has expired, or the port has not run -/
  okCyc : Nat
  timed : Bool
  /-- the last 16 t_tx values, newest first -/
  sent : List Nat
  /-- the last 8 measurements in ns, newest first, and the asymmetry -/
  meas : List Rat
  asym : Rat
  seq : Nat
  /-- the start of the last frame sent, and bytes 0 to 51 of a frame whose byte 4 has not begun -/
  sendCyc : Option Nat
  begun : Option (List Byte)
  los : Bool
deriving DecidableEq, Repr

end Sys2Proof.Machine
end

