-- ==== Sys2Proof/Machine/St/Csc.lean ====
section
/-! DEFINITION. The state of the stack. -/

namespace Sys2Proof.Machine

/-- The stack (R577 to R600) beside its registers; instants are period counts. -/
structure CscSt where
  /-- the start of the present formation -/
  formAt : Nat
  /-- the last packet of each position -/
  heard : List Nat
  syncCyc : Nat
  gridCyc : Nat
  /-- the last whole millisecond for which the master sent a SYNC, and the step that it has announced -/
  syncMs : Nat
  stepSeen : Time
  /-- consecutive SYNC packets within ±50 ns -/
  alignCnt : Nat
  /-- positions that have been aligned since their admission -/
  wasAligned : Nat
  /-- the next frame on the master's instants is the first (R596) -/
  fresh : Bool
  /-- publications that wait for this device's own frame: member and bytes -/
  early : List (Nat × List Byte)
  /-- block lock by link, and the last HELLO and TIME sent -/
  lock : List Bool
  helloCyc : List Nat
  timeCyc : List Nat
  /-- the sequence number of the next packet of each kind, the source, type and sequence of the packets received, newest first, and
  the link by which each position is nearest (R598, R599) -/
  txSeq : List Nat
  seen : List (Nat × Nat × Nat)
  routes : List Nat
  /-- the position held when the stack last formed (R597) -/
  lastPos : Option Nat
  /-- the level last sent, and when -/
  levelLast : Bool
  levelCyc : Nat
  /-- descriptors for the TUN rings 8 to 15 that wait, by index -/
  tunWait : List (Nat × Bound)
deriving DecidableEq, Repr

end Sys2Proof.Machine
end

