-- ==== Sys2Proof/Machine/St/Pwr.lean ====
section
/-! DEFINITION. The state of supply, power states, start-up, internal faults and the test access port. -/

namespace Sys2Proof.Machine

/-- Power and start-up (R627 to R644, R653, R655) beside the registers. -/
structure PwrSt where
  /-- the device is in OFF (R627) -/
  off : Bool
  /-- RST_N is low (R642) -/
  held : Bool
  /-- steps 3 and 4 of the DAWN sequence have been run since tp (R630) -/
  otp : Bool
  /-- the device waits in DAWN for a host image (R632) -/
  waits : Bool
  /-- the host image whose check is running: the command and its buffer (R633) -/
  boot : Option (Desc × List Byte)
  /-- a PWR_STATE that waits (R637) -/
  want : Option (Desc × Nat)
  /-- the automatic move to NOON has still to be made (R636) -/
  auto : Bool
  /-- the device is in DUSK by tdusk, and no PWR_STATE has been accepted since (R638) -/
  dusk : Bool
  /-- since when source 225 has been deasserted -/
  coolAt : Nat
  /-- an internal fault has been recorded since the last SYS reset (R653) -/
  faulted : Bool
  /-- the identification register, once IDCODE has captured it (R656) -/
  dr : Word
  /-- the boundary register of 162 cells, cell 0 in bit 0 (R657, R677) -/
  boundary : BitVec 162
deriving DecidableEq, Repr

end Sys2Proof.Machine
end

