-- ==== Sys2Proof/Machine/State.lean ====
section
/-! DEFINITION. The state of the machine, the reasons a step can stop, and the state after reset. -/

namespace Sys2Proof.Machine

/-- The reasons a step can stop with a fault. No meaning of this model faults: every command and event of the
table has an effect that the spec states, and an event whose condition does not hold changes nothing (log 1). Safe. -/
inductive Fault where
  /-- never raised -/
  | none
deriving DecidableEq, Repr

/-- The reasons a step can be refused. -/
inductive Refusal where
  /-- a row of the table that has no meaning yet; safe -/
  | notModelled (mnemonic : String)
deriving DecidableEq, Repr

/-- Everything the spec gives the block, and the queue of the commands that wait. -/
structure State where
  /-- the registers whose value differs from reset -/
  regs : RegFile
  mer : MerSt
  sa : List SaSlot
  icu : IcuSt
  hif : HifSt
  cis : CisSt
  bcp : List BcpSt
  fio : FioSt
  afe : AfeSt
  dch : DchSt
  phe : PheSt
  sv : List SvSub
  ele : EleSt
  view : FrameView
  tmx : TmxSt
  rcd : RecSt
  rio : RioSt
  sec : SecSt
  aux : AuxSt
  net : NetSt
  tpc : List TpcPort
  csc : CscSt
  pwr : PwrSt
  /-- the factory trim record in OTP (R105), 2112 bytes -/
  trim : List Byte
  /-- what has left the device, newest first -/
  out : List Emit
  /-- the counter of free values (the model's own field, log 2) -/
  free : Nat
  /-- the commands and events that wait, first in, first out -/
  pending : List Instr
deriving DecidableEq, Repr

/-! ### The state after the POR release (R627, R630, R642)

Every register reads its reset value; everything else is empty or stopped. OTP holds what the device was made with. -/

/-- Meridian starts at 0 s in FREE (R85). -/
def MerSt.reset : MerSt := {
  now := 0, rem := 0, cyc := 0, stride := 1, slew := 0, slewRem := 0, integ := 0, lockCnt := 0, outCnt := 0, holdAt := 0, locked := [], hctoAt := 0
  hctoDone := false, srcs := List.replicate 12 ⟨none, none, 0⟩, irigBad := 0, switched := false, tset := none
  slewing := false, stepAt := 0, tdc := List.replicate 20 (true, 0), pps := false, ppsAt := 0, ppsSec := 0, irigSec := 0 }

/-- Every scheduled-action slot is FREE. -/
def SaSlot.reset : SaSlot := ⟨.nobody, 0, 0, 0, false, 0, 0, 0, none, false, 0, false, 0⟩

/-- Every BCP is EMPTY (R305). -/
def BcpSt.reset : BcpSt := {
  state := 0, active := 0, banks := [⟨[], [], false, none, 0⟩, ⟨[], [], false, none, 0⟩], insts := [], held := [], forces := []
  frames := 0, order := 0, relCounts := List.replicate 16 0, nextRel := List.replicate 16 0, switch := none
  err := ⟨0, 0, 0, 0, 0⟩, errAgain := false, loading := [], dispatch := false }

/-- The filters have not started, and the I/O die holds the outputs (R20, R445). -/
def FioSt.reset : FioSt := {
  di := List.replicate 32 ⟨0, false, 0, false, 0, 0, none⟩, sampleUs := 0, word := 0, wordSafe := true, wordCyc := 0, hold := true, refCyc := 0
  held := 0, hot := 0, pulses := List.replicate 16 none, tpulse := [], pulseEnd := List.replicate 16 none
  offCyc := List.replicate 16 0, hostCyc := 0, hostDone := false, edgeGap := 0, edges := [] }

/-- Modulators and weirs are stopped. -/
def AfeSt.reset : AfeSt := {
  run := false, mods := List.replicate 40 ⟨[], [], [], false⟩, chans := List.replicate 24 ⟨0, 0, 0, 0, [], 0⟩
  weirs := List.replicate 16 ⟨true, none, 0, false, 0⟩, inj := ⟨none, 0, 0, 0, 0, 0, none⟩, next := 0, mainDue := none }

/-- The chains are stopped; no frame has been produced. -/
def DchSt.reset : DchSt := {
  pipes := (List.range 24).map fun p => ⟨[], [], 0, [], true, p, false, false, [], []⟩, mainAt := none, preAt := none
  next := [0, 0, 0], tr := 0, resets := [], held := none, nextT := none, placed := [], lastDelta := 0, fPrev := 50, fEst := []
  fresh := true, seq0 := true, tstep := false, lost := false, swaps := [], hostCyc := 0, hostDone := false, lastRate := 1, prodRate := none
  frame := ⟨0, 0, 0, []⟩, taps := List.replicate 4 [], tapTs := List.replicate 4 0 }

/-- Whether an entry of the quantity table is reserved (R187). -/
def reservedEntry (i : Nat) : Bool := decide (i < 768) && decide (79 ≤ i % 96)

/-- The table reads 0.0 with STALE (R189), the reserved entries with a quality byte of 0 (R187). -/
def PheSt.reset : PheSt := {
  qv := List.replicate 1024 0, qq := (List.range 1024).map fun i => if reservedEntry i then 0 else 0x80, n := 0, words := [], times := []
  grps := List.replicate 16 ⟨[], ⟨List.replicate 8 0, 0, 0, 0, 0, 0, 0, 0, 0, 0, none, none⟩, [], [], List.replicate 8 [], none, false, none, 0, false⟩
  feeds := [] }

/-- A slot of type NONE, OFF, with outputs 0 (R194, R214). -/
def ElSlot.reset : ElSlot := {
  cfg := 0xA1090000, src := 0, lnk := 0, set := [0x3F800000, 0x3F800000, 0, 0x3DCCCCCD] ++ List.replicate 12 0, clr := false
  out := ⟨false, false, false, false, 0, 0, 0⟩, prev := ⟨false, false, false, false, 0, 0, 0⟩
  mem := ⟨0, 0, 0, false, 0, [], [], [], [], [], ⟨[], none, none, [], 0, true, false, false⟩, 0⟩, vst := 0, held := 0, lim := false
  hq := 0, acc := 0, sel := 0
  ok := false, stale := false, res := none, subst := none, part := none, ppart := none, view := [] }

def EleSt.reset : EleSt := {
  slots := List.replicate 256 ElSlot.reset, setw := [], results := [], opnds := [], packets := List.replicate 4 [], parts := []
  lastTs := none, dt := 0, di := 0, acts := 0, pks := List.replicate 4 [], wait := [], curves := [] }

/-- No frame has been completed: every item reads as after reset. -/
def FrameView.reset : FrameView := {
  header := List.replicate 16 0, seq := 0, stats := List.replicate 256 0, accs := List.replicate 256 0, qv := PheSt.reset.qv
  qq := PheSt.reset.qq, rows := 0, bins := [32, 32, 8, 4, 4, 8, 4, 4].map fun n => List.replicate n 0 }

/-- A row that selects nothing, class N, disabled. -/
def RowSt.reset : RowSt := {
  sel := List.replicate 11 0, blk := [0x01FF01FF, 0x01FF01FF], dst := 0x100000, dst2 := 0, sealCfg := 0x14, cls := false, tpol := true
  tblk := false, ctl := 0, stop := 0, commit := none, armed := false, deferred := false, act := false, drive := false
  sealOn := false, tc := 0, tnow := 0, wait := false }

def TmxSt.reset : TmxSt := {
  rows := List.replicate 64 RowSt.reset, ins := 0, gbits := 0, cFirst := 0, cLater := 0, cPrev := 0, pubs := [], second := false
  missed := false, t0 := 0, rose := [], tcs := List.replicate 16 0, onAt := List.replicate 16 none, misses := 0 }

def RecSt.reset : RecSt := {
  streams := List.replicate 4 ⟨none, 0, [], none, none, none, [], [], [], [], none, [], none, []⟩, tq := 0, cap := none
  arrivals := [], waves := [], waveDone := [], dist := [], wb := [], prev := List.replicate 5 none, prevQ := ([], [])
  tele := List.replicate 8 0, seq := 0 }

def RioSt.reset : RioSt := {
  links := List.replicate 8 ⟨false, false, 0, none, 0, [], none, none,
    List.replicate 16 ⟨0, [], List.replicate 64 0, [], false, false, false, 0, false, [], false, false, 0, false⟩⟩
  tick := 0 }

def AuxSt.reset : AuxSt := {
  convs := List.replicate 2 ⟨[], none, 0, 0⟩, units := List.replicate 8 ⟨0, 1000, 0, 0, 0, none, none⟩, cmds := [] }

/-- Ports down, subscriptions and publications empty, key slots empty (R535, R545). -/
def NetSt.reset : NetSt := {
  rxq := [], rxLost := List.replicate 16 0, dup := List.replicate 4 [], redSeq := List.replicate 4 0, supCyc := List.replicate 4 0
  gsubs := List.replicate 256 ⟨[], none, none, [], 0⟩, gpubs := List.replicate 64 ⟨[], 0, 0, [], 0, 0, 0⟩
  svpubs := List.replicate 8 ⟨[], none, []⟩, keys := List.replicate 32 none
  ptp := List.replicate 8 ⟨[], 0, 0, none, 0, none, 0, 0, 0, 0, 0⟩, tx := [] }

def TpcPort.reset : TpcPort := ⟨0, none, none, false, none, 0, true, [], [], 0, 0, none, none, false⟩

def CscSt.reset : CscSt := {
  formAt := 0, heard := List.replicate 8 0, syncCyc := 0, gridCyc := 0, syncMs := 0, stepSeen := 0, alignCnt := 0
  wasAligned := 0, fresh := false, early := [], lock := List.replicate 4 false, helloCyc := List.replicate 4 0
  timeCyc := List.replicate 4 0, txSeq := List.replicate 11 0, seen := [], routes := [], lastPos := none, levelLast := false, levelCyc := 0, tunWait := [] }

/-- What OTP holds of the certificate and the owner (R607, R609). -/
def SecSt.reset : SecSt := {
  cert := certRecord
  gens := Config.owners.map fun (k : List (BitVec 8) × Bool × Bool) => ⟨k.1, k.2.1, k.2.2⟩
  keyBad := false, sign := none, enroll := none }

def PwrSt.reset : PwrSt := {
  off := false, held := false, otp := false, waits := false, boot := none, want := none, auto := false, dusk := false, coolAt := 0, faulted := false
  dr := 0, boundary := 0 }

/-- The block right after the POR release: DAWN, with nothing waiting. -/
def State.reset : State := {
  regs := [], mer := MerSt.reset, sa := List.replicate 64 SaSlot.reset
  icu := ⟨0, 0, 0, []⟩
  hif := ⟨List.replicate 128 ⟨0, [], [], [], false⟩, [], [], [], [], []⟩
  cis := ⟨List.replicate 24 ⟨[], 0, [], 0⟩, []⟩
  bcp := List.replicate 4 BcpSt.reset, fio := FioSt.reset, afe := AfeSt.reset, dch := DchSt.reset, phe := PheSt.reset
  sv := List.replicate 64 ⟨[], none, [], none⟩, ele := EleSt.reset, view := FrameView.reset, tmx := TmxSt.reset, rcd := RecSt.reset, rio := RioSt.reset
  sec := SecSt.reset, aux := AuxSt.reset, net := NetSt.reset, tpc := List.replicate 4 TpcPort.reset, csc := CscSt.reset
  pwr := PwrSt.reset, trim := trimRecord, out := [], free := 0, pending := [] }

end Sys2Proof.Machine
end

