-- ==== Sys2Proof/Machine/Ops.lean ====
section
/-! DEFINITION. The named operations over registers, flags, interrupt sources, rings, completions and the Cistern. -/

namespace Sys2Proof.Machine

/-! ### Byte memory -/

/-- A byte of a memory; a byte not listed reads 0 (log 4). -/
def memGet : Mem → Nat → Byte
  | [], _ => 0
  | (b, v) :: t, a => if b = a then v else memGet t a

/-- Puts a cell before the first cell of a higher address. -/
def memInsert (a : Nat) (v : Byte) : Mem → Mem
  | [] => [(a, v)]
  | (b, w) :: t => if a < b then (a, v) :: (b, w) :: t else (b, w) :: memInsert a v t

/-- Drops every cell of an address. -/
def memDrop (a : Nat) : Mem → Mem
  | [] => []
  | (b, w) :: t => if b = a then memDrop a t else (b, w) :: memDrop a t

/-- Stores one byte; storing 0 leaves the address unlisted. -/
def memSet (m : Mem) (a : Nat) (v : Byte) : Mem := if v = 0 then memDrop a m else memInsert a v (memDrop a m)

/-- Stores bytes at rising addresses. -/
def memWrite : Mem → Nat → List Byte → Mem
  | m, _, [] => m
  | m, a, b :: bs => memWrite (memSet m a b) (a + 1) bs

/-- The n bytes from an address. -/
def memRead (m : Mem) : Nat → Nat → List Byte
  | _, 0 => []
  | a, n + 1 => memGet m a :: memRead m (a + 1) n

/-- The canonical form: addresses strictly rising, no byte 0 listed. -/
def memWf : Mem → Bool
  | [] => true
  | [(_, v)] => v != 0
  | (a, v) :: (b, w) :: t => v != 0 && decide (a < b) && memWf ((b, w) :: t)

/-! ### Registers -/

/-- The stored value of the register at an offset. -/
def State.rd (s : State) (off : Nat) : Word := regFind s.regs off

/-- Stores a register. -/
def State.wr (s : State) (off : Nat) (v : Word) : State := { s with regs := regSet s.regs off v }

/-- The value of a field at the given indexes. -/
def State.g (s : State) (f : Fld) (ix : List Nat := []) : Nat := bits (s.rd (fldOff f ix)) f.hi f.lo

/-- Whether a one-bit field is 1. -/
def State.on (s : State) (f : Fld) (ix : List Nat := []) : Bool := s.g f ix = 1

/-- Stores a field. -/
def State.p (s : State) (f : Fld) (ix : List Nat) (v : Nat) : State :=
  s.wr (fldOff f ix) (setBits (s.rd (fldOff f ix)) f.hi f.lo v)

/-- Adds to a counter field that saturates at its largest value. -/
def State.cnt (s : State) (f : Fld) (ix : List Nat := []) (n : Nat := 1) : State :=
  s.p f ix (min (s.g f ix + n) (2 ^ (f.hi + 1 - f.lo) - 1))

/-- Sends something out. -/
def State.emit (s : State) (e : Emit) : State := { s with out := e :: s.out }

/-- The EtherType of a frame, behind one VLAN tag. -/
def etherType (l : List Byte) : Nat := if beAt l 12 2 = 0x8100 then beAt l 16 2 else beAt l 12 2

/-- The transmit class of a frame, which is its rank in the strict priority of R519: 0 PTP event messages, 1 GOOSE, 2 SV, 3 PTP
general messages, 4 host frames and every other. A frame forwarded in an HSR ring ranks by what it carries (log 168). -/
def Emit.txClass : Emit → Nat
  | .ptp _ _ _ (.sync ..) | .ptp _ _ _ (.pdelayReq ..) | .ptp _ _ _ (.pdelayResp ..) | .ptpForward .. => 0
  | .goose .. => 1
  | .sv .. => 2
  | .ptp .. => 3
  | .forward _ _ l => match etherType l with
    | 0x88F7 => if beAt l (if beAt l 12 2 = 0x8100 then 18 else 14) 1 % 16 < 8 then 0 else 3
    | 0x88B8 => 1
    | 0x88BA => 2
    | _ => 4
  | _ => 4

/-- Hands a network frame over for transmission. -/
def State.transmit (s : State) (e : Emit) : State := { s with net := { s.net with tx := s.net.tx ++ [e] } }

/-- The waiting frames in strict priority, each class in the order of its handing over (R519). -/
def inPriority (l : List Emit) : List Emit := (List.range 5).flatMap fun c => l.filter fun e => e.txClass = c

/-- The waiting network frames leave in strict priority (R519, log 168). -/
def State.frames (s : State) : State :=
  { s with
    out := (inPriority s.net.tx).reverse ++ s.out
    net := { s.net with tx := [] } }

/-- Draws the next free value's number. -/
def State.draw (s : State) : Nat × State := (s.free, { s with free := s.free + 1 })

/-- Applies a change to each of a list of things, in order. -/
def State.each {α : Type} (s : State) (l : List α) (f : State → α → State) : State := l.foldl f s

/-! ### The device state (GEN_STATE) -/

abbrev DAWN : Nat := 1
abbrev MORNING : Nat := 2
abbrev NOON : Nat := 3
abbrev DUSK : Nat := 4
abbrev NIGHT : Nat := 5
abbrev SAFE : Nat := 6

/-- The present device state (R47). -/
def State.dev (s : State) : Nat := s.g GEN_STATE_state

/-- Whether the device is in one of the states. -/
def State.inSt (s : State) (l : List Nat) : Bool := l.contains s.dev

/-- Whether the device is a member, and not the master, of a formed stack. -/
def State.isMember (s : State) : Bool := s.on GEN_STATE_stacked && !s.on GEN_STATE_master

/-- Whether the device is the master of a formed stack. -/
def State.isMaster (s : State) : Bool := s.on GEN_STATE_stacked && s.on GEN_STATE_master

/-- Whether the stack is FORMED, as the master or a member sees it (CSC_STAT.state, R580). -/
def State.stackFormed (s : State) : Bool := s.on GEN_STATE_stacked && s.g CSC_STAT_state = 2

/-- Whether the device follows the master of a formed stack (R55). -/
def State.follows (s : State) : Bool := s.isMember && s.g CSC_STAT_state = 2

/-- Periods elapsed since a period count, in units of 2^−16 ns (a period is 4 ns, R49). -/
def State.since (s : State) (c : Nat) : Nat := (s.mer.cyc - c) * 4 * oneNs

/-- Bits as a number, from a list of bit numbers. -/
def maskSum (l : List Nat) : Nat := (l.map (2 ^ ·)).sum

/-! ### MSI-X (R396, R397, R549) -/

/-- Whether the device may issue memory requests and messages (R549). -/
def State.linkOk (s : State) : Bool := s.on HIF_LINK_up && s.on HIF_LINK_bme && !s.on HIF_LINK_d3

/-- Sends one message of a vector: a masked vector sets its PBA bit, and a link that may not send makes it wait. -/
def State.msix (s : State) (vec : Nat) : State :=
  if s.on MSIX_mask [vec] then
    s.p MSIX_pba [vec / 32] (putBit (s.g MSIX_pba [vec / 32]) (vec % 32) true)
  else if s.linkOk then s.emit (.msix vec)
  else { s with hif := { s.hif with msixWait := s.hif.msixWait ++ [vec] } }

/-! ### Interrupt sources (R378 to R399) -/

def State.srcEn (s : State) (n : Nat) : Bool := bitAt (s.g ICU_EN [n / 32]) (n % 32)
def State.srcTgt (s : State) (n : Nat) : Nat := s.g ICU_SRC_tgt [n]
def State.srcPend (s : State) (n : Nat) : Bool := s.icu.pending.getLsbD n
def State.srcAct (s : State) (n : Nat) : Bool := s.icu.active.getLsbD n

/-- A source with target CASC is presented only on a member of a formed stack (R398, R399); NONE to no one (R393). -/
def State.srcServed (s : State) (n : Nat) : Bool :=
  s.srcTgt n ≤ 4 || (s.srcTgt n = 5 && s.isMember)

/-- Whether a source is presented to its target (R382). -/
def State.presented (s : State) (n : Nat) : Bool :=
  s.srcPend n && s.srcEn n && !s.srcAct n && s.srcServed n

/-- The BCP at an index. -/
def emptyErr : ErrRec := ⟨0, 0, 0, 0, 0⟩
def emptyBank : Bank := ⟨[], [], false, none, 0⟩
def emptyBcp : BcpSt := {
  state := 0, active := 0, banks := [emptyBank, emptyBank], insts := [], held := [], forces := [], frames := 0,
  order := 0, relCounts := List.replicate 16 0, nextRel := List.replicate 16 0, switch := none, err := emptyErr,
  errAgain := false, loading := [], dispatch := false }
def State.cpu (s : State) (b : Nat) : BcpSt := nth s.bcp b emptyBcp
def State.putCpu (s : State) (b : Nat) (c : BcpSt) : State := { s with bcp := s.bcp.set b c }

/-- What a source's becoming presented does: a message to the host (R396), a wake of a BCP that runs
and is idle (R317, R394). -/
def State.present (s : State) (n : Nat) : State :=
  let t := s.srcTgt n
  if t = 4 then s.msix (s.g ICU_SRC_vec [n])
  else if t ≤ 3 then
    if (s.cpu t).state = 2 && (s.cpu t).insts.isEmpty then s.putCpu t { s.cpu t with dispatch := true } else s
  else s

/-- Replaces the source bits, and presents source n if it has become presented by that. -/
def State.icuTo (s : State) (n : Nat) (i : IcuSt) : State :=
  let s' := { s with icu := i }
  if !s.presented n && s'.presented n then s'.present n else s'

/-- A bit of a 256-bit set, set or cleared. -/
def putSrc (v : BitVec 256) (n : Nat) (b : Bool) : BitVec 256 :=
  if b then v ||| BitVec.ofNat 256 (2 ^ n) else v &&& ~~~ BitVec.ofNat 256 (2 ^ n)

/-- An edge of an edge source: it counts, and raises the pending bit (R381). -/
def State.raise (s : State) (n : Nat) : State :=
  let s1 := s.cnt ICU_CNT_count [n]
  s1.icuTo n { s1.icu with pending := putSrc s1.icu.pending n true }

/-- The level of a level source: pending equals the level, and a rise counts as one raise (R380, R381). -/
def State.setLevel (s : State) (n : Nat) (lv : Bool) : State :=
  let s1 := if lv && !s.icu.level.getLsbD n then s.cnt ICU_CNT_count [n] else s
  s1.icuTo n { s1.icu with level := putSrc s1.icu.level n lv, pending := putSrc s1.icu.pending n lv }

/-! ### Flags of XXX_STS and the notices of refused and clamped writes -/

/-- Block numbers (R24). -/
abbrev GEN : Nat := 0
abbrev PWR : Nat := 1
abbrev MER : Nat := 2
abbrev AFE : Nat := 3
abbrev DCH : Nat := 4
abbrev PHE : Nat := 5
abbrev ELE : Nat := 6
abbrev TMX : Nat := 7
abbrev BCP : Nat := 8
abbrev ICU : Nat := 9
abbrev REC : Nat := 10
abbrev AUX : Nat := 11
abbrev FIO : Nat := 12
abbrev RIO : Nat := 13
abbrev NET : Nat := 14
abbrev TPC : Nat := 15
abbrev CSC : Nat := 16
abbrev HIF : Nat := 17
abbrev CIS : Nat := 18
abbrev SEC : Nat := 19
abbrev TST : Nat := 20

/-- The interrupt source that a flag raises, where the flag alone fixes it (R86, R120, R164, R190, R231, R304, R346,
R404, R438, R469, R510, R546, R576, R601, R624, R644, R660, source 229). -/
def flagSource (blk bit : Nat) : Option Nat :=
  if bit < 8 then none else match blk with
  | 0 => some 229
  | 1 => some (if bit = 12 then 226 else 224)
  | 2 => some (136 + bit)
  | 3 => some (142 + bit)
  | 4 => some (145 + bit)
  | 5 => some (150 + bit)
  | 6 => some 136
  | 7 => some (if bit = 8 then 141 else if bit = 9 then 142 else 143)
  | 8 => some (if bit = 9 then 162 else if bit = 11 || bit = 12 then 163 else 161)
  | 9 => some 230
  | 10 => some 217
  | 11 => if bit = 12 then some 220 else none
  | 12 => some (if bit ≤ 12 then 184 else 185)
  | 14 => some (if bit = 8 || bit = 9 || bit = 16 then 194 else if bit = 10 then 195 else if bit = 11 then 196
      else if bit = 12 || bit = 13 then 197 else 198)
  | 16 => some (if bit = 9 || bit = 12 then 205 else 204)
  | 17 => some 221
  | 18 => some 221
  | 19 => some 223
  | 20 => some (if bit = 8 then 228 else 227)
  | _ => none

/-- Hardware sets a bit of XXX_STS: its counter counts (R28). -/
def State.sts (s : State) (blk bit : Nat) : State :=
  (s.p BLK_STS [blk] (putBit (s.g BLK_STS [blk]) bit true)).cnt BLK_FLAGCNT_count [blk, bit]

/-- Hardware sets a flag and raises its source (R379). -/
def State.flag (s : State) (blk bit : Nat) : State :=
  match flagSource blk bit with
  | some n => (s.sts blk bit).raise n
  | none => s.sts blk bit

/-- Hardware sets a flag whose source depends on the unit, port or link. -/
def State.flagAt (s : State) (blk bit src : Nat) : State := (s.sts blk bit).raise src

/-- A write to the register at a BAR0 offset is refused as not-now (R38); the notnow flag raises no source (R379). -/
def State.notNow (s : State) (off : Nat) : State :=
  (s.sts (off / 0x10000) 0).p BLK_NNLAST_offset [off / 0x10000] (off % 0x10000)

/-- Counts n clamped fields of a register write (R35). -/
def State.clampReg (s : State) (off n : Nat) : State :=
  if n = 0 then s else (s.cnt GEN_CLAMPCNT [] n).wr 0x124 (BitVec.ofNat 32 (off % 2 ^ 24))

/-- Counts n clamped descriptor fields, the last of them at descriptor byte o (R35). -/
def State.clampDesc (s : State) (d : Desc) (o n : Nat) : State :=
  if n = 0 then s else (s.cnt GEN_CLAMPCNT [] n).wr 0x124 (BitVec.ofNat 32 (2 ^ 31 + d.ring % 128 * 2 ^ 24 + o))

/-! ### The Cistern (R571 to R574) -/

def emptyCons : ConsSt := ⟨[], 0, [], 0⟩
def State.cons (s : State) (c : Nat) : ConsSt := nth s.cis.cons c emptyCons
def State.putCons (s : State) (c : Nat) (k : ConsSt) : State := { s with cis := { s.cis with cons := s.cis.cons.set c k } }

/-- The sum of the reserves. -/
def State.resSum (s : State) : Nat := ((List.range 24).map fun c => s.g CIS_Q_res [c]).sum

/-- The buffers that a consumer holds beyond its reserve, taken from the shared pool. -/
def State.sharedOf (s : State) (c : Nat) : Nat := (s.cons c).bufs.length - s.g CIS_Q_res [c]

/-- Free buffers in the shared pool: the reserves not in use are kept back (R572, R573). -/
def State.sharedFree (s : State) : Nat := 4096 - s.resSum - ((List.range 24).map s.sharedOf).sum

/-- The buffers in use. -/
def State.usedBufs (s : State) : List Nat := (s.cis.cons.map fun (k : ConsSt) => k.bufs.map (·.2)).flatten

/-- Buffers that raised reserves lack, because the shared pool had not so many free (R573). -/
def State.lacking (s : State) : Nat := s.resSum + ((List.range 24).map s.sharedOf).sum - 4096

/-- Returned buffers make reserves whole: n of what the consumers lack is there, the lower ID first. -/
def fillShort : Nat → List ConsSt → List ConsSt
  | _, [] => []
  | n, k :: t => { k with short := k.short - n } :: fillShort (n - k.short) t

/-- What the reserves lack follows the shared pool; `c` is the consumer whose reserve a quota write has raised (R573). -/
def State.reserves (s : State) (c : Option Nat) : State :=
  let t := (s.cis.cons.map (·.short)).sum
  let s1 := { s with cis := { s.cis with cons := fillShort (t - s.lacking) s.cis.cons } }
  match c with
  | some i => s1.putCons i { s1.cons i with short := (s1.cons i).short + (s.lacking - t) }
  | none => s1

/-- Whether a consumer is at its maximum: neither its reserve nor the shared pool has a buffer for it (R572). -/
def State.atMax (s : State) (c : Nat) : Bool :=
  let u := (s.cons c).bufs.length
  let r := s.g CIS_Q_res [c]
  !(decide (u + (s.cons c).short < r) || (decide (r ≤ u) && decide (u < s.g CIS_Q_max [c]) && decide (0 < s.sharedFree)))

def emptyRing : RingSt := ⟨0, [], [], [], false⟩
def State.ring (s : State) (r : Nat) : RingSt := nth s.hif.rings r emptyRing
def State.putRing (s : State) (r : Nat) (x : RingSt) : State :=
  { s with hif := { s.hif with rings := s.hif.rings.set r x } }

/-- While consumer CMPL is at its maximum, the command rings whose CMPL ring has completions waiting are held: each hold
sets HIF_STS.cmplwait (R565). -/
def State.cmplHolds (s : State) : State :=
  let l := (List.range 128).filter fun r => !(s.ring r).waiting.isEmpty && !(s.ring r).hold
  if s.atMax 11 && !l.isEmpty then (s.each l fun s r => s.putRing r { s.ring r with hold := true }).flag HIF 10 else s

/-- The levels that follow the use and the quotas of the Cistern: source 222, with CIS_STS.low at its rise (R574, R576),
resshort while a raised reserve is not whole (R573), and the holds of R565. -/
def State.cisLevels (s0 : State) : State :=
  let s := s0.reserves none
  let low := decide (s.sharedFree < s.g CIS_CFG_lowat)
  let s1 := if low && !s.icu.level.getLsbD 222 then s.flag CIS 10 else s
  let s2 := if low = s1.icu.level.getLsbD 222 then s1 else s1.setLevel 222 low
  let s3 := if s2.lacking = 0 then s2.p BLK_STS [CIS] (putBit (s2.g BLK_STS [CIS]) 9 false)
    else if bitAt (s2.g BLK_STS [CIS]) 9 then s2 else s2.flag CIS 9
  s3.cmplHolds

/-- One buffer for a consumer, from its reserve or from the shared pool, as number i of its stream; none when it is at its
maximum (R572). -/
def State.takeBuf (s : State) (c i : Nat) : Option State :=
  let u := (s.cons c).bufs.length
  let room := !s.atMax c
  let free := (List.range 4096).filter fun b => !s.usedBufs.contains b
  if room && !free.isEmpty then
    let (k, s1) := s.draw
    let b := nth free (Config.pickBuffer k % free.length) 0
    let s2 := s1.putCons c { s1.cons c with bufs := (s1.cons c).bufs ++ [(i, b)] }
    some ((s2.p CIS_USE_peak [c] (max (s2.g CIS_USE_peak [c]) (u + 1))).cisLevels)
  else none

/-- The refusal of a consumer at its maximum (R572). -/
def State.noBuf (s : State) (c : Nat) : State := (s.cnt CIS_NB [c]).flag CIS 8

/-- n buffers for a consumer, from number i of its stream on, or none of them. -/
def State.takeBufs (s : State) (c i : Nat) : Nat → Option State
  | 0 => some s
  | n + 1 => match s.takeBuf c i with
    | some s' => s'.takeBufs c (i + 1) n
    | none => none

/-- The Cistern byte that holds stream position p of a consumer (R571). -/
def ConsSt.addr (k : ConsSt) (p : Nat) : Nat := match k.bufs.find? fun x => x.1 = p / 2048 with
  | some (_, b) => b * 2048 + p % 2048
  | none => 0

/-- Stores bytes into the stream of a consumer from stream position p on. -/
def State.storeStream (s : State) (c : Nat) : Nat → List Byte → State
  | _, [] => s
  | p, b :: bs =>
    State.storeStream { s with cis := { s.cis with mem := memSet s.cis.mem ((s.cons c).addr p) b } } c (p + 1) bs

/-- Room for a record of n bytes at the end of a consumer's stream (R571); none when it finds no room. -/
def State.reserve (s : State) (c key n : Nat) : Option State :=
  let k := s.cons c
  let first := (k.fill + 2047) / 2048
  (s.takeBufs c first ((k.fill + n + 2047) / 2048 - first)).map fun s1 =>
    s1.putCons c { s1.cons c with fill := k.fill + n, recs := (s1.cons c).recs ++ [⟨key, k.fill, n⟩] }

/-- Queues a record in a consumer's byte stream (R571); none when it finds no room, which counts as a refusal. -/
def State.queue (s : State) (c key : Nat) (rec : List Byte) : Option State :=
  (s.reserve c key rec.length).map fun s1 => s1.storeStream c (s.cons c).fill rec

/-- Stores bytes into the newest record of a queue, from its byte o on. -/
def State.storeLast (s : State) (c key o : Nat) (l : List Byte) : State := match (s.cons c).recs.reverse.find? fun r => r.key = key with
  | some r => s.storeStream c (r.pos + o) l
  | none => s

/-- Whether buffer number i of a stream still holds bytes of one of these records. -/
def heldBuf (recs : List QRec) (i : Nat) : Bool :=
  recs.any fun r => decide (r.pos < (i + 1) * 2048) && decide (i * 2048 < r.pos + r.len)

/-- Only these records of a consumer stay: a buffer returns when every byte of it has left (R571). -/
def State.keepRecs (s : State) (c : Nat) (recs : List QRec) : State :=
  let k := s.cons c
  let filling (i : Nat) : Bool := k.fill % 2048 ≠ 0 && i = k.fill / 2048
  (s.putCons c (if recs.isEmpty then { emptyCons with short := k.short }
    else { k with bufs := k.bufs.filter fun b => filling b.1 || heldBuf recs b.1, recs := recs })).cisLevels

/-- The oldest record of a queue has been delivered (R571). -/
def State.unqueue (s : State) (c key : Nat) : State := s.keepRecs c ((s.cons c).recs.eraseP fun r => r.key = key)

/-- The newest record of a queue is discarded. -/
def State.unqueueLast (s : State) (c key : Nat) : State :=
  s.keepRecs c ((s.cons c).recs.reverse.eraseP fun r => r.key = key).reverse

/-- Every record of a consumer leaves. -/
def State.unqueueAll (s : State) (c : Nat) : State := s.keepRecs c []

/-! ### Rings and completions (R552 to R569) -/

/-- Ring classes (R552). -/
abbrev CLS_BCPEVT : Nat := 3
abbrev CLS_REC : Nat := 4
abbrev CLS_AUX : Nat := 5
abbrev CLS_FIOE : Nat := 6
abbrev CLS_RIOIMG : Nat := 7
abbrev CLS_NETRX : Nat := 8
abbrev CLS_ELEOP : Nat := 9
abbrev CLS_BCPTASK : Nat := 10
abbrev CLS_TUN : Nat := 11

/-- The 32 bytes of a descriptor (R562) as it waits in the Cistern, the phase not yet set. -/
def RDesc.bytes (d : RDesc) : List Byte :=
  leBytes 2 d.op ++ leBytes 2 d.tag ++ leBytes 4 d.len ++ leBytes 8 d.addr ++ leBytes 8 d.a ++ leBytes 4 d.b ++ leBytes 2 d.rf
    ++ leBytes 1 d.status ++ [0]

abbrev M17 : Nat := 131072

/-- Entries of a ring. -/
def State.ringSize (s : State) (r : Nat) : Nat := 2 ^ s.g HIF_RING_2_k [r]

/-- Slots that the host has posted and that no record has taken (R557); none while the link may not be used (R549),
while the ring is disabled or in ERROR. -/
def State.posted (s : State) (r : Nat) : Nat :=
  if s.linkOk && s.on HIF_RING_2_en [r] && s.g HIF_RING_2_state [r] = 1 then
    s.ringSize r - (s.g HIF_RING_3_d [r] + M17 - (s.ring r).h) % M17 - (s.ring r).ready.length
  else 0

/-- The enabled ring of a class and index (R553, R554). -/
def State.ringFor (s : State) (cls idx : Nat) : Option Nat :=
  (List.range 128).find? fun r => s.on HIF_RING_2_en [r] && s.g HIF_RING_2_cls [r] = cls && s.g HIF_RING_2_idx [r] = idx

/-- The buffer size of the posted slot that the next record of a ring takes. -/
def State.nextSize (s : State) (r : Nat) : Nat := (nth (s.ring r).slots (s.ring r).ready.length (0, 0)).2

/-- A record is ready for the next posted slot of a ring, with the Cistern records that it delivers. -/
def State.ready (s : State) (r : Nat) (d : RDesc) (toks : List CisTok := []) : State :=
  let x := s.ring r
  s.putRing r { x with ready := x.ready ++ [(d, toks)] }

/-- The Cistern records of a list have been delivered. -/
def State.freeToks (s : State) (l : List CisTok) : State := s.each l fun s t => s.unqueue t.1 t.2

/-- Whether a stream function has lost a record since the last one written (status GAP, R553). -/
def State.gapOf (s : State) (cls idx : Nat) : Bool := s.hif.gaps.contains (cls, idx)

def State.putGap (s : State) (cls idx : Nat) (b : Bool) : State :=
  let l := s.hif.gaps.filter (· ≠ (cls, idx))
  { s with hif := { s.hif with gaps := if b then (cls, idx) :: l else l } }

/-- Delivers a record that does not wait in the Cistern (R208, R341, R343, R487): dropped when its function has no enabled
ring or its ring no posted descriptor (R553), and the next one written completes with GAP where `marks` says so. Answers
whether it was delivered. -/
def State.deliver (s : State) (cls idx : Nat) (d : RDesc) (marks : Bool) : Bool × State :=
  match (s.ringFor cls idx).filter fun r => 0 < s.posted r with
  | none => (false, if marks then s.putGap cls idx true else s)
  | some r =>
    if marks && s.gapOf cls idx then (true, (s.putGap cls idx false).ready r { d with status := 0x12 }) else (true, s.ready r d)

/-- Drops the first occurrence of an element. -/
def dropOne {α : Type} [DecidableEq α] (n : α) : List α → List α
  | [] => []
  | x :: xs => if x = n then xs else x :: dropOne n xs

abbrev ST_DONE : Nat := 0x00
abbrev ST_NOT_NOW : Nat := 0x02
abbrev ST_BUSY : Nat := 0x03
abbrev ST_AUTH_FAIL : Nat := 0x10
abbrev ST_NO_BUFFER : Nat := 0x11
abbrev ST_GAP : Nat := 0x12
abbrev ST_LATE : Nat := 0x13

/-- A completion that copies the command's fields (R564). -/
def compOf (d : Desc) (op status : Nat) : Comp :=
  ⟨d, op, status, d.len.toNat, d.addr.toNat, d.a.toNat, d.b.toNat, d.rf.toNat, [], [], false⟩

/-- Seconds and nanoseconds in bytes 8–15 and 16–19 of a completion; bytes 20–23 stay copied from the command (R564). -/
def Comp.secNs (c : Comp) (sec ns : Nat) : Comp := { c with addr := sec, a := c.a / 2 ^ 32 * 2 ^ 32 + ns }

/-- A time in bytes 8–19 of a completion. -/
def Comp.at (c : Comp) (t : Time) : Comp := c.secNs (Time.sec t) (Time.ns t)

/-- A completion whose bytes 16–17 hold the sequence of a frame. -/
def Comp.seq (c : Comp) (q : Nat) : Comp := { c with a := c.a / 65536 * 65536 + q }

/-- Whether no completion is written: nocmp is 1 and the status DONE (R564). -/
def Comp.quiet (c : Comp) : Bool := c.d.nocmp && c.status = ST_DONE && !c.d.tunnel

/-- A command completes: it is open no more, and its completion goes to the host-interface engine, unless nocmp is 1
and the status is DONE (R563, R564); one that returns a buffer goes there for its buffer alone. A tunnelled one goes back to
the master, which does not write it then. The completion of a command that a HIF block reset has ended is discarded (R575). -/
def State.completeWith (s : State) (c : Comp) : State :=
  let s1 := { s with hif := { s.hif with openCmds := dropOne c.d s.hif.openCmds } }
  if !s.hif.openCmds.contains c.d || (c.quiet && c.buf.isEmpty) then s1.freeToks c.toks
  else { s1 with hif := { s1.hif with comps := s1.hif.comps ++ [c] } }

/-- A command completes with a status and its own fields. -/
def State.complete (s : State) (d : Desc) (op status : Nat) : State := s.completeWith (compOf d op status)

/-- A command stays open after it has been taken (R563). -/
def State.open_ (s : State) (d : Desc) : State :=
  { s with hif := { s.hif with openCmds := s.hif.openCmds ++ [d] } }


/-- The position of this device in the stack (GEN_STATE.member). -/
def State.position (s : State) : Nat := s.g GEN_STATE_member

/-- The members, other than this device, that are present. -/
def State.members (s : State) : List Nat :=
  (bitsOf 8 (s.g CSC_STAT_present)).filter fun m => m ≠ s.position

/-- Whether publications of other members may come: the stack is FORMED and has other members (R586). -/
def State.awaits (s : State) : Bool := s.g CSC_STAT_state = 2 && 1 < s.g CSC_STAT_count

end Sys2Proof.Machine
end

