-- ==== Sys2Proof/Machine/FbcNum.lean ====
section
/-! DEFINITION. Values of block code: IEEE 754 values with zeros and infinities, saturating integers, the MATH functions and the conversions of the type table (R8, R336, R356, R365 to R367). -/

namespace Sys2Proof.Machine

/-- Type codes (R350). -/
abbrev TB : Nat := 0
abbrev TI : Nat := 1
abbrev TD : Nat := 2
abbrev TL : Nat := 3
abbrev TR : Nat := 4
abbrev TLR : Nat := 5
abbrev TT : Nat := 6

def isReal (t : Nat) : Bool := t = TR || t = TLR

/-- The width of an integer type, TIME included. -/
def intWidth (t : Nat) : Nat := if t = TI then 16 else if t = TD then 32 else 64

/-- Saturates to the range of an integer type; the flag tells a saturation (R365). -/
def satType (t : Nat) (x : Int) : Int × Bool :=
  let w := intWidth t
  let y := satI (-(2 ^ (w - 1))) (2 ^ (w - 1) - 1) x
  (y, y ≠ x)

/-! ### IEEE 754 values -/

/-- A binary32 or binary64 value: the sign of a finite value is kept for zeros. -/
inductive FV where
  | nan
  | inf (neg : Bool)
  | fin (x : Rat) (neg : Bool)
deriving DecidableEq, Repr

def fmtOf (t : Nat) : Fmt := if t = TR then f32 else f64

/-- The value of a pattern; a subnormal is a zero of its sign (R8). -/
def fvOf (f : Fmt) (n : Nat) : FV :=
  if isNaN f n then .nan
  else if isInf f n then .inf (fmtNeg f n)
  else .fin (fpRat f n) (fmtNeg f n)

/-- A finite result with its own sign. -/
def FV.ofRat (x : Rat) : FV := .fin x (decide (x < 0))

/-- The pattern of a result, and whether the arithmetic flag sets: infinities become the largest finite value, NaN
becomes 0.0 (R366). -/
def FV.pattern (f : Fmt) : FV → Nat × Bool
  | .nan => (0, true)
  | .inf neg => (fpMax f neg, true)
  | .fin x neg => if x = 0 then (if neg then 2 ^ (f.mb + f.eb) else 0, false) else fpRound f x

def FV.neg : FV → FV
  | .nan => .nan
  | .inf n => .inf (!n)
  | .fin x n => .fin (-x) (!n)

def FV.abs : FV → FV
  | .nan => .nan
  | .inf _ => .inf false
  | .fin x _ => .fin (if x < 0 then -x else x) false

def FV.add : FV → FV → FV
  | .nan, _ => .nan
  | _, .nan => .nan
  | .inf m, .inf n => if m = n then .inf m else .nan
  | .inf m, .fin _ _ => .inf m
  | .fin _ _, .inf n => .inf n
  | .fin x m, .fin y n => .fin (x + y) (if x + y = 0 then m && n else decide (x + y < 0))

def FV.mul : FV → FV → FV
  | .nan, _ => .nan
  | _, .nan => .nan
  | .inf m, .inf n => .inf (m != n)
  | .inf m, .fin y n => if y = 0 then .nan else .inf (m != n)
  | .fin x m, .inf n => if x = 0 then .nan else .inf (m != n)
  | .fin x m, .fin y n => .fin (x * y) (m != n)

def FV.div : FV → FV → FV
  | .nan, _ => .nan
  | _, .nan => .nan
  | .inf _, .inf _ => .nan
  | .inf m, .fin _ n => .inf (m != n)
  | .fin _ m, .inf n => .fin 0 (m != n)
  | .fin x m, .fin y n => if y = 0 then (if x = 0 then .nan else .inf (m != n)) else .fin (x / y) (m != n)

/-- Whether a < b; false with a NaN. Zeros are equal. -/
def FV.lt : FV → FV → Bool
  | .nan, _ => false
  | _, .nan => false
  | .inf m, .inf n => m && !n
  | .inf m, .fin _ _ => m
  | .fin _ _, .inf n => !n
  | .fin x _, .fin y _ => decide (x < y)

def FV.eq : FV → FV → Bool
  | .nan, _ => false
  | _, .nan => false
  | .inf m, .inf n => m == n
  | .fin x _, .fin y _ => decide (x = y)
  | _, _ => false

def FV.isNan : FV → Bool
  | .nan => true
  | _ => false

def FV.isNeg : FV → Bool
  | .nan => false
  | .inf n => n
  | .fin _ n => n

/-- The smaller value; −0 is smaller than +0 (IEEE 754-2019 minimum). -/
def FV.min (a b : FV) : FV :=
  if a.isNan || b.isNan then .nan else if a.lt b then a else if b.lt a then b else if a.isNeg then a else b
def FV.max (a b : FV) : FV :=
  if a.isNan || b.isNan then .nan else if a.lt b then b else if b.lt a then a else if a.isNeg then b else a

/-! ### MATH (R363, R366) -/

/-- A function that is odd and behaves as x near 0: below 2^−40 its rounded value is x itself. -/
def nearX (f : Rat → Rat) (x : Rat) (neg : Bool) : FV :=
  let a := if x < 0 then -x else x
  if a < pow2 (-40) then .fin x neg else .fin (f x) (decide (f x < 0))

/-- Functions 0 to 9 of MATH. -/
def mathFn (k : Nat) (a : FV) : FV := match k, a with
  | _, .nan => .nan
  | 0, .inf n => if n then .nan else .inf false
  | 0, .fin x n => if x < 0 then .nan else .fin (sqrtQ x) n
  | 1, .inf n => if n then .nan else .inf false
  | 1, .fin x _ => if x < 0 then .nan else if x = 0 then .inf true else .ofRat (lnQ x)
  | 2, .inf n => if n then .nan else .inf false
  | 2, .fin x _ => if x < 0 then .nan else if x = 0 then .inf true else .ofRat (log10Q x)
  | 3, .inf n => if n then .fin 0 false else .inf false
  | 3, .fin x _ => .fin (expQ x) false
  | 4, .fin x n => nearX sinQ x n
  | 5, .fin x _ => .ofRat (cosQ x)
  | 6, .fin x n => nearX tanQ x n
  | 7, .fin x n => if x < -1 || 1 < x then .nan else nearX asinQ x n
  | 8, .fin x _ => if x < -1 || 1 < x then .nan else .ofRat (acosQ x)
  | 9, .fin x n => nearX atanQ x n
  | 9, .inf n => .ofRat (if n then -(piQ / 2) else piQ / 2)
  | _, .inf _ => .nan
  | _, .fin _ _ => .nan

/-- The exact square root of a positive rational, where it is rational. -/
def rootExact (a : Rat) : Option Rat :=
  let n := isqrt a.num.toNat
  let d := isqrt a.den
  if n * n = a.num.toNat && d * d = a.den then some ((n : Rat) / (d : Rat)) else none

/-- The exact root of order 2^k, where it is rational. -/
def rootsExact : Nat → Rat → Option Rat
  | 0, a => some a
  | k + 1, a => if a = 1 then some 1 else (rootExact a).bind (rootsExact k)

/-- a to the power of b for a finite positive a. Only a power whose exponent is n / 2^k, |n| at most 128, of an exact root of order
2^k can be a tie of a format (another has a mantissa above 53 bits, or is a power of 2): it is taken exactly. -/
def powPos (a b : Rat) : Rat :=
  let n := b.num.natAbs
  match if n ≤ 128 then rootsExact (Nat.log2 b.den) a else none with
  | some c => if 0 ≤ b then c ^ n else 1 / c ^ n
  | none => powQ a b

/-- Whether a rational is an odd integer. -/
def isOdd (b : Rat) : Bool := b.den = 1 && b.num % 2 = 1

/-- EXPT. -/
def mathExpt (a b : FV) : FV := match a, b with
  | .nan, _ => .nan
  | _, .nan => .nan
  | a, .fin y n =>
    if y = 0 then .fin 1 false
    else match a with
      | .fin x m =>
        if x = 0 then (if n then .inf (m && isOdd y) else .fin 0 (m && isOdd y))
        else if 0 < x then .fin (powPos x y) false
        else if y.den = 1 then .fin (if isOdd y then -(powPos (-x) y) else powPos (-x) y) (isOdd y)
        else .nan
      | .inf m => if n then .fin 0 (m && isOdd y) else .inf (m && isOdd y)
      | .nan => .nan
  | .fin x _, .inf n =>
    let ax := if x < 0 then -x else x
    if ax = 1 then .fin 1 false else if (1 < ax) = n then .fin 0 false else .inf false
  | .inf _, .inf n => if n then .fin 0 false else .inf false

/-! ### Cells (R356) -/

/-- The integer of a cell: its 64 bits, signed. -/
def cellInt (c : BitVec 64) : Int := c.toInt
def intCell (x : Int) : BitVec 64 := BitVec.ofInt 64 x

/-- The pattern of a REAL or LREAL in a cell. -/
def cellPat (t : Nat) (c : BitVec 64) : Nat := if t = TR then c.toNat % 2 ^ 32 else c.toNat

/-- The cell of a REAL or LREAL pattern; a REAL occupies bits 31 to 0. -/
def patCell (t n : Nat) : BitVec 64 := if t = TR then Config.realHigh ++ BitVec.ofNat 32 n else BitVec.ofNat 64 n

def cellFV (t : Nat) (c : BitVec 64) : FV := fvOf (fmtOf t) (cellPat t c)

/-- A floating-point result as a cell, with the flag. -/
def fvCell (t : Nat) (v : FV) : BitVec 64 × Bool := let (n, f) := v.pattern (fmtOf t); (patCell t n, f)

def boolCell (b : Bool) : BitVec 64 := if b then 1 else 0

/-- Bytes of a value in memory as a cell of its type (R356). -/
def loadCell (t : Nat) (l : List Byte) : BitVec 64 :=
  let n := leNat l
  if t = TB then boolCell (decide (n ≠ 0))
  else if isReal t then patCell t n
  else intCell (sgn (intWidth t) n)

/-- A cell as the bytes of a type: a BOOL stores 0 or 1 (R356). -/
def storeBytes (t : Nat) (c : BitVec 64) : List Byte :=
  if t = TB then [if c = 0 then 0 else 1] else leBytes (if t = TI then 2 else if t = TD || t = TR then 4 else 8) c.toNat

/-! ### Conversion (R336, R367) -/

/-- Converts a cell between base types by the type table, and tells whether it saturated or met a NaN. TIME acts as
LINT. -/
def convert (src dst : Nat) (c : BitVec 64) : BitVec 64 × Bool :=
  if isReal src then
    let v := cellFV src c
    if src = dst then (c, v.isNan)
    else if isReal dst then fvCell dst v
    else if dst = TB then (boolCell (Config.realToBool c), v.isNan)
    else match v with
      | .nan => (0, true)
      | .inf n => (intCell (satType dst (if n then -(2 ^ 64) else 2 ^ 64)).1, true)
      | .fin x _ => let (y, f) := satType dst (roundAway x); (intCell y, f)
  else
    let i := if src = TB then (if c = 0 then 0 else 1) else cellInt c
    if isReal dst then fvCell dst (.ofRat i)
    else if dst = TB then (boolCell (i ≠ 0), false)
    else if src = dst then (c, false)
    else let (y, f) := satType dst i; (intCell y, f)

/-! ### Integer operations (R365) -/

/-- Integer division: it truncates toward zero; by zero it gives 0 for 0, else the largest value of the dividend's sign. -/
def intDiv (t : Nat) (a b : Int) : Int × Bool :=
  if b = 0 then
    let w := intWidth t
    (if a = 0 then 0 else if a < 0 then -(2 ^ (w - 1)) else 2 ^ (w - 1) - 1, true)
  else satType t (a.tdiv b)

/-- The remainder with the sign of the dividend; by zero it gives 0. -/
def intMod (a b : Int) : Int × Bool := if b = 0 then (0, true) else (a.tmod b, false)

/-- A two-operand operation of a numeric type. -/
def binOp (t : Nat) (fi : Int → Int → Int × Bool) (ff : FV → FV → FV) (a b : BitVec 64) : BitVec 64 × Bool :=
  if isReal t then fvCell t (ff (cellFV t a) (cellFV t b))
  else let (x, f) := fi (cellInt a) (cellInt b); (intCell x, f)

/-- A one-operand operation of a numeric type. -/
def unOp (t : Nat) (fi : Int → Int × Bool) (ff : FV → FV) (a : BitVec 64) : BitVec 64 × Bool :=
  if isReal t then fvCell t (ff (cellFV t a)) else let (x, f) := fi (cellInt a); (intCell x, f)

/-- A comparison under conditions 0 EQ to 5 GE (R363, R366). -/
def compareCells (t cond : Nat) (a b : BitVec 64) : Bool :=
  let (lt, eq, nan) :=
    if isReal t then
      let x := cellFV t a
      let y := cellFV t b
      (x.lt y, x.eq y, x.isNan || y.isNan)
    else (decide (cellInt a < cellInt b), decide (a = b), false)
  match cond with
  | 0 => eq
  | 1 => !eq
  | 2 => lt
  | 3 => lt || eq
  | 4 => !nan && !lt && !eq
  | _ => !nan && !lt

end Sys2Proof.Machine
end

