-- ==== Sys2Proof/Machine/Stack.lean ====
section
/-! DEFINITION. The packets of the stack: links, sequence numbers, what a device takes in and what it forwards (R588, R594, R596, R598, R599). -/

namespace Sys2Proof.Machine

/-- Kinds of packets on the stack (R598). -/
abbrev PK_HELLO : Nat := 1
abbrev PK_TIME : Nat := 2
abbrev PK_SYNC : Nat := 3
abbrev PK_GRID : Nat := 4
abbrev PK_PUB : Nat := 5
abbrev PK_LAUNCH : Nat := 6
abbrev PK_LAUNCHRES : Nat := 7
abbrev PK_TRIG : Nat := 8
abbrev PK_LEVEL : Nat := 9
abbrev PK_TUN : Nat := 10

abbrev CS_OFF : Nat := 0
abbrev CS_FORMING : Nat := 1
abbrev CS_FORMED : Nat := 2
abbrev CS_STANDALONE : Nat := 3
abbrev CS_FAILED : Nat := 4
abbrev CS_DETACHED : Nat := 5

def State.onCsc (s : State) (f : CscSt → CscSt) : State := { s with csc := f s.csc }
def State.cscState (s : State) : Nat := s.g CSC_STAT_state
/-- Whether the links run (R600). -/
def State.linksRun (s : State) : Bool := s.on CSC_CFG_en && s.inSt [MORNING, NOON, DUSK, SAFE]
/-- Link j is one of the stack links. -/
def State.stackLink (s : State) (j : Nat) : Bool := s.linksRun && bitAt (s.g CSC_CFG_lmask) j
def State.formed (s : State) : Bool := s.cscState = CS_FORMED && s.linksRun

/-- The stack links. -/
def State.stackLinks (s : State) : List Nat := (List.range 4).filter s.stackLink

/-- The positions of the stack other than this device's, present or lost. -/
def State.others (s : State) : List Nat := (List.range (s.g CSC_STAT_count)).filter (· ≠ s.position)

/-! ### Sending (R598, R599) -/

/-- The class of a packet: 0 exchange, 1 tunnel, 2 link. -/
def packetClass (kind : Nat) : Nat := if kind ≤ PK_TIME then 2 else if kind = PK_TUN then 1 else 0

/-- A packet of this device leaves on some links, with its own sequence number among those of its kind. -/
def State.packetOut (s : State) (kind : Nat) (links : List Nat) (dest : Option Nat) (body : List Nat) : State :=
  let q := nth s.csc.txSeq kind 0
  (s.onCsc fun c => { c with txSeq := c.txSeq.set kind ((q + 1) % 65536) }).emit (.stack kind
    { src := s.position, master := s.on GEN_STATE_master, dest := dest, cls := packetClass kind, seq := q, serial := Config.serial
      links := links } body)

/-- A packet of the exchange class goes to every device of the stack, both ways. -/
def State.stackSend (s : State) (kind : Nat) (body : List Nat) : State := s.packetOut kind s.stackLinks none body

/-- A packet of the link class goes to the peer of link j. -/
def State.linkSend (s : State) (kind j : Nat) (body : List Nat) : State := s.packetOut kind [j] none body

/-- The stack link by which position m is nearest. -/
def State.route (s : State) (m : Nat) : Nat := nth s.csc.routes m (nth s.stackLinks 0 0)

/-- A tunnel packet goes to position m by the shorter path. -/
def State.tunSend (s : State) (m : Nat) (body : List Nat) : State := s.packetOut PK_TUN [s.route m] (some m) body

/-! ### Presence (R594, R596) -/

/-- The serial number of a position. -/
def State.memSerial (s : State) (m : Nat) : Nat := s.g CSC_MEM_0 [m] + 2 ^ 32 * s.g CSC_MEM_1 [m]

/-- A record of the TUN ring of index 8: a stack event of the master, dropped and counted without a posted descriptor (R593). -/
def State.cscEvt (s : State) (code pos serial : Nat) : State :=
  if !s.on GEN_STATE_master then s
  else
    let (ok, s1) := s.deliver CLS_TUN 8 ⟨0x0F10, 0, 0, serial, 0, code + 256 * pos, 0, ST_DONE, []⟩ false
    if ok then s1 else s1.cnt CSC_EVTLOST_count

/-- A packet of position m has arrived: the time from which its loss counts. -/
def State.heard (s : State) (m : Nat) : State := s.onCsc fun c => { c with heard := c.heard.set m s.mer.cyc }

/-- The master of a formed stack admits a lost position again at its place. -/
def State.readmit (s : State) (m : Nat) : State :=
  if s.isMaster && s.formed && m ≠ 0 && m < s.g CSC_STAT_count && !bitAt (s.g CSC_STAT_present) m then
    let s1 := (s.p CSC_STAT_present [] (putBit (s.g CSC_STAT_present) m true)).onCsc fun c =>
      { c with wasAligned := putBit c.wasAligned m false }
    (s1.cscEvt 4 m (s1.memSerial m)).flag CSC 11
  else s

/-- A packet of position m has arrived, which also brings a lost position back (R594, R596). -/
def State.hearFrom (s : State) (m : Nat) : State := (s.heard m).readmit m

/-! ### Receiving (R598, R599) -/

/-- A packet of the link class, which its peer sends: whether this device takes it in. -/
def State.linkIn (s : State) (h : PktHead) : Bool × State :=
  if !s.stackLink h.link || !nth s.csc.lock h.link false then (false, s)
  else if !h.crcOk then (false, s.cnt CSC_LERR_crc [h.link.val])
  else (true, s)

/-- A packet of the exchange or the tunnel class at a link. One whose CRC fails is discarded and counted; so is, without a count, the device's
own, and one whose source, type and sequence it has already received. A broadcast packet passes on by the other stack link
unless it has taken 7 hops; a tunnel packet passes on unless this device is its destination. Answers whether the device takes the
packet in (log 142). -/
def State.packetIn (s : State) (kind : Nat) (h : PktHead) (dest : Option Nat) (body : List Nat) : Bool × State :=
  let key := (h.src.val, kind, h.seq.toNat)
  if !s.stackLink h.link then (false, s)
  else if !h.crcOk then (false, s.cnt CSC_LERR_crc [h.link.val])
  else if (s.on GEN_STATE_stacked && h.src.val = s.position) || s.csc.seen.contains key then (false, s)
  else
    let s1 := s.onCsc fun c => { c with seen := (key :: c.seen).take 256 }
    let mine := dest.all (· = s.position)
    let on := if h.hops.val = 7 || (dest.isSome && mine) then [] else s1.stackLinks.filter (· ≠ h.link.val)
    let s2 := s1.each on fun s j => s.emit (.stackForward j kind h.src.val (h.hops.val + 1) h.seq.toNat body)
    (mine, if s2.on GEN_STATE_stacked then s2.hearFrom h.src.val else s2)

end Sys2Proof.Machine
end

