-- ==== Sys2Proof/Machine/Arm.lean ====
section
/-! DEFINITION. Scheduled-action slots: their states, arming, cancelling and completion (R73, R76, R79 to R84). -/

namespace Sys2Proof.Machine

abbrev SA_FREE : Nat := 0
abbrev SA_ARMED : Nat := 1
abbrev SA_PENDING : Nat := 2

def emptySa : SaSlot := ⟨.nobody, 0, 0, 0, false, 0, 0, 0, none, false, 0, false, 0⟩
def State.sas (s : State) (i : Nat) : SaSlot := nth s.sa i emptySa
def State.putSa (s : State) (i : Nat) (x : SaSlot) : State := { s with sa := s.sa.set i x }

/-- The state of a slot in MER_SASTATE. -/
def State.saState (s : State) (i : Nat) : Nat := s.g MER_SASTATE [i / 16] / 4 ^ (i % 16) % 4
def State.putSaState (s : State) (i st : Nat) : State :=
  let w := s.g MER_SASTATE [i / 16]
  s.p MER_SASTATE [i / 16] (w - w / 4 ^ (i % 16) % 4 * 4 ^ (i % 16) + st * 4 ^ (i % 16))

/-- A slot holds an arm that has not executed. -/
def State.saHeld (s : State) (i : Nat) : Bool := s.saState i ≠ SA_FREE

/-- The owner of a slot in MER_SAOWN: 0 host, 1 to 4 BCP0 to BCP3, 5 CASC. -/
def State.saOwner (s : State) (i : Nat) : Nat := s.g MER_SAOWN [i / 8] / 16 ^ (i % 8) % 16

/-- A slot's arm completes and the slot becomes FREE (R81): an SA_ARM writes its completion, an arm of a BCP raises
the BCP's slot-completion source, and LATE sets MER_STS.late (R86). One that ends NOT_NOW has no execution time, and copies
the fields of the command (R564). A member tells the master of the end of a launch, as refused where the action has not
executed (R84). -/
def State.saEnd (s : State) (i st : Nat) (canc : Bool) (t : Time) : State :=
  let x := s.sas i
  let y := { x with who := .nobody, own := none, lastSt := st, lastCanc := canc, lastTime := t }
  let s1 := (s.putSa i y).putSaState i SA_FREE
  let s2 := if st = ST_LATE then s1.flag MER 10 else s1
  match x.who with
  | .host d =>
    let c := compOf d 0x0101 st
    let c1 := if x.stack then { c with b := x.exec + 256 * x.late + 65536 * x.refused } else c
    s2.completeWith (if st = ST_NOT_NOW then c1 else { c1 with
      addr := Time.sec t, a := c.a / 2 ^ 32 * 2 ^ 32 + Time.ns t
      rf := d.rf.toNat % 2 ^ 14 + 2 ^ 14 * b2n canc + d.rf.toNat / 2 ^ 15 * 2 ^ 15 })
  | .bcp b => s2.raise (32 * b + 24)
  | .casc => s2.stackSend PK_LAUNCHRES [s.position, i, if canc then ST_NOT_NOW else st]
  | .nobody => s2

/-- Whether every member has answered a stack-wide arm. -/
def SaSlot.answered (x : SaSlot) (l : List Nat) : Bool := l.all fun m => bitAt (x.exec ||| x.refused) m

/-- The positions of the stack that are absent: they refuse a launch (R83, R600). -/
def State.absent (s : State) : Nat :=
  maskSum (s.others.filter fun m => !bitAt (s.g CSC_STAT_present) m)

/-- A stack-wide arm of the master completes once it has executed itself and every member has executed or refused (R84). One whose own
action was refused at its time ends NOT_NOW as R78 says, whatever the members did (DESIGN CHOICE, log 133). -/
def State.saSettle (s : State) (i : Nat) : State :=
  let x := s.sas i
  match x.own with
  | some (st, t) =>
    if x.answered s.members then s.saEnd i (if st = ST_NOT_NOW then st else if x.late ≠ 0 then ST_LATE else st) false t else s
  | none => s

/-- The outcome of a member: executed, executed LATE, or refused. -/
def SaSlot.result (x : SaSlot) (m st : Nat) : SaSlot :=
  if st = ST_NOT_NOW then { x with refused := putBit x.refused m true }
  else if st = ST_LATE then { x with exec := putBit x.exec m true, late := putBit x.late m true }
  else { x with exec := putBit x.exec m true }

/-- A member that drops out counts as refused in every launch that waits (R83). -/
def State.launchLost (s : State) (m : Nat) : State :=
  s.each (List.range 64) fun s i =>
    let x := s.sas i
    if s.saHeld i && x.stack && !bitAt x.exec m then (s.putSa i (x.result m ST_NOT_NOW)).saSettle i else s

/-- The stack ends on its master: every other position drops out (R83). -/
def State.launchEnd (s : State) : State :=
  if s.isMaster then s.each s.others State.launchLost else s

/-- The action of a slot has executed, or was refused, with a status at a time. A stack-wide arm of the master that waits for
its members still shows ARMED, and a cancel then ends it DONE with cancelled = 1 (DESIGN CHOICE, log 133). -/
def State.saDone (s : State) (i st : Nat) (t : Time) : State :=
  let x := s.sas i
  if x.stack && s.isMaster then ((s.putSa i { x with own := some (st, t) }).putSaState i SA_ARMED).saSettle i
  else s.saEnd i st false t

/-- SA_CANCEL, a replacement, or a trip: the arm completes DONE with cancelled = 1 (R80, R81, R284). -/
def State.saCancelled (s : State) (i : Nat) : State := s.saEnd i ST_DONE true 0

/-- Every ARMED OUT_SET slot that names an output of a mask is cancelled (R284). -/
def State.cancelOutputs (s : State) (mask : Nat) : State :=
  s.each (List.range 64) fun s i =>
    let x := s.sas i
    if s.saState i = SA_ARMED && x.own.isNone && x.action = 0 && bitAt mask (x.arg.toNat % 16) then s.saCancelled i else s

end Sys2Proof.Machine
end

