-- ==== Sys2Proof/Machine/Meridian.lean ====
section
/-! DEFINITION. Meridian: the counter, its sources, the servo, slews and steps, time quality, the time ports and the TDC (R48 to R72, R85). -/

namespace Sys2Proof.Machine

/-! ### The counter -/

/-- n periods of the 250 MHz counter: each adds 4 ns corrected by the frequency adjustment, and a slew adds at most
slew ppm until it is spent (R49, R58). What an adjustment or the slew limit leaves below 2^−16 ns is carried to the next
period (DESIGN CHOICE, log 129). -/
def State.runClock (s : State) (n : Nat) : State :=
  let adj : Int := sgn 32 (s.g MER_FADJ)
  let base : Int := n * 4 * oneNs
  let tot : Int := base * 10 ^ 12 + base * adj + s.mer.rem
  let allow : Int := base * s.g MER_STEP_slew + s.mer.slewRem
  let lim : Int := allow / 10 ^ 6
  let spend : Int := if s.dev = SAFE then 0 else satI (-lim) lim s.mer.slew
  let left : Int := s.mer.slew - spend
  { s with mer := { s.mer with
      now := ((s.mer.now : Int) + tot / 10 ^ 12 + spend).toNat
      rem := tot % 10 ^ 12
      cyc := s.mer.cyc + n
      slew := left
      slewRem := if left = 0 then 0 else allow % 10 ^ 6 } }

/-! ### Time quality (R61 to R63) -/

abbrev TQ_FREE : Nat := 0
abbrev TQ_HOLDOVER : Nat := 1
abbrev TQ_LOCKED : Nat := 2

/-- The sum over the last 64 s of LOCKED of each value of the adjustment times the periods it held, and the periods. -/
def lockedSum (w : Nat) : Nat → List (Nat × Int) → Int × Nat
  | _, [] => (0, 0)
  | hi, (c, a) :: t =>
    let d := hi - max c w
    let (x, m) := if c ≤ w then (0, 0) else lockedSum w c t
    (a * d + x, d + m)

/-- The mean of the adjustment over the last 64 s of LOCKED (R62). -/
def State.lockedMean (s : State) : Int :=
  let (x, m) := lockedSum (s.mer.cyc - 16 * 10 ^ 9) s.mer.cyc s.mer.locked
  if m = 0 then sgn 32 (s.g MER_FADJ) else roundAway ((x : Rat) / (m : Rat))

/-- Puts the frequency adjustment in force; the integral term of the servo goes on from it. -/
def State.putAdj (s : State) (v : Int) : State :=
  let s1 := s.p MER_FADJ [] (wrap 32 v)
  { s1 with mer := { s1.mer with integ := v } }

/-- Sets the frequency adjustment, limited to ±200 ppm (R56), and remembers it while LOCKED. -/
def State.setAdj (s : State) (a : Int) : State :=
  let v := satI (-200000000) 200000000 a
  let s1 := s.putAdj v
  if s.g MER_STAT_tq = TQ_LOCKED then
    let keep := s1.mer.locked.takeWhile fun e => decide (s1.mer.cyc < e.1 + 16 * 10 ^ 9)
    let rest := (s1.mer.locked.drop keep.length).take 1
    { s1 with mer := { s1.mer with locked := (s1.mer.cyc, v) :: (keep ++ rest) } }
  else s1

/-- tq changes: MER_STS.tqchg sets (R63); in HOLDOVER the hardware servo holds the mean adjustment (R62). The
mean is that of the present LOCKED period alone (log 175, DEDUCED). Under substitution the state is the substituted one (R650). -/
def State.setTq (s : State) (tq : Nat) : State :=
  if s.g MER_STAT_tq = tq || s.on TST_MSUB_en then s
  else
    let s1 := (s.p MER_STAT_tq [] tq).flag MER 9
    let s2 := { s1 with mer := { s1.mer with lockCnt := 0, outCnt := 0 } }
    if tq = TQ_HOLDOVER then
      let s3 := { s2 with mer := { s2.mer with holdAt := s2.mer.cyc } }
      if (s.g MER_SRC_mode = 0 || s.isMember) && s.dev ≠ SAFE then s3.putAdj s3.lockedMean else s3
    else if tq = TQ_LOCKED then
      { s2 with mer := { s2.mer with locked := [(s2.mer.cyc, sgn 32 (s2.g MER_FADJ))], integ := sgn 32 (s2.g MER_FADJ) } }
    else s2

/-! ### Sources (R52 to R55) -/

def State.qualified (s : State) (c : Nat) : Bool := bitAt (s.g MER_STAT_qualmask) c

/-- The priority list: the entries before the first one that holds 12 (R52). -/
def State.srcList (s : State) : List Nat :=
  [s.g MER_SRC_pri0, s.g MER_SRC_pri1, s.g MER_SRC_pri2, s.g MER_SRC_pri3, s.g MER_SRC_pri4].takeWhile (· ≠ 12)

/-- The qualified source that stands highest in the list, or 12 (R54). -/
def State.bestSrc (s : State) : Nat := (s.srcList.find? s.qualified).getD 12

/-- Another source is selected (R54): srcchg sets, and its first offset will be judged (R61). Under substitution only
free-run is (R650). -/
def State.selectSrc (s : State) (c : Nat) : State :=
  if s.g MER_STAT_active = c || (s.on TST_MSUB_en && c ≠ 11) then s
  else
    let s1 := (s.p MER_STAT_active [] c).flag MER 8
    let s2 := { s1 with mer := { s1.mer with switched := true, lockCnt := 0, outCnt := 0 } }
    if s2.g MER_STAT_tq = TQ_LOCKED && 11 ≤ c then s2.setTq TQ_HOLDOVER else s2

def State.setQual (s : State) (c : Nat) (b : Bool) : State :=
  s.p MER_STAT_qualmask [] (putBit (s.g MER_STAT_qualmask) c b)

def noSrc : SrcSt := ⟨none, none, 0⟩
def State.srcSt (s : State) (c : Nat) : SrcSt := nth s.mer.srcs c noSrc
def State.putSrcSt (s : State) (c : Nat) (x : SrcSt) : State :=
  { s with mer := { s.mer with srcs := s.mer.srcs.set c x } }

/-- An event of source c has arrived, in its run of valid events without a pause: a pause longer than 1.5 s leaves a second
without a valid event, and the run starts afresh (R53, log 131). -/
def State.noteEvent (s : State) (c : Nat) : State :=
  let x := s.srcSt c
  let unbroken := x.last.any fun t => decide (s.since t ≤ 3 * oneSec / 2)
  s.putSrcSt c { x with last := some s.mer.cyc, since := some (if unbroken then x.since.getD s.mer.cyc else s.mer.cyc) }

/-- A run of valid events ends: an event of the source was missing or not valid (R53). -/
def State.breakRun (s : State) (c : Nat) : State := s.putSrcSt c { s.srcSt c with since := none }

/-- Three sync intervals of the master of PTP port c, which its Sync messages tell as a power of 2 in seconds (R53, R515). -/
def State.syncLoss (s : State) (c : Nat) : Nat := match s.net.ptp[c]? with
  | some x => if 0 ≤ x.logInt then 3 * oneSec * 2 ^ min x.logInt.toNat 7 else 3 * oneSec / 2 ^ min (-x.logInt).toNat 7
  | none => 3 * oneSec

/-- Whether a source is lost: its events have stopped for its loss time, or what it stands on has ended (R53, R55). An
IRIG-B frame counts as missing half a second after its on-time edge was due (log 131). -/
def State.srcIsLost (s : State) (c : Nat) : Bool :=
  let age := match (s.srcSt c).last with
    | some t => s.since t
    | none => s.since 0
  if c ≤ 7 then s.g NET_PTP_state [c] ≠ 9 || s.syncLoss c < age
  else if c = 8 then 2 ≤ s.mer.irigBad || 5 * oneSec / 2 < age
  else if c = 9 then 3 * oneSec / 2 < age
  else !(s.isMember && s.g CSC_STAT_state = 2)

/-- A source becomes unqualified at once when it is lost (R53), and another is selected if it was in use (R54). -/
def State.loseSrc (s : State) (c : Nat) : State :=
  let s1 := (s.setQual c false).breakRun c
  let s2 := if s1.g MER_STAT_active = c && !s1.isMember then s1.selectSrc s1.bestSrc else s1
  if s2.isMember && c = 10 && s2.g MER_STAT_tq = TQ_LOCKED then s2.setTq TQ_HOLDOVER else s2

/-- Outside a stack the device follows its own list again (R54, R55). -/
def State.ownSrc (s : State) : State :=
  if s.isMember then s
  else
    let s1 := (s.setQual 10 false).breakRun 10
    if s1.g MER_STAT_active = 10 then s1.selectSrc s1.bestSrc else s1

/-- SOURCE_LOST. -/
def sourceLost (c : Nat) (s : State) : State :=
  if s.qualified c && s.srcIsLost c then s.loseSrc c
  else if s.srcIsLost c then s.breakRun c else s

/-- SOURCE_QUALIFY: valid events for qual seconds (R53); code 10 never on the master or outside a stack (R55). -/
def sourceQualify (c : Nat) (s : State) : State :=
  match (s.srcSt c).since with
  | none => s
  | some t =>
    if !s.qualified c && s.g MER_QUAL_qual * oneSec ≤ s.since t && !s.srcIsLost c then
      let s1 := (s.setQual c true).putSrcSt c { s.srcSt c with qualAt := s.mer.cyc }
      if s1.g MER_STAT_active = 12 && !s1.isMember then s1.selectSrc s1.bestSrc else s1
    else s

/-- The place of a source in the priority list. -/
def State.srcRank (s : State) (c : Nat) : Nat := s.srcList.findIdx (· = c)

/-- WAIT_TO_RESTORE: a higher source that has stayed qualified for a further wtr seconds is selected (R54), when it is the best
qualified one (log 173, DEDUCED). -/
def waitToRestore (c : Nat) (s : State) : State :=
  if s.on MER_SRC_revert && !s.isMember && s.qualified c && s.srcList.contains c
      && s.srcRank c < s.srcRank (s.g MER_STAT_active) && s.bestSrc = c
      && (s.g MER_QUAL_wtr) * oneSec ≤ s.since (s.srcSt c).qualAt then s.selectSrc c
  else s

/-- A write of MER_SRC selects again when the active source has left the list (R54). -/
def State.srcWritten (s : State) : State :=
  if s.isMember then s
  else if s.srcList.contains (s.g MER_STAT_active) && s.qualified (s.g MER_STAT_active) then s
  else s.selectSrc s.bestSrc

/-! ### Corrections, slews and steps (R56 to R60) -/

/-- The first multiple of 1.25 ms after a time. -/
def nextGrid (t : Time) : Time := (t / (oneMs * 5 / 4) + 1) * (oneMs * 5 / 4)

/-- The first multiple of 1.25 ms at or after a time. -/
def atGrid (t : Time) : Time := (t + (oneMs * 5 / 4) - 1) / (oneMs * 5 / 4) * (oneMs * 5 / 4)

/-- The instant of a count of fMOD periods (R68). -/
def modTime (m : Nat) : Time := m / 18432000 * oneSec + (m % 18432000 * oneSec + 9216000) / 18432000

/-- The first fMOD edge at or after a time; the time that stands for an edge (modTime) gives that edge. -/
def modAt (t : Time) : Nat :=
  let m := t / oneSec * 18432000 + (t % oneSec * 18432000 + oneSec - 1) / oneSec
  if t ≤ modTime (m - 1) then m - 1 else m

/-- The release instants of TIME tasks after a backward step: the first after the new time (R311). -/
def State.tasksBack (s : State) : State :=
  let us := s.mer.now / oneUs
  s.each (List.range 4) fun s b =>
    s.putCpu b { s.cpu b with nextRel := (List.range 16).map fun t =>
      let p := s.g BCP_TASK_1 [b, t]
      let ph := s.g BCP_TASK_2 [b, t]
      if p = 0 then 0 else if us < ph then ph else (us - ph) / p * p + p + ph }

/-- A cable delay of MER_DLY, in units of 2^−16 ns. -/
def State.dly (s : State) (k : Nat) : Int := sgn 24 (s.g MER_DLY_dly [k]) * 1024

/-- How far the instants move that wait for their frame: as far as the prefilter grid, whose outputs they need. -/
def preShift (preAt : Option Nat) (at_ : Nat → Nat) (corr : Int) : Int := match preAt with
  | some n => (modTime (at_ n / 1024 * 1024) : Int) - modTime n
  | none => corr

/-- The first instant of a grid, in µs, after a time in µs. -/
def gridAfter (us period phase : Nat) : Nat :=
  if us < phase then phase else (us - phase) / max period 1 * max period 1 + period + phase

/-- A step of Meridian (R60): it moves the time at once, drops a slew, and arranges a decimator reset of cause 3. -/
def State.stepBy (s : State) (corr : Int) : State :=
  let t := ((s.mer.now : Int) + corr).toNat
  let moved (x : Time) : Time := ((x : Int) + corr).toNat
  let due (old k last : Nat) : Nat := if last < old then k - 1 else k
  let secAt (x : Time) (k : Nat) : Nat := ((x : Int) - s.dly k).toNat / oneSec
  let s1 := { s with mer := { s.mer with
    now := t, slew := 0, slewRem := 0, slewing := false, stepAt := t
    -- what waits for a span of time to pass waits for the same span after the step (R66, R72)
    ppsAt := moved s.mer.ppsAt, tdc := s.mer.tdc.map fun (x : Bool × Time) => (x.1, moved x.2)
    -- 1PPS and IRIG-B go on at the next whole second of the stepped time (R65, R66)
    ppsSec := due (secAt s.mer.now 2) (secAt t 2) s.mer.ppsSec
    irigSec := due (secAt s.mer.now 3) (secAt t 3) s.mer.irigSec } }
  let c := (modAt ((modTime s.afe.next : Int) + corr).toNat + 15) / 16 * 16
  let at_ (n : Nat) : Nat := ((n : Int) + c - s.afe.next).toNat
  let up (g n : Nat) : Nat := (at_ n + g - 1) / g * g
  let unit (t n : Nat) : Nat := up (nth [1280, 3840, 4608] t 1280) n
  let s2 := { s1 with
    dch := { s1.dch with
      resets := s1.dch.resets.map (fun (r : Time × Nat × Option Desc) => (nextGrid t, r.2)) ++ [(nextGrid t, 3, none)]
      nextT := none
      placed := s1.dch.placed.map (fun (p : Placed) => { p with
        shift := p.shift + preShift s1.dch.preAt at_ corr
        stepped := true })
      mainAt := s1.dch.mainAt.map fun n => at_ n / 256 * 256
      preAt := s1.dch.preAt.map fun n => at_ n / 1024 * 1024
      next := s1.dch.next.zipIdx.map (fun (n, t) => unit t n)
      tr := at_ s1.dch.tr
      pipes := s1.dch.pipes.map fun (x : PipeSt) => { x with
        tr := at_ x.tr, due := x.due.map (fun (d, w) => (up 256 d, w))
        scsDue := x.scsDue.map (fun (u, a, v) => (u, at_ a, v)), done := x.done.map (fun (u, a, w) => (u, unit u a, w)) }
      swaps := s1.dch.swaps.map fun (w : Swap) => { w with at_ := moved w.at_ }
      tstep := true }
    afe := { s1.afe with
      next := c
      mainDue := s1.afe.mainDue.map fun n => at_ n / 256 * 256
      chans := s1.afe.chans.map fun (x : ChanSt) => { x with tr := at_ x.tr, due := x.due.map (fun (d, w) => (up 256 d, w)) }
      inj := { s1.afe.inj with on := c, win := 0, n := 0 } }
    -- an SV publication that waits takes effect at the next whole second of the stepped time (R526)
    net := { s1.net with svpubs := s1.net.svpubs.map fun (p : SvPub) => { p with next := p.next.map fun (x : Nat × List Byte) => (t / oneSec, x.2) } }
    -- a conversion lasts its integration, whatever Meridian shows (R496)
    aux := { s1.aux with
      convs := s1.aux.convs.map fun (x : ConvSt) => { x with
        starts := x.starts.map fun (e, h) => (modAt (moved (modTime e)), h)
        run := x.run.map fun (r : ConvRun) => { r with endAt := moved r.endAt }
        busyTo := moved x.busyTo }
      cmds := s1.aux.cmds.map fun (x : Desc × List (Nat × Nat)) => (x.1, x.2.map fun (a, e) => (a, modAt (moved (modTime e))))
      -- a backward step moves the next event of a pulse timer (R507)
      units := s1.aux.units.map fun (x : UnitSt) => if corr < 0 then { x with next := gridAfter (t / oneUs) x.period x.phase } else x }
    -- a link cycle in progress goes on, and the next one starts at the first grid instant after the step (R476)
    rio := { s1.rio with links := s1.rio.links.map fun (x : LinkSt) => { x with
      since := moved x.since, cycAt := x.cycAt.map moved
      slot := x.slot.map fun (y : Nat × Nat × Time) => (y.1, y.2.1, moved y.2.2) } }
    -- a test pulse lasts its length (R464)
    fio := { s1.fio with pulses := s1.fio.pulses.map fun (x : Option Pulse) => x.map fun (p : Pulse) => { p with at_ := moved p.at_ } } }
  (if corr < 0 then s2.tasksBack else s2).flag MER 11

/-- A phase correction: slewed up to stepthr, stepped above it; in NOON and DUSK stepped only with stepnoon = 1
(R58, R59); none in SAFE (R85). -/
def State.correct (s : State) (corr : Int) : State :=
  if s.dev = SAFE then s
  else if corr.natAbs ≤ s.g MER_STEP_stepthr * oneUs
      || (s.inSt [NOON, DUSK] && !s.on MER_SERVO_stepnoon) then
    { s with mer := { s.mer with slew := corr, slewRem := 0, slewing := decide (corr ≠ 0) } }
  else s.stepBy corr

/-- SLEW_SPENT: the temporary frequency offset ends (R58). -/
def slewSpent (s : State) : State :=
  if s.mer.slewing && s.mer.slew = 0 then { s with mer := { s.mer with slewing := false } } else s

/-- A rational within limits. -/
def satR (lo hi x : Rat) : Rat := if x < lo then lo else if hi < x then hi else x

/-- The proportional-integral servo at a measured offset (R56): the integral term takes its share of the offset, and the
adjustment is that term and the proportional share, with the gains of MER_SERVO.bw. -/
def State.servo (s : State) (off : Int) : State :=
  let bw := s.g MER_SERVO_bw
  let c := s.g MER_STAT_active
  let i := satR (-200000000) 200000000 (s.mer.integ - Config.servoKi bw c * off)
  let s1 := s.setAdj (roundAway (i - Config.servoKp bw c * off))
  { s1 with mer := { s1.mer with integ := i } }

/-- The phase correction that a servo makes at an offset: all of it above stepthr, and below a free share of it, drawn as
free value k (R56, R58, R583). -/
def State.phaseOf (s : State) (off : Int) (k : Nat) : Int :=
  if s.g MER_STEP_stepthr * oneUs < off.natAbs then -off else satI (-off.natAbs) off.natAbs (Config.servoPhase k)

/-- The offset of an event of the selected source: MER_OFFS, the hardware servo (R56), and the time quality (R61). The
servo sets the adjustment while LOCKED: in HOLDOVER it holds the mean and in FREE the last value (R62, log 132); a phase
correction is made in every state. -/
def State.measure (s : State) (off : Int) : State :=
  let o := satI (-(2 ^ 31 - 1)) (2 ^ 31 - 1) (roundAway ((off : Rat) / 1024))
  let s1 := s.p MER_OFFS [] (wrap 32 o)
  let inLock := decide (off.natAbs ≤ s.g MER_SERVO_lockthr * oneNs)
  let s2 :=
    if s.g MER_SRC_mode = 0 then
      let (k, s2) := s1.draw
      (if s.g MER_STAT_tq = TQ_LOCKED then s2.servo off else s2).correct (s.phaseOf off k)
    else s1
  let s3 := { s2 with mer := { s2.mer with
    lockCnt := if inLock then s2.mer.lockCnt + 1 else 0
    outCnt := if inLock then 0 else s2.mer.outCnt + 1
    switched := false } }
  if s.g MER_STAT_tq = TQ_LOCKED
      && ((s.mer.switched && !inLock) || s.g MER_SERVO_lockcnt ≤ s3.mer.outCnt) then s3.setTq TQ_HOLDOVER
  else s3

/-- An event of a source: it counts toward qualification, and serves the servo when the source is selected; the servo
is idle in DAWN and stopped in SAFE (R85), and a member follows the master (R55). -/
def State.sourceEvent (s : State) (c : Nat) (off : Int) : State :=
  let s1 := s.noteEvent c
  if s1.g MER_STAT_active = c && !s1.isMember && !s1.inSt [DAWN, SAFE] then s1.measure off else s1

/-- TQ_LOCK: lockcnt consecutive offsets within lockthr (R61). -/
def tqLock (s : State) : State :=
  if s.g MER_STAT_tq ≠ TQ_LOCKED && s.g MER_SERVO_lockcnt ≤ s.mer.lockCnt && s.g MER_STAT_active ≤ 10
      && s.dev ≠ SAFE && !s.isMember then s.setTq TQ_LOCKED
  else s

/-- Whether HOLDOVER has lasted its limit (R61). -/
def State.holdOver (s : State) : Bool :=
  s.g MER_STAT_tq = TQ_HOLDOVER && s.g MER_HOLD_limit * oneSec ≤ s.since s.mer.holdAt

/-- HOLDOVER_LIMIT; a member that follows its master has the master's tq, and its own limit runs once it has lost it (R55). -/
def holdoverLimit (s : State) : State := if s.holdOver && !s.follows then s.setTq TQ_FREE else s

/-- TQ_EVALUATE: the transitions that need no event of a source (R61). -/
def tqEvaluate (s : State) : State :=
  let act := s.g MER_STAT_active
  if s.isMember then holdoverLimit s
  else if s.g MER_STAT_tq = TQ_LOCKED && (11 ≤ act || !s.qualified act)
      && !(s.srcList.any fun c => c ≠ 11 && s.qualified c) then s.setTq TQ_HOLDOVER
  else if s.g MER_STAT_tq = TQ_HOLDOVER && act = 11 then s.setTq TQ_FREE
  else holdoverLimit s

/-- HOST_CORRECTION_TIMEOUT (R57, R681); a member ignores MER_SRC (R55). -/
def hostCorrectionTimeout (s : State) : State :=
  if s.g MER_SRC_mode = 1 && !s.isMember && !s.mer.hctoDone && s.g MER_HOLD_hcto * oneSec ≤ s.since s.mer.hctoAt then
    let s1 := { s with mer := { s.mer with hctoDone := true } }.flag MER 13
    if s1.g MER_STAT_tq = TQ_LOCKED then s1.setTq TQ_HOLDOVER else s1
  else s

/-- The host-correction timeout starts afresh (R57, R681). -/
def State.hctoRestart (s : State) : State := { s with mer := { s.mer with hctoAt := s.mer.cyc, hctoDone := false } }

/-- The effect of an accepted write of MER_HFREQ (R57, R85); a member, which ignores MER_SRC, follows the master (R55). -/
def State.hfreqWritten (s : State) (v : Word) : State :=
  if s.dev = SAFE then s else (if s.isMember then s else s.setAdj (sgn 32 v.toNat)).hctoRestart

/-- The effect of an accepted write of MER_HPHASE (R58); none on a member (R55). -/
def State.hphaseWritten (s : State) (v : Word) : State :=
  (if s.isMember then s else s.correct (sgn 32 v.toNat * 1024)).hctoRestart

/-- The effect of an accepted write of MER_TSET_HI: the label for the next whole second (R60). -/
def State.tsetWritten (s : State) (v : Word) : State :=
  { s with mer := { s.mer with
    tset := some (Time.sec s.mer.now, v.toNat % 2 ^ 16 * 2 ^ 32 + s.g MER_TSET_LO) } }

/-- NEXT_WHOLE_SECOND_LABEL: the whole second after the write takes the label, as a step (R60). An accepted label is
applied although the device has entered NOON or DUSK meanwhile with stepnoon = 0 (DESIGN CHOICE, log 96). -/
def nextWholeSecondLabel (s : State) : State :=
  match s.mer.tset with
  | none => s
  | some (sec, label) =>
    if sec < Time.sec s.mer.now then
      let s1 := { s with mer := { s.mer with tset := none } }
      if s.dev = SAFE then s1 else s1.stepBy (((label : Int) - ((sec : Int) + 1)) * oneSec)
    else s

/-! ### The TDC and the time ports (R64 to R66, R70 to R72) -/

/-- Signed 32-bit field of the trim record at a byte. -/
def State.trimI (s : State) (o : Nat) : Int := sgn 32 (leAt s.trim o 4)

/-- The TDC channel delay of the trim record, in units of 2^−16 ns (R105, R112). -/
def State.tdcDelay (s : State) (c : Nat) : Int := s.trimI (0x2A0 + 4 * c) * 1024

/-- A TDC channel's edge: stamped when the channel is re-armed, else MER_STS.tdclost sets (R72). The stamp has an LSB
of 1/64 ns (R70). -/
def State.tdcStamp (s : State) (c : Nat) (t : Time) : Option Time × State :=
  if (nth s.mer.tdc c (true, 0)).1 then
    let t1 := ((t : Int) - s.tdcDelay c).toNat / 1024 * 1024
    (some t1, { s with mer := { s.mer with tdc := s.mer.tdc.set c (false, t) } })
  else (none, s.flag MER 12)

/-- TDC_REARM: 40 ns after a stamp (R72). -/
def tdcRearm (c : Nat) (s : State) : State :=
  let x := nth s.mer.tdc c (true, 0)
  if !x.1 && (x.2 + 40 * oneNs ≤ s.mer.now) then
    { s with mer := { s.mer with tdc := s.mer.tdc.set c (true, x.2) } }
  else s

/-- The offset of a time from the nearest whole second. -/
def secOffset (t : Int) : Int := let r := t % oneSec; if r * 2 < oneSec then r else r - oneSec

/-- The servo part of a PPS_IN edge: source code 9 (R71). -/
def State.ppsEvent (s : State) (t : Time) : State := s.sourceEvent 9 (secOffset ((t : Int) - s.dly 0))

/-- Days from 1970-01-01 to January 1 of a year. -/
def daysTo (y : Nat) : Nat :=
  let p := y - 1
  (y - 1970) * 365 + (p / 4 - p / 100 + p / 400) - (1969 / 4 - 1969 / 100 + 1969 / 400)

/-- The TAI seconds of an IRIG-B frame: UTC time of year plus MER_UTC.offset (R64, R51). -/
def State.irigTai (s : State) (f : IrigFrame) : Nat :=
  let y := f.year.getD (2000 + s.g MER_UTC_year)
  (daysTo y + (f.day - 1)) * 86400 + f.hour * 3600 + f.min * 60 + f.sec + s.g MER_UTC_offset

/-- IRIGB_FRAME (R64). -/
def irigbFrame (f : IrigFrame) (edge : Time) (s : State) : State :=
  if f.ok then
    match s.tdcStamp 19 edge with
    | (some t, s1) =>
      let s2 := { s1 with mer := { s1.mer with irigBad := 0 } }
      s2.sourceEvent 8 ((t : Int) - s2.dly 1 - (s2.irigTai f * oneSec : Nat))
    | (none, s1) => s1
  else ({ s with mer := { s.mer with irigBad := s.mer.irigBad + 1 } } : State).breakRun 8

/-- PPS_OUT_RISE: at each whole second, after the MER_DLY[2] compensation (R66). -/
def ppsOutRise (s : State) : State :=
  let c := ((s.mer.now : Int) - s.dly 2).toNat / oneSec
  if s.on MER_PORT_ppsen && s.mer.ppsSec < c then
    { s with mer := { s.mer with pps := true, ppsSec := c, ppsAt := ((c * oneSec : Nat) + s.dly 2).toNat } }
  else s

/-- PPS_OUT_FALL: after ppsw milliseconds (R66). -/
def ppsOutFall (s : State) : State :=
  if s.mer.pps && s.mer.ppsAt + s.g MER_PORT_ppsw * oneMs ≤ s.mer.now then
    { s with mer := { s.mer with pps := false } }
  else s

/-- The year that holds a day counted from 1970-01-01. -/
def yearOf (d : Nat) : Nat :=
  let y := 1970 + 400 * d / 146097
  if d < daysTo y then y - 1 else if daysTo (y + 1) ≤ d then y + 1 else y

/-- The fields of a B004 frame at a number of seconds of UTC: time of year, year of the century, control functions of 0 and
the straight binary seconds of the day (R65). -/
def irigFields (utc : Int) : IrigOut :=
  let d := utc / 86400
  let t := (utc % 86400).toNat
  let n := d.toNat
  { sec := t % 60, min := t / 60 % 60, hour := t / 3600, ctl := 0, sbs := t
    -- the last seconds of 1969, while Meridian shows less than the UTC offset
    day := if d < 0 then (366 + d).toNat else n - daysTo (yearOf n) + 1
    year := if d < 0 then 69 else yearOf n % 100 }

/-- IRIGB_OUT_FRAME: the frame of each whole second carries the time of year as UTC (R65, R51). -/
def irigbOutFrame (s : State) : State :=
  let c := ((s.mer.now : Int) - s.dly 3).toNat / oneSec
  if s.on MER_PORT_irigen && s.mer.irigSec < c then
    { s with mer := { s.mer with irigSec := c } }.emit (.irig (irigFields ((c : Int) - s.g MER_UTC_offset)))
  else s

/-- What a write of MER_PORT does: an output that it enables begins at the next whole second (R65, R66). -/
def State.portWritten (s : State) (pps irig : Bool) : State :=
  let c (k : Nat) : Nat := ((s.mer.now : Int) - s.dly k).toNat / oneSec
  { s with mer := { s.mer with
    ppsSec := if pps then c 2 else s.mer.ppsSec
    irigSec := if irig then c 3 else s.mer.irigSec } }

/-- MER_NOW_SLO: a read returns the seconds and latches the other parts (R48). -/
def merNowSlo (s : State) : State :=
  let t := s.mer.now
  let s1 := (s.p MER_NOW_SLO [] (Time.sec t % 2 ^ 32)).p MER_NOW_HI_sec [] (Time.sec t / 2 ^ 32)
  (s1.p MER_NOW_HI_frac [] (Time.frac t)).p MER_NOW_NS [] (Time.ns t)

end Sys2Proof.Machine
end

