-- ==== Sys2Proof/Machine/Analog.lean ====
section
/-! DEFINITION. The analogue front end: CIC1 and CIC2, range selection, trim, the ROGOWSKI integrator, injection and weirs (R87 to R114, R122 to R131). -/

namespace Sys2Proof.Machine

/-- The first n coefficients of (1 + z + … + z^(r−1))^k. -/
def sincCoef (r k : Nat) : List Int := (polyPow (List.replicate r 1) k).map Int.ofNat

/-- CIC1: sinc⁴, ratio 16 (R122). -/
def cic1Coef : List Int := sincCoef 16 4
/-- CIC2: sinc⁵, ratio 8. -/
def cic2Coef : List Int := sincCoef 8 5

/-- The FIR-A coefficients, in units of 2^−23 (R127). -/
def firACoef : List Int :=
  let half : List Int := [948, 0, -11385, 0, 45474, 0, -129706, 0, 313535, 0, -737730, 0, 2616016]
  half ++ [4194304] ++ half.reverse

/-- The sum of products of two lists. -/
def dot (a b : List Int) : Int := (List.zipWith (· * ·) a b).sum

/-- A filter sum (R126): each product in units of 2^−15 of the data LSB, coefficients in units of 2^−q; the sum in a
saturating 48-bit accumulator, rounded to the data LSB and saturated to 32 bits; the flag tells a saturation. -/
def firSum (q : Nat) (cs xs : List Int) : Int × Bool :=
  let add := fun (a : Int × Bool) (p : Int) =>
    let t := a.1 + p
    let r := satI (-(2 ^ 47)) (2 ^ 47 - 1) t
    (r, a.2 || decide (r ≠ t))
  let (acc, c) := (List.zipWith (fun c x => roundAway (((c * x : Int) : Rat) * pow2 (15 - (q : Int)))) cs xs).foldl add (0, false)
  let y := roundAway ((acc : Rat) / 32768)
  let z := satI (-(2 ^ 31)) (2 ^ 31 - 1) y
  (z, c || decide (z ≠ y))

/-- Whether one of the first n samples carries the marker. -/
def anyMark (l : List (Int × Bool)) (n : Nat) : Bool := (l.take n).any (·.2)

/-! ### Trim (R103, R105) -/

/-- The trim gain and offset of modulator m. -/
def State.trimGain (s : State) (m : Nat) : Rat := ofF32 (leAt s.trim (0x40 + 12 * m) 4)
def State.trimOff (s : State) (m : Nat) : Int := s.trimI (0x44 + 12 * m)

/-- Trim of a code, saturated to ±(2^23 − 1) (R103, R88). -/
def State.trimCode (s : State) (m : Nat) (x : Int) : Int :=
  satI (-(2 ^ 23 - 1)) (2 ^ 23 - 1) (roundAway (((x - s.trimOff m : Int) : Rat) * s.trimGain m))

/-- Trim of a FIR-A output, whose full scale is 2^30 (R129). -/
def State.trimMain (s : State) (m : Nat) (x : Int) : Int × Bool :=
  let y := roundAway (((x - s.trimOff m * 128 : Int) : Rat) * s.trimGain m)
  let z := satI (-(2 ^ 31 - 1)) (2 ^ 31 - 1) y
  (z, decide (z ≠ y))

/-! ### Range selection (R90 to R93) -/

/-- One step of the range state of a selection point: `low` and the count, the fixed range or AUTO, whether the
high-gain sample is unsafe, and whether the low-gain sample lies below the return threshold (R92, R93). -/
def rangeStep (rng hold : Nat) (low : Bool) (cnt : Nat) (isUnsafe below : Bool) : Bool × Nat :=
  if rng = 1 then (false, 0)
  else if rng = 2 then (true, 0)
  else if !low then (if isUnsafe then (true, 0) else (false, cnt))
  else
    let c := if !isUnsafe && below then cnt + 1 else 0
    if hold ≤ c then (false, 0) else (true, c)

def emptyMod : ModSt := ⟨[], [], [], false⟩
def emptyChan : ChanSt := ⟨0, 0, 0, 0, [], 0⟩
def State.mod_ (s : State) (m : Nat) : ModSt := nth s.afe.mods m emptyMod
def State.chan (s : State) (n : Nat) : ChanSt := nth s.afe.chans n emptyChan
def State.putChan (s : State) (n : Nat) (c : ChanSt) : State :=
  { s with afe := { s.afe with chans := s.afe.chans.set n c } }

/-- The modulators of a channel: high gain and low gain of CIn, or the one of CVn (R105 numbering). -/
def chanMods (n : Nat) : List Nat := if n < 16 then [n, 16 + n] else [16 + n]

/-- Whether channel n is under injection. -/
def State.injecting (s : State) (n : Nat) : Bool := match s.afe.inj.now with
  | some (c, _) => c = n
  | none => false

/-- A write that changes rng: a fixed range is each point's state at once, and both start with cnt = 0 (R93). -/
def State.rngWritten (s : State) (n : Nat) : State :=
  let rng := s.g AFE_CCFG_rng [n]
  let range (v : Nat) : Nat := if rng = 0 then v else putBit v n (rng = 2)
  ((s.p AFE_RSTAT_wb [] (range (s.g AFE_RSTAT_wb))).p AFE_RSTAT_main [] (range (s.g AFE_RSTAT_main))).putChan n
    { s.chan n with wbCnt := 0, mainCnt := 0 }

/-! ### Overload (R101) -/

/-- The overload bit of modulator m sets, whether or not it was set: AFE_OVLCNT counts and AFE_STS.ovl sets (R29, R120, R121). -/
def State.overload (s : State) (m : Nat) : State :=
  let set (f : Fld) (b : Nat) : State := ((s.p f [] (putBit (s.g f) b true)).cnt AFE_OVLCNT_count [m]).flag AFE 8
  if m < 16 then (if s.g AFE_CCFG_rng [m] = 1 then set AFE_OVL_hg m else s)
  else if m < 32 then set AFE_OVL_lg (m - 16)
  else set AFE_OVLV_cv (m - 32)

/-- Whether the overload bit of modulator m is set. -/
def State.overloaded (s : State) (m : Nat) : Bool :=
  if m < 16 then bitAt (s.g AFE_OVL_hg) m else if m < 32 then bitAt (s.g AFE_OVL_lg) (m - 16) else bitAt (s.g AFE_OVLV_cv) (m - 32)

/-- The overloads that begin in a group of periods, each of which sets the bit; one that lasts sets a bit that is 0 once more
(log 171, DESIGN CHOICE). -/
def State.overloads (s : State) (m : Nat) (l : List (Int × Bool)) : Nat :=
  let rises := (l.foldl (fun (a : Nat × Bool) x => (a.1 + b2n (x.2 && !a.2), x.2)) (0, (s.mod_ m).ovl)).1
  if rises = 0 && l.any (·.2) && !s.overloaded m then 1 else rises

/-! ### The WB point (R124, R128) -/

/-- The 16 new codes of one modulator, oldest first, and whether a CIC2 output falls at this sample. -/
def modStep (x : ModSt) (codes : List (Int × Bool)) (cic2 : Bool) : ModSt :=
  let h := (codes.reverse ++ x.codes).take 69
  let raw := dot cic1Coef ((h.drop 8).map (·.1))
  let cic := ((roundAway ((raw : Rat) / 8), anyMark (h.drop 8) 61) :: x.cic).take 36
  let firA := if cic2 then ((dot cic2Coef (cic.map (·.1)), anyMark cic 36) :: x.firA).take 27 else x.firA
  ⟨h, cic, firA, x.ovl⟩

/-- A sample word: the code and the quality bits SETTLE, CLIP, RANGE, XFADE, TEST and STALE (R160). -/
def sampleWord (code : Int) (settle clip range xfade test stale : Bool) : Word :=
  BitVec.ofNat 32 (wrap 24 code * 256 + b2n settle + 2 * b2n clip + 4 * b2n range + 8 * b2n xfade
    + 32 * b2n test + 128 * b2n stale)

/-- The WB point of current channel n for the sample whose support centre is c. -/
def State.wbPoint (s : State) (n c : Nat) : Word × State :=
  let ch := s.chan n
  let raw (m : Nat) : Int := s.trimCode m (32 * dot cic1Coef ((s.mod_ m).codes.map (·.1)))
  let hg := raw n
  let lg := raw (16 + n)
  let ovH := anyMark (s.mod_ n).codes 61
  let ovL := anyMark (s.mod_ (16 + n)).codes 61
  let ovr := decide (s.g AFE_CCFG_upthr [n] * 2 ^ 23 < hg.natAbs * 100)
  let below := decide (lg.natAbs * 40 * 100 < s.g AFE_CCFG_dnthr [n] * 2 ^ 23)
  let rng := s.g AFE_CCFG_rng [n]
  let (low, cnt) := rangeStep rng (16 * s.g AFE_CCFG_hold [n]) (bitAt (s.g AFE_RSTAT_wb) n) ch.wbCnt (ovH || ovr) below
  let settle := decide (ch.tr ≤ c && c < ch.tr + 30)
  let clip := if low then ovL else (rng = 1 && ovH)
  let s1 := (s.p AFE_RSTAT_wb [] (putBit (s.g AFE_RSTAT_wb) n low)).putChan n { ch with wbCnt := cnt }
  (sampleWord (if low then lg else hg) settle clip low false (s.injecting n) false, s1)

/-- The WB tap of all current channels. -/
def State.wbPoints (s : State) (c : Nat) : List Nat → List Word × State
  | [] => ([], s)
  | n :: ns =>
    let (w, s1) := s.wbPoint n c
    let (ws, s2) := s1.wbPoints c ns
    (w :: ws, s2)

/-- The samples of a tap become the present ones. -/
def State.setTap (s : State) (t ts : Nat) (ws : List Word) : State :=
  { s with dch := { s.dch with taps := s.dch.taps.set t ws, tapTs := s.dch.tapTs.set t ts } }

/-- The channel that a modulator belongs to. -/
def chanOf (m : Nat) : Nat := if m < 16 then m else m - 16

/-- The instant of the last reset of channel n that the inputs up to an instant reach: one that has been, or one that is
due (R153, R155). -/
def State.cutAt (s : State) (n i : Nat) : Nat :=
  (((s.chan n).due.map (·.1) ++ s.dch.resets.map (fun r => modAt r.1)).filter fun t => decide (t ≤ i)).foldl max (s.chan n).tr

/-- The codes of a group whose first instant is a; those before the last reset of the chain are zero (R156). -/
def cutCodes (tr a : Nat) (l : List (Int × Bool)) : List (Int × Bool) :=
  (List.range 16).map fun j => if a + j < tr then (0, false) else nth l j (0, false)

/-- WB_SAMPLE in the chains: 16 fMOD periods of every modulator. CIC1 gives the WB sample with centre c and, 8 periods
earlier, the input of CIC2, whose outputs lie on the 144 kHz grid; every second of them completes a FIR-A output at
72 kHz. An output before a reset of its channel that its last inputs reach is discarded (R154): the tap repeats its
previous word (log 135, DESIGN CHOICE). A sample that carries CLIP sets DCH_STS.clip (R164). -/
def State.wbFeed (s : State) (codes : List (List (Int × Bool))) : State :=
  let c := s.afe.next
  let cic2 := decide (c % 128 = 32)
  let cut := (List.range 40).map fun m => cutCodes (s.chan (chanOf m)).tr (c + 15) (nth codes m [])
  let marked (m : Nat) : List (Int × Bool) := (nth codes m []).take 16
  let mods := (List.range 40).map fun m =>
    { modStep (s.mod_ m) (nth cut m []) cic2 with ovl := (marked m).getLast?.any (·.2) }
  let due := if cic2 && (c - 288) % 256 = 128 && 1952 ≤ c then some (c - 1952) else none
  let s1 := { s with afe := { s.afe with mods := mods, next := c + 16, mainDue := due } }
  let hit := (List.range 40).flatMap fun m => List.replicate (s.overloads m (marked m)) m
  let s2 := s1.each hit State.overload
  let (ws, s3) := s2.wbPoints c (List.range 16)
  let old := nth s.dch.taps 0 []
  let out (n : Nat) : Bool := s.cutAt n (c + 30) ≤ c
  let s4 := s3.setTap 0 c ((List.range 16).map fun n => if out n then nth ws n 0 else nth old n 0)
  if (List.range 16).any fun n => out n && (nth ws n 0).getLsbD 1 then s4.flag DCH 9 else s4

/-! ### The MAIN point (R97, R129) -/

/-- The trimmed FIR-A output of a modulator, its overload marker and its saturation. -/
def State.mainOut (s : State) (m : Nat) : Int × Bool × Bool :=
  let x := s.mod_ m
  let (y, c) := firSum 23 firACoef (x.firA.map (·.1) ++ List.replicate (27 - x.firA.length) 0)
  let (z, c2) := s.trimMain m y
  (z, anyMark x.firA 27, c || c2)

/-- The gain 2π·fref·Ts of the integrator (R97), with π to 30 digits. -/
def rogGain (fref : Nat) : Rat :=
  2 * (3141592653589793238462643383280 / 1000000000000000000000000000000) * (if fref = 1 then 60 else 50) / 72000

/-- One step of the leaky integrator (R97): y in units of 2^−8 of the unified word, each step rounded half away from zero
and saturating in 40 bits; that number format is the model's (log 136, DESIGN CHOICE). -/
def rogStep (leak fref : Nat) (y x : Int) : Int × Bool :=
  let t := roundAway ((y : Rat) * (1 - pow2 (-(leak : Int))) + rogGain fref * ((x * 256 : Int) : Rat))
  let r := satI (-(2 ^ 39)) (2 ^ 39 - 1) t
  (r, decide (r ≠ t))

/-- The MAIN point of channel n: the unified word with its markers. A saturation of the integrator or of its output marks
CLIP (R125); its other markers are those of the present sample (log 136). -/
def State.mainPoint (s : State) (n : Nat) : Samp × State :=
  let test := s.injecting n
  if n < 16 then
    let ch := s.chan n
    let (hg, ovH, cH) := s.mainOut n
    let (lg, ovL, cL) := s.mainOut (16 + n)
    let ovr := decide (s.g AFE_CCFG_upthr [n] * 2 ^ 30 < hg.natAbs * 100)
    let below := decide (lg.natAbs * 40 * 100 < s.g AFE_CCFG_dnthr [n] * 2 ^ 30)
    let rng := s.g AFE_CCFG_rng [n]
    let (low, cnt) := rangeStep rng (s.g AFE_CCFG_hold [n]) (bitAt (s.g AFE_RSTAT_main) n) ch.mainCnt (ovH || ovr) below
    let u0 : Int := if low then 2 * lg else roundAway (((2 * hg : Int) : Rat) / 40)
    let u := satI (-(2 ^ 31 - 1)) (2 ^ 31 - 1) u0
    let clip := decide (u ≠ u0) || (if low then ovL || cL else (rng = 1 && ovH) || cH)
    let (y, cy) := rogStep (s.g AFE_CCFG_leak [n]) (s.g AFE_CCFG_fref [n]) ch.y u
    let rog := ch.mode = 1 && !test
    let v0 := if rog then roundAway ((y : Rat) / 256) else u
    let v := satI (-(2 ^ 31 - 1)) (2 ^ 31 - 1) v0
    let s1 := (s.p AFE_RSTAT_main [] (putBit (s.g AFE_RSTAT_main) n low)).putChan n
      { ch with mainCnt := cnt, y := if rog then y else ch.y }
    (⟨v, clip || (rog && cy) || decide (v ≠ v0), low, test, false⟩, s1)
  else
    let (x, ov, c) := s.mainOut (16 + n)
    let u := satI (-(2 ^ 31 - 1)) (2 ^ 31 - 1) (2 * x)
    (⟨u, ov || c || decide (u ≠ 2 * x), false, test, false⟩, s)

/-- The unified words of all channels. -/
def State.mainPoints (s : State) : List Nat → List Samp × State
  | [] => ([], s)
  | n :: ns =>
    let (x, s1) := s.mainPoint n
    let (xs, s2) := s1.mainPoints ns
    (x :: xs, s2)

/-! ### Injection (R106 to R109) -/

/-- The window of 20 ms, in fMOD periods. -/
abbrev INJ_WIN : Nat := 368640

def State.putInj (s : State) (i : InjSt) : State := { s with afe := { s.afe with inj := i } }

/-- The window being summed ends, if it has samples: it gives a result when it lay wholly under injection. -/
def InjSt.close (i : InjSt) (upTo : Nat) : InjSt := match i.now with
  | some (n, _) =>
    if 0 < i.n && i.on ≤ i.win && i.win + INJ_WIN ≤ upTo then { i with full := some (n, i.n, i.hg, i.lg), n := 0, hg := 0, lg := 0 }
    else i
  | none => i

/-- A MAIN-point instant m under injection adds its trimmed codes to its window; those of the square pattern's low
half-period count negative. The last instant of a window ends it. -/
def State.injAdd (s : State) (m : Nat) : State :=
  let i := s.afe.inj
  match i.now with
  | none => s
  | some (n, pat) =>
    if m < i.on then s
    else
      let w := m / INJ_WIN * INJ_WIN
      let neg := pat = 3 && 36864 ≤ m % 73728
      let code (k : Nat) : Int := let v := (s.mainOut k).1; if neg then -v else v
      let i1 := if w = i.win then i else { i with win := w, n := 0, hg := 0, lg := 0 }
      let i2 := { i1 with n := i1.n + 1, hg := i1.hg + (if n < 16 then code n else 0), lg := i1.lg + code (16 + n) }
      s.putInj (i2.close (m + 256))

/-- The injection ends at an instant; a window that has ended by then still gives its result, from the samples that were
delivered (R109; log 137, DESIGN CHOICE). -/
def State.injStop (s : State) (tr : Nat) : State := s.putInj { s.afe.inj.close tr with now := none, n := 0 }

/-- INJECTION_WINDOW: a window that lay wholly under injection gives its means, in codes of each range (R109), rounded half
away from zero (log 137, DEDUCED from R126). -/
def injectionWindow (s : State) : State := match s.afe.inj.full with
  | none => s
  | some (n, k, hg, lg) =>
    let mean (x : Int) : Nat := wrap 32 (roundAway ((x : Rat) / ((128 * k : Nat) : Rat)))
    let s1 := s.p AFE_INJRES_HG [] (if n < 16 then mean hg else 0)
    ((s1.p AFE_INJRES_LG [] (mean lg)).cnt AFE_INJCNT_count).putInj { s.afe.inj with full := none }

/-! ### Weirs (R110 to R114) -/

def emptyWeir : WeirSt := ⟨true, none, 0, false, 0⟩
def State.weir (s : State) (n : Nat) : WeirSt := nth s.afe.weirs n emptyWeir
def State.putWeir (s : State) (n : Nat) (w : WeirSt) : State :=
  { s with afe := { s.afe with weirs := s.afe.weirs.set n w } }

/-- The stamp of a firing: the TDC stamp less the weir path delay (R112). -/
def State.weirStamp (s : State) (n : Nat) (t : Time) : Time := ((t : Int) - s.trimI (0x220 + 8 * n) * 1024).toNat

/-- The part of WEIR_FIRE that belongs to the front end: none when the weir is off, settling, not re-armed (R111), or
when its TDC channel had not re-armed, which sets tdclost (R72). -/
def State.weirFires (s : State) (n : Nat) (pol : Bool) (t : Time) : Option Time × State :=
  let w := s.weir n
  if !s.afe.run || !s.on AFE_WCFG_en [n] || w.settling.isSome then (none, s)
  else if !w.armed then
    (none, if (nth s.mer.tdc n (true, 0)).1 then s else s.flag MER 12)
  else match s.tdcStamp n t with
    | (none, s1) => (none, s1)
    | (some t1, s1) =>
      let st := s1.weirStamp n t1
      let cnt := (w.count + 1) % 2 ^ 32
      let s2 := s1.putWeir n { w with armed := false, stamp := st, pol := pol, count := cnt }
      let s3 := (s2.p AFE_WTS_3 [n] cnt).p AFE_WTS_0 [n] (Time.sec st % 2 ^ 32)
      (some st, (s3.flag AFE 9).raise (164 + n))

/-- WEIR_REARM: the filtered signal has returned within ±hyst × T, and the 40 ns have passed (R111). -/
def weirRearm (n : Nat) (s : State) : State :=
  let w := s.weir n
  if !w.armed && (nth s.mer.tdc n (true, 0)).1 then s.putWeir n { w with armed := true } else s

/-- WEIR_SETTLE: 10 µs after the enabling write (R114). -/
def weirSettle (n : Nat) (s : State) : State :=
  let w := s.weir n
  match w.settling with
  | some c => if 10 * oneUs ≤ s.since c then s.putWeir n { w with settling := none } else s
  | none => s

/-- A write of AFE_WCFG[n] that enables weir n starts its settling (R114). -/
def State.weirEnabled (s : State) (n : Nat) : State :=
  s.putWeir n { s.weir n with settling := some s.mer.cyc, armed := true }

/-- AFE_WTS_READ: a read of AFE_WTS[n][0] latches the other parts of the last stamp (R113). -/
def afeWtsRead (n : Nat) (s : State) : State :=
  let w := s.weir n
  let t := w.stamp
  let s1 := (s.p AFE_WTS_0 [n] (Time.sec t % 2 ^ 32)).p AFE_WTS_1 [n] (Time.ns t)
  let s2 := (s1.p AFE_WTS_2_frac [n] (Time.frac t / 1024)).p AFE_WTS_2_pol [n] (b2n w.pol)
  s2.p AFE_WTS_2_sechi [n] (Time.sec t / 2 ^ 32)

end Sys2Proof.Machine
end

