-- ==== Sys2Proof/Machine/Decim.lean ====
section
/-! DEFINITION. The decimation chains behind the MAIN point: pipelines, FIR-B banks and fades, the fixed taps, the prefilter, the tracked grid and the Farrow resampler, and the decimator resets (R130 to R164). -/

namespace Sys2Proof.Machine

/-! ### Configuration in force -/

/-- A DCH register field as the chains see it: during the wait for a reset of cause 5 the values before it stay. -/
def State.dg (s : State) (f : Fld) (ix : List Nat := []) : Nat := match s.dch.held with
  | some r => bits (regFind r (fldOff f ix)) f.hi f.lo
  | none => s.g f ix

/-- Stores a DCH register field that the chains keep. -/
def State.dp (s : State) (f : Fld) (ix : List Nat) (v : Nat) : State := match s.dch.held with
  | some r => { s with dch := { s.dch with
      held := some (regSet r (fldOff f ix) (setBits (regFind r (fldOff f ix)) f.hi f.lo v)) } }
  | none => s.p f ix v

def emptyPipe : PipeSt := ⟨[], [], 0, [], true, 0, false, false, [], []⟩
def State.pipe (s : State) (p : Nat) : PipeSt := nth s.dch.pipes p emptyPipe
def State.putPipe (s : State) (p : Nat) (x : PipeSt) : State :=
  { s with dch := { s.dch with pipes := s.dch.pipes.set p x } }

/-- The first 72 kHz grid instant after a time, as a count of fMOD periods. -/
def next72 (t : Time) : Nat := (modAt (t + 1) + 255) / 256 * 256

/-- The last fMOD edge at or before a time. -/
def modLast (t : Time) : Nat := modAt (t + 1) - 1

/-! ### FIR-B (R143 to R151) -/

/-- Whether unit t of a pipeline is in single-cycle settling. -/
def PipeSt.scs (x : PipeSt) (t : Nat) : Bool := (t = 1 && x.scs48) || (t = 2 && x.scs40)

def State.fading (s : State) (p t : Nat) : Bool := bitAt (s.dg DCH_CH_fade [p]) t
def State.bankOf (s : State) (p t : Nat) : Nat := b2n (bitAt (s.dg DCH_CH_bank [p]) t)

/-- Whether pipeline p runs now, as the writes of run leave it whose 72 kHz instant has come (R134). -/
def State.runsNow (s : State) (p : Nat) : Bool :=
  ((s.pipe p).due.filter fun d => decide (d.1 ≤ modLast s.mer.now)).getLast?.elim (s.pipe p).run (·.2.msb)

/-- A bank is in use on unit t while a running pipeline has it active or fading (R145). -/
def State.bankInUse (s : State) (t b : Nat) : Bool :=
  (List.range 24).any fun p => s.runsNow p && (s.fading p t || s.bankOf p t = b)

/-- The half-length h of a bank, and the coefficients c[0] to c[h]. -/
def State.bankHalf (s : State) (t b : Nat) : Nat := (s.dg DCH_BLEN_len [t, b] - 1) / 2
def State.bankCoef (s : State) (t b : Nat) : List Int :=
  (List.range (s.bankHalf t b + 1)).map fun i => sgn 24 (s.dg DCH_COEF_c [t, b, i])

/-- The half-length of what unit t of pipeline p computes now; the larger of the two banks during a fade. -/
def State.unitHalf (s : State) (p t : Nat) : Nat :=
  if (s.pipe p).scs t then (if t = 1 then 7 else 9)
  else if s.fading p t then max (s.bankHalf t 0) (s.bankHalf t 1)
  else s.bankHalf t (s.bankOf p t)

def noSamp : Samp := ⟨0, false, false, false, false⟩

/-- The inputs at distances −h to h of an instant, oldest first; what lies before the history is zero. -/
def PipeSt.window (x : PipeSt) (mainAt ts h : Nat) : List Samp :=
  (List.range (2 * h + 1)).map fun i => nth x.u ((mainAt + h * 256 - ts) / 256 - i) noSamp

/-- The symmetric list of coefficients, from c[h] over c[0] to c[h]. -/
def mirror (c : List Int) : List Int := c.reverse ++ c.drop 1

/-- The OR of the markers over a support (R131). -/
def marks (l : List Samp) (v : Int) (clip : Bool) : Samp :=
  ⟨v, clip || l.any (·.clip), l.any (·.range), l.any (·.test), l.any (·.settle)⟩

/-- The output of one bank. -/
def State.bankOut (s : State) (p t b ts mainAt : Nat) : Samp :=
  let w := (s.pipe p).window mainAt ts (s.bankHalf t b)
  let (y, c) := firSum 23 (mirror (s.bankCoef t b)) (w.map (·.v))
  marks w y c

/-- The unified word that unit t of pipeline p gives at ts (R143, R146, R151). Every output of a fade has the supports of
both banks (R142), also where the weight of one is 0, and takes the markers of both (R131: whatever the coefficients). -/
def State.unitOut (s : State) (p t ts mainAt : Nat) : Samp :=
  let x := s.pipe p
  if x.scs t then
    let h := if t = 1 then 7 else 9
    let w := x.window mainAt ts h
    let sum : Int := (w.map (·.v)).sum
    let y := if t = 1 then roundAway ((sum : Rat) / 15)
      else roundAway ((((2 : Int) * sum - (nth w 0 noSamp).v - (nth w 18 noSamp).v : Int) : Rat) / 36)
    marks w y false
  else
    let c := s.dg DCH_FADE_c [p, t]
    let w := s.dg DCH_FADE_w [p, t]
    if s.fading p t then
      let a := s.bankOut p t 0 ts mainAt
      let b := s.bankOut p t 1 ts mainAt
      let y := roundAway (((((w : Int) - c) * a.v + c * b.v : Int) : Rat) / (w : Rat))
      marks [a, b] y false
    else s.bankOut p t (if c = 0 then 0 else 1) ts mainAt

/-- The 24-bit code of a unified word (R130), and whether it saturated. -/
def codeOf (current range : Bool) (u : Int) : Int × Bool :=
  let c := if current && !range then roundAway ((40 * u : Int) / (256 : Rat)) else roundAway ((u : Rat) / 256)
  let z := satI (-(2 ^ 23 - 1)) (2 ^ 23 - 1) c
  (z, decide (z ≠ c))

/-- The word of a stopped pipeline (R134): value 0 with SETTLE. -/
def stoppedWord : Word := 1

/-- The word of one fixed-tap output (R130, R131, R156): one whose last input came before the last reset as it was then;
one before the reset without it is discarded, and the tap repeats its previous word (R154; log 135, DESIGN CHOICE). -/
def State.fixedWord (s : State) (p t ts mainAt : Nat) (xfade : Bool) : Word :=
  let x := s.pipe p
  match x.done.find? fun d => d.1 = t && d.2.1 = ts with
  | some d => d.2.2
  | none =>
  if !x.run then stoppedWord
  else if ts < x.tr then nth (nth s.dch.taps (t + 1) []) p 0
  else
    let y := s.unitOut p t ts mainAt
    let (v, c) := codeOf (x.src < 16) y.range y.v
    sampleWord v (ts < x.tr + 1974 + 256 * s.unitHalf p t) (y.clip || c) y.range xfade y.test false

/-! ### Swaps and fades (R146 to R150) -/

/-- One pipeline's outcome of a swap at the output at ts: whether it has an effect (R147). A fade that starts before the
pipeline's reset has ended at its target there (R154). -/
def State.swapOne (s : State) (t b w p ts : Nat) : Bool × State :=
  if s.bankOf p t = b then (false, s)
  else
    let ch := s.dp DCH_CH_bank [p] (putBit (s.dg DCH_CH_bank [p]) t (b = 1))
    if ts < (s.pipe p).tr then (true, (ch.dp DCH_FADE_w [p, t] w).dp DCH_FADE_c [p, t] (if b = 1 then w else 0))
    else if s.fading p t then (true, ch)
    else
      let s1 := ch.dp DCH_CH_fade [p] (putBit (ch.dg DCH_CH_fade [p]) t true)
      let s2 := s1.dp DCH_FADE_w [p, t] w
      (true, s2.dp DCH_FADE_c [p, t] (if b = 1 then 0 else w))

/-- A swap takes effect at the output at ts. A pipeline that has stopped since its acceptance, or whose unit has entered
single-cycle settling, is left out; with no pipeline left the swap has no effect (log 138, DESIGN CHOICE). -/
def State.swapApply (s : State) (w : Swap) (ts : Nat) : State :=
  let pipes := w.pipes.filter fun p => (s.pipe p).run && !(s.pipe p).scs w.unit
  let (eff, s1) := pipes.foldl (fun (e, s) p => let (x, s') := s.swapOne w.unit w.bank w.w p ts; (e || x, s')) (false, s)
  let c := compOf w.cmd 0x0402 ST_DONE
  s1.completeWith (if eff then c.at (modTime ts) else c.secNs 0 0)

/-- A fading unit moves one step toward its target (R146), also while its pipeline is stopped (log 138, DESIGN CHOICE). -/
def State.fadeStep (s : State) (t p : Nat) : State :=
  if s.fading p t && !(s.pipe p).scs t then
    let c := s.dg DCH_FADE_c [p, t]
    s.dp DCH_FADE_c [p, t] (if s.bankOf p t = 1 then c + 1 else c - 1)
  else s

/-- A fade that has reached its target ends, with DCH_STS.xfade (R148). -/
def State.fadeEnd (s : State) (t p : Nat) : State :=
  if s.fading p t && !(s.pipe p).scs t
      && s.dg DCH_FADE_c [p, t] = (if s.bankOf p t = 1 then s.dg DCH_FADE_w [p, t] else 0) then
    (s.dp DCH_CH_fade [p] (putBit (s.dg DCH_CH_fade [p]) t false)).flag DCH 10
  else s

/-- At a reset a running fade ends at its target bank (R154). -/
def State.fadeReset (s : State) (p : Nat) : State :=
  (s.each [0, 1, 2] fun s t =>
    if s.fading p t then s.dp DCH_FADE_c [p, t] (if s.bankOf p t = 1 then s.dg DCH_FADE_w [p, t] else 0) else s).dp
    DCH_CH_fade [p] 0

/-- The strides of the fixed-tap grids, in fMOD periods. -/
def unitStride (t : Nat) : Nat := nth [1280, 3840, 4608] t 1280

/-- The first instant of unit t's grid at or after an instant. -/
def unitGrid (t n : Nat) : Nat := (n + unitStride t - 1) / unitStride t * unitStride t

/-- Single-cycle settling as the changes up to the output at ts leave it (R152). -/
def PipeSt.scsAt (x : PipeSt) (t ts : Nat) : Bool :=
  (x.scsDue.filter fun d => d.1 = t && decide (d.2.1 ≤ ts)).foldl (fun _ d => d.2.2) (x.scs t)

/-- Whether unit t of pipeline p is in single-cycle settling now: a change is in force from the first output at or after its write. -/
def State.scsNow (s : State) (p t : Nat) : Bool :=
  ((s.pipe p).scsDue.filter fun d => d.1 = t && decide (unitGrid t d.2.1 ≤ modLast s.mer.now)).foldl (fun _ d => d.2.2) ((s.pipe p).scs t)

/-- Single-cycle settling comes into force at the first output at or after its write (R152): whether it changes. -/
def State.scsTake (s : State) (t ts p : Nat) : Bool × State :=
  let x := s.pipe p
  let v := x.scsAt t ts
  let x1 := { x with scsDue := x.scsDue.filter fun d => !(d.1 = t && decide (d.2.1 ≤ ts)) }
  (decide (v ≠ x.scs t), s.putPipe p (if t = 1 then { x1 with scs48 := v } else if t = 2 then { x1 with scs40 := v } else x1))

/-- The swaps of unit t that take effect at the output at ts (R147). -/
def State.swapsDue (s : State) (t ts : Nat) : List Swap := s.dch.swaps.filter fun w => w.unit = t && decide (modAt w.at_ ≤ ts)

/-- The half-length that unit t of pipeline p needs for its output at ts, after what comes into force there. -/
def State.halfAt (s : State) (p t ts : Nat) : Nat :=
  if (s.pipe p).scsAt t ts then (if t = 1 then 7 else 9)
  else if s.fading p t || (s.swapsDue t ts).any (fun w => w.pipes.contains p && w.bank ≠ s.bankOf p t) then max (s.bankHalf t 0) (s.bankHalf t 1)
  else s.bankHalf t (s.bankOf p t)

/-- Whether the output at ts waits for no input of pipeline p: it is stopped, the output is before its last reset, or the
last input of the output is there. -/
def State.pipeReady (s : State) (p t ts : Nat) : Bool :=
  !(s.pipe p).run || decide (ts < (s.pipe p).tr) || s.dch.mainAt.any fun m => decide (ts + 256 * s.halfAt p t ts ≤ m)

/-- Whether unit t can give its next output: it waits for no pipeline's input. -/
def State.unitReady (s : State) (t : Nat) : Bool :=
  let ts := nth s.dch.next t 0
  s.afe.run && (decide (ts < s.dch.tr) || s.dch.mainAt.any fun m => decide (ts ≤ m)) && (List.range 24).all fun p => s.pipeReady p t ts

/-- The next output of unit t at or after an instant: after a device reset the grid goes on at tr (R154), but for the
outputs whose last input came before. -/
def State.nextOut (s : State) (t n : Nat) : Nat :=
  let early := ((s.dch.pipes.filter (·.run)).flatMap fun x => x.done.filter fun d => d.1 = t && decide (n ≤ d.2.1)).map (·.2.1)
  early.foldl min (unitGrid t (max n s.dch.tr))

/-- The chain part of FIXED_TAP_OUTPUT: the output of unit t of every pipeline at the next instant of its grid. -/
def State.fixedTap (s : State) (t : Nat) : State :=
  let ts := nth s.dch.next t 0
  let mainAt := s.dch.mainAt.getD 0
  let due := s.swapsDue t ts
  let s0 := { s with dch := { s.dch with
    swaps := s.dch.swaps.filter fun w => !(w.unit = t && decide (modAt w.at_ ≤ ts))
    next := s.dch.next.set t (s.nextOut t (ts + 1)) } }
  let (chg, s1) := (List.range 24).foldl (fun (l, s) p => let (x, s') := s.scsTake t ts p; (if x then p :: l else l, s'))
    (([] : List Nat), s0)
  let s2 := (s1.each due fun s w => s.swapApply w ts).each (List.range 24) fun s p => s.fadeStep t p
  let ws := (List.range 24).map fun p =>
    s2.fixedWord p t ts mainAt (chg.contains p || (s2.fading p t && !(s2.pipe p).scs t))
  let s3 := (s2.setTap (t + 1) ts ws).each (List.range 24) fun s p =>
    (s.putPipe p { s.pipe p with done := (s.pipe p).done.filter fun d => !(d.1 = t && decide (d.2.1 ≤ ts)) }).fadeEnd t p
  if ws.any (·.getLsbD 1) then s3.flag DCH 9 else s3

/-! ### MAIN_POINT_SAMPLE and the prefilter (R132, R135) -/

/-- C(8, i). -/
def binom8 : List Int := [1, 8, 28, 56, 70, 56, 28, 8, 1]

/-- The prefilter output at instant n, from the inputs up to n + 1024 (R135, R156). -/
def preOut (x : PipeSt) (n : Nat) : Samp :=
  let w := (x.u ++ List.replicate 9 noSamp).take 9
  let (y, c) := firSum 8 binom8 (w.map (·.v))
  { marks w y c with settle := decide (n < x.tr + 2998) }

/-- What pipeline p does with the unified words of MAIN instant m. -/
def PipeSt.push (x : PipeSt) (us : List Samp) (m : Nat) : PipeSt :=
  let x1 := { x with u := (nth us x.src noSamp :: x.u).take 300 }
  if m % 1024 = 0 && 1024 ≤ m then { x1 with pre := (preOut x1 (m - 1024) :: x1.pre).take 24 } else x1

/-- What a write of DCH_CH[p] brings into force for the pipeline: run and the source. -/
def PipeSt.take (x : PipeSt) (w : Word) : PipeSt := { x with run := w.msb, src := bits w 4 0 }

/-- The pipeline as the writes up to a 72 kHz instant leave it, and the instants of those that restart it, oldest first: a remap
of the pipeline, or run from 0 to 1 (R134, R155). -/
def PipeSt.takeDue (x : PipeSt) (m : Nat) : PipeSt × List Nat :=
  let (y, r) := (x.due.filter fun d => decide (d.1 ≤ m)).foldl (fun (a : PipeSt × List Nat) d =>
    let y := a.1.take d.2
    (y, if (y.run && !a.1.run || y.src ≠ a.1.src) && !a.2.contains d.1 then a.2 ++ [d.1] else a.2)) (x, [])
  ({ y with due := x.due.filter fun d => !(decide (d.1 ≤ m)) }, r)

/-- The outputs of unit t of pipeline p from ts on that come before a reset at tr and whose last input is there, at most n;
those of a stopped pipeline need none. -/
def State.doneFrom (s : State) (p t tr : Nat) : Nat → Nat → List (Nat × Nat × Word)
  | 0, _ => []
  | n + 1, ts =>
    if tr ≤ ts || !s.pipeReady p t ts then []
    else if !(s.pipe p).run then (t, ts, stoppedWord) :: s.doneFrom p t tr n (ts + unitStride t)
    else
      let (chg, s1) := s.scsTake t ts p
      let s2 := s1.fadeStep t p
      (t, ts, s2.fixedWord p t ts (s.dch.mainAt.getD 0) (chg || (s2.fading p t && !(s2.pipe p).scs t)))
        :: (s2.fadeEnd t p).doneFrom p t tr n (ts + unitStride t)

/-- What pipeline p still delivers of its fixed taps when it stops or restarts at tr: every output whose last input lies
before tr (R154). -/
def State.doneAt (s : State) (p tr : Nat) : List (Nat × Nat × Word) :=
  (s.pipe p).done ++ [0, 1, 2].flatMap fun t => s.doneFrom p t tr 32 (unitGrid t (max (nth s.dch.next t 0) (s.pipe p).tr))

/-- The writes that only stop a pipeline, or store its source while it is stopped, come into force at their 72 kHz instant
(R134). -/
def State.stopPipes (s : State) (m : Nat) : State :=
  s.each (List.range 24) fun s p =>
    if (s.pipe p).due.any fun d => decide (d.1 ≤ m) then s.putPipe p { ((s.pipe p).takeDue m).1 with done := s.doneAt p m } else s

/-- Whether a pipeline reset is due at or before a MAIN instant. -/
def State.pipeDue (s : State) (m p : Nat) : Bool := !((s.pipe p).takeDue m).2.isEmpty

/-- The chain part of MAIN_POINT_SAMPLE; a pipeline reset and the outputs that are ready come first. -/
def mainPointSample (s : State) : State := match s.afe.mainDue with
  | none => s
  | some m =>
    if (List.range 24).any (s.pipeDue m) || [0, 1, 2].any s.unitReady then s
    else
      let s0 := s.stopPipes m
      let (us, s1) := s0.mainPoints (List.range 24)
      let s2 := s1.injAdd m
      { s2 with
        afe := { s2.afe with mainDue := none }
        dch := { s2.dch with
          pipes := s2.dch.pipes.map fun x => x.push us m
          mainAt := some m
          preAt := if m % 1024 = 0 && 1024 ≤ m then some (m - 1024) else s2.dch.preAt } }

/-! ### The tracked grid (R136 to R140) -/

def State.fnom (s : State) : Rat := if s.dg DCH_TRK_fnom = 1 then 60 else 50
def State.trkRate (s : State) : Nat := s.dg DCH_TRK_rate

/-- The instants N per cycle of a rate code. -/
def rateN (r : Nat) : Nat := if r = 0 then 32 else if r = 1 then 64 else 128

/-- Whether tracked samples are STALE and frames carry fstale now (R137, R138). -/
def State.trkStale (s : State) : Bool :=
  if s.isMember then s.dch.lost
  else if s.dg DCH_TRK_src = 1 then s.dch.hostDone
  else s.dg DCH_TRK_src = 2 || s.dch.lost

/-- The tracking frequency in force, before the clamp (R137, R138). -/
def State.trkFreq (s : State) : Rat :=
  match s.dg DCH_TRK_src with
  | 0 =>
    let n := (s.dch.placed.filter fun p => !p.stepped).length
    let i := 3 - n
    let est := if n ≤ 3 then nth (nth s.dch.fEst i []) (s.dg DCH_TRK_grp) none else none
    est.getD s.dch.fPrev
  | 1 => ((s.dg DCH_TRKFREQ : Nat) : Rat) / 1000000
  | _ => s.fnom

/-- Δ of a frequency and a rate, in units of 2^−16 ns (R136). -/
def trkDelta (r : Nat) (f : Rat) : Nat := (roundAway ((oneSec : Rat) / ((rateN r : Rat) * f))).toNat

/-- The tracked instant that a Δ of a rate places. -/
def placeAt (t : Time) (rate : Nat) : Placed := ⟨t, 0, false, rate, false, false, false, false, false, false, 0⟩

/-- The frame flags of an instant are taken (R161), and the next instant is fixed; a member with a master takes it from
the GRID packet. Answers the next instant that this device fixed. -/
def State.tracked (s : State) (p : Placed) : Option Placed × State :=
  let f0 := s.trkFreq
  let own := !s.isMember
  let f := if f0 < 10 then 10 else if 70 < f0 then 70 else f0
  let lim := own && !(s.dch.lost) && decide (f ≠ f0)
  let q : Placed := { p with
    tstep := p.tstep || (p.sync && s.dch.tstep)
    fhost := own && s.dg DCH_TRK_src = 1
    fcasc := s.isMember
    fstale := s.trkStale
    flim := lim
    tq := s.g MER_STAT_tq }
  let s1 := { s with dch := { s.dch with
    placed := s.dch.placed ++ [q]
    nextT := none
    tstep := if p.sync then false else s.dch.tstep } }
  let s2 := if lim then s1.flag DCH 12 else s1
  if s.isMember && !s.dch.lost then (none, s2)
  else
    let r := s.trkRate
    let d := if s.dch.lost then s.dch.lastDelta else trkDelta r f
    let nx := placeAt (p.t + d) (if s.dch.lost then s.dch.lastRate else r)
    let s3 := { s2 with dch := { s2.dch with
      nextT := some nx
      lastDelta := d
      fPrev := if s.dch.lost then s.dch.fPrev else f
      lastRate := nx.rate } }
    (some nx, if s.dch.lost then s3 else s3.dp DCH_TRKSTAT [] (roundAway (f * 1000000)).toNat)

/-! ### Forming a frame (R139, R161, R162) -/

/-- The Farrow sum over x[n − 1] to x[n + 2] (R139). -/
def farrow (mu : Rat) (a b c d : Int) : Int :=
  satI (-(2 ^ 31)) (2 ^ 31 - 1) (roundAway (
    -(mu * (mu - 1) * (mu - 2) / 6 * (a : Rat)) + (mu + 1) * (mu - 1) * (mu - 2) / 2 * (b : Rat)
      - (mu + 1) * mu * (mu - 2) / 2 * (c : Rat) + (mu + 1) * mu * (mu - 1) / 6 * (d : Rat)))

/-- A tracked instant in the present Meridian time, and the number of the prefilter instant at or before it. -/
def Placed.now (p : Placed) : Time := ((p.t : Int) + p.shift).toNat
def Placed.n18 (p : Placed) : Nat := p.now * 18000 / oneSec

/-- The word of pipeline k at a tracked instant. -/
def State.trackedWord (s : State) (p : Placed) (k : Nat) : Word :=
  let x := s.pipe k
  if !x.run then sampleWord 0 true false false false false p.fstale
  else
    let top := s.dch.preAt.getD 0 / 1024
    let at_ (i : Nat) : Samp := nth x.pre (top + 1 - p.n18 - i) { noSamp with settle := true }
    let w := [at_ 0, at_ 1, at_ 2, at_ 3]
    let mu : Rat := ((p.now * 18000 % oneSec * 65536 / oneSec : Nat) : Rat) / 65536
    let y := farrow mu (at_ 0).v (at_ 1).v (at_ 2).v (at_ 3).v
    let r := w.any (·.range)
    let (v, c) := codeOf (x.src < 16) r y
    sampleWord v (w.any (·.settle) || (p.n18 - 1) * 1024 < x.tr) (w.any (·.clip) || c) r false (w.any (·.test)) p.fstale

/-- Whether the four inputs of the oldest instant that waits for its frame are there. -/
def State.frameReady (s : State) : Bool := match s.dch.placed, s.dch.preAt with
  | p :: _, some n => s.afe.run && (p.n18 + 2) * 1024 ≤ n
  | _, _ => false

/-- The frame of an instant (R161); `rchg` marks the first frame at a new rate. -/
def Placed.frame (p : Placed) (words : List Word) (seq : Nat) (rchg : Bool) : FrameSt :=
  let f := [(2, p.tstep), (3, p.sync), (6, rchg), (7, p.fhost), (8, p.fcasc), (9, p.fstale), (10, p.flim),
    (11, words.any (·.getLsbD 0)), (12, words.any (·.getLsbD 5))]
  ⟨p.t, seq, p.tq + 16 * p.rate + (f.map fun (i, b) => b2n b * 2 ^ i).sum, words⟩

/-- The chain part of FRAME: the tracked samples of the oldest instant form the frame. -/
def State.formFrame (s : State) : State := match s.dch.placed with
  | [] => s
  | p :: ps =>
    let words := (List.range 24).map (s.trackedWord p)
    let seq := if s.dch.seq0 then 0 else (s.dch.frame.seq + 1) % 65536
    let rchg := s.dch.prodRate.any fun r => decide (r ≠ p.rate)
    let s1 := { s with dch := { s.dch with
      placed := ps, fEst := if p.sync then [] else s.dch.fEst, seq0 := false, prodRate := some p.rate, frame := p.frame words seq rchg } }
    let s2 := (s1.p DCH_SEQ_seq [] seq).each (List.range 24) fun s k =>
      if (nth words k 0).getLsbD 1 then s.cnt DCH_CLIPCNT_count [k] else s
    let s3 := if words.any (·.getLsbD 1) then s2.flag DCH 9 else s2
    if p.fstale then s3.flag DCH 11 else s3

/-! ### Resets (R153 to R158) -/

/-- A pipeline restarts at tr, with the writes of DCH_CH[p] up to it in force (R154, R155). A reset of its own before tr that is
still due sets its flag (R164): no output lies between the two. -/
def State.resetPipe (s : State) (p tr : Nat) : State :=
  let done := s.doneAt p tr
  let (x, own) := (s.pipe p).takeDue tr
  ((s.putPipe p { x with
    u := []
    pre := []
    tr := tr
    done := done }).fadeReset p).each (own.filter fun d => decide (d < tr)) fun s _ => s.flag DCH 8

/-- What the resets of channel n up to an instant bring into force, in order (R99, R107). When injection ends, the mode is
that of the register (R119). -/
def State.chanTake (s : State) (n tr : Nat) : State :=
  let s1 := s.each ((s.chan n).due.filter fun d => decide (d.1 ≤ tr)) fun s d => match d.2 with
    | .mode m => s.putChan n { s.chan n with mode := m }
    | .injOn pat => (s.injStop d.1).putInj { (s.injStop d.1).afe.inj with now := some (n, pat), on := d.1, win := 0, hg := 0, lg := 0 }
    | .injOff =>
      let s1 := if s.injecting n then s.injStop d.1 else s
      s1.putChan n { s1.chan n with mode := if n < 16 then s1.g AFE_CCFG_mode [n] else 0 }
  s1.putChan n { s1.chan n with due := (s1.chan n).due.filter fun d => !(decide (d.1 ≤ tr)) }

/-- The chains of channel n restart at tr; the codes from tr on stay. -/
def State.resetChan (s : State) (n tr : Nat) : State :=
  let s0 := s.chanTake n tr
  let s1 := s0.each (chanMods n) fun s m => { s with afe := { s.afe with
    mods := s.afe.mods.set m { emptyMod with
      codes := (s.mod_ m).codes.take (s.afe.next + 15 - tr)
      ovl := (s.mod_ m).ovl } } }
  s1.putChan n { s1.chan n with tr := tr, y := 0 }

/-- The first instant that a reset may have for the next group of codes to go ahead of it: the group may complete a MAIN
output, whose last input is 8 periods before the group's last. -/
def State.reach (s : State) : Nat := s.afe.next + 23

/-- Whether an event of a chain comes before a reset at tr: outputs that are ready are delivered. -/
def State.chainsBusy (s : State) : Bool := s.afe.mainDue.isSome || [0, 1, 2].any s.unitReady || s.frameReady

/-- The earliest device reset that is due (R158). -/
def State.resetDue (s : State) : Option Time := (s.dch.resets.map (·.1)).min?

/-- Whether a reset reaches the next WB sample, which then waits for it. -/
def State.resetFirst (s : State) : Bool :=
  (s.resetDue.any fun t => modAt t < s.reach) || (List.range 24).any fun n => (s.chan n).due.any fun d => decide (d.1 < s.reach)

/-- The chain part of WB_SAMPLE; what is due before the next sample comes first. -/
def wbSampleChain (codes : List (List (Int × Bool))) (s : State) : State :=
  if !s.afe.run || s.afe.mainDue.isSome || s.resetFirst then s else s.wbFeed codes

/-- Pipeline p as DCH_CH[p] sets it. -/
def State.pipeOf (s : State) (p : Nat) : PipeSt := { s.pipe p with
  run := s.on DCH_CH_run [p], src := s.g DCH_CH_src [p], scs48 := s.on DCH_CH_scs48 [p], scs40 := s.on DCH_CH_scs40 [p]
  due := [], scsDue := [] }

/-- The chains take their configuration from the registers (reset of cause 5, and cause 4). -/
def State.takeConfig (s : State) : State :=
  let s1 := { s with dch := { s.dch with held := none } }
  s1.each (List.range 24) fun s p => s.putPipe p (s.pipeOf p)

/-- The DCH_SYNC commands of some resets complete. -/
def State.syncDone (s : State) (l : List (Time × Nat × Option Desc)) (status : Nat) : State :=
  s.each l fun s (t, _, d) => match d with
    | some d => if status = ST_DONE then s.completeWith ((compOf d 0x0401 ST_DONE).at t) else s.complete d 0x0401 status
    | none => s

/-- Every chain and every pipeline restarts at m; the outputs of the fixed taps go on at their grid instants from m on,
after those whose last input came before (R154). -/
def State.restartChains (s : State) (m : Nat) : State :=
  let s1 := (s.each (List.range 24) fun s n => s.resetChan n m).each (List.range 24) fun s p => s.resetPipe p m
  let s2 := { s1 with dch := { s1.dch with tr := m, mainAt := none, preAt := none } }
  { s2 with dch := { s2.dch with next := [0, 1, 2].map fun t => s2.nextOut t (nth s2.dch.next t 0) } }

/-- The rate at which the tracked grid restarts: a member's is the one received last (R138, R585). -/
def State.restartRate (s : State) : Nat := if s.isMember then s.dch.lastRate else s.trkRate

/-- Every chain, every pipeline and the tracked grid restart at tr (R154). After DAWN and after a DCH soft reset f(k − 1) is
fnom and the sequence starts at 0 (R138, R162); `ready` tells that this is the reset that they await. An instant reached
before a step of Meridian is completed all the same (R60), from what the restarted chains give. -/
def State.restart (s : State) (tr : Time) (ready : Bool) : State :=
  let s1 := s.restartChains (modAt tr)
  let p0 := placeAt (atGrid tr) s1.restartRate
  let fresh := ready && s1.dch.fresh
  { s1 with dch := { s1.dch with
    placed := s1.dch.placed.filter (·.stepped)
    fEst := []
    nextT := some { p0 with sync := true, tstep := s1.dch.tstep }
    lastRate := p0.rate
    fPrev := if fresh then s1.fnom else s1.dch.fPrev
    seq0 := s1.dch.seq0 || fresh
    fresh := s1.dch.fresh && !ready } }

/-- DCH_LASTSYNC records tr and the cause (R154). -/
def State.lastSync (s : State) (tr : Time) (cause : Nat) : State :=
  let s1 := s.p DCH_LASTSYNC_SLO [] (Time.sec tr)
  let s2 := s1.p DCH_LASTSYNC_HI_cause [] cause
  (s2.p DCH_LASTSYNC_HI_sec [] (Time.sec tr / 2 ^ 32)).p DCH_LASTSYNC_NS [] (Time.ns tr)

/-- Whether a channel reset comes before an instant. -/
def State.chanBefore (s : State) (m : Nat) : Bool := (List.range 24).any fun n => (s.chan n).due.any fun d => decide (d.1 < m)

/-- DECIMATOR_RESET: the device resets that are due at the earliest tr (R153, R154, R158, R162). -/
def decimatorReset (s : State) : State := match s.resetDue with
  | none => s
  | some tr =>
    let l := s.dch.resets.filter (fun r => r.1 = tr)
    let s1 := { s with dch := { s.dch with resets := s.dch.resets.filter (fun r => r.1 ≠ tr) } }
    let has (k : Nat) : Bool := l.any (fun r => r.2.1 = k)
    if !s.afe.run then (if tr ≤ s.mer.now then s1.syncDone l ST_NOT_NOW else s)
    else if s.chainsBusy || !(decide (modAt tr < s.reach)) || s.chanBefore (modAt tr) then s
    else
      let s2 := if has 5 || has 4 then s1.takeConfig else s1
      let cause := (l.map (fun r => r.2.1)).foldl max 0
      (((s2.restart tr (has 5 || has 4)).lastSync tr cause).flag DCH 8).syncDone l ST_DONE

/-- CHANNEL_RESET of channel n: a mode change or an injection switch comes into force (R99, R107, R155), for the channel and
for every pipeline that it feeds then. One at the instant of a device reset merges with it (R158). -/
def channelReset (n : Nat) (s : State) : State := match (s.chan n).due with
  | [] => s
  | (tr, _) :: _ =>
    if !s.afe.run || s.chainsBusy || !(decide (tr < s.reach)) || (s.resetDue.any fun t => modAt t ≤ tr) then s
    else
      let ps := (List.range 24).filter fun p => ((s.pipe p).takeDue tr).1.src = n
      ((s.resetChan n tr).each ps fun s p => s.resetPipe p tr).flag DCH 8

/-- PIPELINE_RESET: a remap or run = 1 comes into force (R134, R155); its window runs from the later reset (R158). -/
def pipelineReset (p : Nat) (s : State) : State := match s.afe.mainDue with
  | some m =>
    if [0, 1, 2].any s.unitReady || s.frameReady then s
    else match ((s.pipe p).takeDue m).2.getLast? with
      | some tr => (s.resetPipe p (max tr (s.pipe p).tr)).flag DCH 8
      | none => s
  | none => s

/-- A device reset is requested for tr. -/
def State.askReset (s : State) (tr : Time) (cause : Nat) (d : Option Desc) : State :=
  { s with dch := { s.dch with resets := s.dch.resets ++ [(tr, cause, d)] } }

/-- The modulators start (DAWN exit, a wake from NIGHT, SAFE entered from NIGHT): a reset of cause 4 follows (R153). -/
def State.startChains (s : State) (dawn : Bool) : State :=
  let m := (modAt s.mer.now + 15) / 16 * 16
  let s0 := { s with
    afe := { s.afe with run := true, next := m, mainDue := none, mods := List.replicate 40 emptyMod }
    dch := { s.dch with
      mainAt := none, placed := [], fEst := [], nextT := none, fresh := s.dch.fresh || dawn
      next := [0, 1, 2].map fun t => unitGrid t m } }
  (s0.restartChains m).askReset (nextGrid s.mer.now) 4 none

/-- The modulators stop (entry into NIGHT): the writes that waited for an instant are in force, active injection ends
without a result (R119), and a swap that waits completes NOT_NOW (log 138, DESIGN CHOICE). -/
def State.stopChains (s : State) : State :=
  let s1 := { s with
    afe := { s.afe with
      run := false, mainDue := none
      chans := (List.range 24).map fun n => { s.chan n with due := [], mode := if n < 16 then s.g AFE_CCFG_mode [n] else 0 }
      inj := { s.afe.inj with now := none, n := 0 } }
    dch := { s.dch with
      nextT := none, placed := [], swaps := []
      pipes := (List.range 24).map fun p => { (s.pipe p).takeDue (modAt s.mer.now + 512) |>.1 with
        scs48 := (s.pipe p).scsAt 1 (modAt s.mer.now), scs40 := (s.pipe p).scsAt 2 (modAt s.mer.now), scsDue := [], done := [] } } }
  s1.each s.dch.swaps fun s w => s.complete w.cmd 0x0402 ST_NOT_NOW

/-! ### Requests -/

/-- SYNC_PIN_PULSE: an edge, and the width of the pulse in ns (R153). -/
def syncPinPulse (rising : Bool) (edge : Time) (width : Nat) (s : State) : State :=
  if s.on DCH_SYNCCFG_pinen && 20 ≤ width && rising = !s.on DCH_SYNCCFG_pinpol then
    s.askReset (modTime (modAt (edge + 8 * oneNs))) 0 none
  else s

/-- DCH_SYNC (R153, R154). -/
def dchSync (d : Desc) (s : State) : State :=
  if s.inSt [DAWN, NIGHT, SAFE] then s.complete d 0x0401 ST_NOT_NOW
  else s.askReset (nextGrid s.mer.now) 1 (some d)

/-- A write of DCH_SYNCCFG.cmd = 1 (R153). -/
def State.syncCmd (s : State) : State := s.askReset (nextGrid s.mer.now) 1 none

/-- DCH_SWAP (R147 to R150). -/
def dchSwap (d : Desc) (s0 : State) : State :=
  let rf := d.rf.toNat
  let w0 := d.b.toNat % 512
  let p0 := rf % 32
  let u0 := rf / 32 % 4
  let all := bitAt rf 8
  let w := min (max w0 8) 256
  let s := ((s0.clampDesc d 24 (b2n (w ≠ w0))).clampDesc d 28 (b2n (!all && 23 < p0))).clampDesc d 28 (b2n (u0 = 3))
  let p := min p0 23
  let t := min u0 2
  let takes (p : Nat) : Bool := s.runsNow p && !s.scsNow p t
  let refuse := s.inSt [DAWN, NIGHT, SAFE] || (!all && !takes p)
  if refuse then s0.complete d 0x0402 ST_NOT_NOW
  else
    let pipes := if all then (List.range 24).filter takes else [p]
    { s with dch := { s.dch with swaps := s.dch.swaps ++ [⟨t, pipes, s.mer.now, b2n (bitAt rf 7), w, d⟩] } }

/-- The banks that a DCH_BDEF value selects. -/
def bdefBanks (v : Nat) : List (Nat × Nat) := (bitsOf 6 v).map fun i => (i / 2, i % 2)

/-- A bank takes the default of R144, which is its reset value. -/
def State.bankDefault (s : State) (tb : Nat × Nat) : State :=
  let lo := 0x41000 + 0x200 * (2 * tb.1 + tb.2)
  let s1 := { s with regs := s.regs.filter fun e => !(decide (lo ≤ e.1) && decide (e.1 < lo + 0x200)) }
  s1.p DCH_BLEN_len [tb.1, tb.2] (defaultLen tb.1)

/-- A write of DCH_BDEF (R144, R145): not-now when a selected bank is in use. -/
def dchBdef (v : Word) (s : State) : State :=
  if (bdefBanks v.toNat).any (fun tb => s.bankInUse tb.1 tb.2) then s.notNow 0x40520
  else s.each (bdefBanks v.toNat) State.bankDefault

/-- A write of DCH_TRKFREQ restarts the hto timer (R137, R681). -/
def State.trkFreqWritten (s : State) : State := { s with dch := { s.dch with hostCyc := s.mer.cyc, hostDone := false } }

/-- TRACKING_HOST_TIMEOUT (R137). -/
def trackingHostTimeout (s : State) : State :=
  if s.dg DCH_TRK_src = 1 && !s.dch.hostDone && s.dg DCH_TRK_hto * oneMs ≤ s.since s.dch.hostCyc then
    { s with dch := { s.dch with hostDone := true } }
  else s

end Sys2Proof.Machine
end

