-- ==== Sys2Proof/Machine/Phasor.lean ====
section
/-! DEFINITION. The phasor engine and the quantity table (R165 to R191, R682). -/

namespace Sys2Proof.Machine

/-! ### Complex numbers -/

abbrev Cx := Rat × Rat
def cadd (a b : Cx) : Cx := (a.1 + b.1, a.2 + b.2)
def csub (a b : Cx) : Cx := (a.1 - b.1, a.2 - b.2)
def cmul (a b : Cx) : Cx := (a.1 * b.1 - a.2 * b.2, a.1 * b.2 + a.2 * b.1)
def cscale (k : Rat) (a : Cx) : Cx := (k * a.1, k * a.2)
def cconj (a : Cx) : Cx := (a.1, -a.2)
def cabs2 (a : Cx) : Rat := a.1 * a.1 + a.2 * a.2
def cabs (a : Cx) : Rat := sqrtQ (cabs2 a)
/-- Quotient; 0 for a divisor 0. -/
def cdiv (a b : Cx) : Cx := cscale (1 / cabs2 b) (cmul a (cconj b))
/-- e^(jθ). -/
def cexp (t : Rat) : Cx := (cosQ t, sinQ t)
def sqrt2 : Rat := sqrtQ 2
/-- e^(j120°). -/
def rot120 : Cx := (-1 / 2, sqrtQ 3 / 2)

/-- The quality bits (R160). -/
abbrev Q_SETTLE : Nat := 0x01
abbrev Q_CLIP : Nat := 0x02
abbrev Q_RANGE : Nat := 0x04
abbrev Q_SUBST : Nat := 0x10
abbrev Q_TEST : Nat := 0x20
abbrev Q_FORCED : Nat := 0x40
abbrev Q_STALE : Nat := 0x80

/-- A quiet NaN. -/
abbrev NAN32 : Word := 0x7FC00000

/-- A value as an entry's word (log 5). -/
def w32 (x : Rat) : Word := BitVec.ofNat 32 (toF32 x)
/-- The value of an entry's word. -/
def r32 (w : Word) : Rat := ofF32 w.toNat
def isNaN32 (w : Word) : Bool := isNaN f32 w.toNat

/-- The OR of quality bytes. -/
def orQ (l : List Nat) : Nat := l.foldl (· ||| ·) 0

/-- An entry: its word and its quality byte. -/
abbrev Ent := Word × Nat

/-! ### What a group computes from -/

/-- The inputs of a group in one frame: its samples by input, newest first, with their quality; which inputs are
assigned; the frames' times, newest first; the frame's number; the rate; its configuration and thresholds. -/
structure GrpIn where
  xs : List (List (Rat × Nat))
  asg : List Bool
  times : List Time
  n : Nat
  rate : Nat
  cfg : Word
  umin : Rat
  imin : Rat
  k0 : Cx
  rocw : Nat
  marks : Marks
  recs : List FRec
  cross : List (Rat × Bool × Nat)
  /-- entry 78, once the recorder has written it -/
  dist : Option Ent
  /-- the group's entries of the last frame, in the local layout -/
  old : List Ent
  /-- the host frequency in µHz and whether its timeout has run out, for fsrc = 1 -/
  host : Nat × Bool
deriving DecidableEq, Repr

def GrpIn.N (g : GrpIn) : Nat := rateN g.rate
def GrpIn.filt (g : GrpIn) : Nat := bits g.cfg 1 0
def GrpIn.bit (g : GrpIn) (b : Nat) : Bool := g.cfg.getLsbD b
def GrpIn.oldAt (g : GrpIn) (e : Nat) : Ent := nth g.old e (0, Q_STALE)

/-- The window of L samples of an input from a restart mark on: positions before it are zero with SETTLE (R682). -/
def GrpIn.win (g : GrpIn) (i mk L : Nat) : List (Rat × Nat) :=
  let l := nth g.xs i []
  (List.range L).map fun m => if g.n < mk + m then (0, Q_SETTLE) else nth l m (0, Q_SETTLE)

/-- The window length of the fundamental filter (R169), and with the mimic (R170). -/
def GrpIn.len (g : GrpIn) (i : Nat) : Nat :=
  (if g.filt = 0 then g.N else if g.filt = 1 then g.N / 2 else g.N + g.N / 4) + b2n (g.bit 2 && decide (i < 4))

/-- Σ x(k − m) · e^(j2πhm/N) over a window. -/
def dft (N h : Nat) (xs : List Rat) : Cx :=
  (List.zip (List.range xs.length) xs).foldl
    (fun acc (m, x) => if x = 0 then acc else cadd acc (cscale x (cexp (2 * piQ * ((h * m % N : Nat) : Rat) / (N : Rat))))) (0, 0)

/-- The fundamental phasor of the samples x(k), x(k − 1), … (R169). -/
def fundamental (filt N : Nat) (xs : List Rat) : Cx :=
  let k : Rat := sqrt2 / (N : Rat)
  if filt = 0 then cscale k (dft N 1 (xs.take N))
  else if filt = 1 then cscale (2 * k) (dft N 1 (xs.take (N / 2)))
  else (k * (dft N 1 (xs.take N)).1, k * (dft N 1 ((xs.drop (N / 4)).take N)).1)

/-- a = τ / (ts(k − m) − ts(k − m − 1)) of the mimic (R170); where no frame stands before it the gap is free (log 127). -/
def GrpIn.mimicA (g : GrpIn) (m : Nat) : Rat :=
  let dt : Rat := match g.times[m + 1]? with
    | some t => (((nth g.times m 0 : Nat) : Int) - (t : Nat) : Int)
    | none => (Config.firstGap : Nat)
  ((bits g.cfg 15 8 * oneMs : Nat) : Rat) / dt

/-- The phasor of input i from a restart mark on, with its quality. -/
def GrpIn.phasorAt (g : GrpIn) (i mk : Nat) : Cx × Nat :=
  let w := g.win i mk (g.len i)
  let x := w.map (·.1)
  let q := orQ (w.map (·.2))
  if g.bit 2 && decide (i < 4) then
    let y := (List.range (g.len i - 1)).map fun m => (1 + g.mimicA m) * nth x m 0 - g.mimicA m * nth x (m + 1) 0
    let a := g.mimicA 0
    let h := csub (1 + a, 0) (cscale a (cexp (-(2 * piQ / (g.N : Rat)))))
    (cdiv (fundamental g.filt g.N y) h, q)
  else (fundamental g.filt g.N x, q)

/-- Whether a window of L frames still holds samples of the old rate (R181; its own length is what fills it: log 178, DEDUCED). -/
def GrpIn.refill (g : GrpIn) (L : Nat) : Bool := match g.marks.rate with
  | some r => decide (g.n + 1 < r + L)
  | none => false

/-- An entry that keeps its last value and carries STALE. -/
def GrpIn.keep (g : GrpIn) (e : Nat) : Ent := ((g.oldAt e).1, (g.oldAt e).2 ||| Q_STALE)

/-- Whether a window of L frames still holds positions before a mark (R180, R682). -/
def GrpIn.young (g : GrpIn) (L mk : Nat) : Bool := decide (g.n + 1 < mk + L)

/-- An entry that keeps its last value with STALE while its window of L frames refills after a rate change, and carries SETTLE
besides while a change at mark mk is in the window (R180, R181, R189). -/
def GrpIn.hold (g : GrpIn) (L e mk : Nat) (x : Ent) : Ent :=
  if g.refill L then ((g.keep e).1, (g.keep e).2 ||| b2n (g.young L mk)) else x

def GrpIn.inpMark (g : GrpIn) (i : Nat) : Nat := nth g.marks.inp i 0
def GrpIn.phMark (g : GrpIn) (i : Nat) : Nat := max (g.inpMark i) (if i < 4 then g.marks.cur else g.marks.vol)
def GrpIn.has (g : GrpIn) (i : Nat) : Bool := nth g.asg i false

/-- The two entries of a complex value. -/
def pair (x : Cx) (q : Nat) : List Ent := [(w32 x.1, q), (w32 x.2, q)]

/-- Entries 0 to 15: the phasors. -/
def GrpIn.phasors (g : GrpIn) : List Ent :=
  ((List.range 8).map fun i =>
    if !g.has i then [((0 : Word), Q_STALE), (0, Q_STALE)]
    else
      let (x, q) := g.phasorAt i (g.phMark i)
      (pair x q).zipIdx.map fun (e, j) => g.hold (g.len i) (2 * i + j) (g.phMark i) e).flatten

/-- An entry of input i over its last N samples (R171). -/
def GrpIn.overN (g : GrpIn) (i e : Nat) (f : List Rat → Rat) : Ent :=
  if !g.has i then (0, Q_STALE)
  else
    let w := g.win i (g.inpMark i) g.N
    g.hold g.N e (g.inpMark i) (w32 (f (w.map (·.1))), orQ (w.map (·.2)))

def GrpIn.rms (g : GrpIn) (i : Nat) : Ent :=
  g.overN i (16 + i) fun l => sqrtQ ((l.map fun x => x * x).sum / (g.N : Rat))
def GrpIn.harm (g : GrpIn) (i j : Nat) : Ent :=
  g.overN i (24 + 3 * i + j) fun l => sqrt2 / (g.N : Rat) * cabs (dft g.N (nth [2, 3, 5] j 2) l)
def GrpIn.dc (g : GrpIn) (i : Nat) : Ent := g.overN i (74 + i) fun l => l.sum / (g.N : Rat)

/-- A complex value of two entries, with their quality. -/
def cent (l : List Ent) (e : Nat) : Cx × Nat :=
  let a := nth l e (0, Q_STALE)
  let b := nth l (e + 1) (0, Q_STALE)
  ((r32 a.1, r32 b.1), a.2 ||| b.2)

/-- The phasor of input i for a derived entry that restarted at a mark: the entry itself, or, while the mark lies in its
window, the phasor from the mark on (R180); while the window refills at a new rate the held value, with SETTLE (R181). -/
def GrpIn.phFor (g : GrpIn) (ph : List Ent) (i mk : Nat) : Cx × Nat :=
  if !g.has i || mk ≤ g.phMark i || mk + g.len i ≤ g.n + 1 then cent ph (2 * i)
  else if g.refill (g.len i) then let (x, q) := cent ph (2 * i); (x, q ||| Q_SETTLE)
  else g.phasorAt i mk

/-- Positive or negative sequence of three inputs (R172). -/
def GrpIn.sequence (g : GrpIn) (ph : List Ent) (i0 : Nat) (neg : Bool) : Cx × Nat :=
  let (a, qa) := g.phFor ph i0 g.marks.seq
  let (b0, qb) := g.phFor ph (i0 + 1) g.marks.seq
  let (c0, qc) := g.phFor ph (i0 + 2) g.marks.seq
  let (b, c) := if g.bit 3 then (c0, b0) else (b0, c0)
  let r2 := cmul rot120 rot120
  let (k, m) := if neg then (r2, rot120) else (rot120, r2)
  (cscale (1 / 3) (cadd a (cadd (cmul k b) (cmul m c))), orQ [qa, qb, qc])

/-- Zero sequence: calculated, or from the fourth input (R172). -/
def GrpIn.zero (g : GrpIn) (ph : List Ent) (i0 mk : Nat) (meas : Bool) : Cx × Nat :=
  if meas then
    let (n, q) := g.phFor ph (i0 + 3) mk
    (cscale (1 / 3) n, q)
  else
    let (a, qa) := g.phFor ph i0 mk
    let (b, qb) := g.phFor ph (i0 + 1) mk
    let (c, qc) := g.phFor ph (i0 + 2) mk
    (cscale (1 / 3) (cadd a (cadd b c)), orQ [qa, qb, qc])

/-- Entries 36 to 47: I0, I1, I2, V0, V1, V2. -/
def GrpIn.sequences (g : GrpIn) (ph : List Ent) : List Ent :=
  let f (x : Cx × Nat) : List Ent := pair x.1 x.2
  f (g.zero ph 0 g.marks.i0 (g.bit 4)) ++ f (g.sequence ph 0 false) ++ f (g.sequence ph 0 true)
    ++ f (g.zero ph 4 g.marks.v0 (g.bit 5)) ++ f (g.sequence ph 4 false) ++ f (g.sequence ph 4 true)

/-- The per-phase complex powers (R173). -/
def power (ph : List Ent) (p : Nat) : Ent × Ent :=
  let (v, qv) := cent ph (8 + 2 * p)
  let (i, qi) := cent ph (2 * p)
  let s := cmul v (cconj i)
  ((w32 s.1, qv ||| qi), (w32 s.2, qv ||| qi))

/-- Entries 50 to 53 from the per-phase powers: P, Q, S, PF. -/
def GrpIn.totals (g : GrpIn) (pq : List (Ent × Ent)) : List Ent :=
  let q := orQ (pq.map fun x => x.1.2 ||| x.2.2)
  let p := w32 ((pq.map fun x => r32 x.1.1).sum)
  let qq := w32 ((pq.map fun x => r32 x.2.1).sum)
  let s := w32 (sqrtQ (r32 p * r32 p + r32 qq * r32 qq))
  let pf := if r32 s < g.umin * g.imin || r32 s = 0 then NAN32 else w32 (r32 p / r32 s)
  [(p, q), (qq, q), (s, q), (pf, q)]

/-- A quotient, or two quiet NaN when the divisor's magnitude lies below the threshold (R174). -/
def quot (thr : Rat) (num den : Cx) (q : Nat) : List Ent :=
  if cabs2 den < thr * thr || cabs2 den = 0 then [(NAN32, q), (NAN32, q)] else pair (cdiv num den) q

/-- Entries 54 to 67: the loop impedances and Y0 (R174). After a change of k0 every operand of a loop, I0 among them, counts the
positions before it as zero samples (R180, R682). -/
def GrpIn.loops (g : GrpIn) (ph sq : List Ent) : List Ent :=
  let v (p : Nat) := g.phFor ph (4 + p) g.marks.z
  let i (p : Nat) := g.phFor ph p g.marks.z
  let z0 := g.zero ph 0 (max g.marks.i0 g.marks.z) (g.bit 4)
  let (zi, zq) := cent (pair z0.1 z0.2) 0
  let (i0, q0) := cent sq 0
  let k := cmul g.k0 (cscale 3 zi)
  let gnd (p : Nat) := quot g.imin (v p).1 (cadd (i p).1 k) (orQ [(v p).2, (i p).2, zq])
  let pp (p r : Nat) := quot g.imin (csub (v p).1 (v r).1) (csub (i p).1 (i r).1) (orQ [(v p).2, (v r).2, (i p).2, (i r).2])
  let (v0, qv) := cent sq 6
  gnd 0 ++ gnd 1 ++ gnd 2 ++ pp 0 1 ++ pp 1 2 ++ pp 2 0 ++ quot g.umin i0 v0 (q0 ||| qv)

/-! ### Frequency (R175 to R178) -/

abbrev FM_ROT : Nat := 0
abbrev FM_ZC : Nat := 1
abbrev FM_HOLD : Nat := 2
abbrev FM_HOST : Nat := 3

/-- Seconds between two times. -/
def secs (a b : Time) : Rat := ((a : Int) - (b : Int) : Int) / (oneSec : Rat)

/-- Angle less its whole turns, in (−π, π]. -/
def wrapPi (x : Rat) : Rat :=
  let y := reduce x
  if y = -piQ then piQ else y

def inBand (f : Rat) : Bool := decide (10 ≤ f) && decide (f ≤ 70)

/-- The rotation estimate, when it is valid, and the quality of the earlier reference; an earlier value that was only
kept while its window refilled is none (R181, R682). -/
def GrpIn.rotation (g : GrpIn) (ref : Cx) : Option (Rat × Nat) :=
  let thr := if g.bit 7 then g.imin else g.umin
  match g.recs[g.N - 1]? with
  | none => none
  | some r =>
    let old : Cx := (r32 r.re, r32 r.im)
    if !r.live || r.idx < g.marks.ref || g.n < g.marks.ref + g.N || cabs ref < thr || cabs old < thr then none
    else
      let w := wrapPi (atan2Q ref.2 ref.1 - atan2Q old.2 old.1)
      let dt := secs (nth g.times 0 0) r.ts
      let f := (1 + w / (2 * piQ)) / dt
      if inBand f then some (f, r.rq) else none

/-- The crossings with this frame's, if the reference input rises through zero in it. -/
def GrpIn.crossings (g : GrpIn) (rms : Rat) : List (Rat × Bool × Nat) :=
  let i := if g.bit 7 then 0 else 4
  let thr := if g.bit 7 then g.imin else g.umin
  let l := nth g.xs i []
  let (x0, q0) := nth l 0 (0, 0)
  let (x1, q1) := nth l 1 (0, 0)
  let t1 := nth g.times 1 0
  if g.has i && decide (x1 < 0) && decide (0 ≤ x0) && g.marks.zc < g.n && g.inpMark i < g.n then
    let t : Rat := (t1 : Rat) + (-x1) / (x0 - x1) * ((((nth g.times 0 0 : Nat) : Int) - (t1 : Nat) : Int) : Rat)
    ((t, decide (thr ≤ rms), q0 ||| q1) :: g.cross).take 2
  else g.cross

/-- The zero-crossing estimate, when it is valid, and the quality of the samples that it used. -/
def GrpIn.zeroCross (g : GrpIn) (c : List (Rat × Bool × Nat)) : Option (Rat × Nat) := match c with
  | [(t2, ok2, q2), (t1, ok1, q1)] =>
    let f := (oneSec : Rat) / (t2 - t1)
    if ok1 && ok2 && decide (t1 < t2) && decide (((nth g.times 0 0 : Nat) : Rat) - t2 ≤ ((100 * oneMs : Nat) : Rat)) && inBand f
    then some (f, q1 ||| q2) else none
  | _ => none

/-- The method in force, the frequency entry and the crossings; after a change of the group or of the frequency's source
the entry carries SETTLE until the reference window holds only newer samples (R180). -/
def GrpIn.freq (g : GrpIn) (sq : List Ent) : Nat × Ent × List (Rat × Bool × Nat) :=
  let i := if g.bit 7 then 0 else 4
  let rms := g.rms i
  let c := g.crossings (r32 rms.1)
  let fresh (n : Nat) : Bool := g.marks.fs.any fun m => decide (m ≤ n) && decide (n + 1 < m + g.len i)
  let st := b2n (fresh g.n)
  let old := (g.keep 48).2
  if g.bit 6 then (FM_HOST, (w32 ((g.host.1 : Rat) / 1000000), (if g.host.2 then Q_STALE else 0) ||| st), c)
  else
    let (ref, q) := cent sq (if g.bit 7 then 2 else 8)
    let live := !g.refill (g.len i)
    match (if live then g.rotation ref else none) with
    | some (f, q1) => (FM_ROT, (w32 f, q ||| q1 ||| st), c)
    | none => match (if live then g.zeroCross c else none) with
      | some (f, q1) => (FM_ZC, (w32 f, q1 ||| st), c)
      | none => (FM_HOLD, ((g.keep 48).1, (if fresh (g.n - 1) then old - old % 2 else old) ||| st), c)

/-- ROCOF over M = rocw · N frames (R177, R682). -/
def GrpIn.rocof (g : GrpIn) (f : Ent) : Ent := match g.recs[g.rocw * g.N - 1]? with
  | some r =>
    if r.idx < g.marks.f then g.keep 49
    else (w32 ((r32 f.1 - r32 r.f) / secs (nth g.times 0 0) r.ts), f.2 ||| r.q)
  | none => g.keep 49

/-- What a group computes in a frame: its 80 entries, the frequency method, and what it keeps. -/
def GrpIn.compute (g : GrpIn) : List Ent × Nat × FRec × List (Rat × Bool × Nat) :=
  let ph := g.phasors
  let sq := g.sequences ph
  let pq := (List.range 3).map (power ph)
  let (meth, f, c) := g.freq sq
  let ref := if g.bit 7 then 2 else 8
  let l := ph ++ (List.range 8).map g.rms ++ ((List.range 4).map fun i => (List.range 3).map (g.harm i)).flatten ++ sq
    ++ [f, g.rocof f] ++ g.totals pq ++ g.loops ph sq ++ pq.map (·.1) ++ pq.map (·.2) ++ (List.range 4).map g.dc
    ++ [g.dist.getD (0, Q_STALE)]
  let live := !g.refill (g.len (if g.bit 7 then 0 else 4))
  (l, meth, ⟨g.n, nth g.times 0 0, (nth sq ref (0, 0)).1, (nth sq (ref + 1) (0, 0)).1, (nth sq ref (0, 0)).2, f.1, f.2, live⟩, c)

/-! ### The table -/

/-- Replaces elements of a list from an index on. -/
def splice {α : Type} (l : List α) (a : Nat) (x : List α) : List α := l.take a ++ x ++ l.drop (a + x.length)

/-- Quantity-table entry q. -/
def State.qv (s : State) (q : Nat) : Word := nth s.phe.qv q 0
def State.qq (s : State) (q : Nat) : Nat := (nth s.phe.qq q 0).toNat

/-- Stores entries from index q on. -/
def State.putQ (s : State) (q : Nat) (l : List Ent) : State :=
  { s with phe := { s.phe with
    qv := splice s.phe.qv q (l.map (·.1))
    qq := splice s.phe.qq q (l.map fun e => BitVec.ofNat 8 e.2) } }

/-- The entries from index q on. -/
def State.getQ (s : State) (q n : Nat) : List Ent := (List.range n).map fun i => (s.qv (q + i), s.qq (q + i))

/-- Index of entry e of group g (R186). -/
def qIndex (g e : Nat) : Nat := if g < 8 then 96 * g + e else 768 + 32 * (g - 8) + e

def freshMarks (n : Nat) : Marks := ⟨List.replicate 8 n, n, n, n, n, n, n, n, n, n, none, none⟩
def emptyGrp : GrpSt := ⟨[], freshMarks 0, [], [], List.replicate 8 [], none, false, none, 0, false⟩
def State.grp (s : State) (g : Nat) : GrpSt := nth s.phe.grps g emptyGrp
def State.putGrp (s : State) (g : Nat) (x : GrpSt) : State :=
  { s with phe := { s.phe with grps := s.phe.grps.set g x } }

/-- Every window of every group restarts (R682); a local group is in hold without having entered it (R175). -/
def State.pheRestart (s : State) : State :=
  let grps := s.phe.grps.map fun (x : GrpSt) => { x with marks := freshMarks s.phe.n, cross := [], pub := false }
  { s with phe := { s.phe with grps := grps } }.each (List.range 8) fun s g => s.p PHE_GSTAT_fmeth [g] FM_HOLD

/-- A soft reset of PHE: the windows restart, and the table and entry 78 take their reset values (R187, R191, R682). -/
def State.pheReset (s : State) : State :=
  let s1 := s.pheRestart
  { s1 with phe := { s1.phe with
    qv := PheSt.reset.qv, qq := PheSt.reset.qq, grps := s1.phe.grps.map fun (x : GrpSt) => { x with dist := none } } }

/-- The configuration of a group as the registers hold it. -/
def State.grpCfg (s : State) (g : Nat) : List Word :=
  if g < 8 then [s.rd (0x50100 + 4 * g), s.rd (0x50120 + 4 * g), s.rd (0x50140 + 4 * g), s.rd (0x50200 + 8 * g),
    s.rd (0x50204 + 8 * g)]
  else [s.rd (0x50240 + 4 * (g - 8)), s.rd (0x50260 + 4 * (g - 8))]

/-- Whether some bits of a configuration word differ. -/
def differs (a b : Word) (m : Nat) : Bool := (a ^^^ b) &&& BitVec.ofNat 32 m != 0

/-- The marks after a change of a configuration word in the layout of PHE_GCFG (R180). -/
def Marks.change (m : Marks) (n : Nat) (old new : Word) : Marks :=
  let d := differs old new
  let up (c : Bool) (x : Nat) : Nat := if c then n else x
  let mimic := d 0x4 || (d 0xFF00 && new.getLsbD 2)
  -- with fsrc = 1 before and after, fref has no meaning (R189)
  let src := if old.getLsbD 6 && new.getLsbD 6 then d 0x40 else d 0xC0
  let refs := d 0xB || src || (mimic && new.getLsbD 7)
  { m with
    cur := up (d 0x3 || mimic) m.cur
    vol := up (d 0x3) m.vol
    seq := up (d 0x8) m.seq
    i0 := up (d 0x10) m.i0
    v0 := up (d 0x20) m.v0
    ref := up refs m.ref
    zc := up src m.zc
    f := up src m.f
    fs := if src then some n else m.fs }

/-- A local group takes a changed configuration at this frame (R180). -/
def State.takeLocal (s : State) (g : Nat) : State :=
  let x := s.grp g
  let new := s.grpCfg g
  if x.cfg = new then s
  else
    let n := s.phe.n
    let w (l : List Word) (i : Nat) : Word := nth l i 0
    let o := x.cfg
    if differs (w o 0) (w new 0) 0x80000000 then
      (s.putGrp g { x with
        cfg := new, marks := { freshMarks n with fs := if o.isEmpty then none else some n }, cross := [] }).p
        PHE_GSTAT_fmeth [g] FM_HOLD
    else
      let chg (i : Nat) : Bool := differs (w o (1 + i / 4)) (w new (1 + i / 4)) (0x1F * 2 ^ (8 * (i % 4)))
      let m := x.marks.change n (w o 0) (w new 0)
      let base := if (w new 0).getLsbD 7 then 0 else 4
      let refs := [base, base + 1, base + 2].any chg
      let m1 := { m with
        inp := m.inp.zipIdx.map fun (k, i) => if chg i then n else k
        z := if w o 3 ≠ w new 3 || w o 4 ≠ w new 4 then n else m.z
        ref := if refs then n else m.ref
        zc := if chg base then n else m.zc }
      let s1 := s.putGrp g { x with cfg := new, marks := m1, cross := if m1.zc = n then [] else x.cross }
      -- the reference window restarts: the group is in hold without entering it, but for a change from the host value (R175)
      if m1.ref = n && !(w o 0).getLsbD 6 then s1.p PHE_GSTAT_fmeth [g] FM_HOLD else s1

/-- The LSB of a sample of pipeline p in volts (R87, R167). -/
def lsbOf (p : Nat) (range : Bool) : Rat := (if p < 16 && !range then 1 / 4 else 10) / 8388608

/-- A sample word as volts and quality. -/
def sampleVal (p : Nat) (w : Word) : Rat × Nat :=
  ((sgn 24 (w.toNat / 256) : Rat) * lsbOf p (w.getLsbD 2), w.toNat % 256)

/-- The pipeline of input i of local group g, 31 for none (R165). -/
def State.inputPipe (s : State) (g i : Nat) : Nat := bits (nth (s.grp g).cfg (1 + i / 4) 0) (8 * (i % 4) + 4) (8 * (i % 4))

/-- The inputs of a local group. -/
def State.localIn (s : State) (g : Nat) : GrpIn :=
  let x := s.grp g
  let pipes := (List.range 8).map (s.inputPipe g)
  { xs := pipes.map fun p => if p = 31 then [] else s.phe.words.map fun ws => sampleVal p (nth ws p 0)
    asg := pipes.map (· ≠ 31)
    times := s.phe.times
    n := s.phe.n
    rate := s.dch.frame.flags / 16 % 4
    cfg := nth x.cfg 0 0
    umin := (s.g PHE_GTHR_umin [g] : Rat) / 1000
    imin := (s.g PHE_GTHR_imin [g] : Rat) / 100000
    k0 := (r32 (nth x.cfg 3 0), r32 (nth x.cfg 4 0))
    rocw := s.g PHE_GFCFG_rocw [g]
    marks := x.marks
    recs := x.recs
    cross := x.cross
    dist := x.dist
    old := s.getQ (96 * g) 96
    host := (s.g PHE_HFREQ [g], x.hostDone) }

/-- A group whose windows restart at a change of rate (R181). -/
def GrpSt.newRate (x : GrpSt) (n : Nat) : GrpSt :=
  { x with marks := { x.marks with rate := some n, ref := n, zc := n, f := n }, cross := [] }

/-- Entry 78 of a disabled group, and the reserved entries. -/
def State.localGroup (s : State) (g : Nat) : State :=
  let s0 := s.takeLocal g
  if !(nth (s0.grp g).cfg 0 0).getLsbD 31 then s0.putQ (96 * g) (List.replicate 79 ((0 : Word), Q_STALE) ++ List.replicate 17 ((0 : Word), 0))
  else
    let s1 := if bitAt s.dch.frame.flags 6 then
        (s0.putGrp g ((s0.grp g).newRate s0.phe.n)).p PHE_GSTAT_fmeth [g] FM_HOLD else s0
    let (l, meth, r, c) := (s1.localIn g).compute
    let was := s1.g PHE_GSTAT_fmeth [g]
    let x := s1.grp g
    let s2 := (s1.putGrp g { x with recs := (r :: x.recs).take 2049, cross := c }).p PHE_GSTAT_fmeth [g] meth
    let s3 := s2.putQ (96 * g) (l ++ List.replicate 17 ((0 : Word), 0))
    if meth = FM_HOLD && was ≠ FM_HOLD then s3.flag PHE 8 else s3

/-- The recorder writes the fault distance of group g, which entry 78 shows from this frame on (R187, R434); a group that is not
enabled holds 0.0 and shows the distance once it is (R166; log 172, DEDUCED). -/
def State.faultDistance (s : State) (g : Nat) (v : Word) (q : Nat) : State := s.putGrp g { s.grp g with dist := some (v, q) }

/-! ### Remote groups (R182 to R184) -/

def remMap : List Nat := List.range 16 ++ (List.range 12).map (· + 36) ++ [48, 49, 50, 51]

/-- A remote group holds its entries with STALE. -/
def State.remHold (s : State) (r : Nat) : State :=
  s.putQ (768 + 32 * r) ((s.getQ (768 + 32 * r) 32).map fun e => (e.1, e.2 ||| Q_STALE))

/-- PHE_RSTAT of a remote group after a frame: whether its source was missing, or an entry carries STALE all the same; an
enabled group that enters STALE sets rstale (R183, R191). -/
def State.remStat (s : State) (r : Nat) (missing : Bool) : State :=
  let en := s.on PHE_RGRP_en [r]
  let was := s.on PHE_RSTAT_stale [r]
  let l := s.getQ (768 + 32 * r) 32
  let sub := l.any fun e => bitAt e.2 4
  let stale := missing || l.any fun e => bitAt e.2 7
  let s1 := (s.p PHE_RSTAT_stale [r] (b2n stale)).p PHE_RSTAT_subst [r] (b2n sub)
  if en && stale && !was then s1.flag PHE 9 else s1

/-- The SV sample with a number, or the preceding one with SUBST (R182). -/
def svPick (l : List SvSamp) (idx i : Nat) : Rat × Nat :=
  let k : Rat := if i < 4 then 1 / 1000 else 1 / 100
  match l.find? fun x => decide (x.idx ≤ idx) && !(nth x.bad i false) with
  | none => (0, Q_SUBST)
  | some x => (((nth x.vals i 0 : Int) : Rat) * k, (nth x.qual i 0) ||| (if x.idx = idx then 0 else Q_SUBST))

def svRate (e : List Byte) : Nat := nth [4000, 4800, 14400] (leAt e 9 1) 14400
def emptySub : SvSub := ⟨[], none, [], none⟩
def State.svSub (s : State) (k : Nat) : SvSub := nth s.sv k emptySub

/-- Whether the samples that a stream gives for a time are there: its subscription is not lost, and the last of them has been
received (R182). -/
def State.svHas (s : State) (k : Nat) (t : Time) : Bool :=
  let x := s.svSub k
  s.g NET_SVSTAT_state [k] = 2 && x.samples.head?.any fun top => decide (t * svRate x.entry / oneSec + 2 ≤ top.idx)

/-- The eight inputs of a stream at a time, by the cubic interpolation of R139 with μ truncated to 2^−16; a sample that is
missing is replaced by the preceding one (R182). -/
def State.svAt (s : State) (k : Nat) (t : Time) : List (Rat × Nat) :=
  let x := s.svSub k
  let rate := svRate x.entry
  let n := t * rate / oneSec
  let mu : Rat := ((t * rate % oneSec * 65536 / oneSec : Nat) : Rat) / 65536
  (List.range 8).map fun i =>
    let v (j : Nat) := svPick x.samples (n + j - 1) i
    let y := -(mu * (mu - 1) * (mu - 2) / 6 * (v 0).1) + (mu + 1) * (mu - 1) * (mu - 2) / 2 * (v 1).1
      - (mu + 1) * mu * (mu - 2) / 2 * (v 2).1 + (mu + 1) * mu * (mu - 1) / 6 * (v 3).1
    (y, orQ [(v 0).2, (v 1).2, (v 2).2, (v 3).2])

/-- A remote group fed from SV. Every frame adds one position to its windows: in a frame whose source is missing, the samples
that stand for the missing ones (R182), while the entries hold. The first frames at a new rate refer to times d frames
before, which the old rate placed: the windows restart at the first that does not (R181, log 144). The ROCOF window is 4 cycles, and
the host frequency that no register holds reads as 50 Hz with STALE (log 176, DESIGN CHOICE). -/
def State.remSv (s : State) (r : Nat) : State :=
  let g := 8 + r
  let dly := s.g PHE_RGRP_dly [r]
  let k := s.g PHE_RGRP_stream [r]
  let x0 := s.grp g
  let x := if bitAt s.dch.frame.flags 6 then x0.newRate (s.phe.n + dly) else x0
  let v := match s.phe.times[dly]? with
    | some t => s.svAt k t
    | none => List.replicate 8 (0, Q_SETTLE)
  let xs := (List.range 8).map fun i => (nth v i (0, 0) :: nth x.xs i []).take 170
  let gi : GrpIn := {
    xs := xs, asg := List.replicate 8 true, times := s.phe.times.drop dly, n := s.phe.n
    rate := s.dch.frame.flags / 16 % 4, cfg := nth x.cfg 1 0
    umin := (s.g PHE_RTHR_umin [r] : Rat), imin := (s.g PHE_RTHR_imin [r] : Rat) / 100, k0 := (0, 0), rocw := 4
    marks := x.marks, recs := x.recs, cross := x.cross, dist := none
    old := (List.range 80).map fun e => match remMap.idxOf? e with
      | some j => (s.qv (768 + 32 * r + j), s.qq (768 + 32 * r + j))
      | none => (0, Q_STALE)
    host := (50000000, true) }
  let (l, _, rec, c) := gi.compute
  if (s.phe.times[dly]?).any (s.svHas k) then
    let s1 := s.putGrp g { x with xs := xs, recs := (rec :: x.recs).take 2049, cross := c }
    (s1.putQ (768 + 32 * r) (remMap.map fun e => nth l e (0, Q_STALE))).remStat r false
  else
    ((s.putGrp g { x with xs := xs, recs := ({ rec with live := false } :: x.recs).take 2049, cross := c }).remHold r).remStat r true

/-- The entries of a published local group, in the layout of remote group r (R182). -/
def State.remCascade (s : State) (r : Nat) (l : List Ent) : State :=
  let x := s.grp (8 + r)
  ((s.putGrp (8 + r) { x with pub := true }).putQ (768 + 32 * r) (l.take 32)).remStat r false

/-- The entries that local group g publishes. -/
def State.pubEntries (s : State) (g : Nat) : List Ent := remMap.map fun e => (s.qv (96 * g + e), s.qq (96 * g + e))

/-- PHE_RFEED buffer: 32 entries and 32 quality bytes; missing bytes read 0 (R184). -/
def feedEntries (b : List Byte) : List Ent :=
  (List.range 32).map fun e => (BitVec.ofNat 32 (leAt b (4 * e) 4), leAt b (128 + e) 1)

/-- The host feed of remote group r: a buffer that waits is used, else the group ages (R182, R184), from the last feed or the
write that selected the host (R681). -/
def State.remHost (s : State) (r : Nat) : State :=
  let x := s.grp (8 + r)
  match (s.phe.feeds.filter (fun f => f.1 = r)).getLast? with
  | some (_, _, b) =>
    ((s.putGrp (8 + r) { x with age := some 0 }).putQ (768 + 32 * r) (feedEntries b)).remStat r false
  | none =>
    let age := x.age.map (· + 1)
    let s1 := s.putGrp (8 + r) { x with age := age }
    if age.all (s.g PHE_RGRP_dly [r] ≤ ·) then (s1.remHold r).remStat r true else s1

/-- REMOTE_FEED_TIMEOUT (R182): no feed for dly frames. -/
def remoteFeedTimeout (r : Nat) (s : State) : State :=
  if s.on PHE_RGRP_en [r] && s.g PHE_RGRP_src [r] = 3 && !s.on PHE_RSTAT_stale [r]
      && (s.grp (8 + r)).age.all (s.g PHE_RGRP_dly [r] ≤ ·) then (s.remHold r).remStat r true
  else s

/-- PHE_RGRP[r] has been written over `old`: the count of frames without a feed starts when the host becomes the source of an
enabled group (R681). -/
def State.rgrpWritten (s : State) (r : Nat) (old w : Word) : State :=
  let host (x : Word) : Bool := x.msb && bits x 29 28 = 3
  if host w && !host old then s.putGrp (8 + r) { s.grp (8 + r) with age := some 0 } else s

/-- A remote group is enabled and has a source (R183). -/
def remUsed (w : Word) : Bool := w.msb && bits w 29 28 ≠ 0

/-- Whether group g is, by the configuration in force, a remote group fed over the cascade (R182, R268). -/
def State.cascCfg (s : State) (g : Nat) : Bool :=
  let w := nth (s.grp g).cfg 0 0
  decide (8 ≤ g) && w.msb && bits w 29 28 = 2

/-- Whether the entries of group g come in this frame in another member's publication (R182). -/
def State.cascGroup (s : State) (g : Nat) : Bool :=
  s.cascCfg g && s.awaits && bits (nth (s.grp g).cfg 0 0) 20 18 ≠ s.position

/-- Whether a publication that the table of this frame needs has not yet been used. -/
def State.tableWaits (s : State) : Bool := (List.range 8).any fun r => s.cascGroup (8 + r) && !(s.grp (8 + r)).pub

/-- PHE_SEQ names the present frame once its table is complete (R191). -/
def State.tableDone (s : State) : State := if s.tableWaits then s else s.p PHE_SEQ_seq [] s.dch.frame.seq

/-- The table of the last frame in which it is complete: its entries and the sequence of the frame (R371, R495). -/
def State.wholeTable (s : State) : List Word × List Byte × Nat :=
  if s.tableWaits then (s.view.qv, s.view.qq, s.view.seq) else (s.phe.qv, s.phe.qq, s.dch.frame.seq)

/-- A remote group takes a changed configuration, and updates in this frame; one that comes into use without its source
enters STALE anew (log 99); a cascade group of another member waits for its publication. A change of any bit of PHE_RGRP restarts
every window (log 177, DEDUCED). -/
def State.remoteGroup (s : State) (r : Nat) : State :=
  let x := s.grp (8 + r)
  let new := s.grpCfg (8 + r)
  let s0 := if x.cfg = new then s
    else
      let o := nth x.cfg 0 0
      let w := nth new 0 0
      let m := if differs o w 0xFFFFFFFF then freshMarks s.phe.n
        else x.marks.change s.phe.n (nth x.cfg 1 0) (nth new 1 0)
      let s1 := s.putGrp (8 + r) { x with cfg := new, marks := m, cross := if m.zc = s.phe.n then [] else x.cross, xs := if differs o w 0xFFFFFFFF then List.replicate 8 [] else x.xs }
      if remUsed w && !remUsed o then s1.p PHE_RSTAT_stale [r] 0 else s1
  let src := s0.g PHE_RGRP_src [r]
  if !s0.on PHE_RGRP_en [r] || src = 0 then
    (s0.putQ (768 + 32 * r) (List.replicate 32 ((0 : Word), Q_STALE))).remStat r true
  else if src = 1 then s0.remSv r
  else if src = 3 then s0.remHost r
  else if s0.on GEN_STATE_stacked && s0.g PHE_RGRP_member [r] = s0.position then
    s0.remCascade r (s0.pubEntries (s0.g PHE_RGRP_grp [r]))
  else if s0.awaits then s0.putGrp (8 + r) { s0.grp (8 + r) with pub := false }
  else (s0.remHold r).remStat r true

/-- The feeds used by this frame complete DONE with its sequence (R184). -/
def State.feedsDone (s : State) : State :=
  let l := s.phe.feeds
  { s with phe := { s.phe with feeds := [] } }.each l fun s (_, d, _) =>
    s.completeWith ((compOf d 0x0501 ST_DONE).seq s.dch.frame.seq)

/-- PHASOR_UPDATE: the engine updates every entry from the frame (R185). -/
def State.phasorUpdate (s : State) : State :=
  let f := s.dch.frame
  let s1 := { s with phe := { s.phe with
    words := (f.words :: s.phe.words).take 168
    times := (f.ts :: s.phe.times).take 440 } }
  let s2 := (s1.each (List.range 8) State.localGroup).each (List.range 8) State.remoteGroup
  let s3 := s2.feedsDone
  let est (g : Nat) : Option Rat :=
    if s3.qq (96 * g + 48) &&& 0x93 = 0 then some (r32 (s3.qv (96 * g + 48))) else none
  { s3 with
    phe := { s3.phe with n := s3.phe.n + 1 }
    dch := { s3.dch with fEst := ((List.range 8).map est :: s3.dch.fEst).take 8 } }.tableDone

/-- The engine stops (NIGHT): entries keep their values with STALE (R189), the reserved ones a quality byte of 0 (R187). A remote
group that carries STALE so sets no rstale (log 179, DEDUCED). -/
def State.pheStop (s : State) : State :=
  { s with phe := { s.phe with qq := s.phe.qq.mapIdx fun i q => if reservedEntry i then q else q ||| 0x80 } }

/-! ### Commands -/

/-- PHE_RFEED (R184). -/
def pheRfeed (d : Desc) (buf : List Byte) (s : State) : State :=
  let r := d.rf.toNat % 8
  if s.inSt [DAWN, NIGHT] || !s.on PHE_RGRP_en [r] || s.g PHE_RGRP_src [r] ≠ 3 then s.complete d 0x0501 ST_NOT_NOW
  else
    let s1 := s.clampDesc d 4 (b2n (d.len.toNat ≠ 160))
    { s1 with phe := { s1.phe with feeds := s1.phe.feeds ++ [(r, d, buf)] } }

/-- A write of PHE_HFREQ[g] restarts its timer (R176). -/
def State.pheHfreqWritten (s : State) (g : Nat) : State :=
  s.putGrp g { s.grp g with hostCyc := s.mer.cyc, hostDone := false }

/-- PHE_HOST_TIMEOUT of group g (R176). -/
def pheHostTimeout (g : Nat) (s : State) : State :=
  let x := s.grp g
  if s.on PHE_GCFG_fsrc [g] && !x.hostDone && s.g PHE_GFCFG_hto [g] * oneMs ≤ s.since x.hostCyc then
    (s.putGrp g { x with hostDone := true }).flag PHE 10
  else s

end Sys2Proof.Machine
end

