-- ==== Sys2Proof/Machine/ElemTable.lean ====
section
/-! DEFINITION. The settings of every element type: range, step and default, and the clamps of settings and selectors (R204, R214, R215, R221, R254, and the settings tables of both chapters). -/

namespace Sys2Proof.Machine

/-- What a setting may hold. -/
inductive SetDef where
  /-- reads 0.0; writes are ignored -/
  | reserved
  /-- lo to hi in steps, 0 for none -/
  | num (lo hi step dflt : Rat)
  /-- an integer code from lo to hi -/
  | code (lo hi dflt : Int)
deriving DecidableEq, Repr

abbrev T_NONE : Nat := 0
abbrev T_PIOC : Nat := 1
abbrev T_PTOC : Nat := 2
abbrev T_RDIR : Nat := 3
abbrev T_PHAR : Nat := 4
abbrev T_RBRF : Nat := 5
abbrev T_PTOV : Nat := 6
abbrev T_PTUV : Nat := 7
abbrev T_PTOF : Nat := 8
abbrev T_PTUF : Nat := 9
abbrev T_PFRC : Nat := 10
abbrev T_PSDE : Nat := 11
abbrev T_PDIS : Nat := 12
abbrev T_PTTR : Nat := 13
abbrev T_RSYN : Nat := 14
abbrev T_PDIF : Nat := 15

/-- 0.001 to 1 000 000 without a step. -/
def ratio (d : Rat) : SetDef := .num (1 / 1000) 1000000 0 d
/-- 0 to hi in steps of 1 ms. -/
def timer (hi d : Rat) : SetDef := .num 0 hi (1 / 1000) d
/-- lo to hi in steps of 0.01. -/
def cents (lo hi d : Rat) : SetDef := .num (lo / 100) (hi / 100) (1 / 100) (d / 100)

/-- Settings 4 to 15 of a type; what is missing is reserved. For PDIF the role gives the table. -/
def typeSettings (typ role : Nat) : List SetDef :=
  match typ with
  | 1 => [ratio 1000, .num 1 8 1 2, .num (5 / 1000) (1 / 10) (1 / 1000) (25 / 1000), cents 50 99 90]
  | 2 => [ratio 400, .code 0 15 1, cents 1 1500 100, timer 300 (1 / 10), timer 10 0, .num 2 40 (1 / 10) 20, .code 0 3 0,
      timer 300 0, cents 90 99 95]
  | 3 => [.num (-180) 180 (1 / 10) (-60), .num 30 90 1 85, ratio 10, ratio 500, timer 2 (1 / 2), .code 0 1 0]
  | 4 => [cents 5 50 15, cents 0 50 0, ratio 10, .code 0 1 1, timer 1 0]
  | 5 => [ratio 50, .num 0 1000000 0 0, timer 10 (15 / 100), .code (-1) 31 (-1), .code 0 1 1]
  | 6 => [ratio 12000, .code 0 1 0, cents 1 1500 100, timer 300 1, cents 90 99 98, .num 1 3 1 1, .code 0 1 0, timer 300 0]
  | 7 => [ratio 8000, .code 0 1 0, cents 1 1500 100, timer 300 1, cents 101 110 102, .num 1 3 1 1, .code 0 1 0,
      timer 300 0, .num 0 1000000 0 0, .code (-1) 31 (-1)]
  | 8 => [.num 10 70 (1 / 1000) (515 / 10), .num (5 / 1000) (1 / 2) (1 / 1000) (20 / 1000), timer 300 (1 / 5), ratio 4000]
  | 9 => [.num 10 70 (1 / 1000) (475 / 10), .num (5 / 1000) (1 / 2) (1 / 1000) (20 / 1000), timer 300 (1 / 5), ratio 4000]
  | 10 => [cents 5 1000 100, .code 0 2 2, cents 50 99 90, timer 60 (1 / 2), ratio 4000]
  | 11 => [.code 0 2 0, ratio 1000, ratio (1 / 2), ratio 1, .num (1 / 1000) 1000 0 (1 / 10), .num 0 1000 0 0, .code 0 1 0,
      timer 300 1, timer 10 (3 / 10)]
  | 12 => [.code 0 1 0, cents 1 50000 1000, cents 1 50000 1000, .num 30 (899 / 10) (1 / 10) 70, .num (-30) 30 (1 / 10) 0,
      .code 0 2 0, timer 10 0, .code 0 2 0, ratio 50, ratio 50, cents 0 100000 0, .num 5 60 (1 / 10) 30]
  | 13 => [ratio 400, cents 100 150 105, .num 10 36000 1 1800, .num 10 108000 1 5400, cents 50 200 100, cents 50 200 90,
      cents 10 199 80, cents 0 200 0]
  | 14 => [.code 0 5 0, ratio 8000, ratio 2000, ratio 1000, cents 1 100 10, .num 1 60 (1 / 10) 20, .num (1 / 10) 10 0 1,
      .num (-180) 180 (1 / 10) 0, timer 60 (1 / 10), .code 0 4 0, timer 60 (1 / 2)]
  | 15 =>
    if role = 1 then [.code 0 2 1, .code 0 255 0, .code 0 255 0, .reserved] ++ List.replicate 8 (ratio 1)
    else [.code 0 2 0, ratio 100, cents 10 100 30, ratio 2000, cents 10 200 80, ratio 10000, timer 1 0]
      ++ (if role = 0 then [.code 0 3 0, .code (-1) 3 (-1), .code 0 2 2, .num (1 / 1000) (20 / 1000) (1 / 1000) (10 / 1000)]
        else [.code 1 255 255, .code 0 255 0, .code (-1) 255 (-1)])
  | _ => []

/-- Setting k of a type (R214): 0 to 3 are common. -/
def settingDef (typ role k : Nat) : SetDef :=
  if k = 0 || k = 1 then ratio 1
  else if k = 2 then cents (-1000) 1000 0
  else if k = 3 then timer 10 (1 / 10)
  else nth (typeSettings typ role) (k - 4) .reserved

/-- The default word of a setting. -/
def SetDef.dflt : SetDef → Word
  | .reserved => 0
  | .num _ _ _ d => w32 d
  | .code _ _ d => w32 (d : Rat)

/-- Limits a value. -/
def limR (lo hi x : Rat) : Rat := if x < lo then lo else if hi < x then hi else x

/-- The nearest integer, a value half-way taking the lower one (R33, R204). -/
def nearLow (x : Rat) : Int := let f := x.floor; if x - (f : Rat) ≤ 1 / 2 then f else f + 1

/-- The value of a written word, an infinity standing for a number beyond every range. -/
def anyVal (w : Word) : Rat := match fpVal f32 w.toNat with
  | some v => v
  | none => if fmtNeg f32 w.toNat then -(2 ^ 129) else 2 ^ 129

/-- The legal word nearest to a written word (R204). -/
def SetDef.clamp (d : SetDef) (w : Word) : Word :=
  match d with
  | .reserved => 0
  | .num lo hi st df =>
    if isNaN32 w then w32 df
    else
      let v := limR lo hi (anyVal w)
      let r := if st = 0 then v else limR lo hi ((roundAway (v / st) : Rat) * st)
      if w32 r = w || (v = anyVal w && r = v) then w else w32 r
  | .code lo hi df =>
    if isNaN32 w then w32 (df : Rat)
    else
      let v := satI lo hi (nearLow (limR (-1000) 1000 (anyVal w)))
      if anyVal w = (v : Rat) then w else w32 (v : Rat)

/-- The definition of setting k where it depends on other settings of the slot (R34): `l` holds the stored words. -/
def settingNow (typ k : Nat) (l : List Word) : SetDef :=
  let v (i : Nat) : Rat := r32 (nth l i 0)
  let role := (nearLow (v 4)).toNat
  let base := settingDef typ role k
  if typ = T_PDIS && k = 6 && v 4 = 1 then .num 0 (v 5) (1 / 100) 10
  else if typ = T_PTTR && k = 9 then .num (1 / 2) (v 8) (1 / 100) (90 / 100)
  else if typ = T_PTTR && k = 10 then .num (1 / 10) (v 8 - 1 / 100) (1 / 100) (80 / 100)
  else if typ = T_RSYN && k = 6 then .num (1 / 1000) (v 5) 0 2000
  else if typ = T_PDIF && role ≠ 1 && k = 8 then .num (v 6) 2 (1 / 100) (80 / 100)
  else if typ = T_PDIF && role ≠ 1 && k = 9 then .num (v 5) 1000000 0 10000
  else base

/-- The stored word of setting k after a write (R204, R221): PHAR h5r, PTOC reset and PDIF port2 have rules of their own. -/
def settingClamp (typ k : Nat) (l : List Word) (w : Word) : Word :=
  let c := (settingNow typ k l).clamp w
  let x := r32 c
  if typ = T_PHAR && k = 5 && !isNaN32 w && 0 < anyVal w && anyVal w < 1 / 10 then
    (if anyVal w ≤ r32 (w32 (5 / 100)) then 0 else w32 (1 / 10))
  else if typ = T_PTOC && k = 10 && x = 2 && !(decide (5 ≤ r32 (nth l 5 0)) && decide (r32 (nth l 5 0) ≤ 7)) then w32 1
  else if typ = T_PDIF && k = 12 && r32 (nth l 4 0) = 0 && x = r32 (nth l 11 0) then w32 (-1)
  else c

/-- The settings that depend on setting k of a type. -/
def settingDeps (typ k : Nat) : List Nat :=
  if typ = T_PDIS then (if k = 4 || k = 5 then [6] else [])
  else if typ = T_PTTR then (if k = 8 then [9, 10] else [])
  else if typ = T_RSYN then (if k = 5 then [6] else [])
  else if typ = T_PTOC then (if k = 5 then [10] else [])
  else if typ = T_PDIF then
    (if k = 4 then [5, 6, 7, 8, 9, 10, 11, 12, 13, 14, 15] else if k = 6 then [8] else if k = 5 then [9] else if k = 11 then [12] else [])
  else []

/-- The role that the stored settings of a slot give, and whether setting k is reserved under them (R204). -/
def roleOf (l : List Word) : Nat := (nearLow (r32 (nth l 4 0))).toNat
def settingReserved (typ : Nat) (l : List Word) (k : Nat) : Bool := settingDef typ (roleOf l) k = .reserved

/-- Writes of the settings from index `first` on with some words: the stored words after it, and the settings that a clamp
has changed. In ascending order, which R34 asks for, each written setting is clamped by what stands before it, and each that
depends on a written one is clamped again (R35, R206, R221, R254). A write of a reserved setting is ignored (R204). -/
def settingWrite (typ first : Nat) (l : List Word) (ws : List Word) : List Word × List Nat :=
  let written (k : Nat) : Bool := decide (first ≤ k) && decide (k < first + ws.length)
  (List.range 16).foldl (fun (l, n) k =>
    if written k then
      if settingReserved typ l k then (l, n)
      else
        let w := nth ws (k - first) 0
        let c := settingClamp typ k l w
        (l.set k c, if c = w then n else n ++ [k])
    else if (List.range 16).any fun j => written j && (settingDeps typ j).contains k then
      let o := nth l k 0
      let x := settingClamp typ k l o
      (l.set k x, if x = o then n else n ++ [k])
    else (l, n)) (l, [])

/-- The default settings of a type. -/
def typeDefaults (typ : Nat) : List Word := (List.range 16).map fun k => (settingDef typ 0 k).dflt

/-- The highest operand selector of a type (R215, R232). -/
def topOpnd (typ : Nat) : Nat := nth [15, 1, 5, 3, 1, 1, 6, 6, 0, 0, 0, 0, 0, 1, 0, 0] typ 15

/-- A group as the type allows it. -/
def clampGrp (typ grp : Nat) : Nat :=
  if (typ = T_PIOC || typ = T_PHAR || typ = T_RBRF || typ = T_PDIS) && 7 < grp then 7 else grp

/-- A selector as the type and the group allow it. -/
def clampOpnd (typ grp opnd : Nat) : Nat :=
  let o := min opnd (topOpnd typ)
  if 7 < grp && ((typ = T_PTOC && o = 4) || ((typ = T_PTOV || typ = T_PTUV) && o = 6) || (typ = T_PTTR && o = 1)) then 0 else o

end Sys2Proof.Machine
end

