-- ==== Sys2Proof/Machine/ElemTypes.lean ====
section
/-! DEFINITION. What each element type computes from its operands in one frame (R216 to R228, R233 to R263). -/

namespace Sys2Proof.Machine

/-! ### Operand values and comparisons -/

/-- The value of an operand; none for NaN, an infinity as a number beyond every range. -/
def opVal (w : Word) : Option Rat := if isNaN32 w then none else some (anyVal w)

/-- a ≥ b, a > b, a ≤ b, a < b: false when a is NaN (R202). -/
def geO (a : Option Rat) (b : Rat) : Bool := a.any fun x => decide (b ≤ x)
def gtO (a : Option Rat) (b : Rat) : Bool := a.any fun x => decide (b < x)
def leO (a : Option Rat) (b : Rat) : Bool := a.any fun x => decide (x ≤ b)
def ltO (a : Option Rat) (b : Rat) : Bool := a.any fun x => decide (x < b)

/-- One operand of a slot: quantity index, or 16#8000 + pipeline, its word and quality byte. -/
structure Opnd where
  idx : Nat
  val : Word
  q : Nat
deriving DecidableEq, Repr

/-- What a slot is evaluated on. -/
structure ElIn where
  set : List Word
  /-- operands by the entry number in the layout of a local group -/
  ent : List (Nat × Word)
  opnd : Nat
  dt : Rat
  ts : Time
  /-- the slot is valid in the frame (R201) -/
  valid : Bool
  rate : Nat
  /-- the group frequency -/
  f : Word
  /-- phase bits that the links withhold (R222, R223, R233) -/
  wh : Nat
  /-- RBRF: initiation, the cbdi input, the last N/2 samples by input -/
  ini : Bool
  di : Bool
  smp : List (List Rat)
  /-- PDIS: settings 12 to 15 of the head, and its loop selection if it is to be read -/
  head : List Word
  headSel : Option Nat
  /-- PDIF CENTRAL: operate of slot cslot -/
  check : Bool
  old : ElOut
deriving DecidableEq, Repr

def ElIn.v (e : ElIn) (k : Nat) : Rat := r32 (nth e.set k 0)
/-- A coded setting. -/
def ElIn.code (e : ElIn) (k : Nat) : Int := nearLow (e.v k)
/-- The value of an entry. -/
def ElIn.at_ (e : ElIn) (i : Nat) : Option Rat := match e.ent.find? (·.1 = i) with
  | some x => opVal x.2
  | none => none
/-- The complex value of two entries. -/
def ElIn.cx (e : ElIn) (i : Nat) : Option Cx := match e.at_ i, e.at_ (i + 1) with
  | some a, some b => some (a, b)
  | _, _ => none
def absO (x : Option Cx) : Option Rat := x.map cabs
def subO (x y : Option Cx) : Option Cx := match x, y with
  | some a, some b => some (csub a b)
  | _, _ => none
def mulO (k : Rat) (x : Option Rat) : Option Rat := x.map (k * ·)
def cscaleO (k : Rat) (x : Option Cx) : Option Cx := x.map (cscale k)

/-- Degrees of an angle in radians, and the difference of two angles in (−180°, 180°]. -/
def degOf (x : Rat) : Rat := x * 180 / piQ
def radOf (x : Rat) : Rat := x * piQ / 180
def argDeg (x : Cx) : Rat := degOf (atan2Q x.2 x.1)
def wrapDeg (x : Rat) : Rat :=
  let y := x - ((x / 360 + 1 / 2).floor : Rat) * 360
  if y = -180 then 180 else y

/-- A level in steps of 2^−64. -/
def q64 (x : Rat) : Rat := (roundAway (x * (2 ^ 64 : Nat)) : Rat) / ((2 ^ 64 : Nat) : Rat)

def noOut : ElOut := ⟨false, false, false, false, 0, 0, 0⟩
def emptyLine : LineMem := ⟨[], none, none, [], 0, true, false, false⟩
def emptyMem : ElMem := ⟨0, 0, 0, false, 0, [], [], [], [], [], emptyLine, 0⟩

/-- The result of an evaluation: outputs without the quality byte, the state, and ELE_ACC. -/
abbrev ElRes := ElOut × ElMem × Rat

/-! ### PTOC (R217 to R223) -/

/-- The operand magnitudes of a current selector, with their phase bits. -/
def ElIn.curMags (e : ElIn) : List (Nat × Option Rat) := match e.opnd with
  | 0 => [(0, absO (e.cx 0)), (1, absO (e.cx 2)), (2, absO (e.cx 4))]
  | 1 => [(3, absO (e.cx 6))]
  | 2 => [(3, mulO 3 (absO (e.cx 36)))]
  | 3 => [(3, absO (e.cx 40))]
  | 4 => [(0, e.at_ 16), (1, e.at_ 17), (2, e.at_ 18)]
  | _ => [(3, if (e.at_ 2001).isSome || (e.ent.any (·.1 = 2001)) then absO (e.cx 2000) else (e.at_ 2000).map fun x => if x < 0 then -x else x)]

/-- User curve: log-log interpolation of its 64 times (R220). -/
def userCurve (t : List Word) (m : Rat) : Rat :=
  let x := lnQ (m / (11 / 10)) / lnQ (400 / 11) * 63
  let ti (i : Nat) : Rat := r32 (nth t i 0)
  if x ≤ 0 then ti 0
  else if 63 ≤ x then ti 63
  else
    let i := x.floor.toNat
    let f := x - (i : Rat)
    expQ ((1 - f) * lnQ (ti i) + f * lnQ (ti (i + 1)))

/-- t_op(M) (R219). `user` holds the table of the user curve. -/
def curveOp (code : Int) (tms tdt : Rat) (user : List Word) (m : Rat) : Rat := match code with
  | 0 => tdt
  | 1 => tms * (14 / 100) / (powQ m (2 / 100) - 1)
  | 2 => tms * (135 / 10) / (m - 1)
  | 3 => tms * 80 / (m * m - 1)
  | 4 => tms * 120 / (m - 1)
  | 5 => tms * ((515 / 10000) / (powQ m (2 / 100) - 1) + 114 / 1000)
  | 6 => tms * ((1961 / 100) / (m * m - 1) + 491 / 1000)
  | 7 => tms * ((282 / 10) / (m * m - 1) + 1217 / 10000)
  | _ => tms * userCurve user m

/-- t_rs(M) (R219). -/
def curveRs (code : Int) (tms m : Rat) : Rat :=
  let k : Rat := if code = 5 then 485 / 100 else if code = 6 then 216 / 10 else 291 / 10
  tms * k / (1 - m * m)

/-- The start bits with pickup at 1 and dropout at dr, withheld bits being 0. -/
def startBits (l : List (Nat × Option Rat)) (old wh : Nat) (dr : Rat) : Nat :=
  maskSum ((l.filter fun (b, m) => !bitAt wh b && (gtO m 1 || (bitAt old b && geO m dr))).map (·.1))

/-- The largest of some values. -/
def maxO (l : List (Option Rat)) : Rat := (l.filterMap id).foldl (fun a x => if a < x then x else a) 0

def evalPtoc (e : ElIn) (m : ElMem) (user : List Word) : ElRes :=
  let rs := e.curMags.map fun (b, x) => (b, mulO (e.v 0 / e.v 4) x)
  let ps := startBits rs m.ps e.wh (e.v 12)
  let M := maxO ((rs.filter fun r => !bitAt e.wh r.1).map (·.2))
  let start := ps ≠ 0
  let curve := e.code 5
  if start then
    let tst := m.tst + e.dt
    let top := curveOp curve (e.v 6) (e.v 7) user (if e.v 9 < M then e.v 9 else M)
    let g := if 1 < M then (if top ≤ 0 then 1 else let g := q64 (m.g + e.dt / top); if 1 < g then 1 else g) else m.g
    let op := decide (1 ≤ g) && decide (e.v 8 ≤ tst)
    (⟨true, op, false, false, ps, if op then ps else 0, 0⟩, { m with ps := ps, g := g, tst := tst, trr := 0 }, g)
  else
    let dec (t : Rat) : Rat := let g := q64 (m.g - e.dt / t); if g < 0 then 0 else g
    let (g, trr) := match e.code 10 with
      | 0 => ((0 : Rat), m.trr)
      | 1 => let t := m.trr + e.dt; (if e.v 11 ≤ t then 0 else m.g, t)
      | 2 => (dec (curveRs curve (e.v 6) M), m.trr)
      | _ => (if 0 < e.v 11 then dec (e.v 11) else 0, m.trr)
    (noOut, { m with ps := 0, g := g, tst := 0, trr := trr }, g)

/-! ### RDIR (R224 to R226) -/

/-- The operating currents and polarising voltages of the selector. -/
def ElIn.dirPairs (e : ElIn) : List (Option Cx × Option Cx) := match e.opnd with
  | 0 => [(e.cx 0, subO (e.cx 10) (e.cx 12)), (e.cx 2, subO (e.cx 12) (e.cx 8)), (e.cx 4, subO (e.cx 8) (e.cx 10))]
  | 1 => [(e.cx 38, e.cx 44)]
  | 2 => [(cscaleO 3 (e.cx 36), cscaleO (-3) (e.cx 42))]
  | _ => [(e.cx 40, cscaleO (-1) (e.cx 46))]

/-- The polarisation of a current: the voltage, or the stored one rotated (R225); with what is stored, in a valid frame, and
its age. -/
def ElIn.polarise (e : ElIn) (v : Option Cx) (st : Option (Rat × Rat × Word × Time)) :
    Option Cx × Option (Rat × Rat × Word × Time) × Rat :=
  if geO (mulO (e.v 1) (absO v)) (e.v 7) then
    (v, if 1 < e.opnd then none else if e.valid then v.map fun x => (x.1, x.2, e.f, e.ts) else st, 0)
  else if e.opnd ≤ 1 then match st with
    | some (a, b, f, t) =>
      let age := secs e.ts t
      if age < e.v 8 then (some (cmul (a, b) (cexp (2 * piQ * r32 f * age))), st, age) else (none, st, 0)
    | none => (none, none, 0)
  else (none, none, 0)

def evalRdir (e : ElIn) (m : ElMem) : ElRes :=
  let l := e.dirPairs.zipIdx.map fun ((i, v), j) =>
    let (p, st, age) := e.polarise v (nth m.mem j none)
    let dec : Bool × Bool := match i, p with
      | some i, some p =>
        if e.v 6 ≤ e.v 0 * cabs i then
          let th := argDeg i + e.v 2 - argDeg p
          let fw := let d := wrapDeg (th - e.v 4); decide ((if d < 0 then -d else d) ≤ e.v 5)
          let rv := let d := wrapDeg (th - e.v 4 - 180); decide ((if d < 0 then -d else d) ≤ e.v 5)
          (fw, rv && !fw)
        else (false, false)
      | _, _ => (false, false)
    (dec, st, age)
  let x1 := l.any (·.1.1)
  let x2 := l.any (·.1.2)
  let bitsF (f : (Bool × Bool) → Bool) : Nat :=
    if e.opnd = 0 then maskSum ((l.zipIdx.filter fun x => f x.1.1).map (·.2)) else 0
  (⟨x1 || x2, if e.code 9 = 0 then x1 else x2, x1, x2, bitsF (·.1), bitsF (·.2), 0⟩,
    { m with mem := l.map (·.2.1) }, maxO (l.map fun x => some x.2.2))

/-! ### PHAR (R227) -/

def evalPhar (e : ElIn) (m : ElMem) : ElRes :=
  let ins : List (Nat × Nat × Nat × Nat) :=
    if e.opnd = 0 then [(0, 0, 24, 26), (1, 2, 27, 29), (2, 4, 30, 32)] else [(3, 6, 33, 35)]
  let l := ins.zipIdx.map fun ((b, ph, h2, h5), j) =>
    let i := absO (e.cx ph)
    let r (h : Nat) : Option Rat := match e.at_ h, i with
      | some x, some y => if y = 0 then none else some (x / y)
      | _, _ => none
    let c := geO (mulO (e.v 0) i) (e.v 6) && (geO (r h2) (e.v 4) || (decide (0 < e.v 5) && geO (r h5) (e.v 5)))
    let t := if c then some (0 : Rat) else (nth m.hold j none).map (· + e.dt)
    (b, c, t, c || t.any fun x => decide (x < e.v 8))
  let ps := maskSum ((l.filter (·.2.1)).map (·.1))
  let po := if e.code 7 = 1 && l.any (·.2.2.2) then maskSum (l.map (·.1))
    else maskSum ((l.filter (·.2.2.2)).map (·.1))
  (⟨ps ≠ 0, po ≠ 0, false, false, ps, po, 0⟩,
    { m with hold := l.map fun x => if x.2.2.2 then x.2.2.1 else none },
    maxO (l.map fun x => if x.2.2.2 then x.2.2.1 else none))

/-! ### RBRF (R228) -/

def evalRbrf (e : ElIn) (m : ElMem) : ElRes :=
  let big (l : List Rat) : Rat := maxO (l.map fun x => some (if x < 0 then -(e.v 0 * x) else e.v 0 * x))
  let pres := (List.range e.smp.length).filter fun j =>
    let thr := if j = 3 then e.v 5 else e.v 4
    (j ≠ 3 || 0 < e.v 5) && decide (2 * thr * thr ≤ big (nth e.smp j []) * big (nth e.smp j []))
  let present := !pres.isEmpty || e.di
  let lat := e.code 8 = 1 && present && (e.ini || m.lat)
  let ini := e.ini || lat
  let start := ini && present
  let t := if start then m.tst + e.dt else 0
  (⟨start, start && decide (e.v 6 ≤ t), ini, false, maskSum pres, 0, 0⟩, { m with lat := lat, tst := t }, t)

/-! ### PTOV and PTUV (R235, R236) -/

def ElIn.volMags (e : ElIn) : List (Nat × Option Rat) := match e.opnd with
  | 0 => [(0, absO (e.cx 8)), (1, absO (e.cx 10)), (2, absO (e.cx 12))]
  | 1 => [(0, absO (subO (e.cx 8) (e.cx 10))), (1, absO (subO (e.cx 10) (e.cx 12))), (2, absO (subO (e.cx 12) (e.cx 8)))]
  | 2 => [(3, absO (e.cx 44))]
  | 3 => [(3, absO (e.cx 46))]
  | 4 => [(3, mulO 3 (absO (e.cx 42)))]
  | 5 => [(3, absO (e.cx 14))]
  | _ => [(0, e.at_ 20), (1, e.at_ 21), (2, e.at_ 22)]

/-- Values in falling order. -/
def sortDown (l : List Rat) : List Rat :=
  l.foldl (fun acc x => (acc.filter fun y => decide (x ≤ y)) ++ [x] ++ (acc.filter fun y => decide (y < x))) []

def evalVolt (ovr : Bool) (e : ElIn) (m : ElMem) : ElRes :=
  let rs := e.volMags.map fun (b, x) => (b, mulO (e.v 1 / e.v 4) x, mulO (e.v 1) x)
  let ps := maskSum ((rs.filter fun (b, r, u) =>
    !bitAt e.wh b && (if ovr then gtO r 1 || (bitAt m.ps b && geO r (e.v 8))
      else !e.di && !ltO u (e.v 12) && (ltO r 1 || (bitAt m.ps b && leO r (e.v 8))))).map (·.1))
  let multi := e.opnd = 0 || e.opnd = 1 || e.opnd = 6
  let nph := if multi then (e.code 9).toNat else 1
  let on := rs.filter fun r => bitAt ps r.1
  let start := nph ≤ on.length
  let vals := sortDown (on.filterMap (·.2.1))
  let M := if ovr then nth vals (nph - 1) 1 else nth vals.reverse (nph - 1) 1
  let ex := if ovr then M - 1 else 1 - M
  if start then
    let top := if e.code 5 = 0 then e.v 7 else e.v 6 / ex
    let g := if 0 < ex then (if top ≤ 0 then 1 else let g := q64 (m.g + e.dt / top); if 1 < g then 1 else g) else m.g
    let op := decide (1 ≤ g)
    (⟨true, op, false, false, ps, if op then ps else 0, 0⟩, { m with ps := ps, g := g, trr := 0 }, g)
  else
    let trr := m.trr + e.dt
    let g := if e.code 10 = 0 then 0 else if e.v 11 ≤ trr then 0 else m.g
    (⟨false, false, false, false, ps, 0, 0⟩, { m with ps := ps, g := g, trr := if e.code 10 = 0 then m.trr else trr }, g)

/-! ### PTOF, PTUF and PFRC (R237, R238) -/

/-- A start with a timer to operate, on phase bit n. -/
def timed (start : Bool) (td : Rat) (e : ElIn) (m : ElMem) : ElRes :=
  let t := if start then m.tst + e.dt else 0
  let op := start && decide (td ≤ t)
  (⟨start, op, false, false, if start then 8 else 0, if op then 8 else 0, 0⟩, { m with tst := t, ps := if start then 8 else 0 }, t)

def evalFreq (ovr : Bool) (e : ElIn) (m : ElMem) : ElRes :=
  let f := e.at_ 48
  let start := !bitAt e.wh 3 && (if ovr then geO f (e.v 4) || (m.ps ≠ 0 && gtO f (e.v 4 - e.v 5))
    else leO f (e.v 4) || (m.ps ≠ 0 && ltO f (e.v 4 + e.v 5)))
  timed start (e.v 6) e m

def evalPfrc (e : ElIn) (m : ElMem) : ElRes :=
  let r := (e.at_ 49).map fun x => if e.code 5 = 0 then x else if e.code 5 = 1 then -x else if x < 0 then -x else x
  let start := !bitAt e.wh 3 && (geO r (e.v 4) || (m.ps ≠ 0 && geO r (e.v 6 * e.v 4)))
  timed start (e.v 7) e m

/-! ### PSDE (R239, R240) -/

def evalPsde (e : ElIn) (m : ElMem) : ElRes :=
  let dec : Bool × Bool := match e.cx 36, e.cx 42 with
    | some i0, some v0 =>
      let i := cmul (cscale (3 * e.v 0) i0) (cexp (radOf (e.v 2)))
      let v := cscale (3 * e.v 1) v0
      if e.v 5 ≤ cabs v && e.v 6 ≤ cabs i then
        let p := cmul i (cconj (cscale (-1) v))
        let both (x : Rat) (thr : Rat) : Bool × Bool := (decide (thr ≤ x), decide (x ≤ -thr))
        match e.code 4 with
        | 0 => both (p.1 / cabs v) (e.v 7)
        | 1 => both (p.2 / cabs v) (e.v 7)
        | _ =>
          let y := cscale 1000 (cdiv i v)
          let bs := decide (0 < e.v 9)
          (decide (e.v 8 ≤ -y.1) || (bs && decide (e.v 9 ≤ -y.2)), decide (e.v 8 ≤ y.1) || (bs && decide (e.v 9 ≤ y.2)))
      else (false, false)
    | _, _ => (false, false)
  let x1 := dec.1
  let x2 := dec.2 && !dec.1
  let held := bitAt e.wh 3
  let start := !held && (if e.code 10 = 0 then x1 else x2)
  let (t, off) := if start then (m.tst + e.dt, (0 : Rat))
    else
      let off := m.trr + e.dt
      (if e.v 12 ≤ off then 0 else m.tst, off)
  let op := !held && (decide (e.v 11 ≤ t) && (start || (0 < m.tst && t = m.tst && m.lat)))
  (⟨start, op, x1, x2, if start then 8 else 0, if op then 8 else 0, 0⟩,
    { m with tst := t, trr := off, lat := decide (e.v 11 ≤ t) && (start || (m.lat && 0 < t)) }, t)

/-! ### PDIS (R241 to R247) -/

/-- Loop selection: faulted phases in bits 0 to 2, earth fault in bit 3 (R242). -/
def ElIn.loopSel (e : ElIn) : Nat :=
  let k := e.v 0
  let i (p : Nat) := mulO k (absO (e.cx (2 * p)))
  let imax := maxO [i 0, i 1, i 2]
  let imin := r32 (nth e.head 0 0)
  let i0 := mulO (3 * k) (absO (e.cx 36))
  let ef := geO i0 (r32 (nth e.head 1 0)) && geO i0 (imax / 10)
  maskSum (([0, 1, 2].filter fun p => geO (i p) imin) ++ (if ef then [3] else []))

/-- The loops an, bn, cn, ab, bc, ca: their phases and their entries. -/
def disLoops : List (List Nat × Nat) := [([0], 54), ([1], 56), ([2], 58), ([0, 1], 60), ([1, 2], 62), ([2, 0], 64)]

/-- Whether a loop impedance lies inside the characteristic (R244, R245). -/
def ElIn.inside (e : ElIn) (z : Cx) : Bool :=
  let dir := e.code 9
  let zp := if dir = 1 then cscale (-1) z else z
  let (r, x) := zp
  let phi := radOf (e.v 7)
  if e.code 4 = 0 then
    let a := x - r * tanQ (radOf (e.v 8))
    let b := r - x * (cosQ phi / sinQ phi)
    decide (a ≤ e.v 5) && decide (b ≤ e.v 6)
      && (if dir = 2 then decide (-(e.v 6) ≤ b) && decide (-(e.v 5) ≤ a)
        else let d := argDeg zp; decide (-15 ≤ d) && decide (d ≤ 115))
  else
    let zc := cscale ((e.v 5 - e.v 6) / 2) (cexp phi)
    let rho := (e.v 5 + e.v 6) / 2
    decide (cabs2 (csub zp zc) ≤ rho * rho)

/-- Whether a loop is load-blocked (R246). -/
def ElIn.loadBlocked (e : ElIn) (z : Cx) : Bool :=
  let rl := r32 (nth e.head 2 0)
  let ph := r32 (nth e.head 3 0)
  let ab (x : Rat) : Rat := if x < 0 then -x else x
  decide (0 < rl) && decide (rl ≤ ab z.1)
    && (decide (ab (wrapDeg (argDeg z)) ≤ ph) || decide (ab (wrapDeg (argDeg z - 180)) ≤ ph))

def evalPdis (e : ElIn) (m : ElMem) (sel : Nat) : ElRes :=
  let ef := bitAt sel 3
  let rot := cexp (-(radOf (e.v 2)))
  let l := disLoops.filterMap fun (ps, idx) =>
    let earth : Bool := decide (ps.length = 1)
    let rel := ps.all (bitAt sel) && (!earth || ef) && !(earth && e.code 11 = 2) && !(!earth && e.code 11 = 1)
    match e.cx idx with
    | some z =>
      let zz := cmul (cscale (e.v 1 / e.v 0) z) rot
      if rel && e.inside zz then some (ps, earth, e.loadBlocked zz) else none
    | none => none
  let x2 := l.any (·.2.2)
  let go := l.filter fun (ps, earth, lb) => !lb && !(ps.any (bitAt e.wh)) && !(earth && bitAt e.wh 3)
  let ps := maskSum (([0, 1, 2].filter fun p => go.any fun x => x.1.contains p) ++ (if go.any (·.2.1) then [3] else []))
  let start := !go.isEmpty
  let t := if start then m.tst + e.dt else 0
  let op := start && decide (e.v 10 ≤ t)
  (⟨start, op, ef, x2, ps, if op then ps else 0, 0⟩, { m with tst := t }, t)

/-! ### PTTR (R248 to R250) -/

def evalPttr (e : ElIn) (m : ElMem) : ElRes :=
  let l : List (Nat × Option Rat) :=
    (if e.opnd = 0 then [(0, absO (e.cx 0)), (1, absO (e.cx 2)), (2, absO (e.cx 4))]
      else [(0, e.at_ 16), (1, e.at_ 17), (2, e.at_ 18)]).map fun (b, x) => (b, mulO (e.v 0) x)
  let i := maxO (l.map (·.2))
  let kib := e.v 5 * e.v 4
  let eq := i / kib * (i / kib)
  let tau := if 5 / 100 * kib ≤ i then e.v 6 else e.v 7
  let th := if e.valid then q64 (eq + (m.g - eq) * expQ (-(e.dt / tau))) else m.g
  let all := e.wh % 8 = 7
  let ps := maskSum ((l.filter fun x => gtO x.2 kib && !bitAt e.wh x.1).map (·.1))
  let lat := if e.v 8 ≤ th then true else if th < e.v 10 then false else m.lat
  let op := lat && !all
  (⟨ps ≠ 0, op, decide (e.v 9 ≤ th), false, ps, if op then ps else 0, 0⟩, { m with g := th, lat := lat }, th)

/-! ### RSYN (R251 to R253) -/

def evalRsyn (e : ElIn) (m : ElMem) : ElRes :=
  let va := e.cx 8
  let vb := e.cx 10
  let vc := e.cx 12
  let vl := match e.code 4 with
    | 0 => va
    | 1 => vb
    | 2 => vc
    | 3 => subO va vb
    | 4 => subO vb vc
    | _ => subO vc va
  let vx := e.cx 14
  let u1 := mulO (e.v 1) (absO vl)
  let u2 := mulO (e.v 1 * e.v 10) (absO vx)
  let live (u : Option Rat) := geO u (e.v 5)
  let dead (u : Option Rat) := ltO u (e.v 6)
  let dphi : Option Rat := match vl, vx with
    | some a, some b => some (wrapDeg (argDeg b + e.v 11 - argDeg a))
    | _, _ => none
  let ab (x : Option Rat) : Option Rat := x.map fun x => if x < 0 then -x else x
  let du := match u1, u2 with
    | some a, some b => ab (some (a - b))
    | _, _ => none
  let df : Option Rat := match dphi, m.hist[rateN e.rate - 1]? with
    | some d, some (t, some d0) => if t = e.ts then none else some (wrapDeg (d - d0) / (360 * secs e.ts t))
    | _, _ => none
  let x1 := live u1 && live u2 && leO du (e.v 7) && leO (ab df) (e.v 8) && leO (ab dphi) (e.v 9)
  let x2 := match e.code 13 with
    | 0 => false
    | 1 => dead u1 && live u2
    | 2 => live u1 && dead u2
    | 3 => (dead u1 && live u2) || (live u1 && dead u2)
    | _ => dead u1 || dead u2
  let wh := bitAt e.wh 3
  let t1 := if x1 && !wh then m.tst + e.dt else 0
  let t2 := if x2 && !wh then m.trr + e.dt else 0
  let start := (x1 || x2) && !wh
  let op := !wh && ((x1 && decide (e.v 12 ≤ t1)) || (x2 && decide (e.v 14 ≤ t2)))
  (⟨start, op, x1, x2, 0, 0, 0⟩,
    { m with tst := t1, trr := t2, hist := ((e.ts, dphi) :: m.hist).take 129 },
    if t1 < t2 then t2 else t1)

/-! ### PDIF (R255 to R263) -/

/-- Id and Ibias of one phase, none where an operand is NaN. -/
abbrev Dif := Option (Rat × Rat)

/-- The phases in the operate region and the unrestrained phases, from Id and Ibias (R255). -/
def difPhases (e : ElIn) (l : List Dif) : List Nat × List Nat :=
  let inReg (x : Rat × Rat) : Bool := decide (e.v 5 ≤ x.1)
    && ((decide (x.2 ≤ e.v 7) && decide (e.v 6 * x.2 ≤ x.1))
      || (decide (e.v 7 < x.2) && decide (e.v 6 * e.v 7 + e.v 8 * (x.2 - e.v 7) ≤ x.1)))
  let un := (l.zipIdx.filter fun x => x.1.any (fun y => decide (e.v 9 ≤ y.1)) && !bitAt e.wh x.2).map (·.2)
  let rg := (l.zipIdx.filter fun x => x.1.any inReg && !bitAt e.wh x.2).map (·.2)
  (rg, un)

/-- The outputs of a differential evaluation; the timer advances by `step` (R256). -/
def difOut (e : ElIn) (m : ElMem) (l : List Dif) (step : Rat) (x2 : Bool) : ElRes :=
  let (rg, un) := difPhases e l
  let ps := maskSum ([0, 1, 2].filter fun p => rg.contains p || un.contains p)
  let start := ps ≠ 0
  let t := if start then m.tst + step else 0
  let rawUn := l.any fun x => x.any fun y => decide (e.v 9 ≤ y.1)
  let op := start && (!un.isEmpty || decide (e.v 10 ≤ t)) && e.check
  let big := maxO (l.map fun x => x.map (·.1))
  (⟨start, op, rawUn, x2, ps, if op then ps else 0, 0⟩, { m with tst := t, bigId := q64 big }, big)

/-- LINE in a frame without a new evaluation (R258): outputs and timer hold, but for the phases that a link withholds (R233). -/
def difHold (e : ElIn) (m : ElMem) (x2 : Bool) : ElRes :=
  let ps := maskSum ((bitsOf 3 e.old.ps).filter fun p => !bitAt e.wh p)
  let start := ps ≠ 0
  let op := start && e.old.oper
  (⟨start, op, e.old.x1, x2, ps, if op then ps else 0, 0⟩, { m with tst := if start then m.tst else 0 }, m.bigId)

/-- The phasor of phase p in a list of words, real part first; none where a part is NaN. -/
def phWord (l : List Word) (p : Nat) : Option Cx := match opVal (nth l (2 * p) 0), opVal (nth l (2 * p + 1) 0) with
  | some a, some b => some (a, b)
  | _, _ => none

/-- The sum of some values, none where one is. -/
def sumO (l : List (Option Rat)) : Option Rat :=
  l.foldl (fun acc x => match acc, x with
    | some a, some b => some (a + b)
    | _, _ => none) (some 0)
def sumCx (l : List (Option Cx)) : Option Cx := match sumO (l.map fun x => x.map (·.1)), sumO (l.map fun x => x.map (·.2)) with
  | some a, some b => some (a, b)
  | _, _ => none

/-- The word of a value, a NaN where there is none. -/
def wordO (x : Option Rat) : Word := match x with
  | some v => w32 v
  | none => 0x7FC00000

/-- CENTRAL: the sums over the records (R262). -/
def evalCentral (e : ElIn) (m : ElMem) (recs : List PartRec) (missing : Bool) : ElRes :=
  let l := (List.range 3).map fun p =>
    match sumCx (recs.map fun r => phWord r.vals p), sumO (recs.map fun r => opVal (nth r.vals (6 + p) 0)) with
    | some sum, some bias => some (cabs sum, bias / 2)
    | _, _ => none
  difOut e m l e.dt missing

/-- PARTIAL: the sums over the groups in gmask (R260); `g` holds for each group its number and its phasors. -/
def partialVals (set : List Word) (g : List (Nat × List Word)) : List Word :=
  let v (k : Nat) : Rat := r32 (nth set k 0)
  let rot := cexp (radOf (v 2))
  let sgnm := (nearLow (v 6)).toNat
  let sums := (List.range 3).map fun p => sumCx (g.map fun (n, l) =>
    let k := v (8 + n)
    (phWord l p).map fun x => cmul (cscale (if bitAt sgnm n then -k else k) x) rot)
  let mags := (List.range 3).map fun p => sumO (g.map fun (n, l) => (phWord l p).map fun x => v (8 + n) * cabs x)
  (sums.map fun x => [wordO (x.map (·.1)), wordO (x.map (·.2))]).flatten ++ mags.map wordO

/-! ### PIOC (R216) -/

/-- One 14 400 sample of a PIOC slot: the values of its inputs in volts, the phase bit of each, and dt since the last sample. -/
def evalPioc (set : List Word) (m : ElMem) (l : List (Nat × Option Rat)) (dt : Rat) : ElRes :=
  let v (k : Nat) : Rat := r32 (nth set k 0)
  let ip := v 0 * v 0
  let thr := 2 * v 4 * v 4
  let cnt := l.zipIdx.map fun ((_, x), j) =>
    let (c, on, off) := nth m.cnt j (0, false, 0)
    let sq : Option Rat := x.map fun y => ip * y * y
    let c1 := if geO sq thr then c + 1 else 0
    let off1 := if geO sq (v 7 * v 7 * thr) then 0 else off + dt
    let on1 := decide ((nearLow (v 5) : Int) ≤ (c1 : Int)) || (on && decide (off1 < v 6))
    (min c1 1000000, on1, off1)
  let ps := maskSum ((l.zipIdx.filter fun x => (nth cnt x.2 (0, false, 0)).2.1).map (·.1.1))
  let st := ps ≠ 0
  (⟨st, st, false, false, ps, ps, 0⟩, { m with cnt := cnt }, ((cnt.map (·.1)).foldl max 0 : Nat))

end Sys2Proof.Machine
end

