-- ==== Sys2Proof/Machine/Elements.lean ====
section
/-! DEFINITION. The element array: configuration coming into force, operands and their validity, links, host-assisted and test slots, and the evaluation of a frame and of a 14 400 sample (R192 to R215, R222, R223, R233, R257 to R264, R646 to R648). -/

namespace Sys2Proof.Machine

abbrev M_OFF : Nat := 0
abbrev M_HW : Nat := 1
abbrev M_HOST : Nat := 2
abbrev M_TEST : Nat := 3

def emptySlot : ElSlot := ⟨0xA1090000, 0, 0, typeDefaults 0, false, noOut, noOut, emptyMem, 0, 0, false, 0, 0, 0, false, false,
  none, none, none, none, []⟩
def State.slot (s : State) (n : Nat) : ElSlot := nth s.ele.slots n emptySlot
def State.putSlot (s : State) (n : Nat) (x : ElSlot) : State :=
  { s with ele := { s.ele with slots := s.ele.slots.set n x } }

def ElSlot.typ (x : ElSlot) : Nat := bits x.cfg 12 8
def ElSlot.mode (x : ElSlot) : Nat := bits x.cfg 1 0
def ElSlot.opq (x : ElSlot) : Nat := bits x.cfg 17 16
def ElSlot.vmask (x : ElSlot) : Nat := bits x.cfg 31 24
def ElSlot.grp (x : ElSlot) : Nat := bits x.src 3 0
def ElSlot.opnd (x : ElSlot) : Nat := bits x.src 7 4
def ElSlot.val (x : ElSlot) (k : Nat) : Rat := r32 (nth x.set k 0)
def ElSlot.icode (x : ElSlot) (k : Nat) : Int := nearLow (x.val k)
/-- The role of a PDIF slot: 0 LINE, 1 PARTIAL, 2 CENTRAL. -/
def ElSlot.role (x : ElSlot) : Nat := (x.icode 4).toNat

/-- A PARTIAL slot that the array evaluates (R261). -/
def ElSlot.partial_ (x : ElSlot) : Bool := x.typ = T_PDIF && x.role = 1 && (x.mode = M_HW || x.mode = M_TEST)

/-- The state after a state clear; PTTR starts from θ0 (R248). -/
def ElSlot.fresh (x : ElSlot) : ElMem := if x.typ = T_PTTR then { emptyMem with g := q64 (x.val 11) } else emptyMem

/-! ### Configuration (R195, R205) -/

/-- The settings that the registers hold. -/
def State.settings (s : State) (n : Nat) : List Word := (List.range 16).map fun k => s.rd (0x64000 + 64 * n + 4 * k)

/-- Whether the direction link of a slot names a slot whose type is neither RDIR nor PSDE (R222). -/
def State.lnkBad (s : State) (n : Nat) : Bool :=
  let x := s.slot n
  let t := (s.slot (bits x.lnk 7 0)).typ
  bits x.lnk 9 8 ≠ 0 && x.mode ≠ M_OFF && t ≠ T_RDIR && t ≠ T_PSDE

/-- A slot takes what has been written since the last frame. Results that wait complete NOT_NOW when it leaves HOST. -/
def State.takeSlot (s : State) (n : Nat) : State :=
  let x := s.slot n
  let cfg := s.g ELE_CFG [n]
  let src := s.g ELE_SRC [n]
  let lnk := s.g ELE_LNK [n]
  let y : ElSlot := { x with
    cfg := BitVec.ofNat 32 cfg
    src := BitVec.ofNat 32 src
    lnk := BitVec.ofNat 32 lnk
    set := s.settings n
    clr := false }
  let mode := x.mode ≠ y.mode && !((x.mode = M_HW && y.mode = M_TEST) || (x.mode = M_TEST && y.mode = M_HW))
  let role := y.typ = T_PDIF && x.role ≠ y.role
  let clear := x.typ ≠ y.typ || x.src ≠ y.src || x.lnk ≠ y.lnk || mode || role || x.clr
  let z := if clear then { y with mem := y.fresh, held := 0, lim := false, acc := 0, view := [] } else y
  let z0 := if y.partial_ then z else { z with part := none }
  let z1 := if y.mode = M_OFF then { z0 with out := noOut, vst := 0, ok := false } else z0
  let z2 := if y.mode = M_TEST then z1 else { z1 with subst := none }
  let z3 := if y.mode = M_HOST then z2 else { z2 with res := none, stale := false }
  let s1 := s.putSlot n z3
  if x.mode = M_HOST && y.mode ≠ M_HOST then
    let l := s1.ele.results.filter (·.1 = n)
    { s1 with ele := { s1.ele with results := s1.ele.results.filter (·.1 ≠ n) } }.each l fun s r =>
      s.complete r.2 0x0611 ST_NOT_NOW
  else s1

/-! ### Operands (R201, R208, R215, R232) -/

/-- The entry numbers, in the local layout, that a type reads; 2000 and 2001 stand for entry q and q + 1. -/
def opKeys (typ opnd : Nat) (cplx : Bool) : List Nat :=
  let abc := [0, 1, 2, 3, 4, 5]
  let v := [8, 9, 10, 11, 12, 13]
  match typ with
  | 2 => nth [abc, [6, 7], [36, 37], [40, 41], [16, 17, 18]] opnd (if cplx then [2000, 2001] else [2000])
  | 3 => nth [abc ++ v, [38, 39, 44, 45], [36, 37, 42, 43]] opnd [40, 41, 46, 47]
  | 4 => if opnd = 0 then abc ++ [24, 26, 27, 29, 30, 32] else [6, 7, 33, 35]
  | 6 => nth [v, v, [44, 45], [46, 47], [42, 43], [14, 15]] opnd [20, 21, 22]
  | 7 => nth [v, v, [44, 45], [46, 47], [42, 43], [14, 15]] opnd [20, 21, 22]
  | 8 => [44, 45, 48]
  | 9 => [44, 45, 48]
  | 10 => [44, 45, 49]
  | 11 => [36, 37, 42, 43]
  | 12 => abc ++ [36, 37, 54, 55, 56, 57, 58, 59, 60, 61, 62, 63, 64, 65]
  | 13 => if opnd = 0 then abc else [16, 17, 18]
  | 14 => v ++ [14, 15]
  | _ => []

/-- The quantity index of an entry number for a group. -/
def qOf (grp q key : Nat) : Nat :=
  if 2000 ≤ key then q + (key - 2000) else if grp < 8 then 96 * grp + key else 768 + 32 * (grp - 8) + remMap.idxOf key

/-- The inputs of a group that PIOC or RBRF reads. -/
def sampleInputs (opnd : Nat) (typ : Nat) : List Nat :=
  if typ = T_PIOC then (if opnd = 0 then [0, 1, 2] else [3]) else (if opnd = 0 then [0, 1, 2] else [0, 1, 2, 3])

/-- The groups whose bit is set in gmask of a PARTIAL slot. -/
def ElSlot.groups (x : ElSlot) : List Nat := bitsOf 8 (x.icode 5).toNat

/-- A sample of an input of a local group as an operand; an input that is not assigned carries STALE. -/
def State.sampleOp (s : State) (grp i : Nat) (words : List Word) : Nat × Opnd :=
  let p := s.inputPipe grp i
  if p = 31 then (i, ⟨0x801F, 0, Q_STALE⟩)
  else
    let (v, q) := sampleVal p (nth words p 0)
    (i, ⟨0x8000 + p, w32 v, q⟩)

/-- Puts an operand behind those of a lower or equal index. -/
def insOp (x : Nat × Opnd) : List (Nat × Opnd) → List (Nat × Opnd)
  | [] => [x]
  | y :: ys => if y.2.idx ≤ x.2.idx then y :: insOp x ys else x :: y :: ys

/-- The live operands of a slot, each with its entry or input number, in ascending index order. -/
def State.liveOps (s : State) (x : ElSlot) (words : List Word) : List (Nat × Opnd) :=
  let l :=
    if x.typ = T_PIOC || x.typ = T_RBRF then (sampleInputs x.opnd x.typ).map fun i => s.sampleOp x.grp i words
    else if x.typ = T_PDIF then
      (if x.role = 0 then (List.range 6).map fun e => let q := qOf x.grp 0 e; (e, ⟨q, s.qv q, s.qq q⟩)
        else if x.role = 1 then (x.groups.map fun g => (List.range 6).map fun e => (100 * g + e, ⟨96 * g + e, s.qv (96 * g + e), s.qq (96 * g + e)⟩)).flatten
        else [])
    else (opKeys x.typ x.opnd (x.src.getLsbD 18)).map fun e =>
      let q := qOf x.grp (bits x.src 17 8) e
      (e, ⟨q, s.qv q, s.qq q⟩)
  l.foldl (fun acc o => insOp o acc) []

/-- In TEST mode the values of the last record stand in the places of the live operands (R647). -/
def ElSlot.substOps (x : ElSlot) (l : List (Nat × Opnd)) : List (Nat × Opnd) := match x.subst with
  | none => l
  | some v => l.zipIdx.map fun (o, i) => match v[i]? with
    | some (w, q) => (o.1, { o.2 with val := w, q := q ||| Q_TEST })
    | none => o

/-- The operands that a slot uses. -/
def State.slotOps (s : State) (x : ElSlot) (words : List Word) : List (Nat × Opnd) := x.substOps (s.liveOps x words)

/-- vmask in use: in TEST mode the bit of TEST does not act (R647). -/
def ElSlot.mask (x : ElSlot) : Nat := if x.mode = M_TEST then x.vmask &&& 0xDF else x.vmask

/-- Whether an operand is valid (R201); a PDIS loop entry may be NaN (R234). -/
def ElSlot.opOk (x : ElSlot) (o : Nat × Opnd) : Bool :=
  o.2.q &&& x.mask = 0 && (decide (fmtExp f32 o.2.val.toNat ≠ 255)
    || (x.typ = T_PDIS && isNaN32 o.2.val && decide (54 ≤ o.1) && decide (o.1 ≤ 65)))

/-! ### Links (R197, R222, R223, R233) -/

/-- The outputs of slot m as slot n reads them. -/
def State.linkOut (s : State) (n m : Nat) : ElOut := if m < n then (s.slot m).out else (s.slot m).prev

/-- The phase bits that the links of slot n withhold. -/
def State.withheld (s : State) (n : Nat) : Nat :=
  let x := s.slot n
  let dm := bits x.lnk 9 8
  let ds := bits x.lnk 7 0
  let o := s.linkOut n ds
  let dt := (s.slot ds).typ
  let dir := if dm = 0 then 0
    else if dt ≠ T_RDIR && dt ≠ T_PSDE then 15
    else if x.typ = T_PTOC && (x.opnd = 0 || x.opnd = 4) && dt = T_RDIR && (s.slot ds).opnd = 0 then
      15 - (if dm = 1 then o.ps else o.po) % 8
    else if (if dm = 1 then o.x1 else o.x2) then 0 else 15
  let bm := bits x.lnk 21 20
  let b := s.linkOut n (bits x.lnk 19 12)
  let blk := if bm = 0 then 0 else if bm = 1 then (if b.oper then 15 else 0) else b.po
  dir ||| blk

/-- The filtered state of a digital input at t0 of the last frame (R197). -/
def State.di (s : State) (i : Nat) : Bool := bitAt s.ele.di i

/-- Bit b of a slot number in a coded setting, −1 for none. -/
def State.diSet (s : State) (c : Int) : Bool := if c < 0 then false else s.di c.toNat

def emptyRow : RowSt := RowSt.reset
def State.row (s : State) (r : Nat) : RowSt := nth s.tmx.rows r emptyRow
def State.putRow (s : State) (r : Nat) (x : RowSt) : State :=
  { s with tmx := { s.tmx with rows := s.tmx.rows.set r x } }

/-- The value of Sluice row r (R273). -/
def State.rowAct (s : State) (r : Nat) : Bool := (s.row r).act

/-- The initiation of an RBRF slot (R228). -/
def State.initiation (s : State) (n : Nat) : Bool :=
  let l := (s.slot n).lnk
  let i := bits l 29 22
  match bits l 31 30 with
  | 0 => false
  | 1 => bitAt s.ele.acts i
  | 2 => s.di i
  | _ => (s.linkOut n i).oper

/-! ### PDIF (R257 to R263) -/

/-- The channel delay of a port in force, in units of 2^−16 ns (R544). -/
def State.chanDelay (s : State) (p : Nat) : Int :=
  if s.on TPC_CFG_dhost [p] then s.g TPC_HDLY_dly [p] * oneNs else sgn 32 (s.g TPC_DLY [p, 0]) * oneNs

/-- The usable packets of a port that were received before t0, with their remote instants, newest instant first, and whether
delay mode is used. -/
def State.usable (s : State) (align : Int) (p : Nat) : List (Time × LinePk × Bool) :=
  let locked := s.g MER_STAT_tq = TQ_LOCKED
  let l := (nth s.ele.pks p []).filterMap fun k =>
    let both := locked && k.tq = TQ_LOCKED
    let dly : Time := ((k.arr : Int) - s.chanDelay p - k.age).toNat
    if align = 0 then (if both then some (k.ts, k, false) else none)
    else if align = 1 then some (dly, k, true)
    else if both then some (k.ts, k, false) else some (dly, k, true)
  l.foldl (fun acc x => (acc.filter fun y => decide (x.1 ≤ y.1)) ++ [x] ++ (acc.filter fun y => decide (y.1 < x.1))) []

/-- The ports in use of a LINE slot. -/
def ElSlot.ports (x : ElSlot) : List Nat :=
  (x.icode 11).toNat :: (if x.icode 12 < 0 then [] else [(x.icode 12).toNat])

def gap (a b : Time) : Nat := if a ≤ b then b - a else a - b

/-- The element of a list nearest to a time. -/
def nearest {α : Type} (t : Time) (f : α → Time) : List α → Option α
  | [] => none
  | x :: xs => match nearest t f xs with
    | none => some x
    | some y => if gap t (f x) ≤ gap t (f y) then some x else some y

/-- Whether every word is a finite number. -/
def finite (l : List Word) : Bool := l.all fun w => decide (fmtExp f32 w.toNat ≠ 255)

/-- What a LINE slot finds in frame k (R258): Id and Ibias by phase and the timer step of an evaluation, when there is one, and
what it keeps. -/
def State.lineStep (s : State) (x : ElSlot) (m : LineMem) : Option (List Dif × Rat) × LineMem :=
  let us := x.ports.map (s.usable (x.icode 13))
  let tops := us.map fun l => (l.head?).map (·.1)
  let txs := tops.filterMap id
  let fresh := tops.all (·.isSome) && txs.zipIdx.all fun (t, i) => match m.lastTx[i]? with
    | some o => decide (o < t)
    | none => true
  if !fresh then (none, m)
  else match txs.min? with
    | none => (none, m)
    | some tr =>
      -- the frame whose ts is nearest tr, which must stand in the slot's history (R259)
      match (nearest tr id s.phe.times).bind fun t => m.recs.find? fun (r : LineRec) => r.ts = t with
        | none => (none, { m with far := true })
        | some j =>
          let ks := us.filterMap fun l => nearest j.ts (fun (y : Time × LinePk × Bool) => y.1) l
          let rot := cexp (radOf (x.val 2))
          let l : List Dif := (List.range 3).map fun p =>
            let loc := (phWord j.ph p).map fun i => cmul (cscale (x.val 0) i) rot
            let rem := ks.map fun (tx, k, _) => (phWord k.ph p).map fun i => cmul i (cexp (2 * piQ * r32 j.f * secs j.ts tx))
            match sumCx (loc :: rem), sumO ((loc :: rem).map absO) with
            | some d, some b => some (cabs d, b / 2)
            | _, _ => none
          let d := match m.lastJ with
            | some o => secs j.ts o
            | none => 0
          (some (l, limR 0 (20 / 1000) d), { m with
            lastJ := some j.ts, lastTr := some tr, lastTx := txs, q := orQ (j.q :: ks.map (·.2.1.q)), far := false
            fin := finite j.ph && ks.all (fun y => finite y.2.1.ph), delay := ks.any (·.2.2) })

/-- Whether the remote operands of a LINE slot are non-valid (R259). -/
def State.lineBad (s : State) (x : ElSlot) (m : LineMem) (ts : Time) : Bool :=
  (match m.lastTr with
    | none => true
    | some t => decide (x.val 14 < secs ts t))
  || m.far || x.ports.any fun p => (s.usable (x.icode 13) p).isEmpty

/-- The records of a CENTRAL slot, and whether one is missing (R262, R263). -/
def State.centralRecs (s : State) (n : Nat) (x : ElSlot) (ts : Time) : List PartRec × Bool :=
  let ps := (x.icode 12).toNat
  let own := if s.on GEN_STATE_stacked then s.position else 0
  let get (m : Nat) : Option PartRec :=
    if m = own then (if ps < n then (s.slot ps).part else (s.slot ps).ppart)
    else s.ele.parts.find? fun r => r.member = m && r.slot = ps && r.ts = ts
  let l := (bitsOf 8 (x.icode 11).toNat).map get
  (l.filterMap id, l.any (·.isNone))

/-- The PARTIAL slots whose records are published: the 4 lowest in HW or TEST mode (R261). -/
def State.partSlots (s : State) : List Nat :=
  ((List.range 256).filter fun n =>
    (s.slot n).partial_).take 4

/-! ### Evaluation of one slot (R202, R203) -/

/-- The sample of input i among the operands, an infinity as a number beyond every range; 0 for NaN, which makes every comparison
false (R202). -/
def sampleOf (ops : List (Nat × Opnd)) (i : Nat) : Rat := match ops.find? (·.1 = i) with
  | some o => (opVal o.2.val).getD 0
  | none => 0

/-- The tracked samples of an input, newest first: those of the frames evaluated in TEST mode, then the live ones. -/
def State.rbrfSamples (s : State) (x : ElSlot) (ops : List (Nat × Opnd)) (half : Nat) : List (List Rat) :=
  (sampleInputs x.opnd x.typ).zipIdx.map fun (i, j) =>
    let now := sampleOf ops i
    let own := now :: (if x.subst.isNone then [] else nth x.mem.smp j [])
    let p := s.inputPipe x.grp i
    let live := if p = 31 then [] else (s.phe.words.drop own.length).map fun ws => (sampleVal p (nth ws p 0)).1
    (own ++ live).take half

/-- The head of the zone group of a PDIS slot: the first slot of its run of at most 5 (R241). -/
def zoneRun (f : Nat → Bool) : Nat → Nat
  | 0 => 0
  | n + 1 => if f n then zoneRun f n + 1 else 0
def State.zoneHead (s : State) (n : Nat) : Nat :=
  let x := s.slot n
  let r := zoneRun (fun m => (s.slot m).typ = T_PDIS && (s.slot m).grp = x.grp) n
  n - r % 5

/-- dt of R199, in seconds, from the time of the last frame or sample to the present one. -/
def dtSince (last : Option Time) (ts : Time) : Rat := match last with
  | some t => limR 0 (3125 / 1000000) (secs ts t)
  | none => 0

/-- What slot n is evaluated on. -/
def State.elIn (s : State) (n : Nat) (ops : List (Nat × Opnd)) : ElIn :=
  let x := s.slot n
  let rate := s.dch.frame.flags / 16 % 4
  let h := s.slot (s.zoneHead n)
  let hn := s.zoneHead n
  let cb := if x.typ = T_RBRF then x.icode 7 else if x.typ = T_PTUV then x.icode 13 else -1
  { set := x.set
    ent := ops.map fun o => (o.1, o.2.val)
    opnd := x.opnd
    dt := s.ele.dt
    ts := s.dch.frame.ts
    valid := ops.all x.opOk
    rate := rate
    f := s.qv (qOf x.grp 0 48)
    wh := s.withheld n
    ini := s.initiation n
    di := s.diSet cb
    smp := if x.typ = T_RBRF then s.rbrfSamples x ops (rateN rate / 2) else []
    head := (List.range 4).map fun k => nth h.set (12 + k) 0
    headSel := if hn < n && (h.mode = M_HW || h.mode = M_TEST) && h.ok then some h.sel else none
    check := if x.typ = T_PDIF && x.role = 2 && 0 ≤ x.icode 13 then (s.linkOut n (x.icode 13).toNat).oper else true
    old := x.out }

/-- The table of a user curve, by its code: as it stood at t0 for a slot that has waited for the cascade (R220). -/
def State.curveTable (s : State) (code : Int) : List Word := match s.ele.curves.find? (·.1 = code) with
  | some x => x.2
  | none => (List.range 64).map fun i => s.rd (0x68000 + 256 * (code - 8).toNat + 4 * i)

/-- The table of the user curve that a PTOC slot selects. -/
def State.userTable (s : State) (x : ElSlot) : List Word := if 8 ≤ x.icode 5 then s.curveTable (x.icode 5) else []

/-- A frequency slot that is supervised (R237, R238). -/
def ElSlot.supervised (x : ElSlot) (e : ElIn) (ops : List (Nat × Opnd)) : Bool :=
  let vmin := if x.typ = T_PFRC then 8 else 7
  let f := if x.typ = T_PFRC then 49 else 48
  (x.typ = T_PTOF || x.typ = T_PTUF || x.typ = T_PFRC)
    && (ltO (mulO (e.v 1) (absO (e.cx 44))) (e.v vmin) || ops.any fun o => o.1 = f && bitAt o.2.q 7)

/-- The type's evaluation (R193). -/
def State.evalType (s : State) (n : Nat) (e : ElIn) (m : ElMem) (sel : Nat) : ElRes :=
  let x := s.slot n
  match x.typ with
  | 2 => evalPtoc e m (s.userTable x)
  | 3 => evalRdir e m
  | 4 => evalPhar e m
  | 5 => evalRbrf e m
  | 6 => evalVolt true e m
  | 7 => evalVolt false e m
  | 8 => evalFreq true e m
  | 9 => evalFreq false e m
  | 10 => evalPfrc e m
  | 11 => evalPsde e m
  | 12 => evalPdis e m sel
  | 13 => evalPttr e m
  | 14 => evalRsyn e m
  | _ => (noOut, m, 0)

/-- A slot's entry into holding or blocked sets ELE_STS.invop (R203). -/
def State.putEval (s : State) (n : Nat) (x : ElSlot) : State :=
  let was := (s.slot n).vst
  let s1 := s.putSlot n x
  if x.vst ≠ 0 && x.vst ≠ was then s1.flag ELE 9 else s1

/-- How a slot acts whose operands are valid or not, with the held time h (R202): 0 it is evaluated, 1 it holds, 2 it blocks. -/
def ElSlot.stance (x : ElSlot) (valid : Bool) (h : Rat) : Nat :=
  if valid || x.opq = 0 then 0 else if x.opq = 1 && !x.lim && !(decide (x.val 3 < h)) then 1 else 2

/-- The held time and the hold limit in a frame or sample that is valid or not (R202). -/
def ElSlot.timeHeld (x : ElSlot) (valid : Bool) (dt : Rat) : ElSlot :=
  let h := if valid then 0 else x.held + dt
  { x with held := h, lim := !valid && (x.lim || (x.opq = 1 && decide (x.val 3 < h))) }

/-- The state of a slot that blocks; PTTR keeps θ, and the operands kept from earlier frames stay (R202, R250). -/
def ElSlot.blockMem (x : ElSlot) (m : ElMem) : ElMem :=
  if x.typ = T_PTTR then { emptyMem with g := x.mem.g } else { x.fresh with line := m.line, smp := m.smp }

/-- What a slot does with its operands: `valid`, the output quality byte, and the evaluation (R202, R203). -/
def State.applyOpq (s : State) (n : Nat) (valid : Bool) (q : Nat) (r : ElRes) (dt : Rat) : State :=
  let x := s.slot n
  let y := { x.timeHeld valid dt with ok := valid }
  match x.stance valid y.held with
  | 0 => s.putEval n { y with out := { r.1 with q := q }, mem := r.2.1, acc := w32 r.2.2, vst := 0 }
  | 1 =>
    let hq := if x.vst = 1 then x.hq else x.out.q
    s.putEval n { y with
      out := { x.out with q := hq ||| q }, hq := hq, vst := 1
      mem := { x.mem with hist := r.2.1.hist, line := r.2.1.line, smp := r.2.1.smp } }
  | _ => s.putEval n { y with out := { noOut with q := q }, vst := 2, mem := x.blockMem r.2.1, acc := 0 }

/-- The words of entries a, a + 1 … a + 5 among the operands. -/
def sixOf (ops : List (Nat × Opnd)) (a : Nat) : List Word := (List.range 6).map fun i => match ops.find? (·.1 = a + i) with
  | some o => o.2.val
  | none => 0

/-- One slot in HW or TEST mode, in frame k. -/
def State.evalSlot (s : State) (n : Nat) : State :=
  let x := s.slot n
  let test := if x.mode = M_TEST then Q_TEST else 0
  let ops := s.slotOps x s.dch.frame.words
  let q := orQ (ops.map (·.2.q)) ||| test
  let e := s.elIn n ops
  let ok := e.valid
  let ts := s.dch.frame.ts
  if x.typ = T_NONE then s.putSlot n { x with out := { noOut with q := test }, vst := 0, ok := true }
  else if x.typ = T_PIOC then
    match x.view.find? fun v => decide (v.1 + 70 * oneUs ≤ ts) with
    | some (_, o, vst, a) => s.putSlot n { x with out := { o with q := o.q ||| test }, vst := vst, acc := a }
    | none => s.putSlot n { x with out := { noOut with q := test } }
  else if x.supervised e ops then
    s.putSlot n { x.timeHeld ok e.dt with
      out := { noOut with q := q }, mem := { x.mem with tst := 0, ps := 0 }, acc := 0, vst := 0, ok := ok }
  else if x.typ = T_RBRF then
    let m := { x.mem with smp := if x.subst.isNone then []
      else (sampleInputs x.opnd x.typ).zipIdx.map fun (i, j) => (sampleOf ops i :: nth x.mem.smp j []).take 64 }
    s.applyOpq n ok q (s.evalType n e m 0) e.dt
  else if x.typ = T_PDIS then
    let sel := e.headSel.getD e.loopSel
    (s.putSlot n { x with sel := sel }).applyOpq n ok q (s.evalType n e x.mem sel) e.dt
  else if x.typ = T_PDIF && x.role = 1 then
    let pub := s.partSlots.contains n
    let g := x.groups.map fun k => (k, sixOf ops (100 * k))
    let rec_ : PartRec := ⟨if s.on GEN_STATE_stacked then s.position else 0, ts, n, partialVals x.set g, q⟩
    let s1 := s.applyOpq n ok q (noOut, x.mem, 0) e.dt
    let y := s1.slot n
    s1.putSlot n { y with out := { noOut with x1 := pub, q := y.out.q }, part := if pub then some rec_ else none }
  else if x.typ = T_PDIF && x.role = 2 then
    let (rs, miss) := s.centralRecs n x ts
    let q2 := orQ (rs.map (·.q)) ||| test ||| (if miss then Q_STALE else 0)
    let ok2 := !miss && rs.all fun r => r.q &&& x.mask = 0 && finite r.vals
    let s1 := s.applyOpq n ok2 q2 (evalCentral e x.mem rs miss) e.dt
    let y := s1.slot n
    s1.putSlot n { y with out := { y.out with x2 := miss } }
  else if x.typ = T_PDIF then
    let rec_ : LineRec := ⟨ts, sixOf ops 0, e.f, q⟩
    let (r, l) := s.lineStep x { x.mem.line with recs := (rec_ :: x.mem.line.recs).take 128 }
    let m := { x.mem with line := l }
    let x2 := l.delay || x.icode 13 = 1
    let bad := s.lineBad x l ts
    let res := match r with
      | some (d, step) => difOut e m d step x2
      | none => difHold e m x2
    s.applyOpq n (!bad && l.q &&& x.mask = 0 && l.fin) (l.q ||| test ||| (if bad then Q_STALE else 0)) res e.dt
  else s.applyOpq n ok q (s.evalType n e x.mem 0) e.dt

/-! ### Host-assisted slots (R208 to R213) -/

/-- The frame header as bytes (R161). -/
def FrameSt.header (f : FrameSt) : List Byte :=
  leBytes 6 (Time.sec f.ts) ++ leBytes 4 (Time.ns f.ts) ++ leBytes 2 (Time.frac f.ts) ++ leBytes 2 f.seq ++ leBytes 2 f.flags

/-- The operand record of a slot (R208): of more than 24 operands the first 24 (log 180, DEDUCED). -/
def State.operandRecord (s : State) (n : Nat) : List Byte :=
  let x := s.slot n
  let ops := (s.liveOps x s.dch.frame.words).take 24
  s.dch.frame.header ++ leBytes 2 n ++ leBytes 1 x.typ ++ leBytes 1 x.opnd ++ leBytes 2 ops.length ++ List.replicate 10 0
    ++ (ops.map fun o => leBytes 4 o.2.val.toNat ++ leBytes 2 o.2.idx ++ leBytes 1 o.2.q ++ [0]).flatten

/-- ELE_OPND: the record goes to the slot's operand stream, or is dropped. -/
def State.sendOperands (s : State) (n : Nat) : State :=
  let b := s.operandRecord n
  (s.deliver CLS_ELEOP (bits (s.slot n).cfg 23 20) ⟨0x0610, 0, b.length, 0, s.dch.frame.seq, 0, n, 0, b⟩ true).2

/-- The age of a result for frame k in frame j. -/
def resultAge (j k : Nat) : Nat := (j + 65536 - k % 65536) % 65536

/-- The bits x1 and x2 and the phase start and operate bits that a type defines; it holds every other one at 0 (R193). -/
def typeBits (typ role : Nat) : Bool × Bool × Nat × Nat := match typ with
  | 0 => (false, false, 0, 0)
  | 3 => (true, true, 7, 7)
  | 5 => (true, false, 15, 0)
  | 8 => (false, false, 8, 8)
  | 9 => (false, false, 8, 8)
  | 10 => (false, false, 8, 8)
  | 11 => (true, true, 8, 8)
  | 12 => (true, true, 15, 15)
  | 13 => (true, false, 7, 7)
  | 14 => (true, true, 0, 0)
  | 15 => if role = 1 then (false, false, 0, 0) else (true, true, 7, 7)
  | _ => (false, false, 15, 15)

/-- The outputs of a host-assisted slot: the bits that its type and role define (R193, R261). -/
def ElSlot.ofType (x : ElSlot) (o : ElOut) : ElOut :=
  let (x1, x2, ps, po) := typeBits x.typ x.role
  let any := !(x.typ = T_NONE || (x.typ = T_PDIF && x.role = 1))
  ⟨o.start && any, o.oper && any, o.x1 && x1, o.x2 && x2, o.ps &&& ps, o.po &&& po, o.q⟩

/-- The outputs that a result word gives a slot (R209, R261). -/
def ElSlot.resultOut (x : ElSlot) (w : Word) : ElOut :=
  x.ofType ⟨w.getLsbD 0, w.getLsbD 1, w.getLsbD 2, w.getLsbD 3, bits w 7 4, bits w 11 8, bits w 23 16⟩

/-- A result completes LATE and sets ELE_STS.hlate. -/
def State.resultLate (s : State) (d : Desc) : State := (s.complete d 0x0611 ST_LATE).flag ELE 10

/-- HOST_RESULT_EXAMINE for slot n in frame j (R210, R211). -/
def State.examine (s : State) (n : Nat) : State :=
  let j := s.dch.frame.seq
  let x := s.slot n
  let l := (s.ele.results.filter (·.1 = n)).map (·.2)
  let s0 := { s with ele := { s.ele with results := s.ele.results.filter (·.1 ≠ n) } }
  let age (d : Desc) : Nat := resultAge j (d.a.toNat % 65536)
  let inForce := x.res.filter fun r => decide (resultAge j r.1 ≤ 2)
  let good := l.zipIdx.filter fun d => decide (age d.1 ≤ 2) && inForce.all fun r => decide (age d.1 ≤ resultAge j r.1)
  let best := (good.map fun d => age d.1).foldl min 3
  let win := (good.filter fun d => age d.1 = best).getLast?
  let s1 := s0.each l.zipIdx fun s d =>
    if win.any (·.2 = d.2) then s.completeWith ((compOf d.1 0x0611 ST_DONE).seq j) else s.resultLate d.1
  let y := s1.slot n
  match (win.map fun d => (d.1.a.toNat % 65536, d.1.b)).or inForce with
  | some (k, w) => s1.putSlot n { y with res := some (k, w), out := x.resultOut w, stale := false, vst := 0 }
  | none =>
    let o := x.ofType y.out
    let s2 := s1.putSlot n { y with
      res := none
      out := { o with q := o.q ||| Q_STALE }
      stale := true
      vst := 0 }
    if y.stale then s2 else s2.flag ELE 8

/-! ### A frame (R195, R197, R198) -/

/-- The slots whose outputs slot n reads. -/
def ElSlot.linked (x : ElSlot) : List Nat :=
  (if bits x.lnk 9 8 ≠ 0 then [bits x.lnk 7 0] else []) ++ (if bits x.lnk 21 20 ≠ 0 then [bits x.lnk 19 12] else [])
    ++ (if bits x.lnk 31 30 = 3 then [bits x.lnk 29 22] else [])
    ++ (if x.typ = T_PDIF && x.role = 2 && 0 ≤ x.icode 13 then [(x.icode 13).toNat] else [])

/-- The remote group that a slot's operands come from. -/
def ElSlot.remGroup (x : ElSlot) : Option Nat :=
  let q := bits x.src 17 8
  if x.typ = T_NONE || (x.typ = T_PDIF && x.role ≠ 0) then none
  else if x.typ = T_PTOC && x.opnd = 5 then (if 768 ≤ q then some (8 + (q - 768) / 32) else none)
  else if 8 ≤ x.grp then some x.grp else none

/-- A CENTRAL slot. -/
def ElSlot.central (x : ElSlot) : Bool := x.typ = T_PDIF && x.role = 2

/-- The slots that wait for a cascade publication in this frame: those whose operands come in one, and those that read them in the
same frame, a zone its head among them (R198, R241). A PARTIAL slot, whose record is published, reads none (R260). -/
def State.cascSlots (s : State) : List Nat :=
  if !s.awaits then []
  else (List.range 256).foldl (fun acc n =>
    let x := s.slot n
    let self := x.central || x.remGroup.any s.cascGroup
    let reads := x.linked ++ (if x.typ = T_PDIS then [s.zoneHead n] else [])
    let hw := (x.mode = M_HW || x.mode = M_TEST) && !x.partial_
    if (x.mode ≠ M_OFF && self) || (hw && reads.any fun m => decide (m < n) && acc.contains m) then acc ++ [n] else acc) []

/-- Slots are evaluated in ascending order; a HOST slot sends its operands. -/
def State.evalList (s : State) (l : List Nat) : State :=
  s.each l fun s n =>
    match (s.slot n).mode with
    | 0 => s
    | 2 => s.sendOperands n
    | _ => s.evalSlot n

/-- The start and the operate bits of slots 32j to 32j + 31. -/
def State.startBits (s : State) (j : Nat) : Nat := maskSum ((List.range 32).filter fun b => (s.slot (32 * j + b)).out.start)
def State.operBits (s : State) (j : Nat) : Nat := maskSum ((List.range 32).filter fun b => (s.slot (32 * j + b)).out.oper)

/-- What ELE_START and ELE_OPER show: the bits of frame ELE_SEQ, which is the last frame whose element step is complete. -/
def State.shown (s : State) (n : Nat) : ElOut := if s.ele.wait.isEmpty then (s.slot n).out else (s.slot n).prev
def State.startShown (s : State) (j : Nat) : Nat := maskSum ((List.range 32).filter fun b => (s.shown (32 * j + b)).start)
def State.operShown (s : State) (j : Nat) : Nat := maskSum ((List.range 32).filter fun b => (s.shown (32 * j + b)).oper)

/-- Each start or operate bit that rises raises its summary source (chapter "ELE registers"). -/
def State.eleRises (s : State) (l : List Nat) : State :=
  s.each l fun s n =>
    let x := s.slot n
    let s1 := if x.out.start && !x.prev.start then s.raise (128 + n / 32) else s
    if x.out.oper && !x.prev.oper then s1.raise (128 + n / 32) else s1

/-- What the slots of a frame read as it stands at t0, and dt (R197, R199, R257). A row's value in frame k − 1 is the one that it
has when frame k begins (log 145). -/
def State.eleLatch (s : State) : State :=
  { s with ele := { s.ele with
    dt := dtSince s.ele.lastTs s.dch.frame.ts, lastTs := some s.dch.frame.ts, di := s.g FIO_DISTATE
    acts := maskSum ((List.range 64).filter s.rowAct), pks := s.ele.packets
    slots := s.ele.slots.map fun (x : ElSlot) => { x with prev := x.out, ppart := x.part } } }

/-- The first part of the element step: writes come into force, commands complete, results are examined, and every slot that
does not wait for the cascade is evaluated. lnkbad sets at the frame at which the link of a slot that is not OFF becomes bad (R222;
log 181, DEDUCED). -/
def State.eleFrame (s : State) : State :=
  let all := List.range 256
  let bad := all.filter s.lnkBad
  let s2 := s.eleLatch.each all State.takeSlot
  let s3 := s2.each (all.filter fun n => s2.lnkBad n && !bad.contains n) fun s _ => s.flag ELE 11
  let sw := s3.ele.setw
  let s4 := { s3 with ele := { s3.ele with setw := [] } }.each sw fun s (_, d) =>
    s.completeWith ((compOf d 0x0601 ST_DONE).seq s.dch.frame.seq)
  let op := s4.ele.opnds
  let s5 := { s4 with ele := { s4.ele with opnds := [] } }.each op fun s (n, d, v) =>
    (s.putSlot n { s.slot n with subst := if (s.slot n).mode = M_TEST then some v else none }).completeWith
      ((compOf d 0x0901 ST_DONE).seq s.dch.frame.seq)
  let s6 := s5.each (all.filter fun n => (s5.slot n).mode = M_HOST) State.examine
  let wait := s6.cascSlots
  let used := (wait.map fun n => (s6.slot n).icode 5).filter (8 ≤ ·)
  let s7 := { s6 with ele := { s6.ele with wait := wait, curves := used.eraseDups.map fun c => (c, s6.curveTable c) } }
  let now := all.filter fun n => !s7.ele.wait.contains n
  (s7.evalList now).eleRises now

/-- The slots that waited for the cascade. -/
def State.eleCascade (s : State) : State :=
  let l := s.ele.wait
  let s1 := ({ s with ele := { s.ele with wait := [] } }.evalList l).eleRises l
  { s1 with ele := { s1.ele with curves := [] } }

/-- The element step of a frame is complete: ELE_SEQ, and the time from t0 in ns, an event input (R198). -/
def State.eleDone (s : State) (ns : Nat) : State :=
  let n := min ns 65535
  ((s.p ELE_SEQ_seq [] s.dch.frame.seq).p ELE_EVT_last [] n).p ELE_EVT_max [] (max (s.g ELE_EVT_max) n)

/-- The array stops (NIGHT): state cleared, outputs 0. -/
def State.eleStop (s : State) : State :=
  { s with ele := { s.ele with
    wait := []
    slots := s.ele.slots.map fun (x : ElSlot) => { x with
      out := noOut, prev := noOut, mem := x.fresh, vst := 0, held := 0, lim := false, acc := 0, ok := false, stale := false, res := none
      part := none, ppart := none, view := [] } } }

/-! ### PIOC on 14 400 samples (R200, R216, R648) -/

/-- Every PIOC slot in HW or TEST mode is evaluated on the 14 400 sample with time ts. -/
def State.piocSample (s : State) (ts : Time) : State :=
  let words := nth s.dch.taps 1 []
  s.each (List.range 256) fun s n =>
    let x := s.slot n
    if x.typ ≠ T_PIOC || !(x.mode = M_HW || x.mode = M_TEST) then s
    else
      let live := s.liveOps x words
      let ops := x.substOps live
      let q := orQ (ops.map (·.2.q)) ||| (if x.mode = M_TEST then Q_TEST else 0)
      let l := (sampleInputs x.opnd x.typ).map fun i => (i, match ops.find? (·.1 = i) with
        | some o => opVal o.2.val
        | none => none)
      let dt := dtSince (x.view.head?.map (·.1)) ts
      let r := evalPioc x.set x.mem l dt
      let (o0, v0, a0) : ElOut × Nat × Word := match x.view with
        | (_, o, v, a) :: _ => (o, v, a)
        | [] => (noOut, 0, 0)
      let valid := ops.all x.opOk
      let y := x.timeHeld valid dt
      let hq := if v0 = 1 then x.hq else o0.q
      let (o, m, v, a) : ElOut × ElMem × Nat × Word := match x.stance valid y.held with
        | 0 => ({ r.1 with q := q }, r.2.1, 0, w32 r.2.2)
        | 1 => ({ o0 with q := hq ||| q }, x.mem, 1, a0)
        | _ => ({ noOut with q := q }, x.fresh, 2, 0)
      let s1 := s.putSlot n { y with mem := m, hq := hq, view := ((ts, o, v, a) :: x.view).take 12 }
      if v ≠ 0 && v ≠ v0 then s1.flag ELE 9 else s1

/-- The per-sample operate bit of a PIOC slot. -/
def State.piocOper (s : State) (n : Nat) : Bool := match (s.slot n).view with
  | (_, o, _, _) :: _ => o.oper
  | [] => false

/-! ### Commands -/

/-- The role that a PDIF slot is set to, by its registers. -/
def State.roleOf (s : State) (n : Nat) : Option Int :=
  if s.g ELE_CFG_type [n] = T_PDIF then some (nearLow (r32 (s.rd (0x64000 + 64 * n + 16)))) else none

/-- Stores the settings of a slot. -/
def State.putSettings (s : State) (n : Nat) (l : List Word) : State :=
  s.each (List.range 16) fun s k => s.p ELE_SET [n, k] (nth l k 0).toNat

/-- ELE_SETW (R206, R207). -/
def eleSetw (d : Desc) (buf : List Byte) (s : State) : State :=
  if s.inSt [DAWN, NIGHT] then s.complete d 0x0601 ST_NOT_NOW
  else
    let len := d.len.toNat
    let cnt0 := min len 64 / 4
    let first := d.b.toNat % 16
    let cnt := min cnt0 (16 - first)
    let n := d.rf.toNat % 256
    let keep := bitAt d.rf.toNat 8
    let s1 := (s.clampDesc d 4 (b2n (4 * cnt0 ≠ len))).clampDesc d 4 (b2n (cnt ≠ cnt0))
    if cnt = 0 && keep then s1.complete d 0x0601 ST_DONE
    else
      let ws := (List.range cnt).map fun i => BitVec.ofNat 32 (leAt buf (4 * i) 4)
      let (l, c) := settingWrite (s1.g ELE_CFG_type [n]) first (s1.settings n) ws
      let s2 := (s1.putSettings n l).each c fun s k =>
        if first ≤ k && k < first + cnt then s.clampDesc d 8 1 else s.clampReg (0x64000 + 64 * n + 4 * k) 1
      let s3 := if keep && s2.roleOf n = s.roleOf n then s2 else s2.putSlot n { s2.slot n with clr := true }
      { s3 with ele := { s3.ele with setw := s3.ele.setw ++ [(n, d)] } }

/-- ELE_RESULT (R209, R210). -/
def eleResult (d : Desc) (s : State) : State :=
  let n := d.rf.toNat % 256
  if s.inSt [DAWN, NIGHT] || (s.slot n).mode ≠ M_HOST then s.complete d 0x0611 ST_NOT_NOW
  else { s with ele := { s.ele with results := s.ele.results ++ [(n, d)] } }

/-- HOST_RESULT_AGE_EXPIRY (R211): the result in force of slot n has an age above 2 in the last frame. -/
def hostResultAgeExpiry (n : Nat) (s : State) : State :=
  let x := s.slot n
  match x.res with
  | some (k, _) =>
    if x.mode = M_HOST && !x.stale && 2 < resultAge s.dch.frame.seq k then
      (s.putSlot n { x with stale := true, res := none, out := { x.out with q := x.out.q ||| Q_STALE } }).flag ELE 8
    else s
  | none => s

/-- Whether the timer or integrator of a slot with start has reached its setting (R199, R219, R236, R256). -/
def ElSlot.timerDue (x : ElSlot) : Bool :=
  let t (k : Nat) : Bool := decide (x.val k ≤ x.mem.tst)
  x.out.start && match x.typ with
  | 2 => decide (1 ≤ x.mem.g) && t 8
  | 5 => t 6
  | 6 => decide (1 ≤ x.mem.g)
  | 7 => decide (1 ≤ x.mem.g)
  | 8 => t 6
  | 9 => t 6
  | 10 => t 7
  | 11 => t 11
  | 12 => t 10
  | 14 => (x.out.x1 && t 12) || (x.out.x2 && decide (x.val 14 ≤ x.mem.trr))
  | 15 => (x.role = 0 || (x.role = 2 && x.icode 13 < 0)) && t 10
  | _ => false

/-- ELEMENT_TIMER_EXPIRY (R199): the slot operates, with the phase operate bits of its phase start bits. -/
def elementTimerExpiry (n : Nat) (s : State) : State :=
  let x := s.slot n
  if (x.mode = M_HW || x.mode = M_TEST) && x.vst = 0 && x.timerDue && !x.out.oper then
    (s.putSlot n { x with out := { x.out with oper := true, po := if x.typ = T_RBRF then 0 else x.out.ps } }).raise (128 + n / 32)
  else s

/-- HOLD_LIMIT_EXPIRY (R202): a slot that has held for longer than thold blocks; a PIOC slot by its state per sample (R200). -/
def holdLimitExpiry (n : Nat) (s : State) : State :=
  let x := s.slot n
  if x.typ = T_PIOC then match x.view with
    | (ts, o, 1, _) :: l =>
      if x.val 3 < x.held then
        (s.putSlot n { x with view := (ts, { noOut with q := o.q }, 2, 0) :: l, lim := true, mem := x.fresh }).flag ELE 9
      else s
    | _ => s
  else if x.vst = 1 && x.val 3 < x.held then
    s.putEval n { x with out := { noOut with q := x.out.q }, vst := 2, lim := true, mem := x.blockMem x.mem, acc := 0 }
  else s

/-- TST_OPND (R646): `count` operand values from the buffer's layout of R208 from byte 16 on. A PIOC slot uses them from its next
sample (R648), any other from the next frame. -/
def tstOpnd (d : Desc) (buf : List Byte) (s : State) : State :=
  let n := d.rf.toNat % 256
  let x := s.slot n
  if s.inSt [DAWN, NIGHT] || x.mode ≠ M_TEST then s.complete d 0x0901 ST_NOT_NOW
  else
    let cnt := (s.liveOps x s.dch.frame.words).length
    let c0 := leAt buf 4 2
    let v := (List.range cnt).map fun i => (BitVec.ofNat 32 (leAt buf (16 + 8 * i) 4), leAt buf (22 + 8 * i) 1)
    let s0 := s.clampDesc d 8 (b2n (c0 ≠ cnt))
    let s1 := if x.typ = T_PIOC then s0.putSlot n { s0.slot n with subst := some v } else s0
    { s1 with ele := { s1.ele with opnds := s1.ele.opnds ++ [(n, d, v)] } }

/-- What ELE_ACC[n] reads: for PTTR the thermal level as it is kept (R264). -/
def State.eleAcc (s : State) (n : Nat) : Word := if (s.slot n).typ = T_PTTR then w32 (s.slot n).mem.g else (s.slot n).acc

/-- What ELE_STAT[n] reads. -/
def State.eleStat (s : State) (n : Nat) : Nat :=
  let x := s.slot n
  let o := x.out
  o.q * 2 ^ 24 + x.vst * 2 ^ 22 + b2n x.stale * 2 ^ 21 + b2n (x.mode = M_TEST) * 2 ^ 20 + o.ps * 2 ^ 16 + o.po * 2 ^ 12
    + b2n o.x2 * 8 + b2n o.x1 * 4 + b2n o.oper * 2 + b2n o.start

end Sys2Proof.Machine
end

