-- ==== Sys2Proof/Machine/Sluice.lean ====
section
/-! DEFINITION. The Sluice: inputs, dependencies, row logic, enables, drive and seal, destinations, the slack monitor and trip-circuit supervision (R267 to R304). -/

namespace Sys2Proof.Machine

/-! ### Dependencies (R268, R269, R276) -/

/-- The slots that slot m names through selected links, in force and as last written (R269). -/
def State.slotLinks (s : State) (m : Nat) : List Nat :=
  let f (w : Word) : List Nat := (if bits w 9 8 ≠ 0 then [bits w 7 0] else []) ++ (if bits w 21 20 ≠ 0 then [bits w 19 12] else [])
    ++ (if bits w 31 30 = 3 then [bits w 29 22] else [])
  f (s.slot m).lnk ++ f (s.rd (0x60900 + 4 * m))

/-- The slots reached from some slots at any depth; 256 rounds reach every slot. -/
def reachAll (f : Nat → List Nat) : Nat → List Nat → List Nat → List Nat
  | 0, seen, _ => seen
  | n + 1, seen, front =>
    let next := ((front.map f).flatten.filter fun m => !seen.contains m).eraseDups
    if next.isEmpty then seen else reachAll f n (seen ++ next) next

/-- The slots on which something that names the slots of a list depends. -/
def State.reach_ (s : State) (l : List Nat) : List Nat := reachAll s.slotLinks 256 l l

/-- Whether a slot is in HOST mode in force or as last written. -/
def State.hostSlot (s : State) (m : Nat) : Bool := (s.slot m).mode = M_HOST || s.g ELE_CFG_mode [m] = M_HOST

/-- Whether a slot is, or leads to, a slot in HOST mode. -/
def State.hostDep (s : State) (m : Nat) : Bool := (s.reach_ [m]).any s.hostSlot

/-- The selected inputs and the block inputs of a row, in some words of selection and of block inputs. -/
def selInputs (sel : List Word) : List Nat := (sel.zipIdx.map fun (w, i) => (bitsOf 32 w.toNat).map (32 * i + ·)).flatten
def blkInputs (blk : List Word) : List Nat :=
  ((blk.map fun w => [bits w 8 0, bits w 24 16]).flatten).filter (· ≠ 511)

/-- The shadow of row r (R274). -/
def State.shadow (s : State) (r : Nat) : RowCfg := {
  sel := (List.range 11).map fun w => s.rd (0x71000 + 64 * r + 4 * w), blk := [s.rd (0x70200 + 8 * r), s.rd (0x70204 + 8 * r)]
  dst := s.rd (0x70400 + 4 * r), dst2 := s.rd (0x70500 + 4 * r), sealCfg := s.rd (0x70600 + 4 * r) }

/-- The inputs that a row's configuration selects or blocks on. -/
def RowCfg.inputs (x : RowCfg) : List Nat := selInputs x.sel ++ blkInputs x.blk

/-- The slots that row r selects or blocks on, in force and once a commit is in force; a shadow that has not been committed is
part of neither (R269). -/
def State.rowSlots (s : State) (r : Nat) : List Nat :=
  let x := s.row r
  ((x.inputs ++ x.commit.toList.flatMap RowCfg.inputs).filter (· < 256)).eraseDups

/-- Whether row r counts as an enabled class-S row (R269). -/
def State.rowIsS (s : State) (r : Nat) : Bool := (s.row r).cls || s.on TMX_ROW_cls [r]
def State.enabledS (s : State) (r : Nat) : Bool := (s.on TMX_ROW_en [r] || (s.row r).armed) && s.rowIsS r

/-- Whether an enabled class-S row depends on slot n (R196). -/
def State.classSOn (s : State) (n : Nat) : Bool :=
  (List.range 64).any fun r => s.enabledS r && (s.reach_ (s.rowSlots r)).contains n

/-- A block word without the block inputs that lead to a HOST slot. -/
def clearBlk (bad : Nat → Bool) (w : Word) : Word :=
  let w1 := if bits w 8 0 < 256 && bad (bits w 8 0) then setBits w 8 0 511 else w
  if bits w 24 16 < 256 && bad (bits w 24 16) then setBits w1 24 16 511 else w1

/-- A selection word w of inputs 32i to 32i + 31 without the slots that lead to a HOST slot. -/
def clearSel (bad : Nat → Bool) (w : Word) (i : Nat) : Word :=
  BitVec.ofNat 32 (((bitsOf 32 w.toNat).filter fun b => 32 * i + b < 256 && bad (32 * i + b)).foldl (fun v b => putBit v b false) w.toNat)

/-- A configuration without them. -/
def RowCfg.clear (bad : Nat → Bool) (x : RowCfg) : RowCfg :=
  { x with sel := x.sel.zipIdx.map (fun (w, i) => clearSel bad w i), blk := x.blk.map (clearBlk bad) }

/-- What `RowCfg.clear` clears: each selection bit as its input, and block input j that names slot i as 1000 · (j + 1) + i. -/
def RowCfg.cleared (bad : Nat → Bool) (x : RowCfg) : List Nat :=
  (selInputs x.sel).filter (fun i => decide (i < 256) && bad i)
    ++ (((x.blk.flatMap fun w => [bits w 8 0, bits w 24 16]).zipIdx).filter fun (i, _) => decide (i < 256) && bad i).map
      fun (i, j) => 1000 * (j + 1) + i

/-- The clamp of R276 on row r, in force, in the shadow and in a commit that waits: the state, and how many bits and block
inputs were cleared, one that several of them hold counted once. -/
def State.clearHost (s : State) (r : Nat) : State × Nat :=
  let x := s.row r
  let bad := s.hostDep
  let sh := s.shadow r
  let n := (([x.toRowCfg, sh] ++ x.commit.toList).flatMap (RowCfg.cleared bad)).eraseDups.length
  let s1 := s.putRow r { x with toRowCfg := x.toRowCfg.clear bad, commit := x.commit.map (RowCfg.clear bad) }
  let y := sh.clear bad
  let s2 := s1.each y.sel.zipIdx fun s (w, i) => s.wr (0x71000 + 64 * r + 4 * i) w
  (s2.each y.blk.zipIdx fun s (w, i) => s.wr (0x70200 + 8 * r + 4 * i) w, n)

/-- Whether a slot is evaluated on cascade operands by itself (R268). -/
def State.cascSelf (s : State) (m : Nat) : Bool := (s.slot m).central || (s.slot m).remGroup.any s.cascCfg

/-- Whether row r uses cascade operands, by the configuration in force (R268). -/
def State.rowCasc (s : State) (r : Nat) : Bool :=
  let l := (s.row r).inputs
  let links (m : Nat) : List Nat := (s.slot m).linked
  l.any (336 ≤ ·) || (reachAll links 256 (l.filter (· < 256)) (l.filter (· < 256))).any s.cascSelf

/-! ### Enables (R271, R277 to R280) -/

/-- Whether an enabled class-S row exists. -/
def State.anyS (s : State) : Bool := (List.range 64).any fun r => s.on TMX_ROW_en [r] && s.rowIsS r

/-- The set point in force, at least 0.72 V while a class-S row is enabled (R279). -/
def State.vFloor (s : State) : State :=
  if s.anyS && s.g PWR_VSTAT_setp < 720 then s.p PWR_VSTAT_setp [] 720 else s

/-- An enable of row r comes into force; a class-S row loses selections that lead to a HOST slot (R276). -/
def State.armRow (s : State) (r : Nat) : State :=
  let s1 := s.putRow r { s.row r with armed := true, deferred := false }
  if s.rowIsS r then
    let (s2, n) := s1.clearHost r
    s2.clampReg (0x70100 + 4 * r) n
  else s1

/-- The enable of row r is written: 0 to 1 on a class-S row waits for VCORE (R280). -/
def State.rowEnable (s : State) (r : Nat) (en : Bool) : State :=
  let was := s.on TMX_ROW_en [r]
  let s1 := s.p TMX_ROW_en [r] (b2n en)
  if !en then s1.putRow r { s1.row r with armed := false, deferred := false }
  else if was then s1
  else if s.rowIsS r && s.g PWR_VSTAT_meas < 720 then
    ((s1.putRow r { s1.row r with deferred := true }).vFloor).flag TMX 12
  else (s1.armRow r).vFloor

/-- The stop state of the rows that BCP b controls (R278). -/
def State.stopRows (s : State) (b : Nat) : State :=
  s.each (List.range 64) fun s r =>
    if (s.row r).ctl = b + 1 then
      match (s.row r).stop with
      | 0 => s.rowEnable r true
      | 1 => s.rowEnable r false
      | _ => s
    else s

/-- A write of TMX_COMMIT (R274, R276). -/
def State.commitRow (s : State) (r : Nat) : State :=
  let s1 := s.putRow r { s.row r with commit := some (s.shadow r) }
  if s.rowIsS r then
    let (s2, n) := s1.clearHost r
    s2.clampReg 0x70700 n
  else s1

/-- The rows take what has been written since the last frame (R274, R275, R280). -/
def State.takeRow (s : State) (r : Nat) : State :=
  let x := s.row r
  let cls := s.on TMX_ROW_cls [r]
  let x1 : RowSt := match x.commit with
    | some c => { x with toRowCfg := c, commit := none }
    | none => x
  let x2 := if x.cls ≠ cls then { x1 with drive := false, sealOn := false } else x1
  let s1 := s.putRow r { x2 with
    cls := cls, tpol := s.on TMX_ROW_tpol [r], tblk := s.on TMX_ROW_tblk [r], ctl := s.g TMX_ROW_ctl [r], stop := s.g TMX_ROW_stop [r] }
  if x.deferred && s.on PWR_VSTAT_ok720 then s1.armRow r else s1

/-! ### Inputs (R267) -/

/-- The received teleprotection bit b into the Sluice: the OR over the ports of TPC_SLUMAP (R542). -/
def State.teleIn (s : State) (b : Nat) : Bool :=
  let m := s.g TPC_SLUMAP [b / 8] / 16 ^ (b % 8) % 16
  (bitsOf 4 m).any fun p => bitAt (s.g TPC_CMDST_rx [p]) b

/-- Inputs 0 to 335 at a frame evaluation, as bits. -/
def State.frameInputs (s : State) : Nat :=
  (List.range 8).foldl (fun a j => a + s.operBits j * 2 ^ (32 * j)) 0
    + s.g FIO_DISTATE * 2 ^ 256 + s.tmx.gbits * 2 ^ 288
    + maskSum ((List.range 16).filter s.teleIn) * 2 ^ 320

/-- The cascade bits of this device's own publication of the frame (R293). -/
def State.ownCasc (s : State) : Nat := if s.inSt [NOON, DUSK] then s.tmx.cFirst ||| s.tmx.cPrev else 0

/-- The cascade inputs: the OR over every member's publication of the frame (R294). -/
def State.cascInputs (s : State) : Nat := s.tmx.pubs.foldl (fun a p => a ||| p.2) s.ownCasc

/-! ### Row logic (R270) -/

/-- The inputs that count as 0 for tpol: slots in TEST mode. -/
def State.testSlots (s : State) : Nat := maskSum ((List.range 256).filter fun n => (s.slot n).mode = M_TEST)

/-- The activity of row r on some inputs. -/
def State.rowActivity (s : State) (r ins test : Nat) : Bool :=
  let x := s.row r
  let eff := if x.tpol then ins ^^^ (ins &&& test) else ins
  let raw := (selInputs x.sel).any (bitAt eff)
  let blk (w : Word) : Bool :=
    (bits w 8 0 ≠ 511 && (bitAt ins (bits w 8 0) ^^ w.getLsbD 15)) || (bits w 24 16 ≠ 511 && (bitAt ins (bits w 24 16) ^^ w.getLsbD 31))
  raw && !(x.blk.any blk) && x.armed

/-- A rising act: its TMX_REVT bit, its counter, its source, and a trigger for the recorder (R300). -/
def State.rowRise (s : State) (r : Nat) : State :=
  let s1 := (s.p TMX_REVT [r / 32] (putBit (s.g TMX_REVT [r / 32]) (r % 32) true)).cnt TMX_REVTCNT_count [r]
  let s2 := s1.raise (137 + r / 16)
  { s2 with tmx := { s2.tmx with rose := s2.tmx.rose ++ [r] } }

/-- A trip cancels the scheduled requests of the outputs in a kmask (R284). -/
def State.kmaskCancel (s : State) (mask : Nat) : State :=
  if mask = 0 then s
  else (s.p FIO_REQST_high [] (s.g FIO_REQST_high - (s.g FIO_REQST_high &&& mask))).cancelOutputs mask

/-- Whether the breaker contact of a seal configuration showed open at t0 of the last frame, and the current check of its slot. -/
def State.sealOpen (s : State) (w : Word) : Bool := s.di (bits w 21 17) = !w.getLsbD 16
def State.sealChk (s : State) (w : Word) : Bool := (s.slot (bits w 29 22)).out.start

/-- Drive and seal of a class-S row at an evaluation in NOON or DUSK (R285): whether the drive started and whether the
seal ran into its limit. -/
def RowSt.update (x : RowSt) (act chk open_ : Bool) (tnow tcmd : Time) : RowSt × Bool × Bool :=
  let rst := bits x.sealCfg 31 30
  let tmax := bits x.sealCfg 15 8 * 100 * oneMs
  let tmin := bits x.sealCfg 7 0 * 5 * oneMs
  if act then
    if x.wait then ({ x with act := true }, false, false)
    else ({ x with act := true, drive := true, tc := if x.drive then x.tc else tcmd, sealOn := decide (rst ≠ 0) }, !x.drive, false)
  else if x.drive then
    let drop := (rst = 1 && !chk) || (rst = 2 && open_) || (rst = 3 && (!chk || open_))
    let seal1 := x.sealOn && !drop
    let lim := seal1 && decide (0 < tmax) && decide (x.tc + tmax ≤ tnow)
    let seal2 := seal1 && !lim
    ({ x with act := false, sealOn := seal2, drive := seal2 || !(decide (x.tc + tmin ≤ tnow)), wait := false }, false, lim)
  else ({ x with act := false, wait := false }, false, false)

/-- One evaluation of row r (R270, R284, R285, R300, R301, R302). -/
def State.evalRow (s : State) (ins test : Nat) (tnow tcmd : Time) (r : Nat) : State :=
  let x := s.row r
  let act := s.rowActivity r ins test
  let rise := act && !x.act
  let live := s.inSt [NOON, DUSK] && x.cls && !x.tblk
  let (y, started, lim) : RowSt × Bool × Bool :=
    if live then x.update act (s.sealChk x.sealCfg) (s.sealOpen x.sealCfg) tnow tcmd
    else ({ x with act := act, drive := false, sealOn := false, wait := x.tblk && act }, false, false)
  let s1 := s.putRow r { y with tnow := tnow }
  let s2 := if rise then s1.rowRise r else s1
  let s3 := if lim then s2.flag TMX 10 else s2
  if live && (rise || started) then s3.kmaskCancel (bits x.dst2 31 16) else s3

/-! ### Destinations (R281 to R283, R300, R302) -/

/-- Whether row r drives its destinations now. -/
def State.rowDrives (s : State) (r : Nat) : Bool :=
  let x := s.row r
  !x.tblk && s.inSt [NOON, DUSK] && (if x.cls then x.drive else x.act)

/-- The OR of a mask over the rows that drive. -/
def State.orRows (s : State) (f : RowSt → Nat) : Nat :=
  (List.range 64).foldl (fun a r => if s.rowDrives r then a ||| f (s.row r) else a) 0

/-- The Sluice command to the outputs (R282). -/
def State.sluiceCmd (s : State) : Nat := s.orRows fun x => bits x.dst 15 0

/-- The teleprotection bits that the rows drive on port p (R283). -/
def State.teleRows (s : State) (p : Nat) : Nat :=
  s.orRows fun x => if x.dst2.getLsbD 8 && bitAt (bits x.dst2 3 0) p then 2 ^ bits x.dst2 7 4 else 0

/-- The cascade bit of a row. -/
def RowSt.cbit (x : RowSt) : Nat := if bits x.dst 20 16 < 16 then 2 ^ bits x.dst 20 16 else 0

/-- The cascade bits that some rows drive. -/
def State.cascRows (s : State) (l : List Nat) : Nat :=
  l.foldl (fun a r => if s.rowDrives r then a ||| (s.row r).cbit else a) 0

/-! ### The passes of a frame (R272, R293 to R297) -/

/-- The rows of class S without and with cascade operands, and those of class N. -/
def State.rowsS (s : State) (casc : Bool) : List Nat := (List.range 64).filter fun r => (s.row r).cls && s.rowCasc r = casc
def State.rowsN (s : State) : List Nat := (List.range 64).filter fun r => !(s.row r).cls

/-- Slack of a frame: B − (tcmd − t0) in ns (R295 to R297); `ack` is tcmd after this device's t0, and `late` the latest t0 of R288
after it, which counts while B is that of the cascade. -/
def State.slack (s : State) (ack late : Nat) : State :=
  if !s.inSt [NOON, DUSK] then s
  else
    let casc := (List.range 64).any fun r => (s.row r).cls && (s.row r).armed && s.rowCasc r
    let b : Nat := if casc then 65000 else 50000
    let v := satI (-32768) 32767 ((b : Int) - ack + (if casc then (late : Int) else 0))
    let s1 := (s.p TMX_SLACK_bound [] b).p TMX_SLACK_slack [] (wrap 16 v)
    let s2 := if v < sgn 16 (s1.g TMX_SLACKMIN_min) then s1.p TMX_SLACKMIN_min [] (wrap 16 v) else s1
    let s3 := if v * 10 < 2 * b then (s2.cnt TMX_SLACKLOW).flag TMX 8 else s2
    if v < 0 then { s3 with tmx := { s3.tmx with misses := s3.tmx.misses + 1 } }.flag TMX 9
    else { s3 with tmx := { s3.tmx with misses := 0 } }

/-- The first class-S pass: the inputs are taken, and the rows without cascade operands are evaluated. -/
def State.passOne (s : State) (t0 : Time) (ack : Nat) : State :=
  let s0 := s.each (List.range 64) State.takeRow
  let ins := s0.frameInputs + s0.tmx.ins / 2 ^ 336 * 2 ^ 336
  let s1 := { s0 with tmx := { s0.tmx with
    ins := ins, pubs := [], missed := false, t0 := t0, cPrev := s0.tmx.cLater } }
  let l := s1.rowsS false
  let s2 := s1.each l fun s r => s.evalRow ins s1.testSlots t0 (t0 + ack * oneNs) r
  { s2 with tmx := { s2.tmx with cFirst := s2.cascRows l } }

/-- The class-S pass for rows with cascade operands, and the class-N pass. -/
def State.passTwo (s : State) (ack : Nat) : State :=
  let ins := s.tmx.ins % 2 ^ 336 + s.cascInputs * 2 ^ 336
  let ins1 := ins / 2 ^ 256 * 2 ^ 256 + (List.range 8).foldl (fun a j => a + s.operBits j * 2 ^ (32 * j)) 0
  let t0 := s.tmx.t0
  let s1 := { s with tmx := { s.tmx with ins := ins1, second := false } }
  let l := s1.rowsS true
  let n := s1.rowsN
  let s2 := (s1.each l fun s r => s.evalRow ins1 s1.testSlots t0 (t0 + ack * oneNs) r)
  let s3 := s2.each n fun s r => s.evalRow ins1 s1.testSlots t0 (t0 + ack * oneNs) r
  { s3 with tmx := { s3.tmx with cLater := s3.cascRows (l ++ n) } }

/-- Whether the second pass of a frame must wait for publications: in a stack, when a row, a slot or a remote group uses them. -/
def State.needsCascade (s : State) : Bool :=
  s.awaits && ((List.range 64).any s.rowCasc || !s.ele.wait.isEmpty || s.tableWaits)

/-- The PIOC path at a 14 400 sample that became available at a time (R292, R296): the rows that select or block on a
PIOC slot. -/
def State.piocPath (s : State) (avail : Time) (ack : Nat) : State :=
  if !s.inSt [MORNING, NOON, DUSK, SAFE] then s
  else
    let pioc := (List.range 256).filter fun n => (s.slot n).typ = T_PIOC
    let rows := (List.range 64).filter fun r =>
      let x := s.row r
      x.cls && x.armed && x.inputs.any pioc.contains
    if rows.isEmpty then s
    else
      let ins := pioc.foldl (fun v n => putBit v n (s.piocOper n)) s.tmx.ins
      let s1 := s.each rows fun s' r => s'.evalRow ins s.testSlots avail (avail + ack * oneNs) r
      if !s.inSt [NOON, DUSK] then s1
      else
        let v := satI (-32768) 32767 ((10000 : Int) - ack)
        let s2 := s1.p TMX_PSLACK_last [] (wrap 16 v)
        let s3 := if v < sgn 16 (s2.g TMX_PSLACK_min) then s2.p TMX_PSLACK_min [] (wrap 16 v) else s2
        if v < 0 then s3.flag TMX 9 else s3

/-- Drives and seals end (NIGHT, SAFE, a SYS reset). -/
def State.tmxClear (s : State) : State :=
  { s with tmx := { s.tmx with second := false, rows := s.tmx.rows.map fun (x : RowSt) =>
    { x with drive := false, sealOn := false } } }

/-! ### Events of the rows -/

/-- SEAL_LIMIT_EXPIRY of row r (R285): at an evaluation with tnow at or after tc + tmax the seal is released and sealto sets. -/
def sealLimitExpiry (r : Nat) (s : State) : State :=
  let x := s.row r
  let tmax := bits x.sealCfg 15 8 * 100 * oneMs
  let tmin := bits x.sealCfg 7 0 * 5 * oneMs
  if x.cls && !x.act && x.drive && x.sealOn && 0 < tmax && x.tc + tmax ≤ x.tnow then
    (s.putRow r { x with sealOn := false, drive := !(decide (x.tc + tmin ≤ x.tnow)) }).flag TMX 10
  else s

/-- MIN_PULSE_END of row r (R285, R286): the drive of a row without act and seal ends at an evaluation with tnow at or after
tc + tmin. -/
def minPulseEnd (r : Nat) (s : State) : State :=
  let x := s.row r
  let tmin := bits x.sealCfg 7 0 * 5 * oneMs
  if x.cls && !x.act && x.drive && !x.sealOn && x.tc + tmin ≤ x.tnow then s.putRow r { x with drive := false } else s

/-! ### Trip-circuit supervision (R298) -/

/-- Sets a bit of TMX_TCSST; its entry sets TMX_STS.tcs. -/
def State.tcsBit (s : State) (f : Fld) (o : Nat) (b : Bool) : State :=
  let was := bitAt (s.g f) o
  let s1 := s.p f [] (putBit (s.g f) o b)
  if b && !was then s1.flag TMX 11 else s1

/-- A result of a converter and external input, in per mille of full scale (R298). -/
def State.tcsResult (s : State) (conv input : Nat) (permille : Rat) : State :=
  s.each (List.range 16) fun s o =>
    if s.on TMX_TCS_en [o] && s.g TMX_TCS_aux [o] = conv && s.g TMX_TCS_in [o] = input
        && !bitAt (s.g FIO_CMD_low) o then
      let out := decide (permille < (s.g TMX_TCS_vlo [o] : Rat)) || decide ((s.g TMX_TCS_vhi [o] : Rat) < permille)
      if out then
        let n := nth s.tmx.tcs o 0 + 1
        let s1 := { s with tmx := { s.tmx with tcs := s.tmx.tcs.set o (min n 16) } }
        if s.g TMX_TCS_ncnt [o] ≤ n then s1.tcsBit TMX_TCSST_off o true else s1
      else { s with tmx := { s.tmx with tcs := s.tmx.tcs.set o 0 } }.tcsBit TMX_TCSST_off o false
    else s

/-- TCS_ON_CHECK of output o: the current sense has exceeded 20 mA, or 5 ms have passed since the on-command. -/
def tcsOnCheck (o : Nat) (sensed : Bool) (s : State) : State := match nth s.tmx.onAt o none with
  | none => s
  | some t =>
    if !s.on TMX_TCS_onchk [o] then { s with tmx := { s.tmx with onAt := s.tmx.onAt.set o none } }
    else if sensed then { s with tmx := { s.tmx with onAt := s.tmx.onAt.set o none } }.tcsBit TMX_TCSST_on o false
    else if t + 5 * oneMs ≤ s.mer.now then
      { s with tmx := { s.tmx with onAt := s.tmx.onAt.set o none } }.tcsBit TMX_TCSST_on o true
    else s

/-- What TMX_ROW[r] reads in its live bits (R268, R271, R285). -/
def State.rowStat (s : State) (r : Nat) : Nat :=
  let x := s.row r
  b2n x.armed * 2 ^ 19 + b2n x.sealOn * 2 ^ 18 + b2n x.drive * 2 ^ 17 + b2n (s.rowCasc r) * 2 ^ 16

/-- TMX_OUT and TMX_SEALST. -/
def State.outBits (s : State) (j : Nat) : Nat := maskSum ((List.range 32).filter fun b => (s.row (32 * j + b)).act)
def State.driveBits (s : State) (j : Nat) : Nat := maskSum ((List.range 32).filter fun b => (s.row (32 * j + b)).drive)

end Sys2Proof.Machine
end

