-- ==== Sys2Proof/Machine/Fio.lean ====
section
/-! DEFINITION. Field inputs and outputs: the counter filter and its decisions, raw edges, requests, the combined command and its word, the safe state, faults and test pulses (R440 to R469). -/

namespace Sys2Proof.Machine

/-! ### Digital inputs (R441 to R447) -/

def emptyDi : DiSt := ⟨0, false, 0, false, 0, 0, none⟩
def State.diSt (s : State) (i : Nat) : DiSt := nth s.fio.di i emptyDi
def State.putDi (s : State) (i : Nat) (x : DiSt) : State := { s with fio := { s.fio with di := s.fio.di.set i x } }

/-- The tick of input i in µs. -/
def State.diTick (s : State) (i : Nat) : Nat := 10 ^ s.g FIO_DICFG_tick [i]

/-- The raw edges that wait go to their ring while it has posted descriptors. -/
def pumpEdges : Nat → State → State
  | 0, s => s
  | n + 1, s => match s.fio.edges, s.ringFor CLS_FIOE 0 with
    | d :: ds, some r =>
      if s.posted r = 0 then s
      else pumpEdges n { s.ready r d [(8, 0)] with fio := { s.fio with edges := ds } }
    | _, _ => s

def State.sendEdges (s : State) : State := pumpEdges s.fio.edges.length s

/-- A raw edge that finds no posted descriptor waits in the Cistern (R447); none without room. -/
def State.edgeWait (s : State) (d : RDesc) : Option State := (s.queue 8 0 d.bytes).map fun s1 =>
  { s1 with fio := { s1.fio with edges := s1.fio.edges ++ [d] } }

/-- A raw edge is dropped: the next one states how many (R447). -/
def State.edgeLost (s : State) : State :=
  let s1 := ((s.noBuf 8).cnt FIO_EDGELOST_count).flag FIO 14
  { s1 with fio := { s1.fio with edgeGap := s1.fio.edgeGap + 1 } }

/-- Raw edges that had a descriptor and have not been written wait again, before the others (R561, R575). -/
def State.edgesBack (s : State) (l : List Bound) : State :=
  let s1 := ({ s with fio := { s.fio with edges := [] } } : State).each l fun s b =>
    if b.2.isEmpty then (s.edgeWait b.1).getD s.edgeLost else { s with fio := { s.fio with edges := s.fio.edges ++ [b.1] } }
  { s1 with fio := { s1.fio with edges := s1.fio.edges ++ s.fio.edges } }

/-- FIO_EDGE (R447): a raw edge of input i in the sample of a Meridian microsecond. -/
def State.rawEdge (s : State) (us i : Nat) (lv : Bool) : State :=
  let t := us * oneUs
  let gap := s.fio.edgeGap
  let d : RDesc := ⟨0x0C10, 0, 0, Time.sec t, Time.ns t, gap, i + 256 * b2n lv, if gap = 0 then ST_DONE else ST_GAP, []⟩
  let s1 := { s with fio := { s.fio with edgeGap := 0 } }
  let t := match s.fio.edges, (s.ringFor CLS_FIOE 0).filter fun r => 0 < s.posted r with
    | [], some r => some (s1.ready r d)
    | _, _ => s1.edgeWait d
  t.getD s.edgeLost

/-- The filter of input i starts with a sample (R445). -/
def State.diStart (s : State) (i : Nat) (x : Bool) : State :=
  (s.putDi i { s.diSt i with started := true, cnt := if x then s.g FIO_DICFG_lim [i] else 0, due := none }).p
    FIO_DISTATE [] (putBit (s.g FIO_DISTATE) i x)

/-- DI_SAMPLE: the samples of all inputs, with the Meridian microsecond that they carry (R441). -/
def diSample (us : Nat) (samples : BitVec 32) (s : State) : State :=
  let old := s.g FIO_DIRAW
  let s1 := { s with fio := { s.fio with sampleUs := us } }.p FIO_DIRAW [] samples.toNat
  if s.dev = DAWN then s1
  else s1.each (List.range 32) fun s i =>
    let x := samples.getLsbD i
    if !(s.diSt i).started then s.diStart i x
    else if s.on FIO_DICFG_raw [i] && x ≠ bitAt old i then s.rawEdge us i x
    else s

/-- DI_FILTER_TICK of input i (R442, R444): the tick takes the sample that carries its microsecond; a decision that is due comes
first. -/
def diFilterTick (i : Nat) (s : State) : State :=
  let x := s.diSt i
  let us := s.fio.sampleUs
  let t := us * oneUs
  if s.dev = DAWN || !x.started || x.due.isSome || us % 1000000 % s.diTick i ≠ 0 || x.tickAt = t then s
  else
    let l := s.g FIO_DICFG_lim [i]
    let c0 := min x.cnt l
    let c := if bitAt (s.g FIO_DIRAW) i then min (c0 + 1) l else c0 - 1
    let st := bitAt (s.g FIO_DISTATE) i
    let due := if (c = l && !st) || (c = 0 && st) then some (t, !st, l * s.diTick i) else none
    s.putDi i { x with cnt := c, tickAt := t, due := due }

/-- The input part of DI_DECISION of input i (R443, R446): the state changes and the DI group source is raised. -/
def State.decide_ (s : State) (i : Nat) (t : Time) (lv : Bool) (delay : Nat) : State :=
  let x := s.diSt i
  let s1 := s.putDi i { x with due := none, decT := t, decLevel := lv, decDelay := delay }
  let s2 := (s1.p FIO_DISTATE [] (putBit (s.g FIO_DISTATE) i lv)).p FIO_DITS_0 [i] (Time.sec t)
  s2.raise (180 + i / 8)

/-- FIO_DITS_READ of input i: the rest of the last decision is latched. -/
def fioDitsRead (i : Nat) (s : State) : State :=
  let x := s.diSt i
  let s1 := ((s.p FIO_DITS_1 [i] (Time.ns x.decT)).p FIO_DITS_2_level [i] (b2n x.decLevel)).p FIO_DITS_2_sechi [i]
    (Time.sec x.decT / 2 ^ 32)
  s1.p FIO_DITS_3 [i] x.decDelay

/-! ### The command of an output (R449 to R455) -/

/-- Output o belongs to a pair (R454). -/
def State.paired (s : State) (o : Nat) : Bool := s.on FIO_DOCFG_pair [o / 2 * 2]

/-- The output whose settings apply to o. -/
def State.lead (s : State) (o : Nat) : Nat := if s.paired o then o / 2 * 2 else o

/-- Output o is the odd member of a pair. -/
def State.oddPair (s : State) (o : Nat) : Bool := o % 2 = 1 && s.paired o

/-- The owner request bits: those of outputs with own = 5 follow the PWM output of their unit (R450). -/
def State.ownerBits (s : State) : Nat :=
  maskSum ((List.range 16).filter fun o =>
    if s.g FIO_DOCFG_own [o] = 5 then bitAt (s.g PTMR_STAT_pwm) (s.g FIO_DOCFG_ptmr [o])
    else bitAt (s.g FIO_REQST_low) o)

/-- The OR of the three terms of R449 for output o, from the Sluice command and the owner requests. -/
def State.term (s : State) (sl ow o : Nat) : Bool :=
  bitAt sl o || bitAt (s.g FIO_REQST_high) o || (bitAt ow o && !s.oddPair o)

/-- The combined command (R449, R454), from the Sluice command and the owner requests. -/
def State.combinedOf (s : State) (sl ow : Nat) : Nat :=
  maskSum ((List.range 16).filter fun o =>
    if s.paired o then s.term sl ow (o / 2 * 2) || s.term sl ow (o / 2 * 2 + 1) else s.term sl ow o)

/-- The combined command of the present state. -/
def State.combined (s : State) : Nat := s.combinedOf s.sluiceCmd s.ownerBits

/-- The safe states (R461, R463): off, on, or the state applied at the last refresh before. -/
def State.safeWord (s : State) : Nat :=
  maskSum ((List.range 16).filter fun o => match s.g FIO_DOCFG_safe [s.lead o] with
    | 0 => false
    | 1 => true
    | _ => s.fio.held.getLsbD o)

/-- Whether the word carries the safe states: in MORNING with mlive = 0, in NIGHT and in SAFE (R453, R463). -/
def State.wordIsSafe (s : State) : Bool :=
  !(s.inSt [NOON, DUSK] || (s.dev = MORNING && s.on FIO_WDCFG_mlive))

/-- The word that the digital die sends now, for a combined command. -/
def State.nextWord (s : State) (c : Nat) : Nat := if s.wordIsSafe then s.safeWord else c

/-! ### The state applied by the I/O die (R449, R456 to R458, R461, R464) -/

/-- The members of an output's pair, or the output itself. -/
def State.mates (s : State) (o : Nat) : List Nat := if s.paired o then [o / 2 * 2, o / 2 * 2 + 1] else [o]

/-- Whether thermal shutdown holds output o off: its junction has reached 170 °C and not yet cooled to 150 °C, or the shutdown
is latched (R457). -/
def State.tsdHolds (s : State) (o : Nat) : Bool :=
  s.fio.hot.getLsbD o
    || (bitAt (s.g FIO_FLTST_tsd) o && s.on FIO_DOCFG_tsdlatch [s.lead o] && bitAt (s.g FIO_FLTLAT_lat [1]) o)

/-- Whether a fault holds output o off (R454, R457, R458). -/
def State.faultOff (s : State) (o : Nat) : Bool :=
  (s.mates o).any fun m => bitAt (s.g FIO_FLTST_tsd) m || bitAt (s.g FIO_EXTST_ovc_or_ext) m
    || (s.paired o && bitAt (s.g FIO_FLTST_ovc_or_ext) m)

/-- A test pulse in progress on output o. -/
def State.pulse (s : State) (o : Nat) : Option Pulse := nth s.fio.pulses o none
def State.putPulse (s : State) (o : Nat) (x : Option Pulse) : State :=
  { s with fio := { s.fio with pulses := s.fio.pulses.set o x } }

/-- Whether the I/O die holds the safe states by itself: until the first refresh, and after an expiry (R20, R461). -/
def State.dieSafe (s : State) : Bool := s.fio.hold || s.on FIO_WDSTAT_silent

/-- What the I/O die is to apply: the safe states that it holds by itself, or the word. -/
def State.cmdWord (s : State) : Nat := if s.dieSafe then s.safeWord else s.fio.word.toNat

/-- The state applied: the safe state, then the fault rules, then a test pulse, then the word (R449). -/
def State.applied (s : State) : Nat :=
  if s.dieSafe || s.fio.wordSafe then s.cmdWord
  else maskSum ((List.range 16).filter fun o =>
    !s.faultOff o && (match s.pulse (s.lead o) with
      | some x => decide (x.mode = 2)
      | none => s.fio.word.getLsbD o))

/-! ### The word (R460, R461) -/

/-- What an output's on or off command does: EXTDRV clears at an on command (R458), the on-state check starts (R298). -/
def State.edgeOf (s : State) (o : Nat) (on : Bool) : State :=
  if on then
    let s1 := s.p FIO_EXTST_ovc_or_ext [] (putBit (s.g FIO_EXTST_ovc_or_ext) o false)
    if s.on TMX_TCS_onchk [o] then { s1 with tmx := { s1.tmx with onAt := s1.tmx.onAt.set o (some s.mer.now) } } else s1
  else { s with
    fio := { s.fio with offCyc := s.fio.offCyc.set o s.mer.cyc }
    tmx := { s.tmx with onAt := s.tmx.onAt.set o none } }

/-- The I/O die turns outputs on and off: from what it is to apply to the states of a word. -/
def State.edges (s : State) (w : Nat) : State := s.each (bitsOf 16 (s.cmdWord ^^^ w)) fun s o => s.edgeOf o (bitAt w o)

/-- A word goes to the I/O die, which accepts it as a refresh; outputs that it turns on or off take their commands. -/
def State.sendWord (s0 : State) (w : Nat) : State :=
  let s := s0.edges w
  let b := BitVec.ofNat 16 w
  let sf := s.wordIsSafe
  let held := if sf then s.fio.held else BitVec.ofNat 16 (maskSum ((bitsOf 16 w).filter fun o => !s.faultOff o))
  let f : FioSt := { s.fio with word := b, wordSafe := sf, wordCyc := s.mer.cyc, refCyc := s.mer.cyc, hold := false, held := held }
  ({ s with fio := f }.p FIO_WDSTAT_silent [] 0).emit (.word b sf)

/-- FIO_TPULSE commands whose pulses have ended or been skipped complete (R465). -/
def State.tpulseDone (s : State) (o : Nat) : State :=
  let l := s.fio.tpulse.map fun x => (x.1, BitVec.ofNat 16 (putBit x.2.toNat o false))
  let s1 := { s with fio := { s.fio with tpulse := l.filter fun x => x.2 ≠ 0 } }
  s1.each (l.filter fun x => x.2 = 0) fun s x => s.complete x.1 0x0C02 ST_DONE

/-- The off time of an output, or of both members of its pair, starts now (R458). -/
def State.offNow (s : State) (o : Nat) : State :=
  { s with fio := { s.fio with offCyc := (s.mates o).foldl (fun l m => l.set m s.mer.cyc) s.fio.offCyc } }

/-- The pulse of an output or of its pair ends at once: its command changed or a drive started (R303, R466). -/
def State.pulseCut (s : State) (o : Nat) : State :=
  let l := if (s.pulse o).isSome then o else s.lead o
  if (s.pulse l).isSome then ((s.offNow l).putPulse l none).tpulseDone l else s

/-- The output pins above VSUP/2, for the states applied: those of switches that are on and of outputs in EXTDRV. The pin of a switch
that limits its current is free (R456, R458, R469; log 23). -/
def State.pins (s : State) (a : Nat) : Nat :=
  let lim := a &&& s.g FIO_FLTST_ovc_or_ext
  (if lim = 0 then a else a - lim + (lim &&& (Config.limitedPins s.mer.cyc).toNat)) ||| s.g FIO_EXTST_ovc_or_ext

/-- Everything that follows from the requests: thermal shutdowns that have ended, the requests of PTMR outputs, the
combined command, the pulses that end, the word, and the state applied (R449). -/
def State.driveOut (s : State) : State :=
  let tsd := maskSum ((List.range 16).filter s.tsdHolds)
  let ow := s.ownerBits
  let sl := s.sluiceCmd
  let s1 := (s.p FIO_FLTST_tsd [] tsd).p FIO_REQST_low [] ow
  let c := s1.combinedOf sl ow
  let old := s.g FIO_CMD_low
  let rise := sl &&& (65535 - s.g FIO_CMD_high)
  let s2 := s1.p FIO_CMD [] (sl * 65536 + c)
  let w := s2.nextWord c
  let ends := (old ^^^ c) ||| rise ||| (s.fio.word.toNat ^^^ w)
  let s3 := s2.each (bitsOf 16 ends) State.pulseCut
  let s4 := if s3.inSt [MORNING, NOON, DUSK, SAFE] && (s.fio.word.toNat ≠ w || s.fio.wordSafe ≠ s3.wordIsSafe || s.fio.hold) then
      s3.sendWord w
    else s3
  let a := s4.applied
  s4.p FIO_OUTST [] (s4.pins a * 65536 + a)

/-- The refresh that goes with a frame, an entry into a state, or a repeat (R460, R463). -/
def State.refresh (s : State) : State :=
  if s.dev = DAWN then s else s.sendWord (s.nextWord s.combined)

/-- REFRESH_REPEAT (R460). -/
def refreshRepeat (s : State) : State :=
  if s.inSt [MORNING, NOON, DUSK, SAFE] && 500 * oneUs ≤ s.since s.fio.wordCyc then s.sendWord s.fio.word.toNat else s

/-- LOGIC_SILENT_EXPIRY (R461): after T on the I/O die's own oscillator, whose tolerance is ±15 %. -/
def logicSilentExpiry (s : State) : State :=
  if s.inSt [DAWN, NIGHT] || s.dieSafe || s.since s.fio.refCyc * 100 < s.g FIO_WDCFG_t * oneMs * 85 then s
  else (((s.edges s.safeWord).p FIO_WDSTAT_silent [] 1).cnt FIO_WDSTAT_count).flag FIO 11

/-! ### Requests (R450 to R452) -/

/-- Whether the host owns the request of output o. -/
def State.hostOwns (s : State) (o : Nat) : Bool := s.g FIO_DOCFG_own [o] = 0 && !s.oddPair o

def State.putReq (s : State) (o : Nat) (b : Bool) : State := s.p FIO_REQST_low [] (putBit (s.g FIO_REQST_low) o b)

/-- The host-silent timeout starts afresh (R451, R681). -/
def State.hostFioRestart (s : State) : State := { s with fio := { s.fio with hostCyc := s.mer.cyc, hostDone := false } }

/-- A host request: the masked bits of host-owned outputs take their values (R451). -/
def State.hostReq (s : State) (mask val : Nat) : State :=
  (s.each ((bitsOf 16 mask).filter s.hostOwns) fun s o => s.putReq o (bitAt val o)).hostFioRestart

/-- A write of FIO_REQ. -/
def fioReq (v : Word) (s : State) : State := s.hostReq (bits v 31 16) (bits v 15 0)

/-- FIO_OREQ (R451). -/
def fioOreq (d : Desc) (s : State) : State :=
  if s.inSt [DAWN, NIGHT] then s.complete d 0x0C01 ST_NOT_NOW
  else (s.hostReq (bits d.b 31 16) (bits d.b 15 0)).complete d 0x0C01 ST_DONE

/-- The request of output o goes to its safe value (R452). -/
def State.reqSafe (s : State) (o : Nat) : State := match s.g FIO_DOCFG_safe [o] with
  | 0 => s.putReq o false
  | 1 => s.putReq o true
  | _ => s

/-- The requests of BCP b's outputs go to their safe values (R452). -/
def State.fioFallback (s : State) (b : Nat) : State :=
  s.each ((List.range 16).filter fun o => s.g FIO_DOCFG_own [o] = b + 1) State.reqSafe

/-- FIO_HOST_TIMEOUT (R451, R681). -/
def fioHostTimeout (s : State) : State :=
  if s.on FIO_WDCFG_hwd && !s.fio.hostDone && s.g FIO_WDCFG_t * oneMs ≤ s.since s.fio.hostCyc then
    let s1 := (s.each ((List.range 16).filter s.hostOwns) State.reqSafe).flag FIO 13
    { s1 with fio := { s1.fio with hostDone := true } }
  else s

/-! ### Faults (R456 to R458) -/

/-- A fault latch bit sets: its counter and its flag of FIO_STS. -/
def State.fault (s : State) (k o bit : Nat) : State :=
  ((s.p FIO_FLTLAT_lat [k] (putBit (s.g FIO_FLTLAT_lat [k]) o true)).cnt FIO_FLTCNT_count [k, o]).flag FIO bit

/-- OVERCURRENT of output o (R456). -/
def overcurrent (o : Nat) (s : State) : State :=
  if bitAt (s.g FIO_OUTST_low) o && !bitAt (s.g FIO_FLTST_ovc_or_ext) o then
    (s.p FIO_FLTST_ovc_or_ext [] (putBit (s.g FIO_FLTST_ovc_or_ext) o true)).fault 0 o 9
  else s

/-- OUTPUT_LEAVES_LIMIT of output o (R456). -/
def outputLeavesLimit (o : Nat) (s : State) : State :=
  s.p FIO_FLTST_ovc_or_ext [] (putBit (s.g FIO_FLTST_ovc_or_ext) o false)

/-- THERMAL_SHUTDOWN of output o (R457). -/
def thermalShutdown (o : Nat) (s : State) : State :=
  if s.fio.hot.getLsbD o && bitAt (s.g FIO_FLTST_tsd) o then s
  else
    let s1 := { s with fio := { s.fio with hot := BitVec.ofNat 16 (putBit s.fio.hot.toNat o true) } }
    (s1.p FIO_FLTST_tsd [] (putBit (s.g FIO_FLTST_tsd) o true)).fault 1 o 10

/-- THERMAL_RESUME of output o (R457): its junction has cooled to 150 °C. -/
def thermalResume (o : Nat) (s : State) : State :=
  { s with fio := { s.fio with hot := BitVec.ofNat 16 (putBit s.fio.hot.toNat o false) } }

/-- EXTDRV of output o, which is commanded off (R458): detection starts 2 ms after the off command or the end of a test pulse. -/
def extdrv (o : Nat) (s : State) : State :=
  if bitAt s.cmdWord o || bitAt (s.g FIO_EXTST_ovc_or_ext) o || (s.pulse (s.lead o)).isSome
      || s.since (nth s.fio.offCyc o 0) < 2 * oneMs then s
  else (s.p FIO_EXTST_ovc_or_ext [] (putBit (s.g FIO_EXTST_ovc_or_ext) o true)).fault 2 o 8

/-- EXTDRV_CLEAR of output o (R458). -/
def extdrvClear (o : Nat) (s : State) : State :=
  s.p FIO_EXTST_ovc_or_ext [] (putBit (s.g FIO_EXTST_ovc_or_ext) o false)

/-- A W1C write of FIO_FLTLAT[k] (R457): a thermal shutdown whose junction is still hot sets its bit again (R40). -/
def fioFltlat (k : Nat) (v : Word) (s : State) : State :=
  let lat := s.g FIO_FLTLAT_lat [k]
  let s1 := s.p FIO_FLTLAT_lat [k] (lat - (lat &&& bits v 15 0))
  if k = 1 then
    s1.each ((bitsOf 16 (lat &&& bits v 15 0)).filter s.fio.hot.getLsbD) fun s o => s.fault 1 o 10
  else s1

/-! ### Test pulses (R464 to R466) -/

/-- Whether test pulses may start in the present state. -/
def State.pulsesRun (s : State) : Bool := s.inSt [NOON, DUSK] || (s.dev = MORNING && s.on FIO_WDCFG_mlive)

/-- Whether the pulse of output o is skipped (R466); a pulse in progress and an output whose settings are ignored
skip it too. -/
def State.pulseSkips (s : State) (o : Nat) : Bool :=
  let mode := s.g FIO_TPCFG_mode [o]
  let on := s.fio.word.getLsbD o
  mode = 0 || (mode = 1 && !on) || (mode = 2 && on) || s.faultOff o || s.oddPair o || (s.pulse o).isSome || s.dieSafe
    || (s.mates o).any fun m => bitAt (s.g FIO_FLTST_ovc_or_ext) m || (mode = 1 && bitAt (s.g FIO_CMD_high) m)

/-- The pulse of output o starts or is skipped. -/
def State.startPulse (s : State) (o : Nat) : State :=
  if s.pulseSkips o then s.cnt FIO_TPRES_skip [o]
  else s.putPulse o (some ⟨s.mer.now, s.g FIO_TPCFG_mode [o]⟩)

/-- TEST_PULSE_START of output o: a start instant of its period (R465). -/
def testPulseStart (o : Nat) (s : State) : State :=
  let per := s.g FIO_TPCFG_per [o]
  if s.pulsesRun && s.g FIO_TPCFG_mode [o] ≠ 0 && per ≠ 0 && !s.oddPair o
      && (s.mer.now / oneUs) % (1000 * per) = 1000 * o % (1000 * per) then s.startPulse o
  else s

/-- FIO_TPULSE (R465): it waits for the pulses that it starts; one in progress already is not its own. -/
def fioTpulse (d : Desc) (s : State) : State :=
  let l := bitsOf 16 (bits d.b 15 0)
  let own := l.filter fun o => !s.pulseSkips o
  if !s.pulsesRun then s.complete d 0x0C02 ST_NOT_NOW
  else
    let s1 := s.each l State.startPulse
    if own.isEmpty then s1.complete d 0x0C02 ST_DONE
    else { s1 with fio := { s1.fio with tpulse := s1.fio.tpulse ++ [(d, BitVec.ofNat 16 (maskSum own))] } }

/-- TEST_PULSE_END of output o (R464): whether the pin crossed VSUP/2 in the pulsed direction. -/
def testPulseEnd (o : Nat) (crossed : Bool) (s : State) : State := match s.pulse o with
  | none => s
  | some x =>
    if s.mer.now < x.at_ + s.g FIO_TPCFG_len [o] * oneUs then s
    else
      let s1 := ((s.putPulse o none).cnt FIO_TPRES_done [o]).p FIO_TPRES_fail [o] (b2n !crossed)
      let s2 := s1.offNow o
      (if crossed then s2 else s2.fault 3 o 12).tpulseDone o

/-! ### Resets -/

/-- The FIO block reset beside its registers: the filters and their last decisions restart (R445), pulses end, and FIO_TPULSE commands end. -/
def State.fioReset (s : State) : State :=
  let s1 := s.each (List.range 16) State.pulseCut
  let s2 := s1.each s1.fio.tpulse fun s x => s.complete x.1 0x0C02 ST_DONE
  { s2 with fio := { s2.fio with
      di := s2.fio.di.map fun (x : DiSt) => { emptyDi with tickAt := x.tickAt }
      tpulse := [], pulseEnd := List.replicate 16 none, hostCyc := s2.mer.cyc, hostDone := false } }

end Sys2Proof.Machine
end

