-- ==== Sys2Proof/Machine/Image.lean ====
section
/-! DEFINITION. The block-code image: its header, sections and tables (R347 to R353), the task table with its clamps (R308, R309), and the forced variables (R327). -/

namespace Sys2Proof.Machine

/-- The offset and the length of section s of an image (R347). -/
def secOff (img : List Byte) (k : Nat) : Nat := leAt img (32 + 8 * k) 4
def secLen (img : List Byte) (k : Nat) : Nat := leAt img (36 + 8 * k) 4

/-- The size B of the instance region. -/
def regionSize (img : List Byte) : Nat := leAt img 28 4

/-- Sizes of the base types (R356). -/
def baseSize (t : Nat) : Nat := nth [1, 2, 4, 8, 4, 8, 8] t 0

/-- The size of a type code 0 to 14: a quality variant holds its quality byte at the base size (R356). -/
def codeSize (c : Nat) : Nat := if c < 8 then baseSize c else nth [2, 4, 8, 16, 8, 16, 16] (c - 8) 0

abbrev FB_CODE : Nat := 16

/-! ### The type and instance tables (R350, R351) -/

/-- A type entry. -/
structure TypeEnt where
  code : Nat
  size : Nat
  entry : Nat
  block : Nat
  key : Nat
deriving DecidableEq, Repr

def typeEnt (img : List Byte) (i : Nat) : TypeEnt :=
  let o := secOff img 1 + 24 * i
  ⟨leAt img o 1, leAt img (o + 4) 4, leAt img (o + 8) 4, leAt img (o + 12) 4, leAt img (o + 16) 8⟩

def typeCount (img : List Byte) : Nat := secLen img 1 / 24

/-- An instance entry with its type. -/
structure VarEnt where
  idx : Nat
  key : Nat
  off : Nat
  tidx : Nat
  parent : Nat
  count : Nat
  init : Nat
  typ : TypeEnt
deriving DecidableEq, Repr

def varEnt (img : List Byte) (i : Nat) : VarEnt :=
  let o := secOff img 2 + 24 * i
  let t := leAt img (o + 12) 2
  ⟨i, leAt img o 8, leAt img (o + 8) 4, t, leAt img (o + 14) 2, leAt img (o + 16) 4, leAt img (o + 20) 4, typeEnt img t⟩

def varCount (img : List Byte) : Nat := secLen img 2 / 24

def vars (img : List Byte) : List VarEnt := (List.range (varCount img)).map (varEnt img)

def findKey (img : List Byte) (key : Nat) : Option VarEnt := (vars img).find? (·.key = key)

def VarEnt.size (v : VarEnt) : Nat := v.count * v.typ.size
def VarEnt.isFb (v : VarEnt) : Bool := v.typ.code = FB_CODE

/-- The initial bytes of an entry (R351). -/
def VarEnt.initBytes (v : VarEnt) (img : List Byte) : List Byte :=
  if v.init = 2 ^ 32 - 1 then List.replicate v.size 0 else (img.drop (secOff img 7 + v.init)).take v.size

/-- How deep an entry lies inside FB instances. -/
def varDepth (img : List Byte) : Nat → VarEnt → Nat
  | 0, _ => 0
  | n + 1, v => if v.parent = 0xFFFF then 0 else varDepth img n (varEnt img v.parent) + 1

/-- The FB instances of an image from the outermost in, and then its variables. -/
def nestOrder (img : List Byte) : List VarEnt :=
  let vs := vars img
  let fbs := vs.filter (·.isFb)
  ((List.range 33).map fun k => fbs.filter fun v => varDepth img 32 v = k).flatten ++ vs.filter (!·.isFb)

/-- The instance region with every variable at its initial value: an enclosing FB instance first, its variables after. -/
def initRegion (img : List Byte) : Mem := (nestOrder img).foldl (fun m v => memWrite m v.off (v.initBytes img)) []

/-! ### The task table (R308, R309, R349) -/

abbrev K_UNUSED : Nat := 0
abbrev K_FRAME : Nat := 1
abbrev K_TIME : Nat := 2
abbrev K_EVENT : Nat := 3
abbrev K_ERROR : Nat := 4

/-- A task entry. -/
structure TaskEnt where
  kind : Nat
  prio : Nat
  period : Nat
  phase : Nat
  wdt : Nat
  entry : Nat
  prog : Nat
  inFirst : Nat
  inCount : Nat
  outFirst : Nat
  outCount : Nat
deriving DecidableEq, Repr

def taskEnt (img : List Byte) (t : Nat) : TaskEnt :=
  let o := secOff img 0 + 32 * t
  ⟨leAt img o 1, leAt img (o + 1) 1 % 16, leAt img (o + 4) 4, leAt img (o + 8) 4, leAt img (o + 12) 4, leAt img (o + 16) 4,
   leAt img (o + 20) 4, leAt img (o + 24) 2, leAt img (o + 26) 2, leAt img (o + 28) 2, leAt img (o + 30) 2⟩

def clampN (lo hi v : Nat) : Nat := if v < lo then lo else if hi < v then hi else v

/-- A task entry after the clamps, and the number of its clamped fields: kind first, then period, then phase (R308,
R34). The bytes of an UNUSED entry are ignored (R349). -/
def clampTask (e : TaskEnt) : TaskEnt × Nat :=
  let kind := min e.kind K_ERROR
  if kind = K_UNUSED then ({ e with period := 0, phase := 0, wdt := 0 }, 0)
  else
    let per := if kind = K_FRAME then clampN 1 65535 e.period else if kind = K_TIME then clampN 100 10000000 e.period else e.period
    let ph := if kind = K_FRAME || kind = K_TIME then min e.phase (per - 1) else e.phase
    let wdt := if e.wdt = 0 then 0 else clampN 10 10000000 e.wdt
    ({ e with kind := kind, period := per, phase := ph, wdt := wdt },
     b2n (kind ≠ e.kind) + b2n (per ≠ e.period) + b2n (ph ≠ e.phase) + b2n (wdt ≠ e.wdt))

/-- Every ERROR entry after the first becomes EVENT (R309). -/
def oneError (seen : Bool) : List (TaskEnt × Nat) → List (TaskEnt × Nat)
  | [] => []
  | (e, n) :: l =>
    if e.kind = K_ERROR && seen then ({ e with kind := K_EVENT }, n + 1) :: oneError seen l
    else (e, n) :: oneError (seen || e.kind = K_ERROR) l

/-- The task table of an image after the clamps. -/
def taskTable (img : List Byte) : List (TaskEnt × Nat) := oneError false ((List.range 16).map fun t => clampTask (taskEnt img t))

/-! ### Input and output maps (R352, R353) -/

/-- An entry of an input or output map: kind, count, index and offset. -/
structure MapEnt where
  kind : Nat
  n : Nat
  idx : Nat
  off : Nat
deriving DecidableEq, Repr

def mapEnt (img : List Byte) (sec i : Nat) : MapEnt :=
  let o := secOff img sec + 8 * i
  ⟨leAt img o 1, leAt img (o + 1) 1, leAt img (o + 2) 2, leAt img (o + 4) 4⟩

def mapEnts (img : List Byte) (sec first n : Nat) : List MapEnt := (List.range n).map fun i => mapEnt img sec (first + i)

/-- The size of an input item (R352, R376). -/
def MapEnt.inSize (e : MapEnt) : Nat := match e.kind with
  | 1 => 4 * e.n
  | 2 => 8 * e.n
  | 3 => 8
  | 4 => 4
  | 5 => 4
  | 6 => 2
  | 7 => e.n
  | 8 => 1
  | 9 => 40
  | 10 => 16
  | _ => 0

/-- The size of an output item (R353): a station's n bytes, and n BOOL of one byte. -/
def MapEnt.outSize (e : MapEnt) : Nat := if e.kind = 1 then 4 else e.n

/-! ### A BCP's banks -/

def BcpSt.bank (c : BcpSt) (k : Nat) : Bank := nth c.banks k emptyBank
def BcpSt.putBank (c : BcpSt) (k : Nat) (x : Bank) : BcpSt := { c with banks := c.banks.set k x }
def BcpSt.img (c : BcpSt) : List Byte := (c.bank c.active).img
def BcpSt.mem (c : BcpSt) : Mem := (c.bank c.active).mem
def BcpSt.setMem (c : BcpSt) (m : Mem) : BcpSt := c.putBank c.active { c.bank c.active with mem := m }

/-- Changes BCP b. -/
def State.onCpu (s : State) (b : Nat) (f : BcpSt → BcpSt) : State := s.putCpu b (f (s.cpu b))

/-! ### Forced variables (R327)

The bytes of a forced variable hold its forced value in the instance region, and every write of the program and of the
copy-in to them is discarded; a variable that is released keeps them until the next write (log 8). -/

/-- The bytes of one element of a forced variable. -/
def Force.elem (f : Force) : List Byte :=
  let v := leBytes (baseSize (f.typ % 8)) f.val.toNat
  if f.typ < 8 then v
  else v ++ [f.qual ||| 64] ++ List.replicate (codeSize f.typ - baseSize (f.typ % 8) - 1) 0

/-- The range of addresses of each forced variable of the active image. -/
def BcpSt.forceRanges (c : BcpSt) : List (Force × VarEnt) :=
  c.forces.filterMap fun f => (findKey c.img f.key).map fun v => (f, v)

/-- The forced variable that an access to n bytes from an address reaches. -/
def BcpSt.forcedAt (c : BcpSt) (a n : Nat) : Option (Force × VarEnt) :=
  if c.forces.isEmpty then none
  else c.forceRanges.find? fun (_, v) => decide (a < v.off + v.size) && decide (v.off < a + n)

/-- The forced bytes are put into the instance region. -/
def BcpSt.putForces (c : BcpSt) : BcpSt :=
  c.setMem (c.forceRanges.foldl (fun m (f, v) => memWrite m v.off (List.replicate v.count f.elem).flatten) c.mem)

/-- A write of the copy-in: bytes of a forced variable keep their values (R327). -/
def BcpSt.copyIn (c : BcpSt) (a : Nat) (l : List Byte) : BcpSt :=
  if (c.forcedAt a l.length).isNone then c.setMem (memWrite c.mem a l)
  else c.setMem (l.zipIdx.foldl (fun m (b, i) => if (c.forcedAt (a + i) 1).isSome then m else memSet m (a + i) b) c.mem)

/-- Bytes that a host exchanges for the item at an offset, with the forced values in their places (R345). -/
def BcpSt.withForces (c : BcpSt) (a : Nat) (l : List Byte) : List Byte :=
  if (c.forcedAt a l.length).isNone then l
  else l.zipIdx.map fun (b, i) => if (c.forcedAt (a + i) 1).isSome then memGet c.mem (a + i) else b

end Sys2Proof.Machine
end

