-- ==== Sys2Proof/Machine/LoadCheck.lean ====
section
/-! DEFINITION. The checks of a block-code image at its load (R347 to R355, R362, R363), and who may sign an image (R612, R616). -/

namespace Sys2Proof.Machine

/-! ### The code (R362, R363) -/

def opOf (w : Word) : Nat := bits w 31 24

/-- The signed operand of 24 bits. -/
def opSigned (w : Word) : Int := sgn 24 w.toNat

/-- Whether a code word has a defined opcode with legal operand fields. -/
def legalWord (w : Word) : Bool :=
  let o := bits w 23 0
  let t := bits w 23 20
  let plainT (l : List Nat) : Bool := l.contains t && bits w 19 0 = 0
  match opOf w with
  | 0x01 => true
  | 0x02 => true
  | 0x10 => bits w 22 20 ≤ 6
  | 0x11 => bits w 22 20 ≤ 6
  | 0x12 => bits w 22 20 ≤ 6
  | 0x13 => bits w 22 20 ≤ 6
  | 0x14 => bits w 22 20 ≤ 6 && bits w 19 0 = 0
  | 0x15 => bits w 22 20 ≤ 6 && bits w 19 0 = 0
  | 0x16 => t = 0
  | 0x24 => plainT [1, 2, 3, 6]
  | 0x2A => t ≤ 6 && bits w 19 16 ≤ 6 && bits w 15 0 = 0
  | 0x2B => (t = 4 || t = 5) && bits w 19 4 = 0 && bits w 3 0 ≤ 10
  | 0x30 => t ≤ 6 && bits w 19 4 = 0 && bits w 3 0 ≤ 5
  | 0x3B => plainT [0, 1, 2, 3]
  | 0x3C => [1, 2, 3].contains t && bits w 19 6 = 0
  | 0x3D => [1, 2, 3].contains t && bits w 19 6 = 0
  | 0x40 => true
  | 0x41 => true
  | 0x42 => true
  | 0x43 => true
  | 0x45 => o ≤ 255
  | op =>
    if [0x20, 0x21, 0x22, 0x23, 0x25, 0x26, 0x27, 0x28, 0x29].contains op then plainT [1, 2, 3, 4, 5, 6]
    else if [0x38, 0x39, 0x3A].contains op then plainT [0, 1, 2, 3, 4, 5, 6]
    else [0x00, 0x03, 0x04, 0x05, 0x06, 0x07, 0x18, 0x19, 0x31, 0x44, 0x46, 0x47, 0x48].contains op && o = 0

def codeCount (img : List Byte) : Nat := secLen img 5 / 4
def codeWord (img : List Byte) (i : Nat) : Word := BitVec.ofNat 32 (leAt img (secOff img 5 + 4 * i) 4)
def codeWords (img : List Byte) : List (Word × Nat) := ((List.range (codeCount img)).map (codeWord img)).zipIdx

def isJump (w : Word) : Bool := opOf w = 0x40 || opOf w = 0x41 || opOf w = 0x42

/-- The target of a jump at index i. -/
def jumpTarget (i : Nat) (w : Word) : Int := (i : Int) + 1 + opSigned w

/-! ### The call graph (check 6) -/

/-- The words that follow the word at index i. -/
def follow (img : List Byte) (i : Nat) : List Nat :=
  let w := codeWord img i
  let nx := [i + 1].filter (· < codeCount img)
  if codeCount img ≤ i then []
  else match opOf w with
    | 0x40 => [(jumpTarget i w).toNat]
    | 0x41 => (jumpTarget i w).toNat :: nx
    | 0x42 => (jumpTarget i w).toNat :: nx
    | 0x44 => []
    | 0x46 => []
    | _ => nx

/-- The entry points that the routine at an entry point calls. -/
def callees (img : List Byte) (entry : Nat) : List Nat :=
  let body := reachAll (follow img) (codeCount img) [entry] [entry]
  (body.filter fun i => i < codeCount img && opOf (codeWord img i) = 0x43).map fun i => (typeEnt img (bits (codeWord img i) 23 0)).entry

/-- No chain of calls from an entry point is longer than n: the graph is acyclic, and its depth is at most n. -/
def callDepthOk (img : List Byte) : Nat → Nat → Bool
  | 0, e => (callees img e).isEmpty
  | n + 1, e => (callees img e).eraseDups.all (callDepthOk img n)

/-! ### The tables (check 7) -/

def NO_ENTRY : Nat := 2 ^ 32 - 1

/-- A type entry satisfies R350. -/
def typeOk (img : List Byte) (i : Nat) : Bool :=
  let t := typeEnt img i
  let zero := leAt img (secOff img 1 + 24 * i + 1) 3 = 0
  zero && (if t.code = FB_CODE then
      (t.entry = NO_ENTRY && t.block ≤ 255) || (decide (t.entry < codeCount img) && t.block = NO_ENTRY)
    else (decide (t.code ≤ 6) || (decide (8 ≤ t.code) && decide (t.code ≤ 14))) && t.size = codeSize t.code
      && t.entry = 0 && t.block = 0 && t.key = 0)

/-- An instance entry satisfies R351, beside its key's and its place's being its own. -/
def varOk (img : List Byte) (v : VarEnt) : Bool :=
  let p := varEnt img v.parent
  v.key ≠ 0 && decide (v.tidx < typeCount img) && decide (1 ≤ v.count) && decide (v.count ≤ 65535) && (!v.isFb || v.count = 1)
    && decide (v.off + v.size ≤ regionSize img)
    && (v.parent = 0xFFFF || (decide (v.parent < varCount img) && p.isFb && decide (p.off ≤ v.off)
        && decide (v.off + v.size ≤ p.off + p.size)))
    && (v.init = NO_ENTRY || decide (v.init + v.size ≤ secLen img 7))

/-- Two entries have different keys, and do not overlap at the same level. -/
def varsApart (v w : VarEnt) : Bool :=
  v.key ≠ w.key && (v.parent ≠ w.parent || decide (v.off + v.size ≤ w.off) || decide (w.off + w.size ≤ v.off))

def pairsOk : List VarEnt → Bool
  | [] => true
  | v :: l => l.all (varsApart v) && pairsOk l

/-- The static offset of LDG or STG lies within B. -/
def staticOk (img : List Byte) (w : Word) : Bool :=
  if opOf w = 0x12 || opOf w = 0x13 then
    decide (bits w 19 0 + codeSize (bits w 22 20 + 8 * bits w 23 23) ≤ regionSize img)
  else true

/-! ### The checks in order (R355) -/

/-- Entry size, least and most entries of section s (R347). -/
def secLimits : List (Nat × Nat × Nat) :=
  [(32, 16, 16), (24, 0, 4096), (24, 1, 65535), (8, 0, 4096), (8, 0, 4096), (4, 1, 131071), (8, 0, 65536), (1, 0, 524288), (1360, 1, 1)]

def check1 (img : List Byte) (len : Nat) : Bool :=
  leAt img 0 4 = 0x31434246 && leAt img 4 2 = 1 && leAt img 6 2 = 128 && leAt img 8 4 ≠ 0 && leAt img 12 4 ≤ 524288
    && leAt img 12 4 = len && decide (1 ≤ regionSize img) && decide (regionSize img ≤ 262144) && leAt img 104 24 = 0

/-- The sections follow each other from an end (R348). -/
def sectionsOk (img : List Byte) (fin : Nat) : List ((Nat × Nat × Nat) × Nat) → Bool
  | [] => fin = leAt img 12 4
  | ((sz, lo, hi), s) :: l =>
    let o := secOff img s
    let n := secLen img s
    o % 8 = 0 && n % sz = 0 && decide (lo ≤ n / sz) && decide (n / sz ≤ hi)
      && (if n = 0 then o = fin && sectionsOk img fin l
          else decide (fin ≤ o) && decide (o + n ≤ leAt img 12 4) && sectionsOk img (o + n) l)

def check2 (img : List Byte) : Bool := sectionsOk img 128 secLimits.zipIdx

/-- A signer's verdict: pass, digest only, signing key, and whether a signature was verified. -/
structure Verdict where
  ok : Bool
  donly : Bool
  signer : Nat
  verified : Bool
deriving DecidableEq, Repr

/-- The signature section of an image at an offset, under the policy of R612: the root's and the owner's public keys,
the owner's generation and vroot. -/
def signerVerdict (root owner : List Byte) (gen : Nat) (vroot : Bool) (tag : String) (img : List Byte) (off : Nat) : Verdict :=
  let d := digest (img.take off)
  let key := leAt img (off + 66) 1
  let good := decide ((img.drop off).take 64 = d)
  let ver (k : List Byte) : Bool := signatureOk k tag d (leAt img (off + 64) 2) ((img.drop (off + 80)).take 1280)
  if !good || 1 < key then ⟨false, false, key % 2, false⟩
  else if gen = 0 then (if key = 0 then ⟨ver root, false, 0, true⟩ else ⟨true, true, 1, false⟩)
  else if key = 1 then ⟨ver owner, false, 1, true⟩
  else if vroot then ⟨ver root, false, 0, true⟩
  else ⟨false, false, 0, false⟩

def check4 (img : List Byte) : Bool := (codeWords img).all fun x => legalWord x.1

def check5 (img : List Byte) : Bool := (codeWords img).all fun (w, i) =>
  (!isJump w || (decide (0 ≤ jumpTarget i w) && decide (jumpTarget i w < (codeCount img : Int))))
    && (opOf w ≠ 0x02 || decide (bits w 23 0 < secLen img 6 / 8))

def usedTasks (img : List Byte) : List TaskEnt := ((List.range 16).map (taskEnt img)).filter (·.kind ≠ 0)

def check6 (img : List Byte) : Bool :=
  ((codeWords img).all fun (w, _) =>
    let t := typeEnt img (bits w 23 0)
    opOf w ≠ 0x43 || (decide (bits w 23 0 < typeCount img) && t.code = FB_CODE && decide (t.entry < codeCount img)))
    && (usedTasks img).all fun e => callDepthOk img 31 e.entry

def check7 (img : List Byte) : Bool :=
  (List.range (typeCount img)).all (typeOk img) && (vars img).all (varOk img) && pairsOk (vars img)
    && ((codeWords img).all fun x => staticOk img x.1)
    && ((mapEnts img 3 0 (secLen img 3 / 8)).all fun e => decide (e.off + e.inSize ≤ regionSize img))
    && ((mapEnts img 4 0 (secLen img 4 / 8)).all fun e => decide (e.off + e.outSize ≤ regionSize img))

def check8 (img : List Byte) : Bool :=
  (usedTasks img).all fun e => decide (e.entry < codeCount img) && decide (e.prog < regionSize img)

/-- The code of the first check that fails, or 0, with the signer's verdict where check 3 took place. -/
def loadCheck (root owner : List Byte) (gen : Nat) (vroot : Bool) (img : List Byte) (len : Nat) : Nat × Option Verdict :=
  if !check1 img len then (1, none)
  else if !check2 img then (2, none)
  else
    let v := signerVerdict root owner gen vroot "FRTFBC01" img (secOff img 8)
    if !v.ok then (3, some v)
    else if !check4 img then (4, some v)
    else if !check5 img then (5, some v)
    else if !check6 img then (6, some v)
    else if !check7 img then (7, some v)
    else if !check8 img then (8, some v)
    else (0, some v)

end Sys2Proof.Machine
end

