-- ==== Sys2Proof/Machine/Icu.lean ====
section
/-! DEFINITION. The interrupt controller's commands: TAKE and DONE, software raises, clears, enables, targets, compatibility mode, levels and the unmasking of a vector (R378 to R404). -/

namespace Sys2Proof.Machine

/-- The party numbers of R388: BCP0 to BCP3 are 0 to 3, the own host is 4, the master's host through the tunnel is 5. -/
abbrev HOST : Nat := 4
abbrev CASC : Nat := 5

/-- Whether a TAKE of source n by a party succeeds (R384, R393, R399). -/
def State.takeOk (s : State) (n party : Nat) : Bool :=
  s.srcPend n && !s.srcAct n && s.srcTgt n = party && s.srcServed n

/-- The effect of a TAKE that succeeds: active sets, and an edge source's pending clears (R384). -/
def State.take (s : State) (n party : Nat) : State :=
  let i := s.icu
  s.icuTo n { i with
    active := putSrc i.active n true
    pending := if isLevel n then i.pending else putSrc i.pending n false
    taker := (n, party) :: i.taker.filter fun (e : Nat × Nat) => e.1 ≠ n }

/-- A TAKE by a party (R384, R385). -/
def icuTakeBy (party n : Nat) (s : State) : State :=
  if s.takeOk n party then s.take n party
  else ((s.cnt ICU_BADTAKE_count).p ICU_BADTAKE_src [] n).flag ICU 9

/-- Whether a DONE of source n by a party succeeds (R386). -/
def State.doneOk (s : State) (n party : Nat) : Bool := s.srcAct n && s.icu.taker.contains (n, party)

/-- The effect of a DONE that succeeds: active clears, and a pending source is presented again (R386). -/
def State.release (s : State) (n : Nat) : State :=
  let i := s.icu
  s.icuTo n { i with active := putSrc i.active n false, taker := i.taker.filter fun (e : Nat × Nat) => e.1 ≠ n }

/-- A DONE by a party (R386, R387). -/
def icuDoneBy (party n : Nat) (s : State) : State :=
  if s.doneOk n party then s.release n
  else ((s.cnt ICU_BADDONE_count).p ICU_BADDONE_src [] n).flag ICU 8

/-- The sources that a write of ICU_SWSET[j] raises (R378). -/
def swsetSources (j v : Nat) : List Nat :=
  if j < 4 then (bitsOf 16 v).map (32 * j + ·) else (bitsOf 16 (v / 2 ^ 16)).map (240 + ·)

/-- A write of ICU_SWSET[j]. -/
def icuSwset (j : Nat) (v : Word) (s : State) : State := s.each (swsetSources j v.toNat) State.raise

/-- A write of ICU_RAW[k]: the pending bits of edge sources clear (R392). -/
def icuRaw (k : Nat) (v : Word) (s : State) : State :=
  s.each (((bitsOf 32 v.toNat).map (32 * k + ·)).filter (!isLevel ·)) fun s n =>
    s.icuTo n { s.icu with pending := putSrc s.icu.pending n false }

/-- A write of ICU_EN[k] (R383): sources that become presented by it are presented. -/
def icuEn (k : Nat) (v : Word) (s : State) : State :=
  let s1 := s.wr (0x90160 + 4 * k) v
  s1.each (((List.range 32).map (32 * k + ·)).filter fun n => !s.presented n && s1.presented n) State.present

/-- A source's target changes: its presentation moves at once (R393). -/
def State.retarget (s : State) (n t : Nat) : State :=
  let s1 := s.p ICU_SRC_tgt [n] t
  if s.srcTgt n ≠ t && s1.presented n then s1.present n else s1

/-- A write of ICU_SRC[n] (R393, R401). -/
def icuSrc (n : Nat) (v : Word) (s : State) : State :=
  let t0 := v.toNat % 8
  let t := if t0 = 7 then 6 else t0
  if t ≠ s.srcTgt n && (s.srcAct n || (s.on ICU_MODE_compat && n < 128)) then s.notNow (0x90400 + 4 * n)
  else
    let s1 := (s.p ICU_SRC_vec [n] (bits v 13 8)).p ICU_SRC_wake [n] (bits v 16 16)
    (s1.retarget n t).clampReg (0x90400 + 4 * n) (b2n (t ≠ t0))

/-- A write of ICU_MODE (R401, R402). -/
def icuMode (v : Word) (s : State) : State :=
  let c := bits v 0 0
  if c = s.g ICU_MODE_compat then s
  else if (s.bcp.any fun b => b.state = 2) || s.icu.active ≠ 0 then s.notNow 0x90100
  else
    let s1 := s.p ICU_MODE_compat [] c
    if c = 1 then s1.each (List.range 128) fun s n => s.retarget n (n / 32) else s1

/-- LEVEL_CHANGE of a level source (R380); the level of source 222 is what R574 says. -/
def levelChange (n : Nat) (lv : Bool) (s : State) : State :=
  if n = 222 then s.cisLevels
  else if isLevel n && s.icu.level.getLsbD n ≠ lv then s.setLevel n lv else s

/-- MSIX_VECTOR_UNMASK (R397). -/
def msixVectorUnmask (vec : Nat) (s : State) : State :=
  let s1 := s.p MSIX_mask [vec] 0
  if bitAt (s.g MSIX_pba [vec / 32]) (vec % 32) then
    (s1.p MSIX_pba [vec / 32] (putBit (s.g MSIX_pba [vec / 32]) (vec % 32) false)).msix vec
  else s1

/-- The ICU block reset (R403): pending edge bits and active bits clear; a level source stays pending with its level. -/
def State.icuReset (s : State) : State :=
  { s with icu := { s.icu with pending := s.icu.level, active := 0, taker := [] } }

/-- What ICU_PEND[t][k] reads (R391). -/
def State.icuPend (s : State) (t k : Nat) : Nat :=
  ((List.range 32).filter fun i => s.srcTgt (32 * k + i) = t && s.presented (32 * k + i)).foldl (fun a i => a + 2 ^ i) 0

end Sys2Proof.Machine
end

