-- ==== Sys2Proof/Machine/Tasks.lean ====
section
/-! DEFINITION. Tasks of the block-code processors: snapshots, releases, overruns, error causes, dispatch, instance ends and the watchdog fallback (R305 to R326, R340). -/

namespace Sys2Proof.Machine

abbrev B_EMPTY : Nat := 0
abbrev B_STOPPED : Nat := 1
abbrev B_RUNNING : Nat := 2
abbrev B_FAILED : Nat := 3

def State.taskKind (s : State) (b t : Nat) : Nat := s.g BCP_TASK_0_kind [b, t]
def State.taskPrio (s : State) (b t : Nat) : Nat := s.g BCP_TASK_0_prio [b, t]

/-- The ERROR task in force. -/
def State.errorTask (s : State) (b : Nat) : Option Nat := (List.range 16).find? fun t => s.taskKind b t = K_ERROR

/-- Whether BCP b releases and executes tasks in the present device state (R344). -/
def State.bcpRuns (s : State) (b : Nat) : Bool := (s.cpu b).state = B_RUNNING && s.inSt [MORNING, NOON, DUSK]

/-! ### Events (R343) -/

/-- A BCP_EVENT: its code, task and key. -/
def State.bcpEvent (s : State) (b code task key : Nat) : State :=
  let d : RDesc := ⟨0x0812, 0, 0, 0, key, code + 256 * task + 4096 * b, 0, ST_DONE, []⟩
  let (ok, s1) := s.deliver CLS_BCPEVT 0 d false
  if ok then s1 else s1.cnt BCP_EVTLOST_count

/-! ### The input image (R313, R352) -/

/-- Bytes f to f + n − 1 of the input bytes of a station, numbered 16·link + station. -/
def State.staIn (s : State) (i : Nat) : List Byte :=
  ((List.range 16).map fun w => leBytes 4 (s.g RIO_IN [i / 16, i % 16, w])).flatten

/-- The words that a free item gives. -/
def noBytes (kind idx n : Nat) : List Byte := (List.range n).map fun i => (Config.noItem kind (idx + i)).truncate 8

/-- The error record (R321). -/
def ErrRec.record (e : ErrRec) : List Byte :=
  leBytes 4 e.cause.toNat ++ leBytes 16 e.dropped.toNat ++ leBytes 16 e.returned.toNat ++ leBytes 2 e.overran.toNat
    ++ leBytes 2 e.forces

/-- The bytes of an input item, element by element: each element's own bytes, and its size in the item. -/
def State.itemElems (s : State) (e : MapEnt) : List (List Byte × Nat) := match e.kind with
  | 1 => (List.range e.n).map fun i =>
      (if e.idx + i < 256 then leBytes 4 (nth s.view.stats (e.idx + i) 0) else noBytes 1 (e.idx + i) 4, 4)
  | 2 => (List.range e.n).map fun i =>
      (if e.idx + i < 1024 then leBytes 4 (nth s.view.qv (e.idx + i) 0).toNat ++ [nth s.view.qq (e.idx + i) 0]
       else noBytes 2 (e.idx + i) 5, 8)
  | 3 => [(leBytes 8 s.view.rows, 8)]
  | 4 => [(leBytes 4 (s.g FIO_DISTATE), 4)]
  | 5 => [(leBytes 4 s.tmx.gbits, 4)]
  | 6 => [(if e.idx < 4 then leBytes 2 (s.g TPC_CMDST_rx [e.idx]) else noBytes 6 e.idx 2, 2)]
  | 7 => [(if e.idx / 1024 + e.n ≤ 64 then ((s.staIn (e.idx % 128)).drop (e.idx / 1024)).take e.n else noBytes 7 e.idx e.n, e.n)]
  | 8 => [([BitVec.ofNat 8 (s.g RIO_SST_qual [e.idx % 128 / 16, e.idx % 16])], 1)]
  | 10 => [(s.view.header, 16)]
  | _ => []

/-- Elements with their offsets from the start of the item. -/
def placeElems : Nat → List (List Byte × Nat) → List (Nat × List Byte)
  | _, [] => []
  | o, (l, n) :: es => (o, l) :: placeElems (o + n) es

/-- The snapshot of a task: the bytes to be copied in, by offset. The error record of an ERROR task is put in when its
instance starts, since causes merge into it until then (R321). -/
def State.snapshot (s : State) (ents : List MapEnt) : List (Nat × List Byte) :=
  (ents.map fun e => placeElems e.off (s.itemElems e)).flatten

/-- The stations whose bytes a snapshot holds, with their drop counts (R482). -/
def State.snapDrops (s : State) (ents : List MapEnt) : List (Nat × Nat) :=
  (ents.filter fun e => e.kind = 7 || e.kind = 8).map fun e =>
    (e.idx % 128, s.g RIO_SST_drops [e.idx % 128 / 16, e.idx % 16])

/-- The input image of a host-assisted task: the items in map order, each at its size, with forced values in their
places (R340, R345, R352). -/
def State.hostImage (s : State) (b : Nat) (isErr : Bool) (ents : List MapEnt) : List Byte :=
  let c := s.cpu b
  (ents.map fun e =>
    let l := if e.kind = 9 then (if isErr then [(c.err.record, 40)] else [(noBytes 9 0 40, 40)]) else s.itemElems e
    c.withForces e.off ((l.map fun (x, n) => x ++ List.replicate (n - x.length) Config.pad).flatten)).flatten

/-! ### Release (R310 to R313, R340) -/

def emptyInst : Inst := {
  task := 0, relTime := 0, relCyc := 0, order := 0, src := none, host := false, relCount := 0, started := false,
  image := [], stack := [], calls := [], pc := 0, ip := 0, aflag := false, rowen := [], drops := [], rioTick := 0 }

/-- The record of BCP_TIMG (R340). -/
def timgRecord (i : Inst) (b : Nat) (img : List Byte) : List Byte :=
  leBytes 6 (Time.sec i.relTime) ++ leBytes 4 (Time.ns i.relTime) ++ leBytes 2 i.relCount
    ++ [BitVec.ofNat 8 i.task, BitVec.ofNat 8 b] ++ leBytes 2 0 ++ leBytes 4 img.length ++ List.replicate 12 0 ++ img

/-- Task t of BCP b is released with its instant: the snapshot is taken, and a host-assisted task's image is sent. -/
def State.releaseAt (s : State) (b t : Nat) (src : Option Nat) (at_ : Time) (cyc : Nat) : State :=
  let c := s.cpu b
  let e := taskEnt c.img t
  let ents := mapEnts c.img 3 e.inFirst e.inCount
  let host := bitAt (s.g BCP_HMASK_host [b]) t
  let cnt := (nth c.relCounts t 0 + 1) % 65536
  let isErr := decide (s.taskKind b t = K_ERROR)
  let i : Inst := { emptyInst with
    task := t, relTime := at_, relCyc := cyc, order := c.order, src := src, host := host, relCount := cnt
    started := host, image := if host then [] else s.snapshot ents, pc := e.entry, ip := e.prog
    drops := s.snapDrops ents, rioTick := s.rio.tick }
  let s1 := (s.p BCP_TSTAT_0_consec [b, t] 0).onCpu b fun c => { c with
    insts := c.insts ++ [i], order := c.order + 1, relCounts := c.relCounts.set t cnt, dispatch := true
    err := if host && isErr then emptyErr else c.err }
  if host then
    let buf := timgRecord i b (s.hostImage b isErr ents)
    (s1.deliver CLS_BCPTASK (s.g BCP_CFG_hstr [b]) ⟨0x0810, 0, buf.length, 0, 0, 0, 0, ST_DONE, buf⟩ true).2
  else s1

/-- Whether a switch that waits holds every new release (R334). -/
def BcpSt.holding (c : BcpSt) : Bool := c.switch.any (·.holding)

/-- Whether task t has a released or running instance. -/
def BcpSt.live (c : BcpSt) (t : Nat) : Bool := c.insts.any (·.task = t)

/-- Whether task t has a released, running or held instance. -/
def BcpSt.busy (c : BcpSt) (t : Nat) : Bool := c.insts.any (·.task = t) || c.held.any (·.1 = t)

/-- Task t is released now, or its release is held. -/
def State.releaseTask (s : State) (b t : Nat) : State :=
  if (s.cpu b).holding then s.onCpu b fun c => { c with held := c.held ++ [(t, s.mer.now, s.mer.cyc)] }
  else s.releaseAt b t none s.mer.now s.mer.cyc

/-- A skipped release counts (R323). -/
def State.skip (s : State) (b t : Nat) : State :=
  ((s.cnt BCP_TSTAT_0_ovr [b, t]).cnt BCP_TSTAT_0_consec [b, t]).flag BCP 8

/-- The overrun cause of task t in the error record. -/
def ErrRec.overrun (t : Nat) (e : ErrRec) : ErrRec :=
  { e with cause := e.cause ||| 4, overran := e.overran ||| BitVec.ofNat 16 (2 ^ t) }

/-- A cause of the ERROR task of a BCP (R321, R322): it is recorded, or sets errnt where there is no ERROR task, and on a running
BCP it releases the task. A release that finds the ERROR instance running is itself skipped and counted, and takes place after that
instance ends (R345). -/
def State.bcpCause (s : State) (b : Nat) (f : ErrRec → ErrRec) : State :=
  let c := s.cpu b
  match s.errorTask b with
    | none => s.flag BCP 13
    | some t =>
      let s1 := s.onCpu b fun c => { c with err := f c.err }
      if c.state ≠ B_RUNNING then s1
      else match c.insts.find? (·.task = t) with
      | some i =>
        if i.started then
          (s1.skip b t).onCpu b fun c => { c with err := c.err.overrun t, errAgain := true }
        else s1
      | none => if c.held.any (·.1 = t) then s1 else s1.releaseTask b t

/-- A FRAME or TIME task is due: released, or skipped while its previous instance has not ended (R323). -/
def State.dueTask (s : State) (b t : Nat) : State :=
  if (s.cpu b).busy t then (s.skip b t).bcpCause b (ErrRec.overrun t) else s.releaseTask b t

/-- FRAME_TASK_RELEASE (R310): at the completion of the element array for a frame. -/
def State.frameTasks (s : State) : State :=
  s.each (List.range 4) fun s b =>
    if !s.bcpRuns b then s
    else
      let c := (s.cpu b).frames
      let due := (List.range 16).filter fun t => s.taskKind b t = K_FRAME
        && ((c : Int) - (s.g BCP_TASK_2 [b, t] : Int)) % (s.g BCP_TASK_1 [b, t] : Int) = 0
      (s.each due fun s t => s.dueTask b t).onCpu b fun c => { c with frames := c.frames + 1 }

/-- The first release instant of a TIME task after a number of µs (R311). -/
def nextRelease (us period phase : Nat) : Nat :=
  if period = 0 then 0 else if us < phase then phase else (us - phase) / period * period + period + phase

/-- Whether a release instant of TIME task t of BCP b has been reached (R311). -/
def State.timeDue (s : State) (b t : Nat) : Bool :=
  s.bcpRuns b && s.taskKind b t = K_TIME && decide (nth (s.cpu b).nextRel t 0 ≤ s.mer.now / oneUs)

/-- TIME task t of BCP b is due: its next release instant follows now. -/
def State.timeRelease (s : State) (b t : Nat) : State :=
  let nx := nextRelease (s.mer.now / oneUs) (s.g BCP_TASK_1 [b, t]) (s.g BCP_TASK_2 [b, t])
  (s.onCpu b fun c => { c with nextRel := c.nextRel.set t nx }).dueTask b t

/-- Every TIME task's next release is the first after now (R306, R311, R339). -/
def State.timeGrid (s : State) (b : Nat) : State :=
  let us := s.mer.now / oneUs
  s.onCpu b fun c => { c with
    nextRel := (List.range 16).map fun t => nextRelease us (s.g BCP_TASK_1 [b, t]) (s.g BCP_TASK_2 [b, t]) }

/-! ### Dispatch of EVENT tasks (R318 to R320) -/

/-- The source that entry i of BCP b's scan list names; in compatibility mode 0 to 31 name the BCP's own bank (R400). -/
def State.scanSrc (s : State) (b i : Nat) : Nat :=
  let n := s.g BCP_SCAN_src [b, i]
  if s.on ICU_MODE_compat && n < 32 then 32 * b + n else n

/-- Entry i of the scan list takes its source and releases its task. -/
def State.scanEntry (s : State) (b i : Nat) : State :=
  let src := s.scanSrc b i
  let t := s.g BCP_SCAN_task [b, i]
  let named := (List.range i).any fun j => s.on BCP_SCAN_en [b, j] && s.scanSrc b j = src
  if s.on BCP_SCAN_en [b, i] && s.taskKind b t = K_EVENT && !named && s.srcTgt src = b && s.presented src
      && !(s.cpu b).busy t then
    (s.take src b).releaseAt b t (some src) s.mer.now s.mer.cyc
  else s

/-- A dispatch point of BCP b; while a switch holds new releases the dispatcher releases nothing (R334). -/
def State.dispatchPoint (s : State) (b : Nat) : State :=
  let s1 :=
    if s.bcpRuns b && !s.on BCP_IMASK_mask [b] && !(s.cpu b).holding then s.each (List.range 32) fun s i => s.scanEntry b i
    else s
  s1.onCpu b fun c => { c with dispatch := false }

/-- The dispatch points that have been reached. -/
def State.dispatchAll (s : State) : State :=
  s.each (List.range 4) fun s b => if (s.cpu b).dispatch then s.dispatchPoint b else s

/-- BCP_IMASK: a write of the mask; its clearing is a dispatch point (R318, R320). -/
def bcpImask (b : Nat) (v : Word) (s : State) : State :=
  let was := s.on BCP_IMASK_mask [b]
  let s1 := s.p BCP_IMASK_mask [b] (bits v 0 0)
  if was && !s1.on BCP_IMASK_mask [b] then s1.onCpu b fun c => { c with dispatch := true } else s1

/-! ### The running instance and its end (R315, R319, R322) -/

/-- Whether instance x precedes y: the ERROR instance first, then priority; of equal priority the one that has started, then the
one released first, and releases of one instant in the order of their tasks (R315, R322). -/
def State.precedes (s : State) (b : Nat) (x y : Inst) : Bool :=
  let rank (i : Inst) : List Nat :=
    [if s.taskKind b i.task = K_ERROR then 0 else s.taskPrio b i.task + 1, b2n (!i.started || i.host), i.relCyc, i.task]
  decide (rank x < rank y)

/-- The instance that BCP b executes. -/
def State.current (s : State) (b : Nat) : Option Inst :=
  (s.cpu b).insts.foldl (fun (o : Option Inst) i => match o with
    | none => some i
    | some j => if s.precedes b i j then some i else some j) none

/-- Replaces the instance with the same order of release. -/
def State.putInst (s : State) (b : Nat) (i : Inst) : State :=
  s.onCpu b fun c => { c with insts := c.insts.map fun j => if j.order = i.order then i else j }

/-- An instance starts: its input image is copied in, with the error record for an ERROR instance (R313, R321). -/
def State.startInst (s : State) (b : Nat) (i : Inst) : State :=
  if i.started then s
  else
    let c := s.cpu b
    let isErr := decide (s.taskKind b i.task = K_ERROR)
    let e := taskEnt c.img i.task
    let recs := ((mapEnts c.img 3 e.inFirst e.inCount).filter (·.kind = 9)).map fun m => (m.off, c.err.record)
    let l := if isErr then i.image ++ recs else i.image
    let c1 := l.foldl (fun c (o, x) => c.copyIn o x) c
    (s.putCpu b { c1 with err := if isErr then emptyErr else c1.err }).putInst b { i with started := true, image := [] }

/-- The end of an instance after its output image: the arithmetic flag, the longest response, the DONE of its source,
a repeated ERROR release, and a dispatch point (R319, R321, R342). -/
def State.endInst (s : State) (b : Nat) (i : Inst) : State :=
  let s1 := s.onCpu b fun c => { c with insts := c.insts.filter (·.order ≠ i.order), dispatch := true }
  let ns := min ((s.mer.cyc - i.relCyc) * 4) (2 ^ 32 - 1)
  let s2 := s1.p BCP_TSTAT_1 [b, i.task] (max (s1.g BCP_TSTAT_1 [b, i.task]) ns)
  let s3 :=
    if i.aflag then
      let s3 := (s2.p BCP_ARITH_flag [b] (putBit (s2.g BCP_ARITH_flag [b]) i.task true)).cnt BCP_ARITHCNT_count [b, i.task]
      if bitAt (s2.g BCP_ARITH_flag [b]) i.task then s3 else s3.flag BCP 10
    else s2
  let s4 := match i.src with
    | some n => icuDoneBy b n s3
    | none => s3
  if s.taskKind b i.task = K_ERROR && (s4.cpu b).errAgain then
    (s4.onCpu b fun c => { c with errAgain := false }).releaseTask b i.task
  else s4

/-! ### The watchdog fallback (R324, R325) -/

/-- The instances of BCP b end without an output image. -/
def State.dropInsts (s : State) (b : Nat) : State :=
  s.onCpu b fun c => { c with insts := [], held := [], errAgain := false, dispatch := false }

/-- A switch of BCP b that waits ends with a status: its command completes, or its slot does. -/
def State.switchEnd (s : State) (b st : Nat) (t : Time) : State := match (s.cpu b).switch with
  | none => s
  | some w =>
    let s1 := s.onCpu b fun c => { c with switch := none }
    match w.slot, w.cmd with
    | some i, _ => s1.saDone i st t
    | none, some d => s1.complete d 0x0804 st
    | none, none => s1

/-- A station that BCP b owns goes to its substitutes until the BCP writes again (R486). -/
def StaSt.fallback (b : Nat) (y : StaSt) : StaSt := if bits y.cfg 30 28 = b + 1 then { y with subst := true } else y

/-- The stations that BCP b owns go to their substitutes. -/
def State.rioFallback (s : State) (b : Nat) : State :=
  { s with rio := { s.rio with links := s.rio.links.map fun (x : LinkSt) => { x with stas := x.stas.map (StaSt.fallback b) } } }

/-- The fallback of BCP b with its cause (1 watchdog time, 2 consecutive overruns) and task. -/
def State.fallback (s : State) (b t cause : Nat) : State :=
  let s1 := ((s.p BCP_FAIL [b] (16 * t + cause)).dropInsts b).onCpu b fun c => { c with state := B_FAILED }
  let s2 := ((s1.fioFallback b).rioFallback b).stopRows b
  let s3 := s2.each ((List.range 64).filter fun i => s2.saState i = SA_ARMED && s2.saOwner i = b + 1) State.saCancelled
  let s4 := s3.switchEnd b ST_NOT_NOW 0
  let s5 := s4.each ((s4.icu.taker.filter (·.2 = b)).map (·.1)) fun s n => icuDoneBy b n s
  ((s5.flag BCP 9).bcpEvent b (if cause = 1 then 2 else 3) t 0).onCpu b fun c => { c with dispatch := false }

/-- KOVER_REACHED (R324): the consecutive count of a task of BCP b has reached kover. -/
def koverReached (b : Nat) (s : State) : State :=
  let k := s.g BCP_CFG_kover [b]
  match (List.range 16).find? fun t => decide (k ≤ s.g BCP_TSTAT_0_consec [b, t]) with
  | some t => if s.bcpRuns b && k ≠ 0 then s.fallback b t 2 else s
  | none => s

/-- WATCHDOG_EXPIRY (R324): an instance of BCP b has run longer than its task's wdt, measured from its release. -/
def watchdogExpiry (b : Nat) (s : State) : State :=
  let late (i : Inst) : Bool :=
    let w := s.g BCP_TASK_3 [b, i.task]
    w ≠ 0 && w * oneUs < s.since i.relCyc
  match (s.cpu b).insts.find? late with
  | some i => if s.bcpRuns b then s.fallback b i.task 1 else s
  | none => s

end Sys2Proof.Machine
end

