-- ==== Sys2Proof/Machine/Rio.lean ====
section
/-! DEFINITION. Remote I/O stations: frames, the link cycle, station states, drop-out and return, ownership and substitutes (R470 to R490). -/

namespace Sys2Proof.Machine

abbrev S_IDLE : Nat := 0
abbrev S_DOWN : Nat := 1
abbrev S_UP : Nat := 2

def emptySta : StaSt := ⟨0, [], List.replicate 64 0, [], false, false, false, 0, false, [], false, false, 0, false⟩
def emptyLink : LinkSt := ⟨false, false, 0, none, 0, [], none, none, List.replicate 16 emptySta⟩
def State.link (s : State) (l : Nat) : LinkSt := nth s.rio.links l emptyLink
def State.putLink (s : State) (l : Nat) (x : LinkSt) : State :=
  { s with rio := { s.rio with links := s.rio.links.set l x } }
def State.sta (s : State) (l i : Nat) : StaSt := nth (s.link l).stas i emptySta
def State.putSta (s : State) (l i : Nat) (x : StaSt) : State :=
  s.putLink l { s.link l with stas := (s.link l).stas.set i x }

def StaSt.en (x : StaSt) : Bool := x.cfg.getLsbD 31
def StaSt.own (x : StaSt) : Nat := bits x.cfg 30 28
def StaSt.ni (x : StaSt) : Nat := bits x.cfg 22 16
def StaSt.no (x : StaSt) : Nat := bits x.cfg 14 8

def State.staState (s : State) (l i : Nat) : Nat := s.g RIO_SST_state [l, i]

/-! ### Frames (R471, R472, R474) -/

/-- One bit of CRC-16 with polynomial 16#1021. -/
def crc16Bit (c : BitVec 16) : BitVec 16 := if c.msb then (c <<< 1) ^^^ 0x1021 else c <<< 1

def crc16Bits : Nat → BitVec 16 → BitVec 16
  | 0, c => c
  | n + 1, c => crc16Bits n (crc16Bit c)

/-- CRC-16 with initial value 16#FFFF, no reflection and no final XOR. -/
def crc16 (l : List Byte) : BitVec 16 :=
  l.foldl (fun (c : BitVec 16) (b : Byte) => crc16Bits 8 (c ^^^ BitVec.ofNat 16 (b.toNat * 256))) (0xFFFF : BitVec 16)

/-- A frame with its CRC, low byte first. -/
def withCrc (l : List Byte) : List Byte := l ++ leBytes 2 (crc16 l).toNat

/-- The POLL frame of station i with a cycle sequence, its control bits and its output bytes. -/
def pollFrame (i seq : Nat) (outval subst : Bool) (out : List Byte) : List Byte :=
  let p := if outval then out else []
  withCrc ([0xF1, BitVec.ofNat 8 (i + 16 * seq), BitVec.ofNat 8 p.length, BitVec.ofNat 8 (b2n outval + 2 * b2n (outval && subst))] ++ p)

/-- The bits of a byte on a Furrow line in order: the start bit, eight data bits from bit 0 on, the stop bit (R471). -/
def serialByte (b : Byte) : List Bool := false :: (List.range 8).map b.getLsbD ++ [true]

/-- The bits of a frame on a Furrow line: its bytes follow each other without idle bits (R471). -/
def serialBits (l : List Byte) : List Bool := (l.map serialByte).flatten

/-- Whether the CRC of a RESP is wrong. -/
def respCrcBad (r : List Byte) : Bool := r.length < 6 || r.drop (r.length - 2) ≠ leBytes 2 (crc16 (r.take (r.length - 2))).toNat

/-- Whether a RESP that began in time is valid (R474). -/
def respOk (i seq ni : Nat) (r : List Byte) : Bool :=
  !respCrcBad r && nth r 0 0 = 0xF2 && nth r 1 0 = BitVec.ofNat 8 (i + 16 * seq) && (nth r 2 0).toNat = ni && r.length = 6 + ni

/-! ### The link cycle (R475, R476) -/

/-- The length of a station's slot in units of 0.5 µs. -/
def slotLen (ni no rto : Nat) : Nat := 12 + no + ni + 2 * rto + 2

/-- Whether bit i of RIO_ST is enabled, and its slot length, in the configuration written. -/
def State.slotNow (s : State) (l i : Nat) : Nat :=
  if s.on RIO_ST_en [l, i] then slotLen (s.g RIO_ST_ni [l, i]) (s.g RIO_ST_no [l, i]) (s.g RIO_LCFG_rto [l]) else 0

/-- The sum of the slots, rounded up to a whole µs. -/
def State.minCyc (s : State) (l : Nat) : Nat := (((List.range 16).map (s.slotNow l)).sum + 1) / 2

/-- The offset of station i's slot in the cycle in force, in units of 0.5 µs. -/
def State.slotOff (s : State) (l i : Nat) : Nat :=
  ((List.range i).map fun j => let x := s.sta l j; if x.en then slotLen x.ni x.no (s.g RIO_LCFG_rto [l]) else 0).sum

def halfUs (n : Nat) : Time := n * (oneUs / 2)

/-! ### Inputs and substitutes (R479, R480, R486) -/

/-- Sets the present input bytes of a station. -/
def State.putIn (s : State) (l i : Nat) (b : List Byte) : State :=
  s.each (List.range 16) fun s w => s.p RIO_IN [l, i, w] (leAt b (4 * w) 4)

/-- The bytes of RIO_SUBIN or RIO_SUBOUT. -/
def State.subBytes (s : State) (f : Fld) (l i n : Nat) : List Byte :=
  ((List.range 16).map fun w => leBytes 4 (s.g f [l, i, w])).flatten.take n

/-- The substitute input bytes of a station (R479). -/
def State.subIn (s : State) (l i : Nat) : List Byte :=
  let x := s.sta l i
  match s.g RIO_ST_isub [l, i] with
  | 0 => if x.seenUp then x.inp else s.subBytes RIO_SUBIN l i x.ni
  | 1 => s.subBytes RIO_SUBIN l i x.ni
  | _ => List.replicate x.ni 0

/-- Station i takes the substitute inputs and a state, IDLE or DOWN; STALE stays with the last valid RESP (R480). -/
def State.toSubst (s : State) (l i st : Nat) : State :=
  let s1 := (s.putIn l i (s.subIn l i)).p RIO_SST_state [l, i] st
  (s1.p RIO_SST_qual [l, i] (s.g RIO_SST_qual [l, i] &&& 0x80 ||| 0x10)).p RIO_LSTAT_up [l] (putBit (s1.g RIO_LSTAT_up [l]) i false)

/-- The inputs of a station that is not UP follow its substitute values (R479). -/
def State.reSubst (s : State) (l i : Nat) : State := if s.staState l i = S_UP then s else s.putIn l i (s.subIn l i)

/-- The substitute output bytes (R486). -/
def State.subOut (s : State) (l i : Nat) : List Byte :=
  let x := s.sta l i
  match s.g RIO_ST_osub [l, i] with
  | 0 => (x.sent ++ (List.range x.no).map Config.nothingSent).take x.no
  | 1 => s.subBytes RIO_SUBOUT l i x.no
  | _ => List.replicate x.no 0

/-- Whether the POLLs of a station carry substitutes (R485, R486). -/
def State.substOut (s : State) (l i : Nat) : Bool :=
  let x := s.sta l i
  x.subst || (x.own = 0 && x.hostDone) || s.dev = SAFE || (s.dev = MORNING && !s.on FIO_WDCFG_mlive)

/-! ### Images and drop-outs (R481, R482, R487) -/

/-- RIO_IMG of a host-owned station (R487). -/
def State.rioImg (s : State) (l i : Nat) : State :=
  let x := s.sta l i
  if x.own ≠ 0 || s.staState l i = S_IDLE then s
  else
    let buf := (s.staIn (16 * l + i)).take x.ni
    let d : RDesc := ⟨0x0D10, 0, x.ni, 0, (s.link l).count, s.g RIO_SST_qual [l, i], 16 * l + i, ST_DONE, buf⟩
    let (ok, s1) := s.deliver CLS_RIOIMG l d true
    if ok then s1.putSta l i { s1.sta l i with imgs := x.imgs ++ [decide (s.staState l i = S_UP)] }
    else s1.flagAt RIO 12 (186 + l)

/-- A RIO_IMG has been written: the host's input read of R484 may follow where it carried inputs since the entry into UP. -/
def State.imgWritten (s : State) (d : RDesc) : State :=
  let l := d.rf / 16
  let i := d.rf % 16
  let x := s.sta l i
  s.putSta l i { x with imgs := x.imgs.drop 1, imgSeen := x.imgSeen || x.imgs.headD false }

/-- Whether a drop-out of station i is due (R481). -/
def State.dropDue (s : State) (l i : Nat) : Bool :=
  s.staState l i = S_UP && decide (s.g RIO_LCFG_n [l] ≤ s.g RIO_SST_miss [l, i])

/-- A drop-out of station i of link l takes effect (R481). -/
def State.dropOut (s : State) (l i : Nat) : State :=
  let x := s.sta l i
  let s1 := (s.putSta l i { x with dropped := true }).p RIO_SST_drops [l, i] ((s.g RIO_SST_drops [l, i] + 1) % 256)
  let s2 := (s1.toSubst l i S_DOWN).flagAt RIO 8 (186 + l)
  if x.own = 0 || 4 < x.own then s2.rioImg l i
  else (s2.raise (32 * (x.own - 1) + 25)).bcpCause (x.own - 1) fun e =>
    { e with cause := e.cause ||| 1, dropped := e.dropped ||| BitVec.ofNat 128 (2 ^ (16 * l + i)) }

/-- STATION_DROP_OUT of station i of link l (R481). -/
def stationDropOut (l i : Nat) (s : State) : State := if s.dropDue l i then s.dropOut l i else s

/-- The drop-outs that are due on link l take effect. -/
def State.linkDrops (s : State) (l : Nat) : State := s.each ((List.range 16).filter (s.dropDue l)) fun s i => s.dropOut l i

/-- A drop-out that has been decided comes before a snapshot and before the output image of an instance (R482). -/
def State.dropsFirst (s : State) : State := s.each (List.range 8) State.linkDrops

/-- TIME_TASK_RELEASE of task t of BCP b: once for the release instants that have been reached (R311). -/
def timeTaskRelease (b t : Nat) (s : State) : State := if s.timeDue b t then s.dropsFirst.timeRelease b t else s

/-! ### Running, stopping and the configuration in force (R478, R485, R489) -/

/-- The configuration of station i comes into force: an enable takes it to DOWN, a disable to IDLE, and after a change
of owner the substitutes stand until the new owner writes. -/
def State.takeSta (s : State) (l i : Nat) : State :=
  let x := s.sta l i
  let w := s.rd (0xD0200 + 64 * l + 4 * i)
  let y : StaSt := { x with cfg := w }
  let s1 := s.putSta l i (if y.own ≠ x.own then { y with subst := true, newOwn := true } else y)
  if y.en && !x.en then
    (s1.p RIO_SST_miss [l, i] 0).toSubst l i S_DOWN
  else if !y.en && x.en then s1.toSubst l i S_IDLE
  else s1.reSubst l i

/-- The host-silent time of station i starts afresh (R681). -/
def State.staTimer (s : State) (l i : Nat) : State := s.putSta l i { s.sta l i with hostCyc := s.mer.cyc, hostDone := false }

/-- A write of RIO_ST[l][i] over `old`: the host's selection as owner starts its timeout (R681); on a stopped link the
configuration is in force at once. -/
def State.staWritten (s : State) (l i : Nat) (old : Word) : State :=
  let w := s.rd (0xD0200 + 64 * l + 4 * i)
  let s1 := if bits w 30 28 = 0 && bits old 30 28 ≠ 0 then s.staTimer l i else s
  if (s1.link l).running then s1.reSubst l i else s1.takeSta l i

/-- Link l starts: every enabled station enters DOWN (R489). -/
def State.linkStart (s : State) (l : Nat) : State :=
  let s1 := s.putLink l { s.link l with running := true, stopping := false, since := s.mer.now, cycAt := none, count := 0, polled := [], slot := none, answer := none }
  s1.each (List.range 16) fun s i =>
    let s2 := s.takeSta l i
    let s3 := (s2.putSta l i { s2.sta l i with seenUp := false, dropped := false }).p RIO_SST_miss [l, i] 0
    s3.toSubst l i (if (s3.sta l i).en then S_DOWN else S_IDLE)

/-- Link l stops: drop-outs that are decided come first (R481); then the configuration written is in force, and its enabled
stations enter DOWN without drop-out causes (R478, R489). -/
def State.linkStop (s0 : State) (l : Nat) : State :=
  let s := s0.linkDrops l
  let s1 := s.putLink l { s.link l with running := false, stopping := false, cycAt := none, polled := [], slot := none, answer := none }
  s1.each (List.range 16) fun s i =>
    let s2 := s.takeSta l i
    if (s2.sta l i).en then s2.toSubst l i S_DOWN else s2

/-- The stations of link l that the cycle in progress has still to poll. -/
def State.toPoll (s : State) (l : Nat) : List Nat :=
  (List.range 16).filter fun i => (s.sta l i).en && !(s.link l).polled.contains i

/-- What a write of RIO_LCFG[l].run does (R489). -/
def State.runWritten (s : State) (l : Nat) (was : Bool) : State :=
  let run := s.on RIO_LCFG_run [l]
  if s.inSt [DAWN, NIGHT] then s
  else if run && !was then s.linkStart l
  else if !run && was then
    (if (s.link l).slot.isNone && ((s.link l).cycAt.isNone || (s.toPoll l).isEmpty) then s.linkStop l
     else s.putLink l { s.link l with stopping := true })
  else s

/-- The links that run = 1 starts on leaving DAWN and at the wake. -/
def State.rioWake (s : State) : State := s.each ((List.range 8).filter fun l => s.on RIO_LCFG_run [l]) State.linkStart

/-- The links stop in NIGHT. -/
def State.rioNight (s : State) : State := s.each ((List.range 8).filter fun l => (s.link l).running) State.linkStop

/-- The RIO block reset beside its registers. -/
def State.rioReset (s : State) : State :=
  { s with rio := { s.rio with links := List.replicate 8 { emptyLink with
      stas := List.replicate 16 { emptySta with hostCyc := s.mer.cyc } } } }.each (List.range 8) fun t l =>
    t.each (List.range 16) fun t i => t.putSta l i { t.sta l i with imgs := (s.sta l i).imgs.map fun _ => false }

/-! ### POLL and RESP -/

/-- Whether a cycle of link l may start now, and its start: the last grid instant (R475, R476). -/
def State.cycleDue (s : State) (l : Nat) : Option Time :=
  let x := s.link l
  let us := s.mer.now / oneUs
  let cyc := s.g RIO_LCFG_cyc [l]
  let ph := s.g RIO_LPHASE_phase [l]
  let u := if cyc = 0 || us < ph then 0 else (us - ph) / cyc * cyc + ph
  let t := u * oneUs
  let fresh := match x.cycAt with
    | some c => decide (c < t) || decide (s.mer.now < c)
    | none => true
  let next := decide (x.since ≤ t) || decide (s.mer.now < x.since)
  if fresh && next && s.mer.stepAt ≤ t && ph ≤ us then some t else none

/-- A cycle of link l starts at an instant: the configurations written come into force. -/
def State.cycleStart (s : State) (l : Nat) (t : Time) : State :=
  let x := s.link l
  let s1 := s.putLink l { x with cycAt := some t, count := if x.cycAt.isNone then x.count else x.count + 1, polled := [] }
  s1.each (List.range 16) fun s i => s.takeSta l i

/-- The POLL of station i goes out (R472, R477, R484, R486). -/
def State.sendPoll (s : State) (l i : Nat) : State :=
  let k := s.link l
  let x := s.sta l i
  let sub := s.substOut l i
  let outval := s.staState l i = S_UP && (sub || !x.withhold)
  let b := if sub then s.subOut l i else x.out.take x.no
  let seq := k.count % 16
  let fin := k.cycAt.getD 0 + halfUs (s.slotOff l i + slotLen x.ni x.no (s.g RIO_LCFG_rto [l]))
  let s1 := s.putLink l { k with polled := k.polled ++ [i], slot := some (i, seq, fin), answer := none }
  let s2 := if outval then s1.putSta l i { s1.sta l i with sent := b } else s1
  let f := pollFrame i seq outval sub b
  s2.emit (.poll l i f (serialBits f))

/-- POLL_SEND to station i of link l: the first station of a cycle starts the cycle. -/
def pollSend (l i : Nat) (s : State) : State :=
  let k := s.link l
  if !k.running || s.inSt [DAWN, NIGHT] || k.slot.isSome then s
  else
    let s1 := match s.cycleDue l with
      | some t => if !k.stopping && ((s.toPoll l).isEmpty || k.cycAt.isNone) then s.cycleStart l t else s
      | none => s
    let k1 := s1.link l
    if (s1.toPoll l).head? = some i && k1.cycAt.isSome && decide (k1.cycAt.getD 0 + halfUs (s1.slotOff l i) ≤ s1.mer.now) then
      s1.sendPoll l i
    else s1

/-- A valid RESP of station i: its inputs, and an entry into UP (R477 to R484). -/
def State.goodResp (s : State) (l i : Nat) (r : List Byte) : State :=
  let x := s.sta l i
  let inp := (r.drop 4).take x.ni
  let inv := (nth r 3 0).getLsbD 0
  let up := decide (s.staState l i = S_UP)
  let s1 := s.putSta l i { x with inp := inp }
  let s2 := ((s1.putIn l i inp).p RIO_SST_miss [l, i] 0).p RIO_SST_qual [l, i] (if inv then 0x80 else 0)
  if up then s2
  else
    let tick := s.rio.tick + 1
    let y : StaSt := { s2.sta l i with seenUp := true, withhold := true, upTick := tick, imgSeen := false, imgs := x.imgs.map fun _ => false, dropped := false }
    let s3 := (s2.putSta l i y).p RIO_SST_state [l, i] S_UP
    let s4 := { s3 with rio := { s3.rio with tick := tick } }.p RIO_LSTAT_up [l] (putBit (s3.g RIO_LSTAT_up [l]) i true)
    if !x.seenUp then s4.raise (186 + l)
    else if !x.dropped then s4
    else
      let s5 := s4.flagAt RIO 9 (186 + l)
      if x.own = 0 || 4 < x.own then s5
      else (s5.raise (32 * (x.own - 1) + 25)).bcpCause (x.own - 1) fun e =>
        { e with cause := e.cause ||| 2, returned := e.returned ||| BitVec.ofNat 128 (2 ^ (16 * l + i)) }

/-- RESP_RECEIVE on link l: the bytes, and the time in ns from the end of the POLL to their beginning (R473, R474). -/
def respReceive (l : Nat) (r : List Byte) (after : Nat) (s : State) : State :=
  let k := s.link l
  match k.slot with
  | none => s
  | some (i, seq, _) =>
    if k.answer.isSome then s
    else
      let ok := decide (after ≤ s.g RIO_LCFG_rto [l] * 1000) && respOk i seq (s.sta l i).ni r
      let s1 := s.putLink l { k with answer := some ok }
      let s2 := if respCrcBad r then (s1.cnt RIO_SST_crc [l, i]).flagAt RIO 10 (186 + l) else s1
      if ok then s2.goodResp l i r else s2

/-- POLL_SLOT_END on link l: a poll without a valid RESP is missed. The image of a host-owned station is written,
after the drop-out where one is due. -/
def pollSlotEnd (l : Nat) (s : State) : State :=
  let k := s.link l
  match k.slot with
  | none => s
  | some (i, _, fin) =>
    if s.mer.now < fin then s
    else
      let s1 := s.putLink l { k with slot := none, answer := none }
      let s2 := if k.answer = some true then s1 else s1.cnt RIO_SST_miss [l, i]
      let s3 := if s2.dropDue l i then s2 else s2.rioImg l i
      if k.stopping && (s3.toPoll l).isEmpty then s3.linkStop l else s3

/-! ### Output bytes of the owners (R482, R484, R488) -/

/-- The output bytes that a write of the owner changes: after a change of owner, those of the substitutes (R485). -/
def State.outBase (s : State) (l i : Nat) : List Byte :=
  if (s.sta l i).newOwn then padTo 64 (s.subOut l i) else (s.sta l i).out

/-- A BCP instance's output bytes f onward for station k, applied at its end; discarded when the station is not UP or
its drop count differs from the one recorded with the snapshot (R482). -/
def State.bcpOut (s : State) (b : Nat) (i : Inst) (k f : Nat) (o : List Byte) : State :=
  let l := k / 16
  let j := k % 16
  let x := s.sta l j
  let same := match i.drops.find? (·.1 = k) with
    | some (_, n) => decide (n = s.g RIO_SST_drops [l, j])
    | none => true
  if x.own ≠ b + 1 || s.staState l j ≠ S_UP || !same then s
  else
    let was := s.outBase l j
    s.putSta l j { x with
    out := ((was.take f) ++ o ++ was.drop (f + o.length)).take 64
    subst := false
    newOwn := false
    withhold := x.withhold && !decide (x.upTick ≤ i.rioTick) }

/-- RIO_OUT (R488). -/
def rioOut (d : Desc) (buf : List Byte) (s : State) : State :=
  let l := d.rf.toNat % 128 / 16
  let i := d.rf.toNat % 16
  let x := s.sta l i
  if s.inSt [DAWN, NIGHT] || x.own ≠ 0 || s.staState l i = S_IDLE then s.complete d 0x0D01 ST_NOT_NOW
  else
    let s1 := s.clampDesc d 4 (b2n (d.len.toNat ≠ x.no))
    (s1.putSta l i { x with
      out := (buf.take x.no ++ (s.outBase l i).drop (min buf.length x.no)).take 64
      subst := false, newOwn := false, hostCyc := s.mer.cyc, hostDone := false
      withhold := x.withhold && !x.imgSeen }).complete d 0x0D01 ST_DONE

/-- RIO_HOST_TIMEOUT of station i of link l (R486, R681). -/
def rioHostTimeout (l i : Nat) (s : State) : State :=
  let x := s.sta l i
  if x.en && x.own = 0 && !x.hostDone && s.g RIO_HCFG_hto * oneMs ≤ s.since x.hostCyc then
    (s.putSta l i { x with hostDone := true }).flagAt RIO 11 (186 + l)
  else s

end Sys2Proof.Machine
end

