-- ==== Sys2Proof/Machine/Bcp.lean ====
section
/-! DEFINITION. The commands of the block-code processors: starting, stopping, loading, forcing and the online change (R306, R307, R327 to R339, R344). -/

namespace Sys2Proof.Machine

/-- The BCP that bytes 28–29 name. -/
def bcpOf (d : Desc) : Nat := d.rf.toNat % 4

/-! ### Starting and stopping (R306, R307, R344) -/

/-- BCP b enters RUNNING; a cold start writes the initial values first. A source that is already presented wakes it (R394). -/
def State.startBcp (s : State) (b : Nat) (cold : Bool) : State :=
  let s1 := s.each (List.range 16) fun s t => (s.p BCP_TSTAT_0_ovr [b, t] 0).p BCP_TSTAT_0_consec [b, t] 0
  let s2 := (s1.p BCP_ARITH_flag [b] 0).onCpu b fun c =>
    let c1 := if cold then (c.setMem (initRegion c.img)).putForces else c
    { c1 with state := B_RUNNING, insts := [], held := [], frames := 0, errAgain := false, dispatch := true }
  s2.timeGrid b

/-- BCP_START. -/
def bcpStart (d : Desc) (s : State) : State :=
  let b := bcpOf d
  if s.inSt [DAWN, NIGHT, SAFE] || (s.cpu b).state = B_EMPTY || (s.cpu b).state = B_RUNNING then s.complete d 0x0801 ST_NOT_NOW
  else (s.startBcp b (d.rf.getLsbD 8)).complete d 0x0801 ST_DONE

/-- Entry into NIGHT: instances are abandoned (R344). -/
def State.bcpNight (s : State) : State := s.each (List.range 4) State.dropInsts

/-- The wake: a BCP that was RUNNING continues with a warm restart, which clears its arithmetic flags and no count, and a source
that is already presented wakes it (R306, R344, R394). -/
def State.bcpWake (s : State) : State :=
  s.each ((List.range 4).filter fun b => (s.cpu b).state = B_RUNNING) fun s b =>
    ((s.p BCP_ARITH_flag [b] 0).onCpu b fun c => { c with frames := 0, dispatch := true }).timeGrid b

/-! ### Loading (R308, R330, R331, R355) -/

/-- The owner in force: the highest committed generation (R609). -/
def State.ownerGen (s : State) : Nat :=
  (s.sec.gens.zipIdx.filter (·.1.committed)).foldl (fun a x => max a (x.2 + 1)) 0
def State.owner (s : State) : OwnerGen := nth s.sec.gens (s.ownerGen - 1) ⟨[], false, false⟩

/-- The inactive bank of BCP b. -/
def BcpSt.other (c : BcpSt) : Nat := 1 - c.active

/-- Bank k of BCP b holds nothing verified. -/
def State.clearBank (s : State) (b k : Nat) : State :=
  (s.onCpu b fun c => c.putBank k emptyBank).p BCP_IMGID [b, k] 0

/-- BCP_LOAD (R330): what the inactive bank held goes, and the checks begin. -/
def bcpLoad (d : Desc) (buf : List Byte) (s : State) : State :=
  let b := bcpOf d
  if s.inSt [DAWN, NIGHT, SAFE] || (s.cpu b).switch.isSome then s.complete d 0x0803 ST_NOT_NOW
  else
    let s1 := s.clampDesc d 4 (b2n (decide (524288 < d.len.toNat)))
    (s1.clearBank b (s.cpu b).other).onCpu b fun c => { c with loading := c.loading ++ [(d, buf.take 524288)] }

/-- The checks of an image and what they leave in bank k of BCP b: its registers and flags, and the image where it
passes (R355, R615, R616). Answers the check code. -/
def State.loadBank (s : State) (b k : Nat) (img : List Byte) (len : Nat) : Nat × State :=
  let o := s.owner
  let (code, v) := loadCheck Config.rootKey o.key s.ownerGen o.vroot img len
  let v := v.getD ⟨false, false, 0, false⟩
  let s1 := ((s.p SEC_FBC_code [b] code).p SEC_FBC_signer [b] v.signer).p SEC_FBC_donly [b] (b2n (code = 0 && v.donly))
  let s2 := if v.verified then s1.cnt SEC_OPS_verify else s1
  if code = 0 then
    (0, (s2.onCpu b fun c => c.putBank k ⟨img, initRegion img, true, none, 4 * v.signer + 8 * b2n v.donly⟩).p BCP_IMGID [b, k] (leAt img 8 4))
  else (code, (if code = 3 then s2.flag SEC 9 else s2).clearBank b k)

/-- The clamps of an image's task table (R308). -/
def taskClamps (img : List Byte) : Nat := ((taskTable img).map (·.2)).sum

/-- BCP_LOAD_CHECKED (R355): the checks of the oldest load of BCP b end. -/
def bcpLoadChecked (b : Nat) (s : State) : State := match (s.cpu b).loading with
  | [] => s
  | (d, img) :: l =>
    let s1 := s.onCpu b fun c => { c with loading := l }
    let (code, s2) := s1.loadBank b (s.cpu b).other img (min d.len.toNat 524288)
    if code = 0 then (s2.clampDesc d 8 (taskClamps img)).completeWith { compOf d 0x0803 ST_DONE with b := 0 }
    else s2.completeWith { compOf d 0x0803 ST_AUTH_FAIL with b := code }

/-- The task table in force comes from the active bank. -/
def State.setTable (s : State) (b : Nat) : State :=
  s.each (taskTable (s.cpu b).img).zipIdx fun s ((e, _), t) =>
    (((s.p BCP_TASK_0 [b, t] (256 * e.prio + e.kind)).p BCP_TASK_1 [b, t] e.period).p BCP_TASK_2 [b, t] e.phase).p
      BCP_TASK_3 [b, t] e.wdt

/-! ### The host map and forcing (R328, R329, R337) -/

/-- BCP_MAP. -/
def bcpMap (d : Desc) (buf : List Byte) (s : State) : State :=
  let b := bcpOf d
  let c := s.cpu b
  if s.inSt [DAWN, NIGHT] || !(c.bank c.other).verified then s.complete d 0x0805 ST_NOT_NOW
  else
    let n := min (d.len.toNat / 20) 16384
    let m := (List.range n).map fun i => (buf.drop (20 * i)).take 20
    let bad := (m.filter fun e => 2 < leAt e 16 1).length
    let s1 := (s.clampDesc d 4 (b2n (n * 20 ≠ d.len.toNat))).clampDesc d 8 bad
    (s1.putCpu b (c.putBank c.other { c.bank c.other with map := some m.flatten })).complete d 0x0805 ST_DONE

/-- A forced value in the range of its type, and whether it was clamped (R328). -/
def forceClamp (t : Nat) (v : BitVec 64) : BitVec 64 × Bool :=
  if t = TB then (if v = 0 then 0 else 1, v ≠ 0 && v ≠ 1)
  else if isReal t then (v, false)
  else let (x, f) := satType t v.toInt; (intCell x, f)

/-- BCP_FORCE. -/
def bcpForce (d : Desc) (s : State) : State :=
  let b := bcpOf d
  let c := s.cpu b
  let key := d.a.toNat
  let others := c.forces.filter (·.key ≠ key)
  match findKey c.img key with
  | none => s.complete d 0x0806 ST_NOT_NOW
  | some v =>
    if s.inSt [DAWN, NIGHT] || v.isFb || 256 ≤ others.length then s.complete d 0x0806 ST_NOT_NOW
    else
      let (x, f) := forceClamp (v.typ.code % 8) d.addr
      let fo : Force := ⟨key, v.typ.code, x, d.b.truncate 8⟩
      ((s.clampDesc d 8 (b2n f)).putCpu b ({ c with forces := others ++ [fo] }).putForces).complete d 0x0806 ST_DONE

/-- BCP_UNFORCE. -/
def bcpUnforce (d : Desc) (s : State) : State :=
  let b := bcpOf d
  if s.inSt [DAWN, NIGHT] then s.complete d 0x0807 ST_NOT_NOW
  else
    let all := d.rf.getLsbD 8
    (s.onCpu b fun c => { c with forces := c.forces.filter fun f => !all && f.key ≠ d.a.toNat }).complete d 0x0807 ST_DONE

/-! ### Carrying the instance data over (R336, R337) -/

/-- What the old image holds for a new key: the old entry and the conversion of the map (R337), or none. -/
def partner (old : List Byte) (map : Option (List Byte)) (key : Nat) : Option (VarEnt × Nat) := match map with
  | none => (findKey old key).map (·, 0)
  | some m =>
    let es := (List.range (m.length / 20)).map fun i => (m.drop (20 * i)).take 20
    match es.find? fun e => leAt e 0 8 = key with
    | some e => (findKey old (leAt e 8 8)).map (·, min (leAt e 16 1) 2)
    | none => none

/-- A binary32 pattern as binary64: an exact value, an infinity as itself, a NaN with its payload (R336, log 163). -/
def widenPat (n : Nat) : Nat := match fvOf f32 n with
  | .nan => n / 2 ^ 31 * 2 ^ 63 + 0x7FF * 2 ^ 52 + n % 2 ^ 23 * 2 ^ 29
  | .inf neg => b2n neg * 2 ^ 63 + 0x7FF * 2 ^ 52
  | v => (v.pattern f64).1

/-- One element converted under the type table; none where the table gives the initial value. -/
def carryElem (o n : Nat) (l : List Byte) : Option (List Byte) :=
  let bo := o % 8
  let bn := n % 8
  if (bo = TT || bn = TT) && bo ≠ bn then none
  else
    let v :=
      if bo = bn then l.take (baseSize bo)
      else if bo = TR && bn = TLR then leBytes 8 (widenPat (leAt l 0 4))
      else storeBytes bn (convert bo bn (loadCell bo l)).1
    some (if n < 8 then v else v ++ [if o < 8 then 0 else nth l (baseSize bo) 0])

/-- The elements of a variable, converted, stored into the new region over the initial values. -/
def carryVar (m : Mem) (oldMem : Mem) (o n : VarEnt) : Mem :=
  (List.range (min o.count n.count)).foldl (fun m i =>
    match carryElem o.typ.code n.typ.code (memRead oldMem (o.off + i * o.typ.size) o.typ.size) with
    | some l => memWrite m (n.off + i * n.typ.size) l
    | none => m) m

/-- Whether an enclosing FB instance has a partner of another FB type, so that the whole instance is initial (R336). -/
def enclosedInitial (new old : List Byte) (map : Option (List Byte)) : Nat → VarEnt → Bool
  | 0, _ => false
  | n + 1, v =>
    if v.parent = 0xFFFF then false
    else
      let p := varEnt new v.parent
      (match partner old map p.key with
        | some (o, k) => k ≠ 2 && (!o.isFb || o.typ.key ≠ p.typ.key)
        | none => false) || enclosedInitial new old map n p

/-- The instance region of the new image after the carry-over. -/
def carryOver (new old : List Byte) (map : Option (List Byte)) (oldMem : Mem) : Mem :=
  (nestOrder new).foldl (fun m v =>
    let m0 := if v.isFb then m else memWrite m v.off (v.initBytes new)
    if enclosedInitial new old map 32 v then m0
    else match partner old map v.key with
      | none => m0
      | some (_, 1) => m0
      | some (o, 2) => memWrite m0 v.off (memRead oldMem o.off (min o.size v.size))
      | some (o, _) =>
        if v.isFb then (if o.isFb && o.typ.key = v.typ.key then memWrite m0 v.off (memRead oldMem o.off (min o.size v.size)) else m0)
        else if o.isFb then m0
        else carryVar m0 oldMem o v) (initRegion new)

/-! ### Taking the switch (R335, R338, R339) -/

/-- Whether a force stays in force in an image (R338). -/
def forceStays (img : List Byte) (f : Force) : Bool := match findKey img f.key with
  | some v => v.typ.code = f.typ
  | none => false

/-- A held release is dispatched after the switch, where the new table has a periodic task there (R335, R339). -/
def State.releaseHeld (s : State) (b : Nat) (x : Nat × Time × Nat) : State :=
  if !(s.taskKind b x.1 = K_FRAME || s.taskKind b x.1 = K_TIME) || (s.cpu b).busy x.1 then s
  else s.releaseAt b x.1 none x.2.1 x.2.2

/-- The causes of the old ERROR task that wait, and those of the forces dropped: they go into the record of the new ERROR task,
which a dropped force releases, or into BCP_STS (R322, R339). -/
def State.switchCause (s : State) (b drops : Nat) : State :=
  if drops = 0 then
    if (s.cpu b).err.cause ≠ 0 && (s.errorTask b).isNone then (s.flag BCP 13).onCpu b fun c => { c with err := emptyErr }
    else s
  else
    let s1 := s.bcpCause b fun e => { e with cause := e.cause ||| 8, forces := min (e.forces + drops) 0xFFFF }
    if (s.errorTask b).isNone then s1.onCpu b fun c => { c with err := emptyErr } else s1

/-- A switch point: every station drop-out that is due comes first, and the new table is in force (R482). A release instant that an
old TIME task has reached, and a release that was held, stay due where the new table has a task of the same kind there. -/
def State.takeSwitch (s0 : State) (b : Nat) (w : Switch) : State :=
  let s := s0.dropsFirst
  let c := s.cpu b
  let k := c.other
  let nb := c.bank k
  let drop := c.forces.filter fun f => !forceStays nb.img f
  let mem := carryOver nb.img c.img (if s.on BCP_CFG_hmatch [b] then some (nb.map.getD []) else none) c.mem
  let us := s.mer.now / oneUs
  let reached (t : Nat) : Bool := s.taskKind b t = K_TIME && nth c.nextRel t 0 ≠ 0 && decide (nth c.nextRel t 0 ≤ us)
  let s1 := s.putCpu b ({ c.putBank k { nb with mem := mem } with
    active := k, held := [], errAgain := false, dispatch := true
    state := if c.state = B_EMPTY then B_STOPPED else c.state
    forces := c.forces.filter (forceStays nb.img) }).putForces
  let s2 := (s1.setTable b).timeGrid b
  let s3 := s2.onCpu b fun x => { x with
    nextRel := (List.range 16).map fun t => nth (if reached t then c.nextRel else x.nextRel) t 0 }
  let s4 := s3.each drop fun s f => (s.bcpEvent b 1 0 f.key).flag BCP 11
  let s5 := s4.switchEnd b (if w.slot.isSome && (s.sas (w.slot.getD 0)).pendLate then ST_LATE else ST_DONE) s.mer.now
  let held := c.held.filter fun x => s.taskKind b x.1 = s5.taskKind b x.1
  let s7 := (s5.switchCause b drop.length).each held fun s x => s.releaseHeld b x
  (s7.flag BCP 12).bcpEvent b 4 0 0

/-! ### Arming the switch (R332, R334, R345) -/

/-- Whether a switch of BCP b may be armed (R332). -/
def State.switchOk (s : State) (b : Nat) : Bool :=
  let c := s.cpu b
  let k := c.bank c.other
  k.verified && (!s.on BCP_CFG_hmatch [b] || k.map.isSome)

/-- A switch of BCP b becomes PENDING; on a BCP that is not RUNNING it is taken at once, and the state is kept. -/
def State.switchPend (s : State) (b : Nat) (slot : Option Nat) (cmd : Option Desc) : State :=
  let w : Switch := ⟨slot, cmd, s.mer.now, s.mer.cyc, false⟩
  let s1 := s.onCpu b fun c => { c with switch := some w }
  if (s.cpu b).state = B_RUNNING then s1 else s1.takeSwitch b w

/-- BCP_SWITCH. -/
def bcpSwitch (d : Desc) (s : State) : State :=
  let b := bcpOf d
  if s.inSt [DAWN, NIGHT] || !s.switchOk b || (s.cpu b).switch.isSome then s.complete d 0x0804 ST_NOT_NOW
  else s.switchPend b none (some d)

/-- BCP b stops without output images; a switch that waits is taken, since this instant is a switch point (R307, R334). -/
def State.stopBcp (s : State) (b : Nat) : State :=
  let s1 := (s.dropInsts b).onCpu b fun c => { c with state := B_STOPPED }
  match (s1.cpu b).switch with
  | some w => s1.takeSwitch b w
  | none => s1

/-- BCP_STOP. -/
def bcpStop (d : Desc) (s : State) : State :=
  let b := bcpOf d
  if s.inSt [DAWN, NIGHT] || (s.cpu b).state = B_EMPTY || (s.cpu b).state = B_STOPPED then s.complete d 0x0802 ST_NOT_NOW
  else (s.stopBcp b).complete d 0x0802 ST_DONE

/-- Entry into SAFE: every BCP with an image stops without the stop states, and the switch of a slot, which SAFE has refused, ends
(R85, R344). -/
def State.bcpSafe (s : State) : State :=
  s.each (List.range 4) fun s b =>
    let s1 := if (s.cpu b).switch.any (·.slot.isSome) then s.onCpu b fun c => { c with switch := none } else s
    if (s1.cpu b).state = B_EMPTY then s1 else s1.stopBcp b

/-- SWITCH_TIMEOUT (R334): without a switch point within swto ms, new releases are held. -/
def switchTimeout (b : Nat) (s : State) : State := match (s.cpu b).switch with
  | some w =>
    if !w.holding && s.g BCP_CFG_swto [b] * oneMs ≤ s.since w.cyc then
      s.onCpu b fun c => { c with switch := some { w with holding := true } }
    else s
  | none => s

/-- SWITCH_POINT (R334, R335): BCP b has no released and no running instance. -/
def switchPoint (b : Nat) (s : State) : State := match (s.cpu b).switch with
  | some w => if (s.cpu b).insts.isEmpty then s.takeSwitch b w else s
  | none => s

/-! ### The block reset -/

/-- The BCP block reset: every BCP enters EMPTY with both banks unverified, and its forces are cleared (R329). A switch
that waits completes NOT_NOW. -/
def State.bcpReset (s : State) : State :=
  s.each (List.range 4) fun s b =>
    let s1 := s.switchEnd b ST_NOT_NOW 0
    let s2 := s1.each (s1.cpu b).loading fun s x => s.complete x.1 0x0803 ST_NOT_NOW
    s2.putCpu b emptyBcp

end Sys2Proof.Machine
end

