-- ==== Sys2Proof/Machine/Rec.lean ====
section
/-! DEFINITION. The recorder: streams, sample sets, triggers and their placing, marks, delivery, wavefront capture and fault location (R405 to R439). -/

namespace Sys2Proof.Machine

abbrev RS_IDLE : Nat := 0
abbrev RS_RUN : Nat := 1
abbrev RS_ARMED : Nat := 2
abbrev RS_POST : Nat := 3
abbrev RS_STOPPED : Nat := 4

def emptyStream : RecStream := ⟨none, 0, [], none, none, none, [], [], [], [], none, [], none, []⟩
def State.str (s : State) (k : Nat) : RecStream := nth s.rcd.streams k emptyStream
def State.putStr (s : State) (k : Nat) (x : RecStream) : State :=
  { s with rcd := { s.rcd with streams := s.rcd.streams.set k x } }
def State.recState (s : State) (k : Nat) : Nat := s.g REC_STAT_state [k]
def State.putRecState (s : State) (k st : Nat) : State := s.p REC_STAT_state [k] st

/-- Whether stream k produces sets. -/
def State.recActive (s : State) (k : Nat) : Bool := [RS_RUN, RS_ARMED, RS_POST].contains (s.recState k)

/-- A free value for a field that the spec does not state (log 7). -/
def State.drawWord (s : State) : Word × State := let (k, s1) := s.draw; (Config.freeWord k, s1)

/-! ### Sample sets (R405 to R407, R422) -/

/-- A time as 12 bytes of a record: seconds, nanoseconds, fraction. -/
def timeBytes (t : Time) : List Byte := leBytes 6 (Time.sec t) ++ leBytes 4 (Time.ns t) ++ leBytes 2 (Time.frac t)

/-- A time to 1/64 ns (R416). -/
def to64 (t : Time) : Time := t / 1024 * 1024

/-- The sample words of a tap, and the time of its last output. -/
def State.tapWords (s : State) (tap : Nat) : List Word := if tap = 4 then s.dch.frame.words else nth s.dch.taps tap []
def State.tapTime (s : State) (tap : Nat) : Time := if tap = 4 then s.dch.frame.ts else modTime (nth s.dch.tapTs tap 0)

/-- The received command bits of every teleprotection port. -/
def State.teleRx (s : State) : List Byte := ((List.range 4).map fun p => leBytes 2 (s.g TPC_CMDST_rx [p])).flatten

/-- The bytes of binary group b for the frame that is complete (R406): the inputs of the Sluice as they stood at its t0
(R267), and the outputs as it has left them. -/
def State.binGroup (s : State) (b : Nat) : List Byte := match b with
  | 0 => ((List.range 8).map fun j => leBytes 4 (s.operBits j)).flatten
  | 1 => ((List.range 8).map fun j => leBytes 4 (s.startBits j)).flatten
  | 2 => leBytes 4 (s.outBits 0) ++ leBytes 4 (s.outBits 1)
  | 3 => leBytes 4 (s.tmx.ins / 2 ^ 256 % 2 ^ 32)
  | 4 => leBytes 4 (s.tmx.ins / 2 ^ 288 % 2 ^ 32)
  | 5 => s.rcd.tele
  | 6 => leBytes 4 (s.g FIO_OUTST_low + 65536 * s.g FIO_CMD_low)
  | _ => leBytes 4 (s.tmx.ins / 2 ^ 336 % 65536)

/-- The frame items and the binary groups are those of the frame that is complete (R313, R407). -/
def State.latchView (s : State) : State :=
  { s with view := {
    header := s.dch.frame.header, seq := s.dch.frame.seq, stats := (List.range 256).map s.eleStat
    accs := (List.range 256).map s.eleAcc, qv := s.phe.qv, qq := s.phe.qq, rows := maskSum ((List.range 64).filter s.rowAct)
    bins := (List.range 8).map s.binGroup } }

/-- The set length of R422. -/
def State.setLen (s : State) (k : Nat) : Nat :=
  let nc := (bitsOf 24 (s.g REC_CHM_ch [k])).length
  let nq := s.g REC_BIN_nq [k]
  24 + 4 * nc + 4 * nq + 4 * ((nq + 3) / 4)
    + ((bitsOf 8 (s.g REC_BIN_bmask [k])).map fun b => nth [32, 32, 8, 4, 4, 8, 4, 4] b 0).sum

/-- The record of a sample set of stream k (R422): quantities, binary groups, sequence and flags are those of the last frame whose
element evaluation is complete (R407). -/
def State.setRecord (s : State) (k : Nat) (ts : Time) (idx : Nat) (words : List Word) : List Byte :=
  let nq := s.g REC_BIN_nq [k]
  let qs := (List.range nq).map fun i => s.g REC_QSEL_q [k, i]
  [1, 0] ++ leBytes 2 (s.setLen k) ++ timeBytes ts ++ leBytes 4 idx ++ leBytes 2 s.view.seq ++ (s.view.header.drop 14).take 2
    ++ ((bitsOf 24 (s.g REC_CHM_ch [k])).map fun c => leBytes 4 (nth words c 0).toNat).flatten
    ++ (qs.map fun q => leBytes 4 (nth s.view.qv q 0).toNat).flatten
    ++ (qs.map fun q => nth s.view.qq q 0) ++ List.replicate ((nq + 3) / 4 * 4 - nq) 0
    ++ ((bitsOf 8 (s.g REC_BIN_bmask [k])).map fun b => nth s.view.bins b []).flatten

/-! ### Delivery (R424, R425) -/

/-- The bytes of an open buffer. -/
def OpenBuf.bytes (c : OpenBuf) : List Byte := (c.items.map (·.bytes)).flatten

/-- The consumer that a record of stream k waits under, with its number there (R426). -/
def RecItem.tok (it : RecItem) (k : Nat) : CisTok := (if it.mark.isSome then 4 else k, it.id)

/-- REC_DATA: the buffer of stream k is completed; its records leave the Cistern when it has been written. -/
def State.recData (s : State) (k : Nat) : State := match (s.str k).cur, s.ringFor CLS_REC k with
  | some c, some r =>
    let (w, s1) : Word × State := match c.items.find? fun it => it.mark.isNone with
      | some it => (BitVec.ofNat 32 it.set, s)
      | none => s.drawWord
    let gap := c.items.any fun it => it.mark.any fun m => m.typ = 2
    let d : RDesc := ⟨0x0A10, 0, c.bytes.length, 0, w.toNat, c.items.length, k, if gap then ST_GAP else ST_DONE, c.bytes⟩
    let x := s1.str k
    (s1.putStr k { x with cur := none, done := x.done ++ [c.items] }).ready r d ((c.items.filter (·.inCis)).map (·.tok k))
  | _, _ => s

/-- Marks waiting in the recorder's reserve (R428). -/
def State.marksWaiting (s : State) : Nat := (s.cons 4).recs.length

/-- REC_MRES, and REC_STS.mres when the reserve becomes 75 % full (R428). -/
def State.recMres (s : State) : State :=
  let old := s.g REC_MRES_now
  let n := min s.marksWaiting 65535
  let full (m : Nat) : Bool := 3 * s.g CIS_Q_res [4] * 2048 ≤ 160 * m
  let s1 := (s.p REC_MRES_now [] n).p REC_MRES_max [] (max n (s.g REC_MRES_max))
  if full n && !full old then s1.flag REC 10 else s1

/-- A record leaves the Cistern, where it waited there. -/
def State.recLeave (s : State) (k : Nat) (it : RecItem) : State :=
  if it.inCis then s.unqueue (it.tok k).1 (it.tok k).2 else s

/-- Two runs of dropped sets, one behind the other, are one. -/
def joinRuns (a b : Option (Time × Nat × Nat)) : Option (Time × Nat × Nat) := match a, b with
  | some (t, i, n), some (_, _, m) => some (t, i, n + m)
  | none, r => r
  | r, none => r

/-- One more dropped set of stream k (R427): behind everything that waits, or at the head of the queue. -/
def State.recDrop (s : State) (k : Nat) (ts : Time) (idx : Nat) (atHead : Bool := false) : State :=
  let x := s.str k
  let one := some (ts, idx, 1)
  let y := if !atHead then { x with run := joinRuns x.run one }
    else if x.queue.any (·.mark.isNone) then { x with head := joinRuns x.head one }
    else { x with head := none, run := joinRuns (joinRuns x.head one) x.run }
  ((s.putStr k y).cnt REC_GAPCNT [k]).flag REC 8

/-- The time that a sample-set record carries. -/
def RecItem.time (it : RecItem) : Time :=
  leAt it.bytes 4 6 * oneSec + leAt it.bytes 10 4 * oneNs + leAt it.bytes 14 2

/-- The order of marks between the same two sets (R419). -/
def MarkInfo.before (a b : MarkInfo) : Bool :=
  decide (a.t < b.t) || (decide (a.t = b.t) && (decide (a.code < b.code) || (decide (a.code = b.code) && decide (a.idx < b.idx))))

/-- A mark goes behind the last set, among the marks that stand there (R419); END and START keep their places. -/
def insertMark (l : List RecItem) (it : RecItem) : List RecItem :=
  match it.mark with
  | some m =>
    if m.typ = 3 || m.typ = 6 then l ++ [it]
    else
      let r := l.reverse
      let later (x : RecItem) : Bool := match x.mark with
        | some y => y.typ ≠ 3 && y.typ ≠ 6 && m.before y
        | none => false
      (r.dropWhile later).reverse ++ [it] ++ (r.takeWhile later).reverse
  | none => l ++ [it]

/-- The 40 bytes of a mark (R420). -/
def markBytes (typ : Nat) (t : Time) (i phi flags code idx arg merged : Nat) : List Byte :=
  [2, BitVec.ofNat 8 typ] ++ leBytes 2 40 ++ timeBytes (to64 t) ++ leBytes 4 i ++ leBytes 2 phi ++ leBytes 2 flags
    ++ leBytes 2 code ++ leBytes 2 idx ++ leBytes 4 arg ++ leBytes 2 merged ++ List.replicate 6 0

/-- The GAP mark of a run (R420, R427), with a record number. -/
def gapMark (id : Nat) (run : Time × Nat × Nat) : RecItem :=
  ⟨markBytes 2 run.1 run.2.1 0 0 0xFFFF 0 run.2.2 0, some ⟨2, run.1, 0xFFFF, 0, id⟩, 0, id, false⟩

/-- Posted descriptors for stream k. -/
def State.recSlots (s : State) (k : Nat) : Nat := ((s.ringFor CLS_REC k).map s.posted).getD 0

/-- Records of stream k go to the host while descriptors are posted (R424 to R427): a set that is longer than its buffer is
dropped, and a mark that is longer leaves an empty buffer behind (log 159). -/
def pumpStream (k : Nat) : Nat → State → State
  | 0, s => s
  | n + 1, s =>
    let x := s.str k
    match x.queue, s.ringFor CLS_REC k with
    | it :: rest, some r =>
      if s.posted r = 0 then s
      else match x.cur with
        | none =>
          if s.nextSize r < it.bytes.length && it.mark.isNone then
            pumpStream k n (((s.putStr k { x with queue := rest }).recLeave k it).recDrop k it.time it.set true)
          else pumpStream k n (s.putStr k { x with cur := some ⟨s.nextSize r, [], s.mer.cyc⟩ })
        | some c =>
          match x.head, it.mark with
          | some run, none =>
            let id := s.rcd.seq + 1
            pumpStream k n (({ s with rcd := { s.rcd with seq := id } }).putStr k { x with head := none, queue := gapMark id run :: x.queue })
          | _, _ =>
            if c.size < c.bytes.length + it.bytes.length then pumpStream k n (s.recData k)
            else
              let s1 := s.putStr k { x with queue := rest, cur := some { c with items := insertMark c.items it } }
              pumpStream k n (if it.mark.any fun m => m.typ = 3 then s1.recData k else s1)
    | _, _ => s

/-- RECORD_FLUSH of stream k (R425). -/
def recordFlush (k : Nat) (s : State) : State := match (s.str k).cur with
  | some c => if s.g REC_CFG_flush [k] * 100 * oneUs ≤ s.since c.cyc then s.recData k else s
  | none => s

/-- A record that had a descriptor waits again, behind those that wait: in the Cistern, where it finds room there (log 160). -/
def State.recAgain (s : State) (k : Nat) (it : RecItem) : State :=
  let add (s : State) (it : RecItem) : State := s.putStr k { s.str k with queue := (s.str k).queue ++ [it] }
  if it.inCis then add s it
  else match s.queue (it.tok k).1 it.id it.bytes with
    | some s1 => add s1 { it with inCis := true }
    | none => match it.mark with
      | some _ => add (s.noBuf 4) it
      | none => (s.noBuf k).recDrop k it.time it.set

/-- The ring of stream k has gone, or a write to it has failed: the records of its buffers that have not been written wait as if no
descriptor were posted, before the others (R561, R575). -/
def State.recBack (s : State) (k : Nat) : State :=
  let x := s.str k
  let l := x.done.flatten ++ (x.cur.map (·.items)).getD []
  let s1 := (s.putStr k { x with cur := none, done := [], queue := [], head := none, run := none }).each l fun s it => s.recAgain k it
  let y := s1.str k
  let late := x.queue.any (·.mark.isNone)
  s1.putStr k { y with
    queue := y.queue ++ x.queue
    head := if late then joinRuns y.run x.head else none
    run := if late then x.run else joinRuns (joinRuns y.run x.head) x.run }

/-! ### Marks (R416 to R421, R427 to R429) -/

/-- A record joins its stream: the pre-trigger store in ARMED, else the queue. -/
def State.recJoin (s : State) (k : Nat) (it : RecItem) : State :=
  let x := s.str k
  if s.recState k = RS_ARMED then s.putStr k { x with store := insertMark x.store it }
  else s.putStr k { x with queue := insertMark x.queue it }

/-- A record of stream k goes to the host where a descriptor is posted, and waits in the Cistern otherwise (R426); none when it
finds no room there. -/
def State.recPut (s : State) (k : Nat) (it : RecItem) : Option State :=
  let x := s.str k
  let now := pumpStream k (6 + s.recSlots k) (s.putStr k { x with queue := [it] })
  if s.recState k ≠ RS_ARMED && x.queue.isEmpty && (now.str k).queue.isEmpty then some now
  else (s.queue (it.tok k).1 it.id it.bytes).map fun s1 => s1.recJoin k { it with inCis := true }

/-- The marks of a stream that wait: in the reserve, or inside the recorder. -/
def RecStream.waiting (x : RecStream) : List RecItem := ((x.store ++ x.queue).filter (·.inCis)) ++ x.stuck

/-- The sequence number of the newest mark that waits. -/
def State.newestMark (s : State) : Nat :=
  ((s.rcd.streams.map fun (x : RecStream) => x.waiting.filterMap fun it => it.mark.map (·.seq)).flatten).foldl max 0

/-- Whether a mark is the newest waiting one, and like a new mark (R429). -/
def RecItem.like (it : RecItem) (m : MarkInfo) (seq : Nat) : Bool :=
  it.mark.any fun y => y.seq = seq && y.typ = m.typ && y.code = m.code && y.idx = m.idx

/-- The merged count of a mark. -/
def RecItem.merged (it : RecItem) : Nat := leAt it.bytes 32 2

/-- A new mark is merged into the newest waiting one: its merged count increases (R429). -/
def mergeInto (m : MarkInfo) (seq : Nat) (it : RecItem) : RecItem :=
  if it.like m seq then { it with bytes := it.bytes.take 32 ++ leBytes 2 (min (it.merged + 1) 65535) ++ it.bytes.drop 34 } else it

/-- A mark that finds no room merges into the newest waiting one, or waits inside the recorder (R429). -/
def State.recMerge (s : State) (k : Nat) (it : RecItem) (m : MarkInfo) : State :=
  let x := s.str k
  let q := s.newestMark
  match x.waiting.find? fun y => y.like m q with
  | some y =>
    let s1 := (s.putStr k { x with store := x.store.map (mergeInto m q), queue := x.queue.map (mergeInto m q)
                                   stuck := x.stuck.map (mergeInto m q) }).flag REC 11
    if y.inCis then s1.storeLast 4 y.id 32 (leBytes 2 (min (y.merged + 1) 65535)) else s1
  | none => s.putStr k { x with stuck := x.stuck ++ [it] }

/-- A mark is delivered, enters the reserve, merges, or waits inside the recorder (R426, R428, R429). -/
def State.recMark (s : State) (k : Nat) (it : RecItem) (m : MarkInfo) : State :=
  if !(s.str k).stuck.isEmpty then (s.noBuf 4).recMerge k it m
  else match s.recPut k it with
    | some s1 => s1.recMres
    | none => (s.noBuf 4).recMerge k it m

/-- Marks that wait inside the recorder enter the reserve as it frees. -/
def unstick (k : Nat) : Nat → State → State
  | 0, s => s
  | n + 1, s =>
    let x := s.str k
    match x.stuck with
    | [] => s
    | it :: rest => match s.recPut k it with
      | some s1 => unstick k n ((s1.putStr k { s1.str k with stuck := rest }).recMres)
      | none => s

/-- REC_STOP completes once its END mark has been queued (R436). -/
def State.recStops (s : State) (k : Nat) : State :=
  let x := s.str k
  let waits (n : Nat) : Bool := x.stuck.any fun it => it.mark.any fun m => m.seq = n
  (s.putStr k { x with stops := x.stops.filter fun e => waits e.1 }).each (x.stops.filter fun e => !waits e.1) fun s e =>
    s.complete e.2 0x0A02 ST_DONE

/-- The reserve of the marks may have room: the marks of every stream that wait inside the recorder enter it (R429). -/
def State.recRoom (s : State) : State :=
  ((s.each (List.range 4) fun s k => unstick k (s.str k).stuck.length s).recMres).each (List.range 4) State.recStops

/-- The records of stream k move on. -/
def State.recPump (s : State) (k : Nat) : State :=
  let s1 := s.recRoom
  (pumpStream k (6 * (s1.str k).queue.length + 3 + s1.recSlots k) s1).recRoom

/-- The oldest completed buffer of stream k has been written. -/
def State.recWritten (s : State) (k : Nat) : State := (s.putStr k { s.str k with done := (s.str k).done.drop 1 }).recRoom

/-- A mark of a stream, with a new sequence number. -/
def State.newMark (s : State) (k typ : Nat) (t : Time) (i phi flags code idx arg : Nat) : State :=
  let m : MarkInfo := ⟨typ, t, code, idx, s.rcd.seq + 1⟩
  ({ s with rcd := { s.rcd with seq := s.rcd.seq + 1 } }).recMark k ⟨markBytes typ t i phi flags code idx arg 0, some m, 0, m.seq, false⟩ m

/-- The number of an index, 16#FFFF_FFFF for a time before set 0. -/
def idxOf (i : Int) : Nat := wrap 32 i

/-! ### END and START (R410, R411, R436, R437) -/

/-- The next instant of stream k's grid after a time: on a fixed tap by its stride, none on the tracked tap. -/
def State.gridNext (s : State) (k : Nat) (t : Time) : Option Time :=
  let g := s.g REC_CFG_tap [k]
  if g = 4 then none else some (modTime (modAt t + nth [16, 1280, 3840, 4608] g 16))

/-- The next tracked instant after a time (R136): placed and not yet formed, or fixed. -/
def State.nextTracked (s : State) (t : Time) : Option Time :=
  ((s.dch.placed ++ s.dch.nextT.toList).find? fun p => decide (t < p.now)).map (·.now)

/-- φ of R417; a quotient that does not lie below 1 is a value that the spec does not state (log 7). -/
def State.phiOf (s : State) (t a b : Time) : Nat × State :=
  if a ≤ t && t < b then (65536 * (t - a) / (b - a), s)
  else let (w, s1) := s.drawWord; (w.toNat % 65536, s1)

/-- The trigger's mark: flags, and the record-stream source (R438). -/
def State.trigMark (s : State) (k : Nat) (tr : Trig) (i : Int) (phi : Nat) (late : Bool) : State :=
  let s1 := s.newMark k tr.typ tr.t (idxOf i) phi (b2n tr.test + 2 * b2n late + 4 * tr.method) tr.code tr.idx tr.arg
  let s2 := if tr.typ = 1 then s1.raise (213 + k) else s1
  if late then s2.flag REC 9 else s2

/-- END with a cause: the mark, source 213 + k, and STOPPED. Triggers that wait for a later set stand before it. -/
def State.recEnd (s : State) (k cause : Nat) : State :=
  let x := s.str k
  let held := x.store
  let sets := held.filter (·.mark.isNone)
  let drop := s.recState k = RS_ARMED
  let s0 := if drop then s.each sets fun s it => s.recLeave k it else s
  let s1 := s0.putStr k { x with store := [], pend := [], run := none, stopAt := none, start := none
                                 queue := x.queue ++ (if drop then held.filter (·.mark.isSome) else held) }
  let s2 := (s1.putRecState k RS_STOPPED).p REC_STAT_held [k] 0
  let i : Int := (x.next : Int) - 1
  let s3 := s2.each x.pend fun s tr =>
    let (phi, s') : Nat × State := match x.times.head? with
      | some a => s.phiOf tr.t a (((s.gridNext k a).or (s.nextTracked a)).getD a)
      | none => (0, s)
    s'.trigMark k tr i phi false
  let s4 := match x.last with
    | some (j, t) => s3.newMark k 3 t j 0 0 0xFFFF 0 cause
    | none =>
      let (a, s3a) := s3.drawWord
      let (b, s3b) := s3a.drawWord
      s3b.newMark k 3 (Time.of a.toNat 0) b.toNat 0 0 0xFFFF 0 cause
  let s5 := (s4.raise (213 + k)).recPump k
  match x.start with
  | some d =>
    let (a, s6) := s5.drawWord
    let (b, s7) := s6.drawWord
    s7.completeWith { compOf d 0x0A01 ST_DONE with addr := a.toNat, a := b.toNat }
  | none => s5

/-- REC_START (R410). -/
def recStart (d : Desc) (s : State) : State :=
  let k := d.rf.toNat % 4
  let single := s.on REC_CFG_mode [k]
  let need := (s.g REC_LEN_pre [k] * s.setLen k + 2047) / 2048
  if s.recActive k || s.inSt [DAWN, NIGHT] || (single && s.g CIS_Q_max [k] < need) then s.complete d 0x0A01 ST_NOT_NOW
  else
    let x := s.str k
    let s1 := s.putStr k { x with start := some d, next := 0, times := [], stopAt := none, run := none, pend := [], last := none }
    s1.putRecState k (if single then RS_ARMED else RS_RUN)

/-- REC_STOP (R436): it completes once the END mark has been queued. -/
def recStop (d : Desc) (s : State) : State :=
  let k := d.rf.toNat % 4
  if s.recActive k then
    let s1 := s.recEnd k 1
    (s1.putStr k { s1.str k with stops := (s1.str k).stops ++ [(s1.rcd.seq, d)] }).recStops k
  else s.complete d 0x0A02 ST_NOT_NOW

/-! ### Triggers (R411 to R414, R416 to R419, R430) -/

/-- A trigger takes an ARMED stream to POST with preceding-sample index i: the held sets are delivered (R411). -/
def State.toPost (s : State) (k : Nat) (i : Int) : State :=
  let x := s.str k
  let stop : Int := i + s.g REC_LEN_post [k]
  let keep (it : RecItem) : Bool := it.mark.isSome || decide ((it.set : Int) ≤ stop)
  let s1 := s.each (x.store.filter fun it => !keep it) fun s it => s.recLeave k it
  let s2 := s1.putStr k { x with
    queue := x.queue ++ x.store.filter keep, store := [], stopAt := some stop
    last := match (x.store.filter fun it => it.mark.isNone && keep it).getLast? with
      | some it => some (it.set, nth x.times (x.next - 1 - it.set) 0)
      | none => none }
  (s2.putRecState k RS_POST).p REC_STAT_held [k] 0

/-- The trigger takes effect with its place known (R412, R419); a period that has ended already ends the stream. -/
def State.applyTrig (s : State) (k : Nat) (tr : Trig) (i : Int) (phi : Nat) (late : Bool) : State :=
  let starts := s.recState k = RS_ARMED && tr.typ = 1 && (!tr.test || s.on REC_CFG_testtrig [k])
  let s1 := if starts then s.toPost k i else s
  let s2 := s1.trigMark k tr i phi late
  let ovr := match (s2.str k).stopAt with
    | some e => starts && decide (e < ((s2.str k).next : Int))
    | none => false
  if ovr then s2.recEnd k 0 else s2.recPump k

/-- Whether a set after set i of the stream has been queued (R419). -/
def RecStream.lateAfter (x : RecStream) (i : Int) : Bool :=
  let newest := match (x.store.filter (·.mark.isNone)).getLast? with
    | some it => some it.set
    | none => x.last.map fun (e : Nat × Time) => e.1
  newest.any fun j => decide (i < (j : Int))

/-- The place of a trigger whose time lies before the last set: its index, and φ from the sets around it. -/
def State.latePlace (s : State) (k : Nat) (tr : Trig) : Int × Nat × State :=
  let x := s.str k
  let j := x.times.findIdx fun t => decide (t ≤ tr.t)
  let i : Int := (x.next : Int) - 1 - j
  if i < 0 then (-1, 0, s)
  else match tr.phi with
    | some f => (i, f, s)
    | none =>
      let a := nth x.times j 0
      let (f, s1) := s.phiOf tr.t a ((s.gridNext k a).getD (nth x.times (j - 1) 0))
      (i, f, s1)

/-- Puts a trigger among those that wait, in the order of R419. -/
def insTrig (tr : Trig) : List Trig → List Trig
  | [] => [tr]
  | y :: ys =>
    if decide (tr.t < y.t) || (decide (tr.t = y.t) && (decide (tr.code < y.code) || (decide (tr.code = y.code) && decide (tr.idx < y.idx))))
    then tr :: y :: ys else y :: insTrig tr ys

/-- A trigger reaches stream k (R409, R413, R419): counted, placed, or kept until the set after it is there. -/
def State.trigger (s : State) (k : Nat) (tr : Trig) : State :=
  if !s.recActive k then (if tr.typ = 1 then (s.cnt REC_TRIGCNT [k]).flag REC 14 else s)
  else
    let s1 := if s.on REC_CFG_xout [k] && tr.code ≠ 7 && tr.typ = 1 && s.on GEN_STATE_stacked then
        s.stackSend PK_TRIG [s.position, tr.t, tr.method, b2n tr.test, tr.code, tr.idx]
      else s
    let x := s1.str k
    match x.times with
    | [] => s1.putStr k { x with pend := insTrig tr x.pend }
    | t :: _ =>
      if tr.t < t then
        let (i, phi, s2) := s1.latePlace k tr
        s2.applyTrig k tr i phi (x.lateAfter i)
      else if tr.t = t then s1.applyTrig k tr ((x.next : Int) - 1) 0 false
      else s1.putStr k { x with pend := insTrig tr x.pend }

/-- A trigger for every stream of a mask. -/
def State.triggers (s : State) (mask : Nat) (tr : Trig) : State := s.each (bitsOf 4 mask) fun s k => s.trigger k tr

/-- Method 0 when the time lies on the stream's own grid, and 3 otherwise (R413). -/
def State.onGrid (s : State) (k : Nat) (t : Time) : Nat :=
  let tap := s.g REC_CFG_tap [k]
  let on := if tap = 4 then
      t = s.dch.frame.ts || (s.str k).times.contains t || (s.dch.placed ++ s.dch.nextT.toList).any fun p => p.now = t
    else modTime (modAt t) = t && modAt t % nth [16, 1280, 3840, 4608] tap 16 = 0
  if on then 0 else 3

/-- Triggers of source 0: the rows that have risen, at a time (R413). -/
def State.recRows (s : State) (t : Time) : State :=
  let l := s.tmx.rose
  { s with tmx := { s.tmx with rose := [] } }.each l fun s r =>
    let x := s.row r
    s.each (bitsOf 4 (bits x.dst 27 24)) fun s k => s.trigger k ⟨t, s.onGrid k t, x.tblk, 0, r, 0, none, 1⟩

/-- Triggers of source 1: slots whose start has risen, at a time. -/
def State.recStarts (s : State) (l : List Nat) (t : Time) : State :=
  s.each (List.range 4) fun s k =>
    s.each (l.filter fun n => bitAt (s.g REC_ETRIG [k, n / 32]) (n % 32)) fun s n =>
      s.trigger k ⟨t, s.onGrid k t, (s.slot n).mode = M_TEST, 1, n, 0, none, 1⟩

/-- Triggers of source 2: an edge of input i (R413, R446). -/
def State.recDi (s : State) (i : Nat) (t : Time) (lv : Bool) : State :=
  s.each ((List.range 4).filter fun k => bitAt (s.g REC_DTRIG [k, if lv then 0 else 1]) i) fun s k =>
    s.trigger k ⟨t, 3, false, 2, i, 0, none, 1⟩

/-- Triggers of source 3: a stamped edge of TRIG_INn. -/
def State.recPin (s : State) (n : Nat) (rising : Bool) (t : Time) : State :=
  s.each ((List.range 4).filter fun k =>
      (if n = 0 then s.on REC_PTRIG_in0 [k] else s.on REC_PTRIG_in1 [k])
        && rising = ((if n = 0 then s.g REC_PTRIG_pol0 [k] else s.g REC_PTRIG_pol1 [k]) = 0)) fun s k =>
    s.trigger k ⟨t, 1, false, 3, n, 0, none, 1⟩

/-- Triggers of source 4: a stamped rising edge of PPS_IN. -/
def State.recPps (s : State) (t : Time) : State :=
  s.each ((List.range 4).filter fun k => s.on REC_PTRIG_pps [k]) fun s k => s.trigger k ⟨t, 1, false, 4, 0, 0, none, 1⟩

/-- Triggers of source 7 (R430). -/
def State.recLine (s : State) (member : Nat) (t : Time) (method : Nat) (test : Bool) (code idx : Nat) : State :=
  s.each ((List.range 4).filter fun k => s.on REC_CFG_xin [k]) fun s k =>
    s.trigger k ⟨t, method, test, 7, member, code % 256 + 256 * (idx % 65536), none, 1⟩

/-- REC_TRIG (R414). -/
def recTrig (d : Desc) (s : State) : State :=
  if s.inSt [DAWN, NIGHT] then s.complete d 0x0A03 ST_NOT_NOW
  else
    let sec := d.addr.toNat % 2 ^ 48
    let ns := d.a.toNat % 2 ^ 32
    let n := min ns 999999999
    let s1 := s.clampDesc d 16 (b2n (n ≠ ns))
    let t := if sec = 0 && ns = 0 then s.mer.now else Time.of sec n
    (s1.triggers (bits d.b 3 0) ⟨t, 3, bitAt d.b.toNat 4, 8, 0, 0, none, 1⟩).complete d 0x0A03 ST_DONE

/-- A user mark (R374): NOT_NOW when a stream of the mask is not RUN, ARMED or POST is the caller's to judge. -/
def State.userMark (s : State) (k bcp code : Nat) : State := s.trigger k ⟨s.mer.now, 3, false, 0xFFFF, bcp, code, none, 5⟩

/-! ### Level units (R415, R418) -/

/-- The values of one output of a tap that the level units may take: the sample words, and for the tracked tap the quantities. -/
abbrev TapOut := Time × List Word × List Word × List Byte

/-- The present output of a tap, and the one before it. -/
def State.tapOut (s : State) (tap : Nat) : TapOut :=
  (s.tapTime tap, s.tapWords tap, if tap = 4 then (s.phe.qv, s.phe.qq) else ([], []))
def State.tapPrev (s : State) (tap : Nat) : Option TapOut :=
  (nth s.rcd.prev tap none).map fun p => (p.1, p.2, if tap = 4 then s.rcd.prevQ else ([], []))

/-- The tap's present output has been used. -/
def State.tapUsed (s : State) (tap : Nat) : State :=
  { s with rcd := { s.rcd with
    prev := s.rcd.prev.set tap (some (s.tapTime tap, s.tapWords tap))
    prevQ := if tap = 4 then (s.phe.qv, s.phe.qq) else s.rcd.prevQ } }

/-- A binary32 value for a comparison: an infinity lies beyond every finite value, and NaN has none. -/
def lvlReal (w : Nat) : Option Rat :=
  if isNaN f32 w then none else if isInf f32 w then some (if fmtNeg f32 w then -(2 ^ 200 : Nat) else (2 ^ 200 : Nat)) else some (ofF32 w)

/-- The input of a level unit in an output of its tap: value and quality (R415). -/
def lvlInput (kind : Bool) (i : Nat) (o : TapOut) : Option (Rat × Nat) :=
  let (_, words, qv, qq) := o
  if kind then (if i < qv.length then (lvlReal (nth qv i 0).toNat).map fun x => (x, (nth qq i 0).toNat) else none)
  else if i < words.length then some ((sampleVal i (nth words i 0)).1, (nth words i 0).toNat % 256) else none

/-- Level unit j of stream k between two consecutive outputs of its tap (R415, R418). φ is a value that the spec does not state where
the crossing is at the later sample or one of the three values is infinite (log 7). -/
def State.lvlFire (s : State) (k j : Nat) (o n : TapOut) : Option Trig × State :=
  let kind := s.on REC_LVL_0_kind [k, j]
  let i := s.g REC_LVL_0_idx [k, j]
  let m := s.g REC_LVL_0_vmask [k, j]
  match lvlInput kind i o, lvlInput kind i n, lvlReal (s.g REC_LVL_1 [k, j]) with
  | some (x, qx), some (y, qy), some thr =>
    let up := decide (x < thr) && decide (thr ≤ y)
    let dn := decide (thr < x) && decide (y ≤ thr)
    let fire := match s.g REC_LVL_0_dir [k, j] with
      | 0 => up
      | 1 => dn
      | _ => up || dn
    if qx &&& m = 0 && qy &&& m = 0 && fire then
      let inf := [x, y, thr].any fun v => decide ((2 ^ 200 : Nat) ≤ v) || decide (v ≤ -(2 ^ 200 : Nat))
      let f := ((thr - x) / (y - x) * 65536).floor.toNat
      let (w, s1) : Word × State := if f < 65536 && !inf then (BitVec.ofNat 32 f, s) else s.drawWord
      let p := w.toNat % 65536
      let t := to64 (o.1 + (if inf then p else f) * (n.1 - o.1) / 65536)
      (some ⟨t, 2, qy &&& Q_TEST ≠ 0, 6, j, 0, some p, 1⟩, s1)
    else (none, s)
  | _, _, _ => (none, s)

/-- The triggers of the level units of stream k at an output of its tap. -/
def State.lvlAll (s : State) (k tap : Nat) : List Trig × State := match s.tapPrev tap with
  | none => ([], s)
  | some o => ((List.range 4).filter fun j => s.on REC_LVL_0_en [k, j]).foldl (fun (l, s) j =>
      let (t, s1) := State.lvlFire s k j o (s.tapOut tap)
      ((t.map fun y => insTrig y l).getD l, s1)) ([], s)

/-! ### An output of a tap (R405 to R411, R427) -/

/-- A set of stream k is delivered, held or queued, or dropped whole (R427); the GAP mark of a run that has ended comes first, and
while it waits inside the recorder sets are dropped (R429). -/
def State.queueSet (s0 : State) (k : Nat) (ts : Time) (idx : Nat) (bytes : List Byte) : State :=
  let x := s0.str k
  let s := { s0 with rcd := { s0.rcd with seq := s0.rcd.seq + 1 } }
  let armed := s.recState k = RS_ARMED
  let pre := s.g REC_LEN_pre [k]
  if armed && pre = 0 then s
  else
    let held := x.store.filter (·.mark.isNone)
    let s1 := if armed && pre ≤ held.length then
        match held.head? with
        | some it => (s.putStr k { x with store := x.store.filter fun y => y.mark.isSome || y.set ≠ it.set }).recLeave k it
        | none => s
      else s
    let y := s1.str k
    let it : RecItem := ⟨bytes, none, idx, s.rcd.seq, false⟩
    if !y.stuck.isEmpty then s1.recDrop k ts idx
    else match s1.recPut k it with
    | none => (s1.noBuf k).recDrop k ts idx
    | some t =>
      if (t.str k).run ≠ y.run then t
      else
      let s2 := match y.run with
        | some (t, i, n) => (s1.putStr k { y with run := none }).newMark k 2 t i 0 0 0xFFFF 0 n
        | none => s1
      if !(s2.str k).stuck.isEmpty then s2.recDrop k ts idx
      else match s2.recPut k it with
        | none => (s2.noBuf k).recDrop k ts idx
        | some s4 =>
          let s5 := s4.putStr k { s4.str k with last := if armed || (s4.str k).run.isSome then x.last else some (idx, ts) }
          if armed then s5.p REC_STAT_held [k] (min 65535 ((s5.str k).store.filter (·.mark.isNone)).length) else s5

/-- Set 0 of a started stream: its START mark and the completion of REC_START (R410). -/
def State.firstSet (s : State) (k : Nat) (ts : Time) : State :=
  let x := s.str k
  match x.start with
  | none => s
  | some d =>
    let s1 := (s.putStr k { x with start := none }).newMark k 6 ts 0 0 0 0xFFFF 0 (s.g REC_CFG_mode [k])
    s1.completeWith ((compOf d 0x0A01 ST_DONE).at ts)

/-- The triggers of stream k that stand before a set with time ts: those that wait, and those of its level units. -/
def State.placeBefore (s : State) (k : Nat) (ts : Time) (fired : List Trig) : State :=
  let x := s.str k
  let prev := x.times.head?
  let i : Int := (x.next : Int) - 1
  let all := fired.foldl (fun a t => insTrig t a) x.pend
  let l := all.filter fun t => decide (t.t < ts)
  (s.putStr k { x with pend := all.filter fun t => !(decide (t.t < ts)) }).each l fun s tr =>
    let (phi, s1) : Nat × State := match prev, tr.phi with
      | none, _ => (0, s)
      | some _, some f => (f, s)
      | some a, none => s.phiOf tr.t a ((s.gridNext k a).getD ts)
    if s1.recActive k then s1.applyTrig k tr (if prev.isNone then -1 else i) phi false else s1

/-- The triggers of stream k whose time is that of the set with index i, which has just come: φ is 0. -/
def State.placeOn (s : State) (k i : Nat) (ts : Time) : State :=
  let x := s.str k
  (s.putStr k { x with pend := x.pend.filter fun t => decide (ts < t.t) }).each (x.pend.filter fun t => decide (t.t ≤ ts)) fun s tr =>
    if s.recActive k then s.applyTrig k tr i (tr.phi.getD 0) false else s

/-- An output of the tap of stream k. -/
def State.recSet (s : State) (k tap : Nat) : State :=
  let ts := s.tapTime tap
  let words := s.tapWords tap
  let (fired, s1) := s.lvlAll k tap
  if !s1.recActive k then s1.each fired fun s tr => s.trigger k tr
  else
    let s2 := s1.each fired fun s tr =>
      if s.on REC_CFG_xout [k] && s.on GEN_STATE_stacked then
        s.stackSend PK_TRIG [s.position, tr.t, tr.method, b2n tr.test, tr.code, tr.idx]
      else s
    let s3 := (s2.firstSet k ts).placeBefore k ts fired
    if !s3.recActive k then s3
    else
      let x := s3.str k
      let idx := x.next
      let s4 := (s3.putStr k { x with next := idx + 1, times := ts :: x.times }).p REC_IDX [k] idx
      let s5 := s4.queueSet k ts idx (s4.setRecord k ts (idx % 2 ^ 32) words)
      if x.stopAt = some (idx : Int) then s5.recEnd k 0 else (s5.recPump k).placeOn k idx ts

/-- SAMPLE_SET: an output of a tap reaches the streams of that tap (R408). -/
def State.recOutput (s : State) (tap : Nat) : State :=
  (s.each ((List.range 4).filter fun k => s.g REC_CFG_tap [k] = tap) fun s k => s.recSet k tap).tapUsed tap

/-- TQ_MARK in the frame in which tq changes (R421). -/
def State.recTq (s : State) : State :=
  let q := s.dch.frame.flags % 4
  let t := s.dch.frame.ts
  if q = s.rcd.tq then s
  else
    { s with rcd := { s.rcd with tq := q } }.each ((List.range 4).filter s.recActive) fun s1 k =>
      s1.trigger k ⟨t, s1.onGrid k t, false, 0xFFFF, 0, q + 4 * s.rcd.tq, none, 4⟩

/-! ### Wavefronts and fault location (R431 to R435) -/

/-- The length of a wavefront record of nc channels (R432). -/
def waveLen (nc : Nat) : Nat := 168 + 592 * nc

/-- One stamp of a weir in REC_WFCFG.en as a second arrival: the estimates of R433 of the windows that it serves. -/
def State.arrival (s : State) (t : Time) (pol : Bool) : State :=
  let tmin := s.g REC_FLCFG_tmin * 10 * oneNs
  let tmax := s.g REC_FLCFG_tmax * oneUs
  let fits (a : Time × Bool) : Bool :=
    decide (a.1 + tmin ≤ t) && decide (t ≤ a.1 + tmax) && (s.on REC_FLCFG_pol || pol = a.2) && decide (a.1 < t)
  let dist (t1 : Time) : Word := w32 (ofF32 (s.g REC_FLVEL) * ((t - t1 : Nat) : Rat) / (oneUs : Rat) / 2)
  let hit := s.rcd.arrivals.filter fits
  let cap := s.rcd.cap.map fun (c : Capture) => if hit.any fun a => a.1 = c.t1 then { c with est := some (dist c.t1) } else c
  { s with rcd := { s.rcd with
    arrivals := s.rcd.arrivals.filter fun a => !fits a, dist := s.rcd.dist ++ hit.map fun a => dist a.1, cap := cap } }

/-- The recorder's part of WEIR_FIRE (R413, R431, R433): weir n, its stamp and polarity. -/
def State.recWeir (s : State) (n : Nat) (t : Time) (pol : Bool) : State :=
  let s1 := s.each ((List.range 4).filter fun k => bitAt (s.g REC_PTRIG_weir [k]) n) fun s k =>
    s.trigger k ⟨t, 1, false, 5, n, b2n pol, none, 1⟩
  if !bitAt (s1.g REC_WFCFG_en) n then s1
  else
    let s2 := s1.arrival t pol
    match s2.rcd.cap with
    | some c =>
      if t ≤ c.t1 + 96 * oneUs && c.stamps.length < 8 then
        { s2 with rcd := { s2.rcd with cap := some { c with stamps := c.stamps ++ [(t, n, pol)] } } }
      else s2
    | none =>
      let chans := bitsOf 16 (s2.g REC_WFCFG_chmask)
      let s3 := { s2 with rcd := { s2.rcd with arrivals := s2.rcd.arrivals ++ [(t, pol)] } }
      match s3.reserve 5 0 (waveLen chans.length) with
      | none => s3.noBuf 5
      | some s4 => { s4 with rcd := { s4.rcd with cap := some ⟨t, [(t, n, pol)], none, chans⟩ } }

/-- The WB outputs of R431 for a window at t1, oldest first: 37 before and 111 at or after it. -/
def State.window (s : State) (t1 : Time) : List (Time × List Word) :=
  let old := (s.rcd.wb.filter fun e => decide (e.1 < t1)).take 37
  let new := ((s.rcd.wb.filter fun e => decide (t1 ≤ e.1)).reverse).take 111
  old.reverse ++ new

/-- The WB tap's outputs are kept for wavefront windows. -/
def State.recWb (s : State) : State :=
  let e := (s.tapTime 0, s.tapWords 0)
  let n := if s.rcd.cap.isSome then s.rcd.wb.length else 147
  { s with rcd := { s.rcd with wb := e :: s.rcd.wb.take n } }

/-- The wavefront record of R432. -/
def waveRecord (c : Capture) (chans : List Nat) (w : List (Time × List Word)) : List Byte :=
  let nc := chans.length
  let (t0, n0, p0) := nth c.stamps 0 (0, 0, false)
  [3, 0] ++ leBytes 2 (waveLen nc) ++ timeBytes (to64 t0) ++ [BitVec.ofNat 8 n0, BitVec.ofNat 8 (b2n p0)]
    ++ [BitVec.ofNat 8 c.stamps.length, BitVec.ofNat 8 nc] ++ leBytes 4 (c.est.getD NAN32).toNat
    ++ timeBytes (to64 (nth w 0 (0, [])).1) ++ List.replicate 4 0
    ++ ((List.range 8).map fun i => match c.stamps[i]? with
        | some (t, n, p) => timeBytes (to64 t) ++ [BitVec.ofNat 8 n, BitVec.ofNat 8 (b2n p), 0, 0]
        | none => List.replicate 16 0).flatten
    ++ (chans.map fun ch => (w.map fun e => leBytes 4 (nth e.2 ch 0).toNat).flatten).flatten

/-- REC_WAVE: waiting wavefront records go to their ring; a short buffer takes the whole channels that fit (R432). -/
def pumpWaves : Nat → State → State
  | 0, s => s
  | n + 1, s => match s.rcd.waves, s.ringFor CLS_REC 4 with
    | (b, nc) :: rest, some r =>
      if s.posted r = 0 then s
      else
        let size := s.nextSize r
        let fit := min nc ((size - 168) / 592)
        let cut := fit ≠ nc
        let b1 := if cut then
            [3, 0] ++ leBytes 2 (waveLen fit) ++ (b.drop 4).take 15 ++ [BitVec.ofNat 8 (fit + 128)] ++ (b.drop 20).take (waveLen fit - 20)
          else b
        let s1 := { s with rcd := { s.rcd with waves := rest, waveDone := s.rcd.waveDone ++ [(b, nc)] } }.ready r
          ⟨0x0A11, 0, b1.length, 0, 0, 0, 0, ST_DONE, b1⟩ [(5, 0)]
        pumpWaves n (if cut then s1.flag REC 12 else s1)
    | _, _ => s

/-- The oldest wavefront record has been written. -/
def State.waveWritten (s : State) : State := { s with rcd := { s.rcd with waveDone := s.rcd.waveDone.drop 1 } }

/-- The wavefront ring has gone, or a write to it has failed: what has not been written waits again (R561, R575). -/
def State.wavesBack (s : State) : State := { s with rcd := { s.rcd with waves := s.rcd.waveDone ++ s.rcd.waves, waveDone := [] } }

/-- WAVEFRONT_CAPTURE_END (R431, R432): once the last sample of the window is there, the window is delivered. -/
def wavefrontCaptureEnd (s : State) : State := match s.rcd.cap with
  | none => s
  | some c =>
    let w := s.window c.t1
    if (w.filter fun e => decide (c.t1 ≤ e.1)).length < 111 then s
    else
      let miss := 148 - w.length
      let (f, s1) := s.drawWord
      let w1 := List.replicate miss ((nth w 0 (0, [])).1, List.replicate 16 f) ++ w
      let b := waveRecord c c.chans w1
      let s2 := { s1.storeLast 5 0 0 b with rcd := { s1.rcd with cap := none, waves := s1.rcd.waves ++ [(b, c.chans.length)] } }
      pumpWaves s2.rcd.waves.length s2

/-- FAULT_LOCATION_TIMEOUT (R434): first arrivals whose tmax has passed without a second one. -/
def faultLocationTimeout (s : State) : State :=
  let tmax := s.g REC_FLCFG_tmax * oneUs
  let old (a : Time × Bool) : Bool := decide (a.1 + tmax < s.mer.now)
  { s with rcd := { s.rcd with arrivals := s.rcd.arrivals.filter fun a => !old a } }.each (s.rcd.arrivals.filter old)
    fun s _ => s.flag REC 13

/-- REC_FLREF (R435): the value after the clamp of REC_FLLAST's range. -/
def recFlref (d : Desc) (s : State) : State :=
  if s.inSt [DAWN, NIGHT] then s.complete d 0x0A04 ST_NOT_NOW
  else
    let w := d.b.toNat
    let v : Nat := if isNaN f32 w then 0 else if isInf f32 w then (if fmtNeg f32 w then 0 else toF32 1000000)
      else if ofF32 w < 0 then 0 else if 1000000 < ofF32 w then toF32 1000000 else w
    let bad := isNaN f32 w || isInf f32 w || decide (ofF32 w < 0) || decide (1000000 < ofF32 w)
    let s1 := s.clampDesc d 24 (b2n bad)
    { s1 with rcd := { s1.rcd with dist := s1.rcd.dist ++ [BitVec.ofNat 32 v] } }.complete d 0x0A04 ST_DONE

/-- The distances that wait go to REC_FLLAST and to entry 78 of the frame (R434, R435). -/
def State.recDistances (s : State) : State :=
  { s with rcd := { s.rcd with dist := [] } }.each s.rcd.dist fun s d =>
    (s.faultDistance (s.g REC_FLCFG_grp) d 0).p REC_FLLAST [] d.toNat

/-! ### NIGHT and resets (R437) -/

/-- A window being captured ends without a record. -/
def State.dropCapture (s : State) : State := match s.rcd.cap with
  | none => s
  | some _ => { s with rcd := { s.rcd with cap := none, arrivals := [] } }.unqueueLast 5 0

/-- The active streams end with a cause. -/
def State.recEndAll (s : State) (cause : Nat) : State :=
  let s1 := (s.each ((List.range 4).filter s.recActive) fun s k => s.recEnd k cause).dropCapture
  { s1 with rcd := { s1.rcd with prev := List.replicate 5 none } }

/-- The recorder's block reset beside its registers: what waits for the host stays. -/
def State.recReset (s : State) : State :=
  let s1 := s.recEndAll 3
  { s1 with rcd := { s1.rcd with
      arrivals := [], dist := []
      streams := s1.rcd.streams.map fun (x : RecStream) =>
        { emptyStream with queue := x.queue, stuck := x.stuck, cur := x.cur, done := x.done, head := x.head, stops := x.stops } } }

end Sys2Proof.Machine
end

