-- ==== Sys2Proof/Machine/Actions.lean ====
section
/-! DEFINITION. Scheduled actions: arming, cancelling, the actions themselves and the stack-wide launch (R73 to R85). -/

namespace Sys2Proof.Machine

/-- What an arm asks for: slot, action, argument, action time, stack-wide or not. -/
structure ArmReq where
  slot : Nat
  action : Nat
  arg : Word
  time : Time
  stack : Bool
deriving DecidableEq, Repr

/-- Releases that a switch has held are dispatched. -/
def State.unhold (s : State) (b : Nat) : State :=
  let held := (s.cpu b).held
  (s.onCpu b fun c => { c with held := [] }).each held fun s x => s.releaseHeld b x

/-- A slot's arm ends as cancelled; a switch that the slot has made PENDING ends with it (R80, R81). -/
def State.saFree (s : State) (i : Nat) : State :=
  let b := (s.sas i).arg.toNat % 4
  let s1 := s.saCancelled i
  if (s.cpu b).switch.any fun w => w.slot = some i then (s1.onCpu b fun c => { c with switch := none }).unhold b else s1

/-- A slot completes NOT_NOW. -/
def State.saRefuse (s : State) (i : Nat) : State := s.saDone i ST_NOT_NOW 0

/-- The action of slot i takes effect at time t; a BCP_BANK completes at its switch point (R73, R78, R332, R333). -/
def State.act (s : State) (i : Nat) (t : Time) (st : Nat) : State :=
  let x := s.sas i
  let v := x.arg.toNat
  let o := v % 16
  let setReq (on : Bool) (end_ : Option Time) : State :=
    let s1 := s.p FIO_REQST_high [] (putBit (s.g FIO_REQST_high) o on)
    { s1 with fio := { s1.fio with pulseEnd := s1.fio.pulseEnd.set o end_ } }
  match x.action with
  | 0 => (setReq true (if bits x.arg 31 16 = 0 then none else some (s.mer.cyc + bits x.arg 31 16 * 25000))).saDone i st t
  | 1 => (setReq false none).saDone i st t
  | 2 => (s.triggers o ⟨x.time, 3, false, 9, i, 0, none, 1⟩).saDone i st t
  | 3 => (s.askReset (modTime (modAt t)) 2 none).saDone i st t
  | 4 => (s.p DCH_TRK_rate [] (min (v % 4) 2)).saDone i st t
  | 5 =>
    let b := v % 4
    if s.switchOk b && (s.cpu b).switch.isNone then
      ((s.putSa i { x with pendLate := decide (st = ST_LATE) }).putSaState i SA_PENDING).switchPend b (some i) none
    else s.saRefuse i
  | 6 => (s.rowEnable (v % 64) true).saDone i st t
  | 7 => (s.rowEnable (v % 64) false).saDone i st t
  | _ =>
    let p := v % 4
    let lat := putBit (s.g TPC_CMDLAT_cmd [p]) (bits x.arg 7 4) (bitAt v 8)
    (s.p TPC_CMDLAT_cmd [p] lat).saDone i st t

/-- The lower armed slots of the same or an earlier time come first (R77). -/
def State.saFirst (s : State) (i : Nat) : Bool :=
  (List.range 64).all fun j => s.saState j ≠ SA_ARMED || (s.sas j).own.isSome || j = i
    || decide ((s.sas i).time < (s.sas j).time) || (decide ((s.sas i).time = (s.sas j).time) && decide (i < j))

/-- Slot i executes if its time has come: LATE more than 20 ns after it (R76). -/
def State.saRun (s : State) (i : Nat) : State :=
  let x := s.sas i
  if s.saState i = SA_ARMED && x.own.isNone && x.time ≤ s.mer.now then
    if x.time + 20 * oneNs < s.mer.now then s.act i s.mer.now ST_LATE else s.act i x.time ST_DONE
  else s

/-- ACTION_EXECUTE: the earliest action executes first (R75 to R77). -/
def actionExecute (i : Nat) (s : State) : State := if s.saFirst i then s.saRun i else s

/-- OUT_PULSE_END: the scheduled request of an output clears after its length. -/
def outPulseEnd (o : Nat) (s : State) : State := match nth s.fio.pulseEnd o none with
  | some c =>
    if c ≤ s.mer.cyc then
      let s1 := s.p FIO_REQST_high [] (putBit (s.g FIO_REQST_high) o false)
      { s1 with fio := { s1.fio with pulseEnd := s1.fio.pulseEnd.set o none } }
    else s
  | none => s

/-- Whether an arm by the owner number `own` of MER_SAOWN is not-now (R73, R78, R82, R85). A stack-wide arm is the stack
master's launch, so it may take a slot of CASC too (log 134). -/
def State.armNotNow (s : State) (own : Nat) (r : ArmReq) : Bool :=
  s.inSt [DAWN, NIGHT, SAFE] || !(s.saOwner r.slot = own || (r.stack && s.saOwner r.slot = 5)) || (r.stack && !(s.isMaster && s.stackFormed))
    || (r.action = 5 && !s.switchOk (r.arg.toNat % 4))

/-- The earlier launch in a slot that a new launch takes: the master has replaced it in its own slot too (R82). -/
def State.saForget (s : State) (i : Nat) : State :=
  if (s.sas i).who = .casc then s.putSa i { s.sas i with who := .nobody } else s

/-- The arm takes its slot, whose earlier arm is cancelled, and executes at once when its time has passed (R76, R80). A
member that is absent when the master arms has refused (R83, R600). -/
def State.armSlot (s : State) (who : SaWho) (r : ArmReq) : State :=
  let s1 := if s.saHeld r.slot then (s.saForget r.slot).saFree r.slot else s
  let x : SaSlot := { s1.sas r.slot with
    who := who, time := r.time, action := r.action, arg := r.arg, stack := r.stack, exec := 0, late := 0
    refused := if r.stack then s1.absent else 0
    own := none, pendLate := false }
  let s2 := (s1.putSa r.slot x).putSaState r.slot SA_ARMED
  let s3 := if r.stack then
      s2.stackSend PK_LAUNCH [r.slot, Time.sec r.time, Time.ns r.time, r.action, r.arg.toNat]
    else s2
  s3.saRun r.slot

/-- The fields of an SA_ARM after clamping, its replace bit, and the clamped fields as descriptor byte and number. -/
def armFields (d : Desc) : ArmReq × Bool × List (Nat × Nat) :=
  let rf := d.rf.toNat
  let ns := d.a.toNat % 2 ^ 32
  let n := min ns 999999999
  let act := bits (BitVec.ofNat 32 rf) 11 8
  let a := min act 8
  let code3 := decide (a = 4) && decide (d.b.toNat % 4 = 3)
  let arg := if code3 then BitVec.ofNat 32 (d.b.toNat - 1) else d.b
  (⟨rf % 64, a, arg, Time.of (d.addr.toNat % 2 ^ 48) n, bitAt rf 12⟩, bitAt rf 13,
   [(16, b2n (n ≠ ns)), (24, b2n code3), (29, b2n (a ≠ act))])

/-- SA_ARM (R79 to R82). -/
def saArm (d : Desc) (s : State) : State :=
  let (r, replace, cl) := armFields d
  if s.armNotNow 0 r then s.complete d 0x0101 ST_NOT_NOW
  else
    let s1 := s.each cl fun s (o, n) => s.clampDesc d o n
    if s1.saHeld r.slot && !replace then s1.complete d 0x0101 ST_BUSY
    else s1.armSlot (.host d) r

/-- SA_CANCEL (R81), of a slot of the host, or of the launch that the host of the master has armed (R73, log 134). -/
def saCancel (d : Desc) (s : State) : State :=
  let i := d.rf.toNat % 64
  let mine := s.saOwner i = 0 || (s.saOwner i = 5 && (s.sas i).stack && s.isMaster)
  if !mine || !s.saHeld i then s.complete d 0x0102 ST_NOT_NOW
  else (s.saFree i).complete d 0x0102 ST_DONE

/-! ### The stack-wide launch (R82 to R84) -/

/-- LAUNCH_PACKET: a member takes the launch into a slot assigned to CASC, or refuses it (R82, R83). -/
def launchPacket (slot : Nat) (p : PktTime) (action : Nat) (arg : Word) (s0 : State) : State :=
  let (ok, s) := s0.packetIn PK_LAUNCH p.head none [slot, Time.sec p.t, Time.ns p.t, action, arg.toNat]
  let r : ArmReq := ⟨slot, min action 8, arg, p.t, false⟩
  if !ok || !s.follows then s
  else if s.armNotNow 5 r then s.stackSend PK_LAUNCHRES [s.position, slot, ST_NOT_NOW]
  else s.armSlot .casc r

/-- LAUNCHRES_PACKET of a member (R84). -/
def launchresPacket (h : PktHead) (slot st : Nat) (s0 : State) : State :=
  let (ok, s) := s0.packetIn PK_LAUNCHRES h none [h.src.val, slot, st]
  if ok && s.isMaster && s.saHeld slot && (s.sas slot).stack then
    (s.putSa slot ((s.sas slot).result h.src.val st)).saSettle slot
  else s

/-- Every slot that holds an arm completes NOT_NOW and becomes FREE (R85). -/
def State.saRefuseAll (s : State) : State :=
  s.each (List.range 64) fun s i => if s.saHeld i then s.saEnd i ST_NOT_NOW false 0 else s

end Sys2Proof.Machine
end

