-- ==== Sys2Proof/Machine/Conv.lean ====
section
/-! DEFINITION. Auxiliary integrating converters and pulse timers (R491 to R510). -/

namespace Sys2Proof.Machine

def emptyConv : ConvSt := ⟨[], none, 0, 0⟩
def State.conv (s : State) (a : Nat) : ConvSt := nth s.aux.convs a emptyConv
def State.putConv (s : State) (a : Nat) (x : ConvSt) : State := { s with aux := { s.aux with convs := s.aux.convs.set a x } }
def State.auxBusy (s : State) (a : Nat) : Bool := s.on AUX_STAT_busy [a]

/-- A flag of AUX_STS that converter a sets (R503). -/
def State.auxFlag (s : State) (a bit : Nat) : State := s.flagAt AUX bit (218 + a)

/-- Whether AUXB follows AUXA (R498). -/
def State.coupled (s : State) : Bool := s.g AUX_CFG_start [1] = 4 && s.on AUX_CFG_run [1]

/-! ### Scale (R492, R493) -/

/-- Vref in µV, from the trim record. -/
def State.vref (s : State) : Nat := leAt s.trim 0x20 4

/-- The result code of converter a and its overrange flag, from the untrimmed code (R492). -/
def State.auxCode (s : State) (a : Nat) (raw : Int) : Nat × Bool :=
  let x := roundAway (((raw - s.trimI (0x2F4 + 8 * a) : Int) : Rat) * ofF32 (leAt s.trim (0x2F0 + 8 * a) 4))
  if x < 0 then (0, true) else if 2 ^ 20 - 1 < x then (2 ^ 20 - 1, true) else (x.toNat, false)

/-- The scaled value of a code on a channel (R493). -/
def State.auxScaled (s : State) (ch code : Nat) : Int :=
  let uv := roundAway ((code * s.vref : Nat) / (2 ^ 20 : Rat))
  if ch = 5 then roundAway ((16 * uv : Int) / (1000 : Rat))
  else if 7 ≤ ch then roundAway (25000 + ((750000 - uv : Int) : Rat) / (18 / 10)) + s.trimI (0x300 + 4 * (ch - 7))
  else uv

/-- Tint of converter a in µs, and the fq flag (R495). -/
def State.auxTint (s : State) (a : Nat) : Nat × Bool := match s.g AUX_CFG_tint [a] with
  | 0 =>
    let q := 96 * s.g AUX_CFG_grp [a] + 48
    let (qv, qq, _) := s.wholeTable
    let f := ofF32 (nth qv q 0).toNat
    if (nth qq q 0) &&& 0x93 = 0 && 0 < f then ((roundAway (1000000 / f)).toNat, false)
    else (if s.g DCH_TRK_fnom = 0 then 20000 else 16667, true)
  | 1 => (20000, false)
  | 2 => (16667, false)
  | _ => (100000, false)

/-! ### Starts (R496 to R500) -/

/-- A skipped trigger (R499); AUXB at start = 4 is skipped with AUXA. -/
def State.auxSkip (s : State) (a : Nat) : State :=
  let s1 := (s.cnt AUX_STAT_skip [a]).auxFlag a 8
  if a = 0 && s1.coupled then (s1.cnt AUX_STAT_skip [1]).auxFlag 1 8 else s1

/-- A trigger of converter a at a time, after a delay in µs; triggers of the same fMOD edge merge. -/
def State.auxTrigger (s : State) (a : Nat) (t : Time) (delay : Nat) (host : Bool) : State :=
  let x := s.conv a
  let e := modAt (t + delay * oneUs)
  if !s.on AUX_CFG_run [a] || s.inSt [DAWN, NIGHT] then s
  else if s.auxBusy a then s.auxSkip a
  else if x.starts.any (·.1 = e) then
    s.putConv a { x with starts := x.starts.map fun y => if y.1 = e then (e, y.2 || host) else y }
  else s.putConv a { x with starts := x.starts ++ [(e, host)] }

/-- The triggers that an edge of a unit's PWM output, or its period event, gives (R497). -/
def State.ptmrStarts (s : State) (u code : Nat) (t : Time) : State :=
  s.each ((List.range 2).filter fun a => s.g AUX_CFG_start [a] = code && s.g AUX_CFG_ptmr [a] = u) fun s a =>
    s.auxTrigger a t (s.g AUX_CFG_delay [a]) false

/-- AUX_CONV commands wait no longer for the starts given: those with none left complete with a status, and ts_c where the
conversion has started. -/
def State.auxCmds (s : State) (starts : Nat × Nat → Bool) (st : Nat) (t : Time) : State :=
  let l := s.aux.cmds.map fun x => (x.1, x.2.filter fun y => !starts y)
  let s1 := { s with aux := { s.aux with cmds := l.filter fun x => !x.2.isEmpty } }
  s1.each (l.filter fun x => x.2.isEmpty) fun s x =>
    if st = ST_DONE then s.completeWith ((compOf x.1 0x0B01 st).at t) else s.complete x.1 0x0B01 st

/-- Converter a begins a conversion at an fMOD edge (R496, R500). -/
def State.auxBegin (s : State) (a e : Nat) (tint : Nat × Bool) (host : Bool) : State :=
  let i := s.g AUX_STAT_idx [a]
  let ch := bits (s.rd (0xB0110 + 4 * a)) (4 * i + 3) (4 * i)
  let x := s.conv a
  let s1 := s.putConv a { x with
    starts := x.starts.filter (·.1 ≠ e)
    run := some ⟨modTime e, modTime e + tint.1 * oneUs, tint.1, ch, tint.2, host⟩
    busyTo := modTime e + tint.1 * oneUs + 4 * oneMs }
  let s2 := (s1.p AUX_STAT_idx [a] ((i + 1) % max 1 (s.g AUX_SEQ_len [a]))).p AUX_STAT_busy [a] 1
  if host then s2.auxCmds (fun y => y = (a, e)) ST_DONE (modTime e) else s2

/-- AUX_INTEGRATION_START of converter a: the earliest start that is due. One that finds the converter busy is skipped. -/
def auxIntegrationStart (a : Nat) (s : State) : State :=
  let x := s.conv a
  match x.starts.foldl (fun (o : Option (Nat × Bool)) y => match o with
      | some z => if y.1 < z.1 then some y else o
      | none => some y) none with
  | none => s
  | some (e, host) =>
    if s.mer.now < modTime e || s.inSt [DAWN, NIGHT] then s
    else if s.auxBusy a then
      let s1 := (s.putConv a { x with starts := x.starts.filter (·.1 ≠ e) }).auxSkip a
      if host then s1.auxCmds (fun y => y = (a, e)) ST_BUSY 0 else s1
    else
      let tint := s.auxTint a
      let s1 := s.auxBegin a e tint host
      if a = 0 && s.coupled then (if s.auxBusy 1 then s1.auxSkip 1 else s1.auxBegin 1 e tint host) else s1

/-- The delay that AUX_CONV requests for converter a, in µs. -/
def State.convDelay (s : State) (d : Desc) (a : Nat) : Nat := if d.b.getLsbD 2 then s.g AUX_CFG_delay [a] else 0

/-- AUX_CONV (R504): the command waits for the starts of the converters that it names, of AUXA alone when AUXB follows it;
a busy one skips it (R499). -/
def auxConv (d : Desc) (s : State) : State :=
  let m := d.b.toNat % 4
  let set := if s.coupled && m ≠ 0 then 3 else m
  let named := bitsOf 2 set
  if s.inSt [DAWN, NIGHT] || named.any (fun a => !s.on AUX_CFG_run [a]) then s.complete d 0x0B01 ST_NOT_NOW
  else if named.any s.auxBusy then
    (s.each (if s.coupled && s.auxBusy 0 then [0] else named.filter s.auxBusy) State.auxSkip).complete d 0x0B01 ST_BUSY
  else if m = 0 then s.complete d 0x0B01 ST_DONE
  else
    let starts := if s.coupled then [0] else named
    let s1 := { s with aux := { s.aux with cmds := s.aux.cmds ++ [(d, starts.map fun a => (a, modAt (s.mer.now + s.convDelay d a * oneUs)))] } }
    s1.each starts fun s a => s.auxTrigger a s.mer.now (s.convDelay d a) true

/-! ### Results (R501 to R503) -/

/-- The result record of converter a. -/
def auxRecord (a cnt : Nat) (r : ConvRun) (flags code : Nat) (v : Int) : List Byte :=
  leBytes 6 (Time.sec r.ts) ++ leBytes 4 (Time.ns r.ts) ++ leBytes 2 cnt ++ [BitVec.ofNat 8 a, BitVec.ofNat 8 r.ch, BitVec.ofNat 8 flags, 0]
    ++ leBytes 4 code ++ leBytes 4 (wrap 32 v) ++ leBytes 4 r.tint ++ leBytes 4 0

/-- A flag that is set for a converter when a condition holds. -/
def State.auxFlagIf (s : State) (c : Bool) (a bit : Nat) : State := if c then s.auxFlag a bit else s

/-- AUX_RESULT of converter a with its untrimmed code. -/
def auxResult (a : Nat) (raw : Int) (s : State) : State :=
  let x := s.conv a
  match x.run with
  | none => s
  | some r =>
    let t := r.ts
    if s.mer.now < r.endAt then s
    else
      let (code, ovr) := s.auxCode a raw
      let v := s.auxScaled r.ch code
      let late := decide (r.endAt + 7 * oneMs / 2 < s.mer.now)
      let flags := b2n ovr + 2 * b2n r.fq + 4 * b2n r.host + 8 * b2n late
      let w := s.g AUX_WIDX [a]
      let off := s.g AUX_BUFBASE_off [a] + w % (64 * s.g AUX_BUF_nbuf [a]) * 32
      let s1 := { s with cis := { s.cis with mem := memWrite s.cis.mem off (auxRecord a x.count r flags code v) } }
      let s2 := (s1.p AUX_WIDX [a] ((w + 1) % 2 ^ 32)).putConv a { x with run := none, count := (x.count + 1) % 65536 }
      let d : RDesc := ⟨0x0B10, 0, r.tint, Time.sec t % 2 ^ 48 + x.count * 2 ^ 48, Time.ns t + code * 2 ^ 32, wrap 32 v,
        a + 2 * r.ch + 32 * flags, ST_DONE, []⟩
      let (ok, s3) := s2.deliver CLS_AUX a d true
      let s4 := if ok then s3 else (s3.cnt AUX_LOST_count [a]).auxFlag a 10
      let s5 := (s4.auxFlagIf ovr a 9).auxFlagIf r.fq a 11
      let s6 := if s5.on AUX_CFG_irq [a] then s5.raise (218 + a) else s5
      if r.ch ≤ 3 then s6.tcsResult a r.ch ((code * 1000 : Nat) / (2 ^ 20 : Rat)) else s6

/-- AUX_BUSY_END of converter a (R496). -/
def auxBusyEnd (a : Nat) (s : State) : State :=
  if s.auxBusy a && decide ((s.conv a).busyTo ≤ s.mer.now) then s.p AUX_STAT_busy [a] 0 else s

/-! ### Running (R501, R509) -/

/-- The starts of contiguous runs of n free Cistern buffers. -/
def State.freeRuns (s : State) (n : Nat) : List Nat :=
  let used := s.usedBufs
  (List.range (4097 - n)).filter fun b => (List.range n).all fun i => !used.contains (b + i)

/-- The circular buffer of converter a is allocated (R501); none when the consumer cannot have the buffers. -/
def State.auxAlloc (s : State) (a n : Nat) : Option State :=
  let c := 6 + a
  let r := s.g CIS_Q_res [c]
  let k := s.cons c
  let runs := s.freeRuns n
  let room := decide (n + k.short ≤ r) || (k.short = 0 && decide (n - r ≤ s.sharedFree))
  if s.g CIS_Q_max [c] < n || !room || runs.isEmpty then none
  else
    let (v, s1) := s.draw
    let b := nth runs (Config.pickBuffer v % runs.length) 0
    let s2 := s1.putCons c { k with bufs := (List.range n).map fun i => (i, b + i) }
    let s3 := (s2.p CIS_USE_peak [c] (max (s2.g CIS_USE_peak [c]) n)).p AUX_BUFBASE_off [a] (2048 * b)
    some (s3.p AUX_WIDX [a] 0).cisLevels

/-- A conversion ends without a result, and the starts that wait go; a command that waits for one completes NOT_NOW. -/
def State.auxEnd (s : State) (a : Nat) : State :=
  ((s.putConv a { s.conv a with starts := [], run := none }).p AUX_STAT_busy [a] 0).auxCmds (fun y => y.1 = a) ST_NOT_NOW 0

/-- Converter a stops: its buffers return to the Cistern. -/
def State.auxStop (s : State) (a : Nat) : State :=
  let s1 := s.auxEnd a
  (s1.putCons (6 + a) { emptyCons with short := (s1.cons (6 + a)).short }).cisLevels

/-- AUX_RUN: a write of AUX_CFG[a] (R497, R501). -/
def auxRun (a : Nat) (v : Word) (s : State) : State :=
  let top := if a = 0 then 3 else 4
  let st := bits v 18 16
  let was := s.on AUX_CFG_run [a]
  let v1 := setBits (v &&& 0xF777FFFF) 18 16 (min st top)
  let store (s : State) : State := (s.wr (0xB0100 + 4 * a) v1).clampReg (0xB0100 + 4 * a) (b2n (top < st))
  if v.getLsbD 31 && !was then
    match s.auxAlloc a (s.g AUX_BUF_nbuf [a]) with
    | some s1 => store s1
    | none => (s.noBuf (6 + a)).notNow (0xB0100 + 4 * a)
  else if !v.getLsbD 31 && was then store (s.auxStop a)
  else store s

/-! ### Pulse timers (R505 to R508) -/

def emptyUnit : UnitSt := ⟨0, 1000, 0, 0, 0, none, none⟩
def State.unit (s : State) (u : Nat) : UnitSt := nth s.aux.units u emptyUnit
def State.putUnit (s : State) (u : Nat) (x : UnitSt) : State := { s with aux := { s.aux with units := s.aux.units.set u x } }
def State.pwm (s : State) (u : Nat) : Bool := bitAt (s.g PTMR_STAT_pwm) u
def State.putPwm (s : State) (u : Nat) (b : Bool) : State := s.p PTMR_STAT_pwm [] (putBit (s.g PTMR_STAT_pwm) u b)
def State.putShot (s : State) (u : Nat) (b : Bool) : State := s.p PTMR_STAT_pulse [] (putBit (s.g PTMR_STAT_pulse) u b)

/-- The settings of unit u come into force; a PERIODIC unit's next event is the first grid instant after a time. -/
def State.unitLoad (s : State) (u us : Nat) : State :=
  let p := s.g PTMR_CFG_1_period [u]
  let ph := s.g PTMR_CFG_2_phase [u]
  s.putUnit u { s.unit u with
    mode := s.g PTMR_CFG_0_mode [u], period := p, phase := ph, high := s.g PTMR_CFG_3_high [u], next := gridAfter us p ph }

/-- The PWM output of unit u goes low. -/
def State.pwmLow (s : State) (u : Nat) (t : Time) : State :=
  let s1 := s.putUnit u { s.unit u with hiEnd := none }
  if s.pwm u then (s1.putPwm u false).ptmrStarts u 3 t else s1

/-- A period event of unit u at a time, with its high phase (R505). -/
def State.unitEvent (s : State) (u high : Nat) (t : Time) (stays : Bool) : State :=
  let s1 := s.each (List.range 4) fun s b => s.raise (32 * b + 16 + u)
  let s2 := s1.ptmrStarts u 1 t
  if high = 0 then s2.pwmLow u t
  else
    let s3 := s2.putUnit u { s2.unit u with hiEnd := if stays then none else some (t + high * oneUs) }
    if s3.pwm u then s3 else (s3.putPwm u true).ptmrStarts u 2 t

/-- A forward step passed events of unit u, which had one event at the step (R507). -/
def State.unitStepped (s : State) (u : Nat) : State :=
  (s.p PTMR_STAT_step [] (putBit (s.g PTMR_STAT_step) u true)).flag AUX 12

/-- PTMR_EVENT of a PERIODIC unit (R505 to R507): settings written since the last event come into force. -/
def ptmrEvent (u : Nat) (s : State) : State :=
  let x := s.unit u
  let us := s.mer.now / oneUs
  let nx := x.next
  if x.mode ≠ 1 || s.inSt [DAWN, NIGHT] || us < nx then s
  else
    let stepped := decide (nx * oneUs < s.mer.stepAt)
    let t := if stepped then s.mer.stepAt else nx * oneUs
    let s1 := s.unitLoad u (t / oneUs)
    let high := (s1.unit u).high
    let s2 := s1.unitEvent u high t (high = (s1.unit u).period)
    if stepped then s2.unitStepped u else s2

/-- The pulse of a ONESHOT unit starts. -/
def State.shotStart (s : State) (u : Nat) (t : Time) : State := match (s.unit u).shot with
  | some (at_, late, _, d) =>
    (s.putUnit u { s.unit u with shot := some (at_, late, true, d) }).unitEvent u (s.g PTMR_CFG_3_high [u]) t false
  | none => s

/-- PTMR_ONESHOT_START (R508). -/
def ptmrOneshotStart (u : Nat) (s : State) : State := match (s.unit u).shot with
  | some (at_, _, false, _) =>
    if s.mer.now < at_ * oneUs then s
    else if at_ * oneUs < s.mer.stepAt then (s.shotStart u s.mer.stepAt).unitStepped u
    else s.shotStart u (at_ * oneUs)
  | _ => s

/-- The ONESHOT pulse of unit u ends with a status. -/
def State.shotEnd (s : State) (u st : Nat) : State := match (s.unit u).shot with
  | some (_, _, _, d) => ((s.putUnit u { s.unit u with shot := none }).putShot u false).complete d 0x0B02 st
  | none => s

/-- PTMR_HIGH_END (R505, R508). -/
def ptmrHighEnd (u : Nat) (s : State) : State := match (s.unit u).hiEnd with
  | some t =>
    if s.mer.now < t then s
    else
      let s1 := s.pwmLow u t
      match (s1.unit u).shot with
      | some (_, late, true, _) => s1.shotEnd u (if late then ST_LATE else ST_DONE)
      | _ => s1
  | none => s

/-- PTMR_PULSE (R508). -/
def ptmrPulse (d : Desc) (s : State) : State :=
  let u := d.b.toNat % 8
  let x := s.unit u
  if s.inSt [DAWN, NIGHT] || x.mode ≠ 2 then s.complete d 0x0B02 ST_NOT_NOW
  else if x.shot.isSome then s.complete d 0x0B02 ST_BUSY
  else
    let sec := d.addr.toNat % 2 ^ 48
    let ns := d.a.toNat % 2 ^ 32
    let zero := sec = 0 && ns = 0
    let at_ := if zero then s.mer.now / oneUs + 1 else (Time.of sec ns + oneUs - 1) / oneUs
    let late := !zero && decide (at_ * oneUs < s.mer.now)
    let s1 := (s.putUnit u { x with shot := some (at_, late, false, d) }).putShot u true
    if late then s1.shotStart u s1.mer.now else s1

/-- Unit u stops with its PWM output low; a pulse that has not ended completes NOT_NOW. -/
def State.unitStop (s : State) (u : Nat) : State :=
  let s1 := (s.pwmLow u s.mer.now).shotEnd u ST_NOT_NOW
  s1.putUnit u { s1.unit u with mode := 0 }

/-- What a write of PTMR_CFG[u] does (R506): a change of mode acts at once, other settings at the next event. -/
def State.ptmrWritten (s : State) (u : Nat) : State :=
  let m := s.g PTMR_CFG_0_mode [u]
  if s.inSt [DAWN, NIGHT] || m = (s.unit u).mode then s
  else
    let s1 := s.unitStop u
    if m = 0 then s1 else s1.unitLoad u (s.mer.now / oneUs)

/-- The units stop in NIGHT, and conversions end without a result (R509). -/
def State.auxNight (s : State) : State := (s.each (List.range 8) State.unitStop).each (List.range 2) State.auxEnd

/-- The units start on leaving DAWN and at the wake (R509). -/
def State.auxWake (s : State) : State :=
  s.each ((List.range 8).filter fun u => s.g PTMR_CFG_0_mode [u] ≠ 0) fun s u => s.unitLoad u (s.mer.now / oneUs)

/-- The AUX block reset beside its registers (R509). -/
def State.auxReset (s : State) : State :=
  let s1 := (s.each (List.range 8) State.unitStop).each (List.range 2) State.auxStop
  { s1 with aux := { s1.aux with convs := s1.aux.convs.map fun (x : ConvSt) => { x with count := 0 } } }

end Sys2Proof.Machine
end

