-- ==== Sys2Proof/Machine/Net.lean ====
section
/-! DEFINITION. The Ethernet ports: reception, redundancy, PTP, sampled values, GOOSE and authentication (R511 to R536). -/

namespace Sys2Proof.Machine

/-- A little-endian field of a byte string replaced. -/
def putLe (l : List Byte) (o n v : Nat) : List Byte := l.take o ++ leBytes n v ++ l.drop (o + n)

/-- A field of an entry clamped to a range, and the number of clamped fields so far. -/
def clampLe (o n lo hi : Nat) (x : List Byte × Nat) : List Byte × Nat :=
  let v := leAt x.1 o n
  let w := clampN lo hi v
  if v = w then x else (putLe x.1 o n w, x.2 + 1)

def State.onNet (s : State) (f : NetSt → NetSt) : State := { s with net := f s.net }

/-- Whether the engines and host frames run (R545). -/
def State.netRuns (s : State) : Bool := s.inSt [MORNING, NOON, DUSK, SAFE]
/-- Whether the subscribers run (R545). -/
def State.subsRun (s : State) : Bool := s.inSt [MORNING, NOON, DUSK]

/-- Port p is enabled and has link. -/
def State.portUp (s : State) (p : Nat) : Bool := s.netRuns && s.on NET_PORT_en [p] && s.on NET_PORT_link [p]

def State.pairMode (s : State) (k : Nat) : Nat := s.g NET_PAIR_mode [k]

/-- The other port of a pair. -/
def otherPort (p : Nat) : Nat := p / 2 * 2 + (1 - p % 2)

/-- Ports that send a frame, each with the sequence number of the redundancy trailer or tag where `red` asks it; both
ports of a pair carry the same number, which then advances (R513). -/
def State.redPorts (s : State) (ports : List Nat) (red : Nat → Bool) : List (Nat × Option Nat) × State :=
  let used := (List.range 4).filter fun k => ports.any fun p => p / 2 = k && red p
  (ports.map fun p => (p, if red p then some (nth s.net.redSeq (p / 2) 0) else none),
    s.onNet fun n => { n with redSeq := used.foldl (fun l k => l.set k ((nth l k 0 + 1) % 65536)) n.redSeq })

/-- The ports of a mask with link that carry a frame of an engine: each with its partner in a redundant pair (R514). -/
def State.enginePorts (s : State) (mask : Nat) : List (Nat × Option Nat) × State :=
  let red (p : Nat) : Bool := s.pairMode (p / 2) ≠ 0
  s.redPorts ((List.range 8).filter fun p => s.portUp p && (bitAt mask p || (red p && bitAt mask (otherPort p)))) red

/-! ### Links (R511) -/

def State.putEthLink (s : State) (p : Nat) (up : Bool) : State :=
  if s.on NET_PORT_link [p] = up then s else (s.p NET_PORT_link [p] (b2n up)).flag NET 8

/-! ### Authentication (R535, R536) -/

def AuthKey.validAt (k : AuthKey) (t : Time) : Bool := decide (k.from_ ≤ Time.sec t) && decide (Time.sec t ≤ k.until_)

/-- Whether the extension of a received frame finds a key and verifies. -/
def State.authOk (s : State) (a : AuthExt) (t : Time) : Bool :=
  match (s.net.keys.filterMap id).find? fun k => k.id = a.keyId.toNat && k.validAt t with
  | some k => gmac k.alg k.key a.iv a.body = a.mac
  | none => false

/-- The extension of a frame that is sent, over the given octets, where the key slot holds a valid key; else keyexp (R535, R536). -/
def State.authSend (s : State) (want : Bool) (slot : Nat) (body : List Byte) : Option AuthOut × State :=
  if !want then (none, s)
  else match (nth s.net.keys slot none).filter (·.validAt s.mer.now) with
    | some k =>
      let (n, s1) := s.draw
      let iv := (Config.gmacIv n).toList
      (some ⟨k.id, iv, gmac k.alg k.key iv body⟩, s1)
    | none => (none, s.flag NET 16)

/-- NET_KEY (R535). -/
def netKey (d : Desc) (buf : List Byte) (s : State) : State :=
  let i := d.rf.toNat % 32
  if s.inSt [DAWN, NIGHT] then s.complete d 0x0E06 ST_NOT_NOW
  else if bitAt d.rf.toNat 8 then
    ((s.onNet fun n => { n with keys := n.keys.set i none }).p NET_KEYST [] (putBit (s.g NET_KEYST) i false)).complete d 0x0E06 ST_DONE
  else
    let (e, n) := clampLe 0 1 1 2 (padTo 52 buf, 0)
    let alg := leAt e 0 1
    let k : AuthKey := ⟨alg, leAt e 4 4, leAt e 8 6, leAt e 14 6, (e.drop 20).take (16 * alg)⟩
    let s1 := (s.clampDesc d 8 n).onNet fun x => { x with keys := x.keys.set i (some k) }
    (s1.p NET_KEYST [] (putBit (s1.g NET_KEYST) i true)).complete d 0x0E06 ST_DONE

/-! ### Reception (R512 to R514) -/

/-- Whether an entry of the duplicate table of pair k has not been forgotten. -/
def State.remembered (s : State) (k : Nat) (x : DupEntry) : Bool := decide (s.since x.cyc < s.g NET_PAIR_forget [k] * oneMs)

/-- A frame at a port: whether the engines and the host receive it, and whether it passes on in an HSR ring, where each
direction carries it once. -/
def State.rxCheck (s : State) (h : RxHead) : Bool × Bool × State :=
  let p := h.port.val
  let k := p / 2
  let red := s.pairMode k ≠ 0 && h.tag.isSome
  let len := h.bytes.length + 4 + (if h.tag.isSome then 6 else 0)
  if !s.portUp p then (false, false, s)
  else if !h.fcsOk || len < 64 || (if h.tag.isSome then 1528 else 1522) < len then (false, false, s.cnt NET_RXDROP [p])
  else match h.tag with
    | none => (true, false, s)
    | some t =>
      if !red then (true, false, s)
      else
        let s1 := if s.pairMode k = 1 && t.lanB ≠ decide (p % 2 = 1) then (s.cnt NET_REDCNT_wlan [k]).flag NET 11 else s
        if s.pairMode k = 2 && t.src = Config.mac (2 * k) then (false, false, s1)
        else
          let same (x : DupEntry) : Bool := x.src = t.src && x.seq = t.seq && s.remembered k x
          let hit := (nth s.net.dup k []).find? same
          let x : DupEntry := hit.getD ⟨t.src, t.seq, s.mer.cyc, 0⟩
          let rest := (nth s.net.dup k []).filter fun y => !same y
          let s2 := s1.onNet fun n => { n with
            dup := n.dup.set k (({ x with ports := putBit x.ports (p % 2) true } :: rest).take 1024) }
          let own := decide (beAt h.bytes 0 6 = (Config.mac (2 * k)).toNat)
          (hit.isNone, s.pairMode k = 2 && !own && !bitAt x.ports (p % 2) && s2.portUp (otherPort p), s2)

/-- A frame at a port, which passes on where the ring asks it: whether the engines and the host receive it. -/
def State.rxAccept (s : State) (h : RxHead) : Bool × State :=
  let (ok, on, s1) := s.rxCheck h
  (ok, if on then h.tag.elim s1 fun t => s1.transmit (.forward (otherPort h.port) t h.bytes) else s1)

/-- DUPLICATE_FORGET of pair k (R513). -/
def duplicateForget (k : Nat) (s : State) : State :=
  let l := (nth s.net.dup k []).filter (s.remembered k)
  s.onNet fun n => { n with dup := n.dup.set k l }

/-! ### Frames to the host (R520, R521) -/

/-- The receive stream of a frame: the first class that matches, or the port's own (R520). -/
def State.rxStream (s : State) (p et : Nat) : Nat :=
  match (List.range 16).find? fun c => s.on NET_RXCLS_en [c] && s.g NET_RXCLS_etype [c] = et && bitAt (s.g NET_RXCLS_ports [c]) p with
  | some c => s.g NET_RXCLS_ring [c]
  | none => p

/-- A frame takes the next posted slot of a ring: its truncation. -/
def State.rxWrite (s : State) (r : Nat) (d : RDesc) (toks : List CisTok) : State :=
  s.ready r { d with rf := d.rf % 16 + d.rf / 32 * 32 + 16 * b2n (s.nextSize r < d.buf.length) } toks

/-- The oldest frame that waits for receive stream i. -/
def State.rxWaiting (s : State) (i : Nat) : Option (Nat × RDesc) := s.net.rxq.find? fun x => x.1 = i

/-- Frames that wait for receive stream i go into the posted slots of its ring. -/
def pumpRx (i : Nat) : Nat → State → State
  | 0, s => s
  | k + 1, s => match s.rxWaiting i, s.ringFor CLS_NETRX i with
    | some x, some r =>
      if s.posted r = 0 then s
      else pumpRx i k ((s.onNet fun n => { n with rxq := dropOne x n.rxq }).rxWrite r x.2 [(9, i)])
    | _, _ => s

def State.rxPump (s : State) (i : Nat) : State := pumpRx i s.net.rxq.length s

/-- A frame waits in the Cistern for receive stream i; none beyond the quota of NETR. -/
def State.rxWait (s : State) (i : Nat) (d : RDesc) : Option State :=
  (s.queue 9 i d.buf).map fun s1 => s1.onNet fun n => { n with rxq := n.rxq ++ [(i, d)] }

/-- A frame of port p for receive stream i is dropped: the next one that arrives states how many (R521). -/
def State.rxDrop (s : State) (p i : Nat) : State :=
  (((s.noBuf 9).cnt NET_RXDROP [p]).flag NET 9).onNet fun n => { n with rxLost := n.rxLost.set i (nth n.rxLost i 0 + 1) }

/-- Frames that had a descriptor and have not been written wait again, before the others (R561, R575). -/
def State.rxBack (s : State) (i : Nat) (l : List Bound) : State :=
  let s1 := (s.onNet fun n => { n with rxq := [] }).each l fun s b =>
    if b.2.isEmpty then (s.rxWait i b.1).getD (s.rxDrop (b.1.rf % 8) i) else s.onNet fun n => { n with rxq := n.rxq ++ [(i, b.1)] }
  s1.onNet fun n => { n with rxq := n.rxq ++ s.net.rxq }

/-- A frame that no engine consumes goes to the host (R520, R521). -/
def State.rxHost (s : State) (h : RxHead) (auth : Bool) : State :=
  let p := h.port.val
  let i := s.rxStream p (etherType h.bytes)
  let lanB := s.pairMode (p / 2) = 1 && p % 2 = 1
  let lost := nth s.net.rxLost i 0
  let d : RDesc := ⟨0x0E10, 0, h.bytes.length, 0, Time.ns h.arr + 2 ^ 32 * (Time.sec h.arr % 2 ^ 32), lost,
    p + 8 * b2n lanB + 32 * b2n auth, if lost = 0 then ST_DONE else ST_GAP, h.bytes⟩
  let s1 := s.onNet fun n => { n with rxLost := n.rxLost.set i 0 }
  let t := match s.rxWaiting i, (s.ringFor CLS_NETRX i).filter fun r => s.posted r ≠ 0 with
    | none, some r => some (s1.rxWrite r d [])
    | _, _ => s1.rxWait i d
  t.getD (s.rxDrop p i)
/-- RX_FRAME: a frame that is neither PTP nor GOOSE nor SV; a supervision frame is counted by the redundancy engine. -/
def rxFrame (h : RxHead) (s : State) : State :=
  let (ok, s1) := s.rxAccept h
  let k := h.port.val / 2
  if !ok then s1
  else if s1.pairMode k ≠ 0 && etherType h.bytes = 0x88FB then s1.cnt NET_REDCNT_sup [k]
  else s1.rxHost h false

/-- PRP_SUPERVISION_SEND of pair k: every 2 s (R513). -/
def prpSupervisionSend (k : Nat) (s : State) : State :=
  if s.pairMode k ≠ 0 && (s.portUp (2 * k) || s.portUp (2 * k + 1)) && 2 * oneSec ≤ s.since (nth s.net.supCyc k 0) then
    let (ports, s1) := s.enginePorts (3 * 4 ^ k)
    (s1.onNet fun n => { n with supCyc := n.supCyc.set k s.mer.cyc }).transmit (.supervision k ports)
  else s

/-- NET_TX (R522). The frame is staged under consumer NETT and leaves at once (log 16). -/
def netTx (d : Desc) (buf : List Byte) (s : State) : State :=
  let mask := d.rf.toNat % 256
  let ports := (bitsOf 8 mask).filter s.portUp
  let hi := if beAt buf 12 2 = 0x8100 then 1522 else 1518
  let len := min d.len.toNat hi
  let frame := (buf.take len ++ List.replicate 1522 Config.pad).take (max len 60)
  if s.inSt [DAWN, NIGHT] || ports.isEmpty then s.complete d 0x0E01 ST_NOT_NOW
  else
    match s.queue 10 0 frame with
    | none => (s.noBuf 10).complete d 0x0E01 ST_NO_BUFFER
    | some s0 =>
    let s1 := (s0.unqueue 10 0).clampDesc d 4 (b2n (hi < d.len.toNat))
    let red (p : Nat) : Bool := bitAt d.rf.toNat 8 && s.pairMode (p / 2) ≠ 0
    let (tagged, s2) := s1.redPorts ports red
    let s3 := s2.each tagged fun s p => s.transmit (.eth p.1 p.2 frame)
    let c := compOf d 0x0E01 ST_DONE
    s3.completeWith (if bitAt d.rf.toNat 9 then
      { c with a := Time.ns s.mer.now + 2 ^ 32 * (Time.sec s.mer.now % 2 ^ 32) } else c)

/-! ### PTP (R515 to R518) -/

abbrev PS_INIT : Nat := 1
abbrev PS_DISABLED : Nat := 3
abbrev PS_LISTENING : Nat := 4
abbrev PS_MASTER : Nat := 6
abbrev PS_PASSIVE : Nat := 7
abbrev PS_SLAVE : Nat := 9

def emptyPtp : PtpPort := ⟨[], 0, 0, none, 0, none, 0, 0, 0, 0, 0⟩
def State.ptpPort (s : State) (p : Nat) : PtpPort := nth s.net.ptp p emptyPtp
def State.putPtp (s : State) (p : Nat) (x : PtpPort) : State := s.onNet fun n => { n with ptp := n.ptp.set p x }

/-- The device sends a PTP message on port p: in a redundant pair each frame carries its trailer or tag (R513, R545, log 164). -/
def State.ptpSend (s : State) (p : Nat) (m : PtpMsg) : State :=
  let (l, s1) := s.redPorts [p] fun q => s.pairMode (q / 2) ≠ 0
  s1.transmit (.ptp p ((l.head?.map (·.2)).getD none) (s.g NET_PTPCFG_domain) m)

/-- What the device announces as grandmaster (R517). -/
def State.ownData (s : State) (p : Nat) : PtpData :=
  let src := s.g MER_STAT_active
  let tq := s.g MER_STAT_tq
  { pri1 := s.g NET_PTPCFG_pri1
    cls := if tq = TQ_LOCKED && decide (8 ≤ src) then 6 else if tq = TQ_HOLDOVER then 7 else 248
    accuracy := 0x21, variance := Config.clockVariance, pri2 := s.g NET_PTPCFG_pri2
    gm := Config.clockId, steps := 0, sender := Config.clockId, senderPort := p + 1
    timeSource := if src = 8 || src = 9 then 0x20 else 0xA0
    utc := sgn 16 (s.g MER_UTC_offset), utcValid := true
    tlv := if s.on NET_PTPCFG_prof then some (Config.c37Tlv) else none }

/-- Lexicographic order of lists of numbers. -/
def lexLt : List Nat → List Nat → Bool
  | [], [] => false
  | [], _ :: _ => true
  | _ :: _, [] => false
  | a :: as, b :: bs => a < b || (a = b && lexLt as bs)

/-- Whether data set a is better than b (IEEE 1588 data set comparison). -/
def betterData (a b : PtpData) : Bool :=
  if a.gm = b.gm then lexLt [a.steps, a.sender.toNat, a.senderPort] [b.steps, b.sender.toNat, b.senderPort]
  else lexLt [a.pri1, a.cls, a.accuracy, a.variance, a.pri2, a.gm.toNat] [b.pri1, b.cls, b.accuracy, b.variance, b.pri2, b.gm.toNat]

def bestData (l : List PtpData) : Option PtpData :=
  l.foldl (fun o d => match o with
    | none => some d
    | some e => if betterData d e then some d else some e) none

/-- The best qualified foreign master of port p: two announcements in a row (IEEE 1588). -/
def State.portBest (s : State) (p : Nat) : Option PtpData :=
  bestData (((s.ptpPort p).foreign.filter fun f => decide (2 ≤ f.count)).map (·.data))

/-- The best foreign master of the boundary clock. -/
def State.clockBest (s : State) : Option PtpData :=
  bestData (((List.range 8).filter fun p => s.g NET_PTP_role [p] = 2).filterMap s.portBest)

/-- The state of port p that the best master clock algorithm recommends. -/
def State.ptpDecision (s : State) (p : Nat) : Nat :=
  let role := s.g NET_PTP_role [p]
  let own := s.ownData p
  let waiting := decide (s.since (s.ptpPort p).annCyc < 3 * oneSec)
  if role = 0 then PS_DISABLED
  else if !s.portUp p then PS_INIT
  else match s.portBest p with
    | none =>
      if role = 1 || (waiting && (s.g NET_PTP_state [p] = PS_LISTENING || s.g NET_PTP_state [p] = PS_INIT)) then PS_LISTENING
      else PS_MASTER
    | some e =>
      if role = 1 then PS_SLAVE
      else if own.cls < 128 then (if betterData own e then PS_MASTER else PS_PASSIVE)
      else match s.clockBest with
        | none => PS_MASTER
        | some b =>
          if betterData own b then PS_MASTER
          else if b = e then PS_SLAVE
          else if b.gm = e.gm && b.steps + 1 < e.steps then PS_MASTER
          else if betterData b e && b.gm = e.gm then PS_PASSIVE
          else PS_MASTER

/-- Every port takes the state that the algorithm recommends; each change sets ptpst (R516). -/
def State.ptpDecide (s : State) : State :=
  s.each (List.range 8) fun s p =>
    let st := s.ptpDecision p
    if s.g NET_PTP_state [p] = st then s else (s.p NET_PTP_state [p] st).flag NET 10

/-- An announcement at port p: it joins the foreign masters, with the TLV of C37.238 in that profile; a valid UTC offset of the
selected source is taken, modulo 256 as MER_UTC holds it (R67, R515, log 165). -/
def State.announced (s : State) (p : Nat) (d0 : PtpData) : State :=
  let d := if s.on NET_PTPCFG_prof then d0 else { d0 with tlv := none }
  let x := s.ptpPort p
  let old := x.foreign.find? fun f => f.data.sender = d.sender && f.data.senderPort = d.senderPort
  let n := match old with
    | some f => if s.since f.cyc < 4 * oneSec then f.count + 1 else 1
    | none => 1
  let rest := x.foreign.filter fun f => !(f.data.sender = d.sender && f.data.senderPort = d.senderPort)
  let s1 := (s.putPtp p { x with foreign := (⟨d, n, s.mer.cyc⟩ :: rest).take 5, annCyc := s.mer.cyc }).ptpDecide
  if s1.on MER_UTC_ptp && d.utcValid && s1.g MER_STAT_active = p && s1.g NET_PTP_state [p] = PS_SLAVE && s1.portBest p = some d then
    s1.p MER_UTC_offset [] (wrap 16 d.utc)
  else s1

/-- A Sync, or its Follow_Up, of the parent of SLAVE port p gives the offset of a servo event (R516): the arrival less the origin,
the corrections, and the measured link delay with the asymmetry of the port (R518). -/
def State.ptpOffset (s : State) (p : Nat) (arr origin : Time) (corr : Int) : State :=
  s.sourceEvent p ((arr : Int) - origin - corr - (s.ptpPort p).delay - sgn 16 (s.g NET_PTP_asym [p]) * oneNs)

/-- PTP_MESSAGE_RECEIVE: a general or peer-delay message of the configured domain; one of another domain goes to the host (R515, R520). -/
def ptpMessageReceive (h : RxHead) (domain : Nat) (m : PtpMsg) (s : State) : State :=
  let (ok, s1) := s.rxAccept h
  let p := h.port.val
  let x := s1.ptpPort p
  if !ok then s1
  else if s1.g NET_PTP_role [p] = 0 || domain ≠ s1.g NET_PTPCFG_domain then s1.rxHost h false
  else match m with
    | .announce d => s1.announced p d
    | .followUp sender q origin corr =>
      if s1.g NET_PTP_state [p] ≠ PS_SLAVE then s1
      else match x.synced.filter fun y => y.1 = sender && y.2.1 = q with
        | some y => (s1.putPtp p { x with synced := none }).ptpOffset p y.2.2.1 origin (y.2.2.2 + corr)
        | none => s1
    | .pdelayReq q => s1.ptpSend p (.pdelayResp q h.arr s1.mer.now 0)
    | .pdelayResp q t2 t3 corr => match x.reqAt with
      | some t1 =>
        if q = x.reqSeq then
          s1.putPtp p { x with reqAt := none, delay := (((h.arr : Int) - t1) - ((t3 : Int) - t2) - corr) / 2 }
        else s1
      | none => s1
    | _ => s1

/-- A Sync at port p passes on in an HSR ring: as a peer-to-peer transparent clock, with tc = 1 on a port of the pair, the device adds
the residence time and the link delay of the port that it came in by (R518). -/
def State.ptpForward (s : State) (h : RxHead) (on ok : Bool) (domain : Nat) (m : PtpSync) (corr : Int) (residence : Nat) : State :=
  let p := h.port.val
  let q := otherPort p
  let tc := s.pairMode (p / 2) = 2 && (s.on NET_PTP_tc [p] || s.on NET_PTP_tc [q])
  if tc && (on || (ok && h.tag.isNone && s.portUp q)) then
    s.transmit (.ptpForward q h.tag domain (.sync m (corr + residence + (s.ptpPort p).delay + sgn 16 (s.g NET_PTP_asym [p]) * oneNs)))
  else if on then h.tag.elim s fun t => s.transmit (.forward q t h.bytes)
  else s

/-- PTP_SYNC_RECEIVE: a Sync of the parent of a SLAVE port is a servo event of source code p, at once in one-step operation and with its
Follow_Up in two-step operation; it tells the master's sync interval (R515, R516, R518). A port without PTP, and one of another
domain, gives it to the host (R520). -/
def ptpSyncReceive (h : RxHead) (domain : Nat) (sender : BitVec 64) (m : PtpSync) (corr : Int) (residence : Nat) (s : State) : State :=
  let (ok, on, s0) := s.rxCheck h
  let p := h.port.val
  let s1 := s0.ptpForward h on ok domain m corr residence
  let mine := (s1.portBest p).any (·.sender = sender)
  if !ok then s1
  else if s1.g NET_PTP_role [p] = 0 || domain ≠ s1.g NET_PTPCFG_domain then s1.rxHost h false
  else if s1.g NET_PTP_state [p] = PS_SLAVE && mine then
    let x := { s1.ptpPort p with logInt := m.logInt, synced := if m.twoStep then some (sender, m.seq, h.arr, corr) else none }
    let s2 := s1.putPtp p x
    if m.twoStep then s2 else s2.ptpOffset p h.arr m.origin corr
  else s1

/-- PTP_SYNC_SEND of a MASTER port: Sync and its Follow_Up, each second, in two-step transmission (R515, R516). -/
def ptpSyncSend (p : Nat) (s : State) : State :=
  let x := s.ptpPort p
  if s.portUp p && s.g NET_PTP_state [p] = PS_MASTER && oneSec ≤ s.since x.syncCyc then
    let q := (x.syncSeq + 1) % 65536
    ((s.putPtp p { x with syncCyc := s.mer.cyc, syncSeq := q }).ptpSend p (.sync ⟨q, s.mer.now, true, 0⟩ 0)).ptpSend p
      (.followUp Config.clockId q s.mer.now 0)
  else s

/-- The data set that port p announces: the parent's while a port is SLAVE (R517). -/
def State.announceData (s : State) (p : Nat) : PtpData :=
  let own := s.ownData p
  let parent := bestData (((List.range 8).filter fun q => s.g NET_PTP_state [q] = PS_SLAVE).filterMap s.portBest)
  match parent with
  | some d => { d with steps := d.steps + 1, sender := own.sender, senderPort := own.senderPort }
  | none => own

/-- PTP_ANNOUNCE_SEND of a MASTER port, each second. -/
def ptpAnnounceSend (p : Nat) (s : State) : State :=
  let x := s.ptpPort p
  if s.portUp p && s.g NET_PTP_state [p] = PS_MASTER && oneSec ≤ s.since x.annSent then
    (s.putPtp p { x with annSent := s.mer.cyc }).ptpSend p (.announce (s.announceData p))
  else s

/-- PDELAY_REQ_SEND: once per second (R515). -/
def pdelayReqSend (p : Nat) (s : State) : State :=
  let x := s.ptpPort p
  if s.portUp p && s.g NET_PTP_role [p] ≠ 0 && oneSec ≤ s.since x.reqCyc then
    let q := (x.reqSeq + 1) % 65536
    (s.putPtp p { x with reqCyc := s.mer.cyc, reqSeq := q, reqAt := some s.mer.now }).ptpSend p (.pdelayReq q)
  else s

/-- ANNOUNCE_RECEIPT_TIMEOUT: no announcement at port p for three intervals of 1 s. -/
def announceReceiptTimeout (p : Nat) (s : State) : State :=
  let x := s.ptpPort p
  if s.portUp p && s.g NET_PTP_role [p] ≠ 0 && 3 * oneSec ≤ s.since x.annCyc
      && [PS_LISTENING, PS_PASSIVE, PS_SLAVE].contains (s.g NET_PTP_state [p]) then
    (s.putPtp p { x with foreign := [] }).ptpDecide
  else s

/-- A port starts afresh: after a change of its role, its enable or its link. -/
def State.ptpRestart (s : State) (p : Nat) : State :=
  (s.putPtp p { emptyPtp with annCyc := s.mer.cyc, syncCyc := s.mer.cyc, annSent := s.mer.cyc, reqCyc := s.mer.cyc }).ptpDecide

/-- ETH_LINK_CHANGE of port p. -/
def ethLinkChange (p : Nat) (up : Bool) (s : State) : State :=
  let s1 := s.putEthLink p (up && s.on NET_PORT_en [p] && s.netRuns)
  if s1.on NET_PORT_link [p] = s.on NET_PORT_link [p] then s1 else s1.ptpRestart p

/-! ### Sampled values (R523 to R528) -/

def State.onSv (s : State) (k : Nat) (f : SvSub → SvSub) : State := { s with sv := s.sv.set k (f (s.svSub k)) }

/-- A subscription enters the lost state. -/
def State.svLost (s : State) (k : Nat) : State :=
  if s.g NET_SVSTAT_state [k] = 1 then s else (s.p NET_SVSTAT_state [k] 1).flag NET 12

/-- NET_SVSUB (R523). -/
def netSvsub (d : Desc) (buf : List Byte) (s : State) : State :=
  if s.inSt [DAWN, NIGHT] then s.complete d 0x0E04 ST_NOT_NOW
  else
    let (e, n) := clampLe 9 1 0 2 (padTo 80 buf, 0)
    ((s.clampDesc d 8 n).onSv (d.rf.toNat % 64) fun x => { x with next := some e }).complete d 0x0E04 ST_DONE

/-- The number of an ASDU: the whole second that brings its instant nearest to the arrival, times the rate, plus smpCnt. -/
def svIndex (rate cnt : Nat) (arr : Time) : Nat :=
  let c := cnt * oneSec / rate
  let r := arr % oneSec
  let sec := Time.sec arr
  (if r + oneSec / 2 < c then sec - 1 else if c + oneSec / 2 < r then sec + 1 else sec) * rate + cnt

/-- The quality bits that a channel value maps to (R182). -/
def svQual (v : SvVal) (synch : Nat) (sim : Bool) : Nat :=
  (if v.test || sim then Q_TEST else 0) ||| (if v.subst then Q_SUBST else 0) ||| (if synch = 0 then Q_STALE else 0)

def insSamp (x : SvSamp) : List SvSamp → List SvSamp
  | [] => [x]
  | y :: l => if y.idx < x.idx then x :: y :: l else if y.idx = x.idx then x :: l else y :: insSamp x l

/-- An ASDU of subscription k. -/
def State.svAsdu (s : State) (k : Nat) (sim : Bool) (arr : Time) (a : SvAsdu) : State :=
  let x := s.svSub k
  let rate := svRate x.entry
  if rate ≤ a.smpCnt || a.vals.length ≠ 8 then s.cnt NET_SVSTAT_bad [k]
  else
    let y : SvSamp := ⟨svIndex rate a.smpCnt arr, a.vals.map (·.v.toInt), a.vals.map fun v => svQual v a.synch sim,
      a.vals.map fun v => v.validity = 1 || v.validity = 3⟩
    let s1 := s.onSv k fun x => { x with samples := (insSamp y x.samples).take 12000, last := some s.mer.cyc }
    (s1.p NET_SVSTAT_state [k] 2).p NET_SVSTAT_synch [k] (min a.synch 3)

/-- An SV frame at subscription k, which it matches. -/
def State.svFrame (s : State) (k : Nat) (f : SvIn) (arr : Time) : State :=
  let e := (s.svSub k).entry
  let drop := s.cnt NET_SVSTAT_bad [k] f.asdus.length
  if (f.sim && !bitAt (leAt e 8 1) 2) || 8 < f.asdus.length then drop
  else if !f.dataSet then drop.flag NET 13
  else if f.auth.isNone && bitAt (leAt e 8 1) 1 then drop
  else s.each f.asdus fun s x => s.svAsdu k f.sim arr x

/-- Whether an SV frame matches an entry that is enabled. In an entry the MAC address lies in the order of its octets, APPID and
the counts low byte first (log 174, DESIGN CHOICE). -/
def svMatch (e : List Byte) (f : SvIn) : Bool :=
  bitAt (leAt e 8 1) 0 && beAt e 0 6 = f.dst.toNat && leAt e 6 2 = f.appid.toNat && padTo 64 f.svId = (e.drop 16).take 64

/-- SV_FRAME_RECEIVE: a frame whose extension does not verify is discarded (R536), and one that no subscription consumes
goes to the host. -/
def svFrameReceive (h : RxHead) (f : SvIn) (s : State) : State :=
  let (ok, s1) := s.rxAccept h
  let subs := (List.range 64).filter fun k => svMatch (s1.svSub k).entry f
  if !ok then s1
  else if f.auth.any fun a => !s1.authOk a h.arr then
    (s1.each (if s1.subsRun then subs else []) fun s k => s.cnt NET_SVSTAT_bad [k] f.asdus.length).flag NET 13
  else if subs.isEmpty || !s1.subsRun then s1.rxHost h f.auth.isSome
  else s1.each subs fun s k => s.svFrame k f h.arr

/-- SV_SUBSCRIPTION_LOST of subscription k: no valid sample for 10 sample periods (R525). -/
def svSubscriptionLost (k : Nat) (s : State) : State :=
  let x := s.svSub k
  if s.netRuns && s.g NET_SVSTAT_state [k] = 2
      && x.last.any (fun c => decide (10 * oneSec ≤ s.since c * svRate x.entry)) then s.svLost k
  else s

/-- A subscription whose entry waits takes it at a frame boundary (R523). -/
def State.svBoundary (s : State) (k : Nat) : State := match (s.svSub k).next with
  | none => s
  | some e =>
    let s1 := s.onSv k fun _ => { entry := e, next := none, samples := [], last := none }
    if bitAt (leAt e 8 1) 0 then s1.svLost k else s1.p NET_SVSTAT_state [k] 0

/-- NET_SVPUB (R526). -/
def netSvpub (d : Desc) (buf : List Byte) (s : State) : State :=
  if s.inSt [DAWN, NIGHT] then s.complete d 0x0E05 ST_NOT_NOW
  else
    let x0 := clampLe 11 1 0 31 (padTo 128 buf, 0)
    let x1 := (List.range 8).foldl (fun x c => if c < 4 then clampLe (16 + c) 1 0 15 x else clampLe (16 + c) 1 16 23 x) x0
    let x2 := (List.range 8).foldl (fun (x : List Byte × Nat) c =>
      let v := leAt x.1 (24 + 4 * c) 4
      let w := if isNaN f32 v then toF32 (1 / 1000) else if isInf f32 v then toF32 (if fmtNeg f32 v then 1 / 1000 else 1000000)
        else if ofF32 v < 1 / 1000 then toF32 (1 / 1000) else if 1000000 < ofF32 v then toF32 1000000 else v
      if v = w then x else (putLe x.1 (24 + 4 * c) 4 w, x.2 + 1)) x1
    let j := d.rf.toNat % 8
    let p : SvPub := nth s.net.svpubs j ⟨[], none, []⟩
    ((s.clampDesc d 8 x2.2).onNet fun n => { n with svpubs := n.svpubs.set j { p with next := some (Time.sec s.mer.now, x2.1) } }).complete
      d 0x0E05 ST_DONE

/-- The published value of a channel: primary quantity in steps of 1 mA or 10 mV, with its sample's quality (R527). -/
def State.svValue (s : State) (e : List Byte) (t c : Nat) : Int × Nat :=
  let p := leAt e (16 + c) 1
  let (v, q) := sampleVal p (nth (nth s.dch.taps (t + 1) []) p 0)
  let y := v * ofF32 (leAt e (24 + 4 * c) 4) * (if c < 4 then 1000 else 100)
  (satI (-(2 ^ 31)) (2 ^ 31 - 1) (roundAway y), q)

/-- The IEC 61850-7-3 quality of a sample's quality: validity in bits 0 to 1 (1 invalid, 3 questionable), overflow in bit
2, source substituted in bit 10, test in bit 11 (R527). -/
def svQuality (q : Nat) : Nat :=
  (if bitAt q 0 || bitAt q 7 then 1 else if bitAt q 1 then 3 else 0) + 4 * b2n (bitAt q 1)
    + 1024 * b2n (bitAt q 4 || bitAt q 6) + 2048 * b2n (bitAt q 5)

/-- The octets of an SV frame that its authentication covers (log 166). -/
def svOctets (e : List Byte) (synch : Nat) (asdus : List (Nat × List (Int × Nat))) : List Byte :=
  Config.frameOctets 1 (e.map (fun b => (b.toNat : Int)) ++ [(synch : Int)]
    ++ (asdus.map fun a => (a.1 : Int) :: (a.2.map fun v => [v.1, (v.2 : Int)]).flatten).flatten)

/-- Publication j takes an output of unit t (R526, R527). -/
def State.svOut (s : State) (j t : Nat) : State :=
  let m := nth s.dch.tapTs (t + 1) 0
  let p0 : SvPub := nth s.net.svpubs j ⟨[], none, []⟩
  let p := match p0.next with
    | some (sec, e) => if sec < m / 18432000 then (⟨e, none, []⟩ : SvPub) else p0
    | none => p0
  let s0 := s.onNet fun n => { n with svpubs := n.svpubs.set j p }
  let fl := leAt p.entry 10 1
  let fast := bitAt fl 1
  let rate := if fast then 14400 else 4800
  let n := if fast then 6 else 2
  if !bitAt fl 0 || t ≠ (if fast then 0 else 1) || !(s.inSt [NOON, DUSK] || (s.dev = MORNING && s.on NET_PTPCFG_mupub)) then s0
  else
    let cnt := m % 18432000 / (18432000 / rate)
    let prev := if cnt % n = 0 || (p.asdus.getLast?.map (·.1 + 1)) ≠ some cnt then [] else p.asdus
    let l := prev ++ [(cnt, (List.range 8).map fun c => let (v, q) := s.svValue p.entry t c; (v, svQuality q))]
    let s1 := s0.onNet fun x => { x with svpubs := x.svpubs.set j { p with asdus := l } }
    if cnt % n = n - 1 && l.length = n then
      let tq := s.g MER_STAT_tq
      let synch := if tq = TQ_LOCKED then 2 else if tq = TQ_HOLDOVER then 1 else 0
      let (auth, s2) := s1.authSend (bitAt fl 2) (leAt p.entry 11 1) (svOctets p.entry synch l)
      let (ports, s3) := s2.enginePorts (leAt p.entry 12 1)
      s3.transmit (.sv ports j synch l auth)
    else s1

def State.svPublish (s : State) (t : Nat) : State := s.each (List.range 8) fun s j => s.svOut j t

/-! ### GOOSE subscriptions (R529 to R531) -/

def emptyGSub : GSub := ⟨[], none, none, [], 0⟩
def State.gsub (s : State) (k : Nat) : GSub := nth s.net.gsubs k emptyGSub
def State.putGsub (s : State) (k : Nat) (x : GSub) : State := s.onNet fun n => { n with gsubs := n.gsubs.set k x }

/-- GOOSE bit i follows NET_GBIT (R530). -/
def State.gooseBit (s : State) (i : Nat) : Bool :=
  let k := s.g NET_GBIT_sub [i]
  let x := s.gsub k
  let fl := leAt x.entry 8 1
  let fall := match s.g NET_GBIT_fb [i] with
    | 0 => false
    | 1 => true
    | _ => bitAt s.tmx.gbits i
  let good := match nth x.members (s.g NET_GBIT_qmem [i]) .other with
    | .quality v _ => decide (v = 0)
    | _ => false
  if !s.on NET_GBIT_en [i] then false
  else if s.g NET_GSTAT_state [k] ≠ 2 || (s.on NET_GBIT_qen [i] && !good)
      || (s.on NET_GSTAT_test [k] && !bitAt fl 2) || (s.on NET_GSTAT_sim [k] && !bitAt fl 3) then fall
  else match nth x.members (s.g NET_GBIT_mem [i]) .other with
    | .bool v => v
    | .dbpos v => decide (v = 2)
    | _ => fall

/-- The GOOSE bits follow; each change raises source 199. -/
def State.gooseBits (s : State) : State :=
  s.each (List.range 32) fun s i =>
    let b := s.gooseBit i
    if bitAt s.tmx.gbits i = b then s
    else State.raise { s with tmx := { s.tmx with gbits := putBit s.tmx.gbits i b } } 199

/-- A subscription enters the lost state. -/
def State.gooseLost (s : State) (k : Nat) : State :=
  if s.g NET_GSTAT_state [k] = 1 then s else (s.p NET_GSTAT_state [k] 1).flag NET 14

/-- NET_GSUB (R529). -/
def netGsub (d : Desc) (buf : List Byte) (s : State) : State :=
  if s.inSt [DAWN, NIGHT] then s.complete d 0x0E02 ST_NOT_NOW
  else
    let (e, n) := clampLe 10 2 1 64 (padTo 160 buf, 0)
    let k := d.rf.toNat % 256
    ((s.clampDesc d 8 n).putGsub k { s.gsub k with next := some e }).complete d 0x0E02 ST_DONE

/-- A subscription whose entry waits takes it at a frame boundary. -/
def State.gooseBoundary (s : State) (k : Nat) : State := match (s.gsub k).next with
  | none => s
  | some e =>
    let s1 := s.putGsub k { emptyGSub with entry := e }
    let s2 := if bitAt (leAt e 8 1) 0 then s1.gooseLost k else s1.p NET_GSTAT_state [k] 0
    s2.gooseBits

/-- The entries that wait take effect at a frame boundary (R523, R529). -/
def State.netBoundary (s : State) : State :=
  (s.each (List.range 64) State.svBoundary).each (List.range 256) State.gooseBoundary

/-- Whether a GOOSE frame matches an entry that is enabled, by MAC address, APPID and gocbRef. In an entry the MAC address lies in
the order of its octets, APPID and the counts low byte first (log 174, DESIGN CHOICE). -/
def gooseMatch (e : List Byte) (f : GooseIn) : Bool :=
  bitAt (leAt e 8 1) 0 && beAt e 0 6 = f.dst.toNat && leAt e 6 2 = f.appid.toNat && padTo 129 f.gocbRef = (e.drop 16).take 129

/-- A GOOSE frame at subscription k, which it matches. -/
def State.gooseFrame (s : State) (k : Nat) (f : GooseIn) : State :=
  let x := s.gsub k
  let drop := s.cnt NET_GSTAT_bad [k]
  if f.auth.isNone && bitAt (leAt x.entry 8 1) 1 then drop
  else if f.members.length ≠ leAt x.entry 10 2 || x.last = some (f.stNum, f.sqNum) then drop
  else
    let y := { x with last := some (f.stNum, f.sqNum), members := f.members, until_ := s.mer.cyc + f.tal * 250000 }
    (((s.putGsub k y).p NET_GSTAT_state [k] 2).p NET_GSTAT_test [k] (b2n f.test)).p NET_GSTAT_sim [k] (b2n f.sim)

/-- GOOSE_FRAME_RECEIVE: a frame whose extension does not verify is discarded (R536), and one that no subscription consumes
goes to the host. -/
def gooseFrameReceive (h : RxHead) (f : GooseIn) (s : State) : State :=
  let (ok, s1) := s.rxAccept h
  let subs := (List.range 256).filter fun k => gooseMatch (s1.gsub k).entry f
  if !ok then s1
  else if f.auth.any fun a => !s1.authOk a h.arr then
    (s1.each (if s1.subsRun then subs else []) fun s k => s.cnt NET_GSTAT_bad [k]).flag NET 15
  else if subs.isEmpty || !s1.subsRun then s1.rxHost h f.auth.isSome
  else (s1.each subs fun s k => s.gooseFrame k f).gooseBits

/-- GOOSE_TAL_EXPIRY of subscription k (R529). -/
def gooseTalExpiry (k : Nat) (s : State) : State :=
  if s.netRuns && s.g NET_GSTAT_state [k] = 2 && (s.gsub k).until_ ≤ s.mer.cyc then (s.gooseLost k).gooseBits else s

/-! ### GOOSE publications (R532 to R534) -/

def emptyGPub : GPub := ⟨[], 0, 0, [], 0, 0, 0⟩
def State.gpub (s : State) (j : Nat) : GPub := nth s.net.gpubs j emptyGPub
def State.putGpub (s : State) (j : Nat) (x : GPub) : State := s.onNet fun n => { n with gpubs := n.gpubs.set j x }

def GPub.enabled (x : GPub) : Bool := bitAt (leAt x.entry 10 1) 0

/-- The value of a member; row and element members are FALSE outside NOON and DUSK (R545). A Quality member is good, with the test
bit of the publication (R532). -/
def State.gooseMember (s : State) (e : List Byte) (m : Nat) : GMember :=
  let w := leAt e (416 + 2 * m) 2
  let i := w % 4096
  match w / 4096 with
  | 0 => .bool (s.inSt [NOON, DUSK] && s.rowAct i && !(s.row i).tblk)
  | 1 => .bool (bitAt (s.g NET_GVAL [i / 32]) (i % 32))
  | 2 => .bool (s.inSt [NOON, DUSK] && bitAt (s.operBits (i / 32)) (i % 32))
  | 3 => .bool (bitAt (s.g FIO_DISTATE) i)
  | _ => .quality 0 (bitAt (leAt e 10 1) 2)

def State.gooseVals (s : State) (e : List Byte) : List GMember := (List.range (leAt e 13 1)).map (s.gooseMember e)

/-- A published member as a number: 0 or 1 for a BOOLEAN, 2 or 3 for a Quality without or with test. -/
def memberCode : GMember → Nat
  | .bool v => b2n v
  | .quality _ t => 2 + b2n t
  | _ => 4

/-- The octets of a GOOSE frame that its authentication covers (log 166). -/
def gooseOctets (x : GPub) (tal : Nat) : List Byte :=
  Config.frameOctets 0 ((x.entry.map (fun b => (b.toNat : Int))) ++ [(x.st : Int), (x.sq : Int), (tal : Int), (x.eventAt : Int)]
    ++ x.vals.map (fun v => (memberCode v : Int)))

/-- A frame of publication j leaves: timeAllowedToLive is twice the interval to the next repeat (R533). -/
def State.gooseSend (s : State) (j : Nat) (x : GPub) (interval : Nat) : State :=
  let fl := leAt x.entry 10 1
  let (auth, s1) := s.authSend (bitAt fl 1) (leAt x.entry 11 1) (gooseOctets x (2 * interval))
  let y := { x with interval := interval, nextAt := s.mer.cyc + interval * 250000 }
  let (ports, s2) := (s1.putGpub j y).enginePorts (leAt x.entry 12 1)
  s2.transmit (.goose ports j x.st x.sq (2 * interval) x.eventAt (bitAt fl 2) x.vals auth)

/-- An event of publication j: stNum increases, sqNum restarts. -/
def State.gooseEvent (s : State) (j : Nat) (vals : List GMember) : State :=
  let x := s.gpub j
  s.gooseSend j { x with st := x.st + 1, sq := 0, vals := vals, eventAt := s.mer.now } (leAt x.entry 14 2)

/-- The publications evaluate their members; several changes make one event (R533). -/
def State.gooseEval (s : State) : State :=
  if !s.netRuns then s
  else s.each (List.range 64) fun s j =>
    let x := s.gpub j
    if x.enabled then
      let v := s.gooseVals x.entry
      if v = x.vals then s else s.gooseEvent j v
    else s

/-- GOOSE_REPEAT of publication j: after T1, 2·T1, 4·T1 and so on, up to T0. -/
def gooseRepeat (j : Nat) (s : State) : State :=
  let x := s.gpub j
  if s.netRuns && x.enabled && x.nextAt ≤ s.mer.cyc then
    s.gooseSend j { x with sq := x.sq + 1 } (min (2 * x.interval) (leAt x.entry 16 4))
  else s

/-- A member after clamping: kinds 5 to 15 to 4, the index to the range of its kind. -/
def clampMember (w : Nat) : Nat × Nat :=
  let kind := min (w / 4096) 4
  let i := w % 4096
  let hi := if kind = 0 then 63 else if kind = 1 || kind = 2 then 255 else if kind = 3 then 31 else 4095
  (kind * 4096 + min i hi, b2n (kind ≠ w / 4096) + b2n (decide (hi < i)))

/-- A publication entry after clamping, and the number of clamped fields. -/
def clampGpub (buf : List Byte) : List Byte × Nat :=
  let x := clampLe 14 2 1 1000 (clampLe 13 1 1 64 (clampLe 11 1 0 31 (padTo 544 buf, 0)))
  let t0 := leAt x.1 16 4
  let t := max (clampN 100 60000 t0) (leAt x.1 14 2)
  let y := if t = t0 then x else (putLe x.1 16 4 t, x.2 + 1)
  (List.range (leAt y.1 13 1)).foldl (fun (z : List Byte × Nat) m =>
    let (w, n) := clampMember (leAt z.1 (416 + 2 * m) 2)
    if n = 0 then z else (putLe z.1 (416 + 2 * m) 2 w, z.2 + n)) y

/-- NET_GPUB (R532): the publication starts with stNum 1. -/
def netGpub (d : Desc) (buf : List Byte) (s : State) : State :=
  if s.inSt [DAWN, NIGHT] then s.complete d 0x0E03 ST_NOT_NOW
  else
    let (e, n) := clampGpub buf
    let j := d.rf.toNat % 64
    let s1 := (s.clampDesc d 8 n).putGpub j { emptyGPub with entry := e }
    let s2 := if bitAt (leAt e 10 1) 0 then s1.gooseEvent j (s1.gooseVals e) else s1
    s2.complete d 0x0E03 ST_DONE

/-- The owner of publication value v. -/
def State.gvOwner (s : State) (v : Nat) : Nat := s.g NET_GVOWN [v / 8] / 16 ^ (v % 8) % 16

/-- A party writes publication values; those that it does not own stay (R534). -/
def State.putGval (s : State) (own first : Nat) (vals : List Bool) : State :=
  s.each vals.zipIdx fun s (b, i) =>
    let v := first + i
    if v < 256 && s.gvOwner v = own then s.p NET_GVAL [v / 32] (putBit (s.g NET_GVAL [v / 32]) (v % 32) b) else s

/-- NET_GVAL: a host write of word j; one that changes a value makes the publications evaluate (R533). -/
def netGval (j : Nat) (v : Word) (s : State) : State :=
  let s1 := s.putGval 0 (32 * j) ((List.range 32).map v.getLsbD)
  if s1.g NET_GVAL [j] = s.g NET_GVAL [j] then s1 else s1.gooseEval

/-! ### States and reset (R545) -/

/-- NIGHT: the ports go down and PTP stops. -/
def State.netNight (s : State) : State :=
  let s1 := s.each (List.range 8) fun s p => s.putEthLink p false
  (s1.each (List.range 8) fun s p => s.putPtp p emptyPtp).ptpDecide

/-- A wake: enabled subscriptions restart in the lost state. -/
def State.netWake (s : State) : State :=
  let s1 := s.each (List.range 256) fun s k =>
    if bitAt (leAt (s.gsub k).entry 8 1) 0 then (s.putGsub k { s.gsub k with last := none, members := [] }).gooseLost k else s
  let s2 := s1.each (List.range 64) fun s k =>
    if bitAt (leAt (s.svSub k).entry 8 1) 0 then (s.onSv k fun x => { x with samples := [], last := none }).svLost k else s
  (s2.each (List.range 8) State.ptpRestart).gooseBits

/-- The network state after a reset of the block; the keys stay until a SYS reset (R535). -/
def netInit (keys : List (Option AuthKey)) (cyc : Nat) : NetSt := {
  rxq := [], rxLost := List.replicate 16 0, dup := List.replicate 4 [], redSeq := List.replicate 4 0
  supCyc := List.replicate 4 cyc, gsubs := List.replicate 256 emptyGSub, gpubs := List.replicate 64 emptyGPub
  svpubs := List.replicate 8 ⟨[], none, []⟩, keys := keys, ptp := List.replicate 8 { emptyPtp with annCyc := cyc }, tx := [] }

/-- The reset of the block before its registers: the frames that wait return their buffers. The GOOSE bits follow after (R530). -/
def State.netReset (s : State) : State :=
  let s1 := s.each s.net.rxq fun s x => s.unqueueLast 9 x.1
  { s1 with net := netInit s1.net.keys s1.mer.cyc, sv := List.replicate 64 emptySub }

end Sys2Proof.Machine
end

