-- ==== Sys2Proof/Machine/Csc.lean ====
section
/-! DEFINITION. The stack: formation, time and grid distribution, publications, loss and return of members (R577 to R601). -/

namespace Sys2Proof.Machine

/-- The bit of a position in CSC_STAT.aligned. -/
def State.putAligned (s : State) (m : Nat) (b : Bool) : State :=
  s.p CSC_STAT_aligned [] (putBit (s.g CSC_STAT_aligned) m b)

/-- A position becomes aligned; the first time after its admission sets algn, and the master writes the event (R584, R593). -/
def State.becomeAligned (s : State) (m : Nat) : State :=
  let s1 := s.putAligned m true
  let s2 := if bitAt s.csc.wasAligned m then s1
    else (s1.onCsc fun c => { c with wasAligned := putBit c.wasAligned m true }).flag CSC 15
  if s.isMaster && m ≠ 0 then s2.cscEvt 5 m (s.memSerial m) else s2

/-! ### Losing the master (R595, R137, R55) -/

/-- The tracked grid continues with its last Δ; a device that has received none starts its grid at the next multiple of
1.25 ms. A reset that is due restarts the grid itself (R60, R154). -/
def State.gridContinues (s : State) : State :=
  let last := match s.dch.placed.getLast? with
    | some p => p.t
    | none => s.dch.frame.ts
  let nx := match s.dch.nextT with
    | some p => some p
    | none =>
      if !s.afe.run || !s.dch.resets.isEmpty then none
      else some (placeAt (if s.dch.lastDelta = 0 then nextGrid s.mer.now else last + s.dch.lastDelta) s.dch.lastRate)
  { s with dch := { s.dch with lost := true, nextT := nx } }

/-- A member without its master: Meridian enters HOLDOVER, the grid continues, and the alignment ends. -/
def State.withoutMaster (s : State) : State :=
  if !s.isMember then s
  else
    (((s.loseSrc 10).gridContinues).p CSC_STAT_aligned [] 0).onCsc fun c => { c with alignCnt := 0, early := [] }

/-- DETACH: a member that has received neither SYNC nor GRID for 1 ms; also one whose stack forms anew, which acts as DETACHED (R581,
R595). -/
def detach (s : State) : State :=
  if s.linksRun && s.isMember && s.cscState ≠ CS_DETACHED && oneMs ≤ s.since (max s.csc.syncCyc s.csc.gridCyc) then
    (s.withoutMaster.p CSC_STAT_state [] CS_DETACHED).flag CSC 12
  else s

/-! ### Losing a member (R594, R399) -/

/-- MEMBER_LOST: no packet of member m for 1 ms, on the master of a stack that is FORMED or forms anew. -/
def memberLost (m : Nat) (s : State) : State :=
  if s.isMaster && s.linksRun && m ≠ 0 && bitAt (s.g CSC_STAT_present) m && oneMs ≤ s.since (nth s.csc.heard m 0) then
    let s1 := (s.p CSC_STAT_present [] (putBit (s.g CSC_STAT_present) m false)).putAligned m false
    let s2 := ((s1.flag CSC 10).cnt CSC_MEM_3_lost [m]).cscEvt 3 m (s1.memSerial m)
    (s2.setLevel (205 + m) false).launchLost m
  else s

/-- Members leave the stack: those whose loss is due are declared lost, and the forward sources of the positions from n on fall. -/
def State.membersLeave (s : State) (n : Nat) : State :=
  (s.each (List.range 8) fun s m => memberLost m s).each ((List.range 7).filter (n ≤ · + 1)) fun s m => s.setLevel (206 + m) false

/-! ### Formation (R579, R580, R581, R597) -/

/-- The device is outside a formed stack, and follows its own list of time sources again (R54). -/
def State.unstacked (s : State) (st fail : Nat) : State :=
  let s0 := s.membersLeave 1
  let s1 := (((s0.launchEnd.withoutMaster.p CSC_STAT [] (st + 32 * fail)).p GEN_STATE_stacked [] 0).p GEN_STATE_member [] 0).p CSC_TOFS [] 0
  ({ s1 with dch := { s1.dch with lost := false } } : State).ownSrc

/-- Formation starts: the device acts as DETACHED while it runs, and the launches of a master end (R581, R83). -/
def State.formStart (s : State) : State :=
  if !s.inSt [MORNING, NOON, DUSK, SAFE] then s
  else if !s.on CSC_CFG_en then
    s.unstacked CS_STANDALONE 0
  else
    ((s.launchEnd.withoutMaster.p CSC_STAT_state [] CS_FORMING).p CSC_STAT_fail [] 0).onCsc fun c => { c with formAt := s.mer.cyc }

/-- The devices of a group: this one, with its own registers, and the others. -/
def State.groupDevs (s : State) (g : StackGroup) : List StackDev :=
  ⟨Config.serial, s.on GEN_STATE_master, s.g CSC_CFG_nexp⟩ :: g.others

/-- The trained stack links of device d in ascending order: link, peer, and the peer's link. -/
def linkEnds (g : StackGroup) (d : Nat) : List (Nat × Nat × Nat) :=
  (List.range 4).filterMap fun j => g.wires.findSome? fun w =>
    if w.a = d && w.la.val = j then some (j, w.b, w.lb.val) else if w.b = d && w.lb.val = j then some (j, w.a, w.la.val) else none

/-- The devices from d on, which its link l has reached, away from device `start`. -/
def walkFrom (g : StackGroup) (start : Nat) : Nat → Nat → Nat → List Nat
  | 0, _, _ => []
  | n + 1, d, l =>
    if d = start then []
    else d :: match (linkEnds g d).find? fun e => e.1 ≠ l with
      | some e => walkFrom g start n e.2.1 e.2.2
      | none => []

/-- The devices along each link of device d, in order of hop distance. -/
def arms (g : StackGroup) (d : Nat) : List (Nat × List Nat) :=
  (linkEnds g d).map fun e => (e.1, walkFrom g d 8 e.2.1 e.2.2)

/-- Whether the walk along one link of device d comes back by another. -/
def isRing (g : StackGroup) (d : Nat) : Bool := match linkEnds g d, arms g d with
  | [_, e], (_, l) :: _ => l.contains e.2.1
  | _, _ => false

/-- The connected group in the order of R579 from device d: along its lower-numbered link, then in a chain along the other. -/
def groupOrder (g : StackGroup) (d : Nat) : List Nat :=
  d :: (if isRing g d then ((arms g d).take 1 |>.map (·.2)).flatten else ((arms g d).map (·.2)).flatten)

/-- The devices of the group whose strap is high. -/
def State.groupMasters (s : State) (g : StackGroup) : List Nat :=
  (groupOrder g 0).filter fun d => (nth (s.groupDevs g) d ⟨0, false, 0⟩).strap

/-- Whether two devices of the group are joined by two links. -/
def isDoubled (g : StackGroup) : Bool :=
  (groupOrder g 0).any fun d => match linkEnds g d with
    | [e, f] => e.2.1 = f.2.1
    | _ => false

/-- The failure of a group, by the table of outcomes: 0 where it forms. -/
def State.groupFail (s : State) (g : StackGroup) : Nat :=
  let n := (groupOrder g 0).length
  match s.groupMasters g with
  | [] => 1
  | [m] =>
    let nexp := (nth (s.groupDevs g) m ⟨0, false, 0⟩).nexp
    if isDoubled g then 3 else if nexp ≠ 0 && n ≠ nexp then 4 else 0
  | _ => 2

/-- The link of this device by which device d is nearest. -/
def routeTo (g : StackGroup) (d : Nat) : Nat :=
  let l := (arms g 0).filter fun a => a.2.contains d
  (l.foldl (fun (o : Option (Nat × List Nat)) a => match o with
    | none => some a
    | some b => if a.2.idxOf d < b.2.idxOf d then some a else some b) none).elim 0 (·.1)

/-- The stack has formed: positions from the wiring, serial numbers, and the master's time on a member. A position
other than the one held when the stack last formed sets poschg (R597, log 183). -/
def State.formedAs (s00 : State) (g : StackGroup) : State :=
  let order := groupOrder g (nth (s00.groupMasters g) 0 0)
  let n := order.length
  let s := s00.membersLeave n
  let m := s.on GEN_STATE_master
  let pos := order.idxOf 0
  let moved := s.csc.lastPos.any (· ≠ pos)
  let s1 := s.p CSC_STAT [] (CS_FORMED + 256 * (if n ≤ 1 then 0 else if isRing g 0 then 2 else 1) + 4096 * n
    + 65536 * 1 + 2 ^ 24 * (2 ^ n - 1))
  let s2 := (s1.p GEN_STATE_stacked [] 1).p GEN_STATE_member [] pos
  let serials := order.map fun d => (nth (s.groupDevs g) d ⟨0, false, 0⟩).serial
  let s3 := s2.each serials.zipIdx fun s (w, i) => (s.p CSC_MEM_0 [i] w.toNat).p CSC_MEM_1 [i] (w.toNat / 2 ^ 32)
  let s4 := s3.onCsc fun c => { c with
    heard := List.replicate 8 s.mer.cyc, syncCyc := s.mer.cyc, gridCyc := s.mer.cyc, alignCnt := 0
    wasAligned := if m then 1 else 0, fresh := true, early := [], routes := order.map (routeTo g), lastPos := some pos, stepSeen := s.mer.stepAt }
  let s5 := if m then s4 else s4.selectSrc 10
  let s6 := if moved then s5.flag CSC 16 else s5
  (s6.flag CSC 8).cscEvt 1 0 Config.serial.toNat

/-- FORMATION_END. -/
def formationEnd (g : StackGroup) (s : State) : State :=
  if s.cscState ≠ CS_FORMING || !s.linksRun then s
  else if (linkEnds g 0).isEmpty then
    if s.g CSC_CFG_fto * oneMs ≤ s.since s.csc.formAt then s.unstacked CS_STANDALONE 0 else s
  else if s.groupFail g = 0 then s.formedAs g
  else ((s.unstacked CS_FAILED (s.groupFail g)).flag CSC 9).cscEvt 2 0 Config.serial.toNat

/-- CSC_LINK.up changes, which sets the link flag. -/
def State.putLohelys (s : State) (j : Nat) (up : Bool) : State :=
  if s.on CSC_LINK_up [j] = up then s else (s.p CSC_LINK_up [j] (b2n up)).flag CSC 14

/-- LOHELYS_LINK_CHANGE of link j: it gains or loses block lock; within lmask, formation runs again. -/
def lohelysLinkChange (j : Nat) (lock : Bool) (s : State) : State :=
  if nth s.csc.lock j false = lock || !s.stackLink j then s
  else
    let s1 := s.onCsc fun c => { c with lock := c.lock.set j lock }
    let s2 := if lock then s1 else (s1.cnt CSC_LERR_lock [j]).putLohelys j false
    s2.formStart

/-- CSC_CFG has been written: links outside lmask go down, and formation runs again. -/
def State.cscWritten (s : State) : State :=
  let s1 := s.each (List.range 4) fun s j =>
    if s.stackLink j then s else (s.onCsc fun c => { c with lock := c.lock.set j false }).putLohelys j false
  s1.formStart

/-- HELLO_SEND on link j, every 100 µs. -/
def helloSend (j : Nat) (s : State) : State :=
  if s.stackLink j && 100 * oneUs ≤ s.since (nth s.csc.helloCyc j 0) then
    (s.onCsc fun c => { c with helloCyc := c.helloCyc.set j s.mer.cyc }).linkSend PK_HELLO j
      [Config.serial.toNat, b2n (s.on GEN_STATE_master), s.cscState, s.position, j]
  else s

/-- The master finds a lost position by the serial number of a neighbour, and a device without its master returns to it: one that is
DETACHED through the master or a device of a formed stack, one that forms anew through a device of a formed stack (R596). -/
def State.rejoin (s : State) (serial : Nat) (strap : Bool) (st : Nat) : State :=
  if s.isMaster && s.formed then
    match s.others.find? fun m => s.memSerial m = serial && !bitAt (s.g CSC_STAT_present) m with
    | some m => (s.heard m).readmit m
    | none => s
  else if s.isMember && (st = CS_FORMED && s.cscState = CS_FORMING || s.cscState = CS_DETACHED && (strap || st = CS_FORMED)) then
    ((s.p CSC_STAT_state [] CS_FORMED).onCsc fun c => { c with
      syncCyc := s.mer.cyc, gridCyc := s.mer.cyc, alignCnt := 0, wasAligned := 0, fresh := true }).flag CSC 11
  else s

/-- HELLO_PACKET: the sender's serial number, strap, formation state, position and link. -/
def helloPacket (h : PktHead) (serial : BitVec 64) (strap : Bool) (st pos plink : Nat) (s00 : State) : State :=
  let (ok, s) := s00.linkIn h
  let j := h.link.val
  if !ok then s
  else
    let s1 := ((s.p CSC_LINK_ppos [j] pos).p CSC_LINK_pmst [j] (b2n strap)).p CSC_LINK_plink [j] plink
    let s2 := s1.putLohelys j true
    let s3 := if s2.on GEN_STATE_stacked && s2.memSerial pos = serial.toNat then s2.heard pos else s2
    s3.rejoin serial.toNat strap st

/-! ### Link delay (R582) -/

/-- A stamp at the pins: its least significant bit is 1/64 ns. -/
def stamp64 (t : Time) : Time := t / 1024 * 1024

/-- LINK_DELAY_MEASURE of link j, every 1 ms. -/
def linkDelayMeasure (j : Nat) (s : State) : State :=
  if s.stackLink j && s.on CSC_LINK_up [j] && oneMs ≤ s.since (nth s.csc.timeCyc j 0) then
    (s.onCsc fun c => { c with timeCyc := c.timeCyc.set j s.mer.cyc }).linkSend PK_TIME j [stamp64 s.mer.now]
  else s

/-- TIME_PACKET: a request with t1, which is answered, or an answer with t1, t2 and t3. It is a packet of the peer (R594). -/
def timePacket (h : PktHead) (stamps : List Time) (arr : Time) (s00 : State) : State :=
  let (ok, s) := s00.linkIn h
  let j := h.link.val
  if !ok || !s.on CSC_LINK_up [j] then s
  else match stamps with
    | [t1] => (s.hearFrom (s.g CSC_LINK_ppos [j])).linkSend PK_TIME j [t1, stamp64 arr, stamp64 s.mer.now]
    | [t1, t2, t3] =>
      let d := (((stamp64 arr : Int) - t1) - ((t3 : Int) - t2)) / 2 - Config.linkTrim j
      (s.hearFrom (s.g CSC_LINK_ppos [j])).p CSC_LINK_dly [j] (satI 0 (2 ^ 24 - 1) (d / 1024)).toNat
    | _ => s

/-! ### Time and the tracked grid (R583 to R585) -/

/-- CASCADE_SYNC_SEND: at each whole millisecond the master sends its time, tq and the step flag. -/
def cascadeSyncSend (s : State) : State :=
  let ms := s.mer.now / oneMs
  if s.isMaster && s.formed && s.csc.syncMs ≠ ms then
    let step := decide (s.mer.stepAt ≠ s.csc.stepSeen)
    (s.onCsc fun c => { c with syncMs := ms, stepSeen := s.mer.stepAt }).stackSend
      PK_SYNC [s.mer.now, s.g MER_STAT_tq, b2n step, 0]
  else s

/-- The alignment count after an offset in units of 2^−16 ns (R584). -/
def State.alignCount (s : State) (off : Int) : State :=
  if off.natAbs ≤ 50 * oneNs then s.onCsc fun c => { c with alignCnt := min (c.alignCnt + 1) 16 }
  else (s.onCsc fun c => { c with alignCnt := 0 }).putAligned s.position false

/-- The content of a forwarded SYNC: a device that forwards it adds its link delay, which CSC_LINK shows in units of 1/64 ns, and the time
of its stay to the cumulative delay. -/
def syncBody (dly : Nat) (h : PktHead) (sent : Time) (cum tq : Nat) (step : Bool) : Option Int → List Nat
  | none => [sent, tq, b2n step, cum + dly * 1024 + h.stay]
  | some o => [h.src.val, wrap 32 o]

/-- SYNC_PACKET: on a member, the master's departure time, the cumulative delay, tq and the step flag; on the master, the
response of a member with its offset in units of 1/64 ns. The packet is an event of source code 10 (R53, R55). A member steps
by the whole difference with the flag, and else lets its servo correct it (R583, log 71). A member in
SAFE takes the tq carried, LOCKED included (R55, R583 beside R85; log 139, DESIGN CHOICE). -/
def syncPacket (h : PktHead) (sent : Time) (cum tq : Nat) (step : Bool) (response : Option Int) (s00 : State) : State :=
  let (ok, s) := s00.packetIn PK_SYNC h none (syncBody (s00.g CSC_LINK_dly [h.link.val]) h sent cum tq step response)
  if !ok || !s.formed then s
  else match response with
    | some o => if s.isMaster then s.p CSC_MEM_2 [h.src.val] (wrap 32 o) else s
    | none =>
      if !s.isMember then s
      else
        let off : Int := (s.mer.now : Int) - (sent + cum)
        let o := satI (-(2 ^ 31) + 1) (2 ^ 31 - 1) (off / 1024)
        let s1 := (((s.noteEvent 10).p CSC_TOFS [] (wrap 32 o)).onCsc fun c => { c with syncCyc := s.mer.cyc }).putAligned 0 true
        let s2 := (s1.setTq tq).alignCount off
        let (k, drawn) := s2.draw
        let s3 := if s.dev = SAFE then s2 else if step then s2.stepBy (-off) else drawn.correct (s.phaseOf off k)
        s3.stackSend PK_SYNC [s.position, wrap 32 o]

/-- ALIGNMENT: 16 consecutive SYNC packets within ±50 ns. -/
def alignment (s : State) : State :=
  if s.formed && s.isMember && s.csc.alignCnt = 16 && !bitAt (s.g CSC_STAT_aligned) s.position then s.becomeAligned s.position else s

/-- The master sends the instant that it has just fixed (R585). -/
def State.gridSend (s : State) (p : Placed) : State :=
  if s.isMaster && s.formed then s.stackSend PK_GRID [p.t, p.rate] else s

/-- GRID_PACKET: a member takes the next tracked instant and its rate. -/
def gridPacket (x : PktTime) (rate : Nat) (s00 : State) : State :=
  let (ok, s) := s00.packetIn PK_GRID x.head none [x.t, rate]
  let t := x.t
  if !(ok && s.formed && s.isMember) then s
  else
    let p := placeAt t rate
    let last := match s.dch.placed.getLast? with
      | some q => q.now
      | none => s.dch.frame.ts
    let s1 := s.onCsc fun c => { c with gridCyc := s.mer.cyc, fresh := false }
    { s1 with dch := { s1.dch with
      nextT := some { p with sync := s.csc.fresh || s.dch.nextT.any (·.sync), tstep := s.csc.fresh && s.dch.tstep }
      lost := false, lastRate := rate, lastDelta := if last < t then t - last else s.dch.lastDelta } }

/-! ### Publications (R586 to R590) -/

/-- The publication of this device's frame. -/
def State.publication (s : State) : List Byte :=
  let groups := (if s.on CSC_PUB_g0en then [s.g CSC_PUB_g0] else []) ++ (if s.on CSC_PUB_g1en then [s.g CSC_PUB_g1] else [])
  let recs := s.partSlots.filterMap fun n => (s.slot n).part
  let present := 2 ^ recs.length - 1 + 16 * b2n (s.on CSC_PUB_g0en) + 32 * b2n (s.on CSC_PUB_g1en)
  let pmask := s.g CSC_PUB_pmask
  let rec_ (r : PartRec) : List Byte := (r.vals.map fun w => leBytes 4 w.toNat).flatten ++ leBytes 1 r.slot ++ leBytes 1 r.q ++ [0, 0]
  s.dch.frame.header ++ leBytes 2 s.ownCasc
    ++ leBytes 1 (s.position + 8 * b2n (bitAt (s.g CSC_STAT_aligned) s.position)) ++ leBytes 1 present
    ++ leBytes 4 (s.g CSC_PUB_g0 + 8 * s.g CSC_PUB_g1 + 64 * pmask)
    ++ padTo 160 (recs.map rec_).flatten
    ++ (groups.map fun g => ((s.pubEntries g).map fun e => leBytes 4 e.1.toNat).flatten ++ (s.pubEntries g).map fun e => BitVec.ofNat 8 e.2).flatten
    ++ ((bitsOf 24 pmask).map fun p => leBytes 4 (nth s.dch.frame.words p 0).toNat).flatten

def State.sendPub (s : State) : State :=
  if s.formed && s.on GEN_STATE_stacked then s.stackSend PK_PUB (s.publication.map (·.toNat)) else s

/-- The time in a frame header. -/
def headerTime (l : List Byte) : Time := Time.of (leAt l 0 6) (leAt l 6 4) + leAt l 10 2

/-- The cascade deadline of a frame (R589). -/
def deadline (ts : Time) : Time := ts + 319763 * oneNs

/-- The partial records of a publication. -/
def pubParts (m : Nat) (ts : Time) (l : List Byte) : List PartRec :=
  (bitsOf 4 (leAt l 19 1)).map fun i =>
    let o := 24 + 40 * i
    { member := m, ts := ts, slot := leAt l (o + 36) 1, q := leAt l (o + 37) 1
      vals := (List.range 9).map fun k => BitVec.ofNat 32 (leAt l (o + 4 * k) 4) }

/-- The entries of group block i of a publication. -/
def pubBlock (l : List Byte) (i : Nat) : List Ent :=
  let o := 184 + 160 * i
  (List.range 32).map fun e => (BitVec.ofNat 32 (leAt l (o + 4 * e) 4), leAt l (o + 128 + e) 1)

/-- The groups that a publication carries, each with its block. -/
def pubGroups (l : List Byte) : List (Nat × List Ent) :=
  let f := leAt l 19 1
  let w := leAt l 20 4
  (if bitAt f 4 then [(w % 8, pubBlock l 0)] else []) ++ (if bitAt f 5 then [(w / 8 % 8, pubBlock l (b2n (bitAt f 4)))] else [])

/-- A publication that has arrived is used: cascade bits, partial records, remote groups and sample words. -/
def State.usePub (s : State) (m : Nat) (l : List Byte) : State :=
  let ts := headerTime l
  let gs := pubGroups l
  let s1 := { s with
    tmx := { s.tmx with pubs := s.tmx.pubs ++ [(m, leAt l 16 2)] }
    ele := { s.ele with parts := (pubParts m ts l ++ s.ele.parts).take 64 } }
  let s2 := s1.each (List.range 8) fun s r =>
    if s.on PHE_RGRP_en [r] && s.g PHE_RGRP_src [r] = 2 && s.g PHE_RGRP_member [r] = m then
      match gs.find? fun g => g.1 = s.g PHE_RGRP_grp [r] with
      | some g => s.remCascade r g.2
      | none => s
    else s
  let pmask := leAt l 20 4 / 64 % 2 ^ 24
  let o := 184 + 160 * gs.length
  s2.tableDone.each (List.range 24) fun s p =>
    if bitAt pmask p then s.p CSC_RXS [m, p] (leAt l (o + 4 * ((bitsOf 24 (pmask % 2 ^ p)).length)) 4) else s.p CSC_RXS [m, p] 0

/-- PUB_PACKET: bytes 0 to 23 of the publication, its partial records, and what follows them. -/
def pubPacket (h : PktHead) (hdr parts rest : List Byte) (s00 : State) : State :=
  let l := hdr ++ parts ++ rest
  let (ok, s) := s00.packetIn PK_PUB h none (l.map (·.toNat))
  let m := h.src.val
  if !ok || !s.formed then s
  else
    let ts := headerTime l
    let al := bitAt (leAt l 18 1) 3
    let was := bitAt (s.g CSC_STAT_aligned) m
    let s1 := if al && !was then s.becomeAligned m else if !al && was then s.putAligned m false else s
    if deadline ts ≤ s.mer.now then
      if deadline ts < s.mer.now then (s1.cnt CSC_MEM_3_late [m]).flag CSC 13 else s1
    else if !al || m = s.position then s1
    else if s.ele.lastTs = some ts || (s.tmx.second && s.dch.frame.ts = ts) then s1.usePub m l
    else s1.onCsc fun c => { c with early := (c.early ++ [(m, l)]).drop (c.early.length + 1 - 32) }

/-- The publications of this device's present frame that came before it. -/
def State.takeEarly (s : State) : State :=
  let ts := s.dch.frame.ts
  let now := s.csc.early.filter fun e => headerTime e.2 = ts
  let s1 := s.onCsc fun c => { c with early := c.early.filter fun e => ts < headerTime e.2 }
  s1.each now fun s e => s.usePub e.1 e.2

/-- Whether the publication of the frame of every other position of the stack, lost ones included, is in. -/
def State.pubsIn (s : State) : Bool := s.others.all fun m => s.tmx.pubs.any (·.1 = m)

/-- The remote groups whose publication is missing hold their entries, and the table is complete (R182, R191). -/
def State.holdMissing (s : State) : State :=
  (s.each (List.range 8) fun s r =>
    if s.cascCfg (8 + r) && !(s.grp (8 + r)).pub then
      let s1 := (s.remHold r).remStat r true
      s1.putGrp (8 + r) { s1.grp (8 + r) with pub := true }
    else s).tableDone

/-! ### Packets of other functions -/

/-- TRIG_PACKET: a trigger of another device on the cascade trigger line (R430). -/
def trigPacket (h : PktHead) (t : Time) (method : Nat) (test : Bool) (code idx : Nat) (s00 : State) : State :=
  let (ok, s) := s00.packetIn PK_TRIG h none [h.src.val, t, method, b2n test, code, idx]
  if ok && s.formed then s.recLine h.src.val t method test code idx else s

/-- LEVEL_PACKET: the level of member m's CASC view is the master's forward source 205 + m (R398). -/
def levelPacket (h : PktHead) (lv : Bool) (s00 : State) : State :=
  let (ok, s) := s00.packetIn PK_LEVEL h none [h.src.val, b2n lv]
  let m := h.src.val
  if ok && s.isMaster && s.formed && m ≠ 0 then s.setLevel (205 + m) lv else s

/-- Whether the CASC view is not empty. -/
def State.cascView (s : State) : Bool := (List.range 256).any fun n => s.srcTgt n = 5 && s.presented n

/-- LEVEL_SEND: at each change and every 1 ms. -/
def levelSend (s : State) : State :=
  let lv := s.cascView
  if s.formed && s.isMember && (lv ≠ s.csc.levelLast || oneMs ≤ s.since s.csc.levelCyc) then
    (s.onCsc fun c => { c with levelLast := lv, levelCyc := s.mer.cyc }).stackSend PK_LEVEL [s.position, b2n lv]
  else s

/-! ### States and reset -/

/-- NIGHT: the links stop. -/
def State.cscNight (s : State) : State :=
  let s1 := s.each (List.range 4) fun s j => s.putLohelys j false
  let s2 := s1.onCsc fun c => { c with lock := List.replicate 4 false, early := [] }
  s2.unstacked CS_OFF 0

/-- The stack after the block reset: the block locks, what waits for the tunnel rings, the sequence numbers, the routes and the
position last held stay. -/
def State.cscInit (s : State) : CscSt := {
  CscSt.reset with
  formAt := s.mer.cyc, heard := List.replicate 8 s.mer.cyc, syncCyc := s.mer.cyc, gridCyc := s.mer.cyc, stepSeen := s.mer.stepAt
  lock := s.csc.lock, helloCyc := List.replicate 4 s.mer.cyc, timeCyc := List.replicate 4 s.mer.cyc, levelCyc := s.mer.cyc
  tunWait := s.csc.tunWait, txSeq := s.csc.txSeq, seen := s.csc.seen, routes := s.csc.routes, lastPos := s.csc.lastPos }

end Sys2Proof.Machine
end

