-- ==== Sys2Proof/Machine/Fbc.lean ====
section
/-! DEFINITION. The block-code instructions that act on the running instance alone: stacks, loads and stores, arithmetic, logic, jumps and calls (R356 to R368). -/

namespace Sys2Proof.Machine

/-! ### The operand stack (R359) -/

def Inst.setFlag (i : Inst) (f : Bool) : Inst := { i with aflag := i.aflag || f }

/-- A push; a push onto a full stack discards the cell and sets the flag. -/
def Inst.push (i : Inst) (v : BitVec 64) (tag : Byte) : Inst :=
  if 64 ≤ i.stack.length then i.setFlag true else { i with stack := (v, tag) :: i.stack }

/-- A pop; a pop from an empty stack yields 0 with tag 0 and sets the flag. -/
def Inst.pop (i : Inst) : Cell × Inst := match i.stack with
  | [] => ((0, 0), i.setFlag true)
  | c :: r => (c, { i with stack := r })

/-- A one-operand operation: its result, with the flag that it sets, carries the operand's tag (R364). -/
def Inst.un (i : Inst) (f : BitVec 64 → BitVec 64 × Bool) : Inst :=
  let (x, i1) := i.pop
  let (v, fl) := f x.1
  (i1.setFlag fl).push v x.2

/-- A two-operand operation ( a b -- c ); the tags are ORed (R364). -/
def Inst.bin (i : Inst) (f : BitVec 64 → BitVec 64 → BitVec 64 × Bool) : Inst :=
  let (y, i1) := i.pop
  let (x, i2) := i1.pop
  let (v, fl) := f x.1 y.1
  (i2.setFlag fl).push v (x.2 ||| y.2)

/-! ### The instance region (R360) -/

/-- The address IP plus an offset. -/
def Inst.addr (i : Inst) (off : Nat) : Int := (BitVec.ofNat 64 (i.ip + off)).toInt

/-- Bytes that an access to a type reaches: a quality variant's quality byte follows its value. -/
def accSize (t : Nat) (q : Bool) : Nat := baseSize t + b2n q

/-- Whether an access of a type at an address lies within the region and is aligned as the base type. -/
def accOk (b t : Nat) (q : Bool) (a : Int) : Bool :=
  decide (0 ≤ a) && a.toNat + accSize t q ≤ b && a.toNat % baseSize t = 0

/-- A load: the cell, and whether the arithmetic flag sets (R357, R360). A plain load that reaches a forced
quality-carrying variable carries its forced quality (R327). -/
def BcpSt.load (c : BcpSt) (t : Nat) (q : Bool) (a : Int) : Cell × Bool :=
  if accOk (regionSize c.img) t q a then
    let l := memRead c.mem a.toNat (accSize t q)
    let tag := if q then nth l (baseSize t) 0 else match c.forcedAt a.toNat (accSize t q) with
      | some (f, _) => if f.typ < 8 then 0 else f.qual ||| 64
      | none => 0
    ((loadCell t (l.take (baseSize t)), tag), false)
  else ((0, 0), true)

/-- A store; one that reaches a forced variable is discarded without the flag. -/
def BcpSt.store (c : BcpSt) (t : Nat) (q : Bool) (a : Int) (x : Cell) : BcpSt × Bool :=
  if accOk (regionSize c.img) t q a then
    if (c.forcedAt a.toNat (accSize t q)).isSome then (c, false)
    else (c.setMem (memWrite c.mem a.toNat (storeBytes t x.1 ++ if q then [x.2] else [])), false)
  else (c, true)

/-- The operand forms (R362). -/
def formQ (w : Word) : Bool := bits w 23 23 = 1
def formM (w : Word) : Nat := bits w 22 20
def formOff (w : Word) : Nat := bits w 19 0
def formT (w : Word) : Nat := bits w 23 20

/-! ### Running one instruction -/

/-- The running instance of BCP b, and its next instruction, when that has the opcode. -/
def State.fbcNow (s : State) (b op : Nat) : Option (Inst × Word) := match s.current b with
  | none => none
  | some i =>
    let img := (s.cpu b).img
    let w := codeWord img i.pc
    if s.bcpRuns b && !i.host && i.pc < codeCount img && opOf w = op then some (i, w) else none

/-- The instance with its copy-in made and its program counter past the instruction. -/
def Inst.next (i : Inst) : Inst := { i with started := true, image := [], pc := i.pc + 1 }

/-- BCP b executes its next instruction, when that has the opcode, by its effect on the BCP and the instance. -/
def State.fbc (s : State) (b op : Nat) (f : BcpSt → Inst → Word → BcpSt × Inst) : State :=
  match s.fbcNow b op with
  | none => s
  | some (i, w) =>
    let s1 := s.startInst b i
    let (c, j) := f (s1.cpu b) i.next w
    (s1.putCpu b c).putInst b j

/-- An instruction that changes the instance alone. -/
def State.fbcI (s : State) (b op : Nat) (f : Inst → Word → Inst) : State := s.fbc b op fun c i w => (c, f i w)

/-! ### Stack instructions (R363) -/

def fbcNop (b : Nat) (s : State) : State := s.fbcI b 0x00 fun i _ => i
def ldi (b : Nat) (s : State) : State := s.fbcI b 0x01 fun i w => i.push (intCell (opSigned w)) 0
def ldc (b : Nat) (s : State) : State := s.fbc b 0x02 fun c i w =>
  (c, i.push (BitVec.ofNat 64 (leAt c.img (secOff c.img 6 + 8 * bits w 23 0) 8)) 0)
def dup (b : Nat) (s : State) : State := s.fbcI b 0x03 fun i _ =>
  let (x, i1) := i.pop
  (i1.push x.1 x.2).push x.1 x.2
def drop (b : Nat) (s : State) : State := s.fbcI b 0x04 fun i _ => i.pop.2
def swap (b : Nat) (s : State) : State := s.fbcI b 0x05 fun i _ =>
  let (y, i1) := i.pop
  let (x, i2) := i1.pop
  (i2.push y.1 y.2).push x.1 x.2
def fbcOver (b : Nat) (s : State) : State := s.fbcI b 0x06 fun i _ =>
  let (y, i1) := i.pop
  let (x, i2) := i1.pop
  ((i2.push x.1 x.2).push y.1 y.2).push x.1 x.2
def rot (b : Nat) (s : State) : State := s.fbcI b 0x07 fun i _ =>
  let (z, i1) := i.pop
  let (y, i2) := i1.pop
  let (x, i3) := i2.pop
  ((i3.push y.1 y.2).push z.1 z.2).push x.1 x.2

/-! ### Loads and stores (R357, R360) -/

/-- Pushes what a load gives. -/
def loadPush (c : BcpSt) (i : Inst) (w : Word) (a : Int) : BcpSt × Inst :=
  let (x, f) := c.load (formM w) (formQ w) a
  (c, (i.setFlag f).push x.1 x.2)

/-- Stores a cell. -/
def storeCell (c : BcpSt) (i : Inst) (w : Word) (a : Int) (x : Cell) : BcpSt × Inst :=
  let (c1, f) := c.store (formM w) (formQ w) a x
  (c1, i.setFlag f)

def ldl (b : Nat) (s : State) : State := s.fbc b 0x10 fun c i w => loadPush c i w (i.addr (formOff w))
def stl (b : Nat) (s : State) : State := s.fbc b 0x11 fun c i w => storeCell c i.pop.2 w (i.addr (formOff w)) i.pop.1
def ldg (b : Nat) (s : State) : State := s.fbc b 0x12 fun c i w => loadPush c i w (formOff w)
def stg (b : Nat) (s : State) : State := s.fbc b 0x13 fun c i w => storeCell c i.pop.2 w (formOff w) i.pop.1
def ldx (b : Nat) (s : State) : State := s.fbc b 0x14 fun c i w => loadPush c i.pop.2 w (cellInt i.pop.1.1)
def stx (b : Nat) (s : State) : State := s.fbc b 0x15 fun c i w =>
  let (x, i1) := i.pop
  let (a, i2) := i1.pop
  storeCell c i2 w (cellInt a.1) x
/-- LEA pushes the address as a DINT. -/
def lea (b : Nat) (s : State) : State := s.fbcI b 0x16 fun i w =>
  i.push (intCell (sgn 32 (BitVec.ofInt 32 (i.addr (formOff w))).toNat)) 0
def qget (b : Nat) (s : State) : State := s.fbcI b 0x18 fun i _ =>
  let (x, i1) := i.pop
  (i1.push x.1 x.2).push (BitVec.ofNat 64 x.2.toNat) 0
def qset (b : Nat) (s : State) : State := s.fbcI b 0x19 fun i _ =>
  let (g, i1) := i.pop
  let (x, i2) := i1.pop
  i2.push x.1 (g.1.truncate 8)

/-! ### Arithmetic (R365 to R367) -/

/-- Saturates a result to the range of its type. -/
def satOf (t : Nat) (r : Int × Bool) : Int × Bool := let (y, f) := satType t r.1; (y, r.2 || f)

def fbcAdd (b : Nat) (s : State) : State := s.fbcI b 0x20 fun i w =>
  i.bin (binOp (formT w) (fun x y => satType (formT w) (x + y)) FV.add)
def fbcSub (b : Nat) (s : State) : State := s.fbcI b 0x21 fun i w =>
  i.bin (binOp (formT w) (fun x y => satType (formT w) (x - y)) fun x y => x.add y.neg)
def fbcMul (b : Nat) (s : State) : State := s.fbcI b 0x22 fun i w =>
  i.bin (binOp (formT w) (fun x y => satType (formT w) (x * y)) FV.mul)
def fbcDiv (b : Nat) (s : State) : State := s.fbcI b 0x23 fun i w => i.bin (binOp (formT w) (intDiv (formT w)) FV.div)
def fbcMod (b : Nat) (s : State) : State := s.fbcI b 0x24 fun i w =>
  i.bin (binOp (formT w) (fun x y => satOf (formT w) (intMod x y)) FV.div)
def fbcNeg (b : Nat) (s : State) : State := s.fbcI b 0x25 fun i w =>
  i.un (unOp (formT w) (fun x => satType (formT w) (-x)) FV.neg)
def fbcAbs (b : Nat) (s : State) : State := s.fbcI b 0x26 fun i w =>
  i.un (unOp (formT w) (fun x => satType (formT w) (x.natAbs : Int)) FV.abs)
def fbcMin (b : Nat) (s : State) : State := s.fbcI b 0x27 fun i w =>
  i.bin (binOp (formT w) (fun x y => satType (formT w) (min x y)) FV.min)
def fbcMax (b : Nat) (s : State) : State := s.fbcI b 0x28 fun i w =>
  i.bin (binOp (formT w) (fun x y => satType (formT w) (max x y)) FV.max)

/-- MIN(MAX(x, mn), mx) of a type. -/
def limitCell (t : Nat) (mn x mx : BitVec 64) : BitVec 64 × Bool :=
  if isReal t then fvCell t (((cellFV t x).max (cellFV t mn)).min (cellFV t mx))
  else let (v, f) := satType t (min (max (cellInt x) (cellInt mn)) (cellInt mx)); (intCell v, f)

def limit (b : Nat) (s : State) : State := s.fbcI b 0x29 fun i w =>
  let (mx, i1) := i.pop
  let (x, i2) := i1.pop
  let (mn, i3) := i2.pop
  let (v, f) := limitCell (formT w) mn.1 x.1 mx.1
  (i3.setFlag f).push v (mn.2 ||| x.2 ||| mx.2)

def cvt (b : Nat) (s : State) : State := s.fbcI b 0x2A fun i w => i.un (convert (formT w) (bits w 19 16))

/-- MATH: functions 0 to 9, and 10 EXPT with two operands. -/
def math (b : Nat) (s : State) : State := s.fbcI b 0x2B fun i w =>
  let t := formT w
  if bits w 3 0 = 10 then i.bin fun x y => fvCell t (mathExpt (cellFV t x) (cellFV t y))
  else i.un fun x => fvCell t (mathFn (bits w 3 0) (cellFV t x))

def cmp (b : Nat) (s : State) : State := s.fbcI b 0x30 fun i w =>
  i.bin fun x y => (boolCell (compareCells (formT w) (bits w 3 0) x y), false)

/-- SEL takes a when g = 0, b otherwise; its tag joins those of g and of the cell taken (R364). -/
def sel (b : Nat) (s : State) : State := s.fbcI b 0x31 fun i _ =>
  let (g, i1) := i.pop
  let (y, i2) := i1.pop
  let (x, i3) := i2.pop
  let r := if g.1 = 0 then x else y
  i3.push r.1 (g.2 ||| r.2)

def fbcAnd (b : Nat) (s : State) : State := s.fbcI b 0x38 fun i _ => i.bin fun x y => (x &&& y, false)
def fbcOr (b : Nat) (s : State) : State := s.fbcI b 0x39 fun i _ => i.bin fun x y => (x ||| y, false)
def fbcXor (b : Nat) (s : State) : State := s.fbcI b 0x3A fun i _ => i.bin fun x y => (x ^^^ y, false)

/-- A bit pattern within the width of an integer type, sign-extended. -/
def narrow (t : Nat) (x : BitVec 64) : BitVec 64 := intCell (sgn (intWidth t) (x.toNat % 2 ^ intWidth t))

/-- NOT: 1 − a of a BOOL, the complement within the width of an integer. -/
def notCell (t : Nat) (x : BitVec 64) : BitVec 64 := if t = TB then 1 - x else narrow t (~~~ x)

def fbcNot (b : Nat) (s : State) : State := s.fbcI b 0x3B fun i w => i.un fun x => (notCell (formT w) x, false)

/-- Shifts within the width of a type: a count at or above it gives 0 (R365). -/
def shlCell (t n : Nat) (x : BitVec 64) : BitVec 64 := if intWidth t ≤ n then 0 else narrow t (x <<< n)
def shrCell (t n : Nat) (x : BitVec 64) : BitVec 64 :=
  if intWidth t ≤ n then 0 else narrow t (BitVec.ofNat 64 (x.toNat % 2 ^ intWidth t / 2 ^ n))

def shl (b : Nat) (s : State) : State := s.fbcI b 0x3C fun i w => i.un fun x => (shlCell (formT w) (bits w 5 0) x, false)
def shr (b : Nat) (s : State) : State := s.fbcI b 0x3D fun i w => i.un fun x => (shrCell (formT w) (bits w 5 0) x, false)

/-! ### Jumps and calls (R361, R363) -/

/-- Jumps by the signed offset, counted from the next instruction. -/
def Inst.jump (i : Inst) (w : Word) : Inst := { i with pc := ((i.pc : Int) + opSigned w).toNat }

def jmp (b : Nat) (s : State) : State := s.fbcI b 0x40 fun i w => i.jump w
def jz (b : Nat) (s : State) : State := s.fbcI b 0x41 fun i w => if i.pop.1.1 = 0 then i.pop.2.jump w else i.pop.2
def jnz (b : Nat) (s : State) : State := s.fbcI b 0x42 fun i w => if i.pop.1.1 = 0 then i.pop.2 else i.pop.2.jump w

/-- CALL: the frame holds the return address and the present IP; IP becomes the popped address. -/
def call (b : Nat) (s : State) : State := s.fbc b 0x43 fun c i w =>
  let (a, i1) := i.pop
  (c, { i1 with calls := (i1.pc, i1.ip) :: i1.calls, ip := a.1.toNat, pc := (typeEnt c.img (bits w 23 0)).entry })

def aflag (b : Nat) (s : State) : State := s.fbcI b 0x47 fun i _ => i.push (boolCell i.aflag) 0
def now (b : Nat) (s : State) : State := s.fbcI b 0x48 fun i _ => i.push (BitVec.ofNat 64 (s.mer.now / oneNs)) 0

end Sys2Proof.Machine
end

