-- ==== Sys2Proof/Machine/Lib.lean ====
section
/-! DEFINITION. Task ends and the library blocks of CALLX (R314, R340, R341, R353, R361, R369 to R374). -/

namespace Sys2Proof.Machine

/-! ### The output image (R314, R353) -/

/-- The publication values as the registers hold them. -/
def State.gvals (s : State) : List Nat := (List.range 8).map fun j => s.g NET_GVAL [j]

/-- One output item of an instance of BCP b takes effect; what the BCP does not own stays. -/
def State.outItem (s : State) (b : Nat) (i : Inst) (e : MapEnt) (l : List Byte) : State := match e.kind with
  | 1 => s.each ((bitsOf 16 (leAt l 2 2)).filter fun o => s.g FIO_DOCFG_own [o] = b + 1 && !s.oddPair o) fun s o =>
      s.putReq o (bitAt (leAt l 0 2) o)
  | 2 => s.bcpOut b i (e.idx % 128) (e.idx / 1024) l
  | 3 => s.putGval (b + 1) e.idx (l.map (· ≠ 0))
  | _ => s

/-- The enables that ROWEN has placed: the last value of each row, where the BCP still controls it (R372). -/
def State.applyRows (s : State) (b : Nat) (i : Inst) : State :=
  s.each (List.range 64) fun s r => match i.rowen.find? (·.1 = r) with
    | some (_, en) => if (s.row r).ctl = b + 1 then s.rowEnable r en else s
    | none => s

/-- The output image of an instance in one arbitration, and the end of the instance; a drop-out that has been decided comes before
it (R482). -/
def State.taskEnd (s0 : State) (b : Nat) (i : Inst) (items : List (MapEnt × List Byte)) : State :=
  let s := s0.dropsFirst
  let s1 := (s.each items fun s (e, l) => s.outItem b i e l).applyRows b i
  let s2 := if s1.gvals = s.gvals then s1 else s1.gooseEval
  s2.endInst b i

/-- The output items of a program's instance, read from its region. -/
def State.outItems (s : State) (b : Nat) (i : Inst) : List (MapEnt × List Byte) :=
  let c := s.cpu b
  let t := taskEnt c.img i.task
  (mapEnts c.img 4 t.outFirst t.outCount).map fun e => (e, memRead c.mem e.off e.outSize)

/-- The running instance of BCP b ends. -/
def State.endRun (s : State) (b op : Nat) : State := match s.fbcNow b op with
  | none => s
  | some (i, _) =>
    let s1 := s.startInst b i
    s1.taskEnd b i.next (s1.outItems b i)

/-- TEND. -/
def tend (b : Nat) (s : State) : State := s.endRun b 0x46

/-- RET: with an empty call stack it ends the instance (R361). -/
def ret (b : Nat) (s : State) : State := match s.fbcNow b 0x44 with
  | none => s
  | some (i, _) =>
    if i.calls.isEmpty then s.endRun b 0x44
    else s.fbcI b 0x44 fun i _ => match i.calls with
      | (pc, ip) :: l => { i with pc := pc, ip := ip, calls := l }
      | [] => i

/-- The bytes of each output item within a buffer, in map order; an item that the buffer does not hold whole has no part. -/
def splitItems (buf : List Byte) : Nat → List MapEnt → List (MapEnt × List Byte)
  | _, [] => []
  | o, e :: es =>
    let rest := splitItems buf (o + e.outSize) es
    if o + e.outSize ≤ buf.length then (e, (buf.drop o).take e.outSize) :: rest else rest

/-- BCP_TOUT (R340, R341). -/
def bcpTout (d : Desc) (buf : List Byte) (s : State) : State :=
  let t := d.rf.toNat % 16
  let b := d.rf.toNat / 16 % 4
  let c := s.cpu b
  match c.insts.find? fun i => i.host && i.task = t with
  | none => s.complete d 0x0811 ST_NOT_NOW
  | some i =>
    if s.inSt [DAWN, NIGHT] then s.complete d 0x0811 ST_NOT_NOW
    else if d.a.toNat % 65536 ≠ i.relCount then s.complete d 0x0811 ST_LATE
    else
      let e := taskEnt c.img t
      let items := (splitItems buf 0 (mapEnts c.img 4 e.outFirst e.outCount)).map fun (m, l) => (m, c.withForces m.off l)
      (s.taskEnd b { i with aflag := d.b.getLsbD 0 } items).complete d 0x0811 ST_DONE

/-! ### CALLX (R369) -/

/-- The size of the parameter block of a listed block. -/
def blockSize (k : Nat) : Option Nat :=
  if k ≤ 2 then some 48
  else match k with
    | 3 => some 3
    | 4 => some 3
    | 5 => some 8
    | 6 => some 8
    | 7 => some 3
    | 8 => some 3
    | 16 => some 14
    | 17 => some 26
    | 18 => some 5
    | 19 => some 25
    | 20 => some 4
    | 21 => some 16
    | 22 => some 8
    | _ => none

/-- Whether a parameter block of n bytes at an address lies within the instance region. -/
def inRegion (c : BcpSt) (a : Int) (n : Nat) : Bool := decide (0 ≤ a) && a.toNat + n ≤ regionSize c.img

/-- The number in n bytes of the instance region of BCP b. -/
def State.pget (s : State) (b a n : Nat) : Nat := leNat (memRead (s.cpu b).mem a n)
/-- A BOOL of a parameter block. -/
def State.pbool (s : State) (b a : Nat) : Bool := s.pget b a 1 ≠ 0
/-- An INT of a parameter block. -/
def State.pint (s : State) (b a : Nat) : Int := sgn 16 (s.pget b a 2)
/-- A block stores bytes; those of a forced variable stay (R377). -/
def State.pput (s : State) (b a : Nat) (l : List Byte) : State := s.onCpu b fun c => c.copyIn a l

/-- BCP b executes CALLX of block k on a parameter block within the region. -/
def State.lib (s : State) (b k : Nat) (f : State → Nat → State) : State := match s.fbcNow b 0x45 with
  | none => s
  | some (i, w) =>
    let (a, j) := i.next.pop
    let inside := (blockSize k).any fun n => inRegion (s.cpu b) (cellInt a.1) n
    if bits w 23 0 = k && inside then f ((s.startInst b i).putInst b j) (cellInt a.1).toNat else s

/-- CALLX of a block that the table does not list, or on a parameter block outside the region: NOP and the flag. -/
def callx (b : Nat) (s : State) : State := match s.fbcNow b 0x45 with
  | none => s
  | some (i, w) =>
    let (a, j) := i.next.pop
    let inside := (blockSize (bits w 23 0)).any fun n => inRegion (s.cpu b) (cellInt a.1) n
    if inside then s else (s.startInst b i).putInst b (j.setFlag true)

/-! ### Standard blocks (R370)

The private bytes of a timer hold the Meridian time of its last call in ns (32 to 39), whether it has been called (40) and
its phase (41) (log 15). -/

/-- What a timer finds: IN, PT, ET, the time since the last call in ns, and its phase. -/
structure TimerIn where
  in_ : Bool
  pt : Int
  et : Int
  dt : Int
  phase : Nat
deriving DecidableEq, Repr

/-- ET advanced, saturating at PT. -/
def TimerIn.adv (t : TimerIn) : Int := min (t.et + t.dt) (max t.pt 0)

/-- TON: Q, ET and the phase (1 while IN holds). -/
def tonStep (t : TimerIn) : Bool × Int × Nat :=
  if !t.in_ then (false, 0, 0)
  else
    let et := if t.phase = 0 then 0 else t.adv
    (decide (t.pt ≤ et), et, 1)

/-- TOF: phase 2 while IN holds, 1 while the delay runs. -/
def tofStep (t : TimerIn) : Bool × Int × Nat :=
  if t.in_ then (true, 0, 2)
  else if t.phase = 0 then (false, t.et, 0)
  else
    let et := if t.phase = 2 then 0 else t.adv
    if t.pt ≤ et then (false, et, 0) else (true, et, 1)

/-- TP: phase 1 while the pulse runs, 2 after it until IN falls. -/
def tpStep (t : TimerIn) : Bool × Int × Nat :=
  let go (et : Int) : Bool × Int × Nat :=
    if t.pt ≤ et then (if t.in_ then (false, et, 2) else (false, 0, 0)) else (true, et, 1)
  match t.phase with
  | 0 => if t.in_ then go 0 else (false, 0, 0)
  | 1 => go t.adv
  | _ => if t.in_ then (false, t.et, 2) else (false, 0, 0)

/-- One call of a timer block. -/
def State.timer (s : State) (b a : Nat) (f : TimerIn → Bool × Int × Nat) : State :=
  let now : Int := s.mer.now / oneNs
  let last := sgn 64 (s.pget b (a + 32) 8)
  let t : TimerIn := ⟨s.pbool b a, sgn 64 (s.pget b (a + 8) 8), sgn 64 (s.pget b (a + 24) 8),
    if s.pbool b (a + 40) then max (now - last) 0 else 0, s.pget b (a + 41) 1⟩
  let (q, et, ph) := f t
  ((s.pput b (a + 16) [BitVec.ofNat 8 (b2n q)]).pput b (a + 24) (leBytes 8 (wrap 64 et))).pput b (a + 32)
    (leBytes 8 (wrap 64 now) ++ [1, BitVec.ofNat 8 ph])

def ton (b : Nat) (s : State) : State := s.lib b 0 fun s a => s.timer b a tonStep
def tof (b : Nat) (s : State) : State := s.lib b 1 fun s a => s.timer b a tofStep
def tp (b : Nat) (s : State) : State := s.lib b 2 fun s a => s.timer b a tpStep

/-- A byte of BOOL. -/
def boolByte (b : Bool) : Byte := if b then 1 else 0

def rTrig (b : Nat) (s : State) : State := s.lib b 3 fun s a =>
  let clk := s.pbool b a
  s.pput b (a + 1) [boolByte (clk && !s.pbool b (a + 2)), boolByte clk]
def fTrig (b : Nat) (s : State) : State := s.lib b 4 fun s a =>
  let clk := s.pbool b a
  s.pput b (a + 1) [boolByte (!clk && !s.pbool b (a + 2)), boolByte (!clk)]

/-- CTU: the count rises with CU up to 32 767, and R clears it. -/
def ctu (b : Nat) (s : State) : State := s.lib b 5 fun s a =>
  let cu := s.pbool b a
  let cv := s.pint b (a + 4)
  let v := if s.pbool b (a + 1) then 0 else if cu && !s.pbool b (a + 7) then min (cv + 1) 32767 else cv
  s.pput b (a + 4) (leBytes 2 (wrap 16 v) ++ [boolByte (decide (s.pint b (a + 2) ≤ v)), boolByte cu])
/-- CTD: the count falls with CD down to −32 768, and LD loads PV. -/
def ctd (b : Nat) (s : State) : State := s.lib b 6 fun s a =>
  let cd := s.pbool b a
  let cv := s.pint b (a + 4)
  let v := if s.pbool b (a + 1) then s.pint b (a + 2) else if cd && !s.pbool b (a + 7) then max (cv - 1) (-32768) else cv
  s.pput b (a + 4) (leBytes 2 (wrap 16 v) ++ [boolByte (decide (v ≤ 0)), boolByte cd])

def sr (b : Nat) (s : State) : State := s.lib b 7 fun s a =>
  s.pput b (a + 2) [boolByte (s.pbool b a || (!s.pbool b (a + 1) && s.pbool b (a + 2)))]
def rs (b : Nat) (s : State) : State := s.lib b 8 fun s a =>
  s.pput b (a + 2) [boolByte (!s.pbool b (a + 1) && (s.pbool b a || s.pbool b (a + 2)))]

/-! ### Device blocks (R371 to R374) -/

abbrev ST_RANGE : Nat := 0x20

/-- A block writes its status. -/
def State.pstat (s : State) (b a st : Nat) : State := s.pput b a [BitVec.ofNat 8 st]

/-- Whether an INT argument lies in a range. -/
def inRange (lo hi x : Int) : Bool := decide (lo ≤ x) && decide (x ≤ hi)

def eleread (b : Nat) (s : State) : State := s.lib b 16 fun s a =>
  let n := s.pint b (a + 2)
  if !inRange 0 255 n then s.pstat b a ST_RANGE
  else (s.pput b (a + 4) (leBytes 4 (nth s.view.stats n.toNat 0) ++ leBytes 4 (nth s.view.accs n.toNat 0).toNat ++ leBytes 2 s.view.seq)).pstat b a ST_DONE

/-- A quantity entry of it as a REAL_Q. -/
def State.realQ (s : State) (q : Nat) : List Byte := leBytes 4 (nth s.wholeTable.1 q 0).toNat ++ [nth s.wholeTable.2.1 q 0]

def qread (b : Nat) (s : State) : State := s.lib b 17 fun s a =>
  let q := s.pint b (a + 2)
  let n := s.pint b (a + 4)
  if !(inRange 0 1023 q && inRange 1 2 n && decide (q + n ≤ 1024)) then s.pstat b a ST_RANGE
  else
    let s1 := s.pput b (a + 8) (s.realQ q.toNat)
    let s2 := if n = 2 then s1.pput b (a + 16) (s.realQ (q.toNat + 1)) else s1
    (s2.pput b (a + 24) (leBytes 2 s.wholeTable.2.2)).pstat b a ST_DONE

/-- ROWEN places the enable in the instance's output image (R372). -/
def rowen (b : Nat) (s : State) : State := s.lib b 18 fun s a =>
  let r := s.pint b (a + 2)
  if !inRange 0 63 r then s.pstat b a ST_RANGE
  else if (s.row r.toNat).ctl ≠ b + 1 then s.pstat b a ST_NOT_NOW
  else match s.current b with
    | some i => (s.putInst b { i with rowen := (r.toNat, s.pbool b (a + 4)) :: i.rowen }).pstat b a ST_DONE
    | none => s

/-- SAARM (R373): an arm that has ended at once returns what it has ended with. -/
def saarm (b : Nat) (s : State) : State := s.lib b 19 fun s a =>
  let slot := s.pint b (a + 2)
  let act := s.pint b (a + 4)
  let arg := s.pget b (a + 8) 4
  let t := (sgn 64 (s.pget b (a + 16) 8)).toNat * oneNs
  if !(inRange 0 63 slot && inRange 0 8 act) || (act = 4 && arg % 4 = 3) then s.pstat b a ST_RANGE
  else
    let r : ArmReq := ⟨slot.toNat, act.toNat, BitVec.ofNat 32 arg, t, false⟩
    if s.armNotNow (b + 1) r then s.pstat b a ST_NOT_NOW
    else if s.saHeld r.slot && !s.pbool b (a + 24) then s.pstat b a ST_BUSY
    else
      let s1 := s.armSlot (.bcp b) r
      s1.pstat b a (if s1.saHeld r.slot then ST_DONE else (s1.sas r.slot).lastSt)

/-- SACANCEL (R373). -/
def sacancel (b : Nat) (s : State) : State := s.lib b 20 fun s a =>
  let slot := s.pint b (a + 2)
  if !inRange 0 63 slot then s.pstat b a ST_RANGE
  else if s.saOwner slot.toNat ≠ b + 1 || !s.saHeld slot.toNat then s.pstat b a ST_NOT_NOW
  else (s.saFree slot.toNat).pstat b a ST_DONE

/-- SAREAD: state, last completion and its time (R373). -/
def saread (b : Nat) (s : State) : State := s.lib b 21 fun s a =>
  let slot := s.pint b (a + 2)
  if !inRange 0 63 slot then s.pstat b a ST_RANGE
  else
    let x := s.sas slot.toNat
    (s.pput b (a + 4) (leBytes 2 (s.saState slot.toNat) ++ leBytes 1 x.lastSt ++ [boolByte x.lastCanc]
      ++ leBytes 8 (x.lastTime / oneNs))).pstat b a ST_DONE

/-- RECMARK (R374). -/
def recmark (b : Nat) (s : State) : State := s.lib b 22 fun s a =>
  let m := s.pint b (a + 2)
  let ks := (bitsOf 4 m.toNat).filter s.recActive
  if !inRange 1 15 m then s.pstat b a ST_RANGE
  else if ks.isEmpty then s.pstat b a ST_NOT_NOW
  else (s.each ks fun s k => s.userMark k b (s.pget b (a + 4) 4)).pstat b a ST_DONE

end Sys2Proof.Machine
end

