-- ==== Sys2Proof/Machine/Rings.lean ====
section
/-! DEFINITION. Rings: their contexts, doorbells, completions, write-backs, the tunnel rings of the master, the host link and the resets of the host interface (R549 to R570, R591, R592). -/

namespace Sys2Proof.Machine

abbrev CLS_NONE : Nat := 0
abbrev CLS_CMD : Nat := 1
abbrev CLS_CMPL : Nat := 2

def State.cls (s : State) (r : Nat) : Nat := s.g HIF_RING_2_cls [r]
def State.ringIdx (s : State) (r : Nat) : Nat := s.g HIF_RING_2_idx [r]
def State.ringEn (s : State) (r : Nat) : Bool := s.on HIF_RING_2_en [r]

/-- Whether a ring carries descriptors to the device (R552, R591). -/
def toDevice (cls idx : Nat) : Bool := cls = CLS_CMD || (cls = CLS_TUN && idx < 8)

/-- The highest class index (R552). -/
def topIdx (cls : Nat) : Nat := nth [15, 15, 15, 0, 4, 1, 0, 7, 15, 15, 15, 15] cls 15

/-! ### Completions (R564, R565) -/

/-- The descriptor of a completion, with what it returns in a buffer. -/
def Comp.rdesc (c : Comp) : RDesc := ⟨c.op, c.d.tag.toNat, c.len, c.addr, c.a, c.b, c.rf, c.status, c.buf⟩

/-- The completions of a ring that wait in the Cistern leave as descriptors are posted. -/
def pumpCmpl (r : Nat) : Nat → State → State
  | 0, s => s
  | n + 1, s => match (s.ring r).waiting with
    | [] => s
    | c :: l => if s.posted r = 0 then s else pumpCmpl r n ((s.putRing r { s.ring r with waiting := l }).ready r c.1 c.2)

/-- A descriptor for a tunnel ring of index i waits, in the Cistern under consumer TUN where it finds room there (R571, R592). -/
def State.tunHold (s : State) (i : Nat) (d : RDesc) (toks : List CisTok) : State :=
  match s.queue 12 i (d.bytes ++ d.buf) with
  | some s1 => s1.onCsc fun c => { c with tunWait := c.tunWait ++ [(i, d, toks ++ [(12, i)])] }
  | none => (s.noBuf 12).onCsc fun c => { c with tunWait := c.tunWait ++ [(i, d, toks)] }

/-- A descriptor for a tunnel ring of index i from the device: ready for a posted slot, or it waits (R592). -/
def State.tunOut (s : State) (i : Nat) (d : RDesc) (toks : List CisTok) : State :=
  match (s.ringFor CLS_TUN i).filter fun r => 0 < s.posted r && s.isMaster && !(s.csc.tunWait.any fun w => w.1 = i) with
  | some r => s.ready r d toks
  | none => s.tunHold i d toks

/-- Descriptors that wait for tunnel ring r of index i go into its posted slots. -/
def pumpTun (r i : Nat) : Nat → State → State
  | 0, s => s
  | n + 1, s => match s.csc.tunWait.find? (fun w => w.1 = i) with
    | some w =>
      if s.posted r = 0 || !s.isMaster then s
      else pumpTun r i n ((s.onCsc fun c => { c with tunWait := dropOne w c.tunWait }).ready r w.2.1 w.2.2)
    | none => s

/-- Descriptors of a tunnel ring that have not been written wait again, before the others (R561, R575). -/
def State.tunBack (s : State) (i : Nat) (l : List Bound) : State :=
  let s1 := (s.onCsc fun c => { c with tunWait := [] }).each l fun s b =>
    if b.2.any (·.1 = 12) then s.onCsc fun c => { c with tunWait := c.tunWait ++ [(i, b)] } else s.tunHold i b.1 b.2
  s1.onCsc fun c => { c with tunWait := c.tunWait ++ s.csc.tunWait }

/-- Completions of CMPL ring r that have not been written wait again, before the others, in the Cistern where they find room there
(R561, R565, R575). -/
def State.cmplBack (s : State) (r : Nat) (l : List Bound) : State :=
  let w := (s.ring r).waiting
  let add (s : State) (b : Bound) : State := s.putRing r { s.ring r with waiting := (s.ring r).waiting ++ [b] }
  let s1 := (s.putRing r { s.ring r with waiting := [] }).each l fun s b =>
    if b.2.any (·.1 = 11) then add s b
    else match s.queue 11 r b.1.bytes with
      | some s1 => add s1 (b.1, b.2 ++ [(11, r)])
      | none => add (s.noBuf 11) b
  (s1.putRing r { s1.ring r with waiting := (s1.ring r).waiting ++ w }).cmplHolds

/-- Records that a gone ring has left behind, of the functions that do not queue in the Cistern, take the posted slots of ring r
(log 161). -/
def pumpHeld (r : Nat) : Nat → State → State
  | 0, s => s
  | n + 1, s => match s.hif.held.find? fun e => e.1 = s.cls r && e.2.1 = s.ringIdx r with
    | some e =>
      if s.posted r = 0 then s
      else pumpHeld r n (({ s with hif := { s.hif with held := dropOne e s.hif.held } } : State).ready r e.2.2.1 e.2.2.2)
    | none => s

/-- Slots of ring r have been posted: what waits for them moves. -/
def State.pumpRing (s0 : State) (r : Nat) : State :=
  let s := pumpHeld r s0.hif.held.length s0
  let i := s.ringIdx r
  match s.cls r with
  | 2 => pumpCmpl r (s.ring r).waiting.length s
  | 4 => if i < 4 then s.recPump i else pumpWaves s.rcd.waves.length s
  | 6 => s.sendEdges
  | 8 => s.rxPump i
  | 11 => pumpTun r i s.csc.tunWait.length s
  | _ => s

/-- The enabled CMPL ring of a completion (R564, R565). -/
def State.cmplRing (s : State) (c : Comp) : Option Nat :=
  let r := s.g HIF_RING_2_cring [c.d.ring]
  if s.ringEn r && s.cls r = CLS_CMPL then some r else none

/-- Whether a completion goes back over the stack, or to a tunnel ring. -/
def State.cmplTunnels (s : State) (c : Comp) : Bool := c.d.tunnel || s.cls c.d.ring = CLS_TUN

/-- Whether the engine itself writes the buffer that a completion returns: no descriptor follows it. -/
def State.bufferOnly (s : State) (c : Comp) : Bool :=
  !s.cmplTunnels c && !c.buf.isEmpty && (c.quiet || (s.cmplRing c).isNone)

/-- What becomes of a completion in the engine: none when it must stay there, for the host link (R549) or for room in the
Cistern (R565). -/
def State.compMove (s0 : State) (c : Comp) : Option State :=
  if s0.bufferOnly c && !s0.linkOk then none
  else
    let s := if s0.bufferOnly c then (s0.emit (.hostMem c.addr c.buf)).freeToks c.toks else s0
    if c.d.tunnel then
      some ((s.tunSend 0 ([c.op, c.d.tag.toNat, c.status, c.len, c.addr, c.a, c.b, c.rf, b2n c.d.nocmp]
        ++ c.buf.map (·.toNat))).freeToks c.toks)
    else if s.cmplTunnels c then some (s.tunOut (8 + s.ringIdx c.d.ring % 8) c.rdesc c.toks)
    else if c.quiet then some s
    else match s.cmplRing c with
      | none => some ((s.cnt HIF_CMPLLOST).flag HIF 11)
      | some r =>
        if (s.ring r).waiting.isEmpty && 0 < s.posted r then some (s.ready r c.rdesc c.toks)
        else (s.queue 11 r c.rdesc.bytes).map fun s1 =>
          (s1.putRing r { s1.ring r with waiting := (s1.ring r).waiting ++ [(c.rdesc, c.toks ++ [(11, r)])] }).cmplHolds

/-- COMPLETION_WRITE: the first completion of the engine that can move does so. Consumer CMPL, at its maximum, refuses each one
before it once (R565, R572). -/
def State.writeFirst (s : State) : List Comp → List Comp → State
  | l, [] => { s with hif := { s.hif with comps := l.reverse } }
  | l, c :: cs => match s.compMove c with
    | some s1 => { s1 with hif := { s1.hif with comps := l.reverse ++ cs } }
    | none =>
      if c.refused || s.bufferOnly c then s.writeFirst (c :: l) cs
      else (s.noBuf 11).writeFirst ({ c with refused := true } :: l) cs

/-- COMPLETION_WRITE. -/
def completionWrite (s : State) : State := s.writeFirst [] s.hif.comps

/-- Whether ring r is held because completions of its CMPL ring wait and consumer CMPL is at its maximum (R565). -/
def State.cmplHold (s : State) (r : Nat) : Bool := s.cls r = CLS_CMD && (s.ring (s.g HIF_RING_2_cring [r])).hold

/-! ### Write-back (R555, R557, R559 to R561) -/

/-- The pass phase of index i in a ring of 2^k entries (R555). -/
def passPhase (k i : Nat) : Bool := i / 2 ^ k % 2 = 0

/-- A record in the slot that it takes: its buffer is the slot's, as long as that is; a completion keeps its command's own. -/
def State.inSlot (s : State) (r : Nat) (d : RDesc) (slot : Nat × Nat) : RDesc :=
  if d.buf.isEmpty || s.cls r = CLS_CMPL then d else { d with addr := slot.1, buf := d.buf.take slot.2 }

/-- What follows when a record of ring r has been written: it has left the Cistern (R571), and a hold of R565 ends unless consumer
CMPL is still at its maximum. -/
def State.leftRing (s0 : State) (r : Nat) (b : Bound) : State :=
  let s := s0.freeToks b.2
  match s.cls r with
  | 2 => s.putRing r { s.ring r with hold := s.atMax 11 && !(s.ring r).waiting.isEmpty }
  | 4 => if s.ringIdx r < 4 then s.recWritten (s.ringIdx r) else s.waveWritten
  | 7 => s.imgWritten b.1
  | _ => s

/-- One descriptor is written at index D: its buffer, bytes 0 to 30, and byte 31 in a write of its own (R559). -/
def State.writeOne (s : State) (r : Nat) (b : Bound) : State :=
  let i := s.g HIF_RING_3_d [r]
  let x := s.ring r
  let d := s.inSlot r b.1 (nth x.slots 0 (0, 0))
  let s1 := s.putRing r { x with slots := x.slots.drop 1, ready := x.ready.drop 1 }
  let s2 := if d.buf.isEmpty then s1 else s1.emit (.hostMem d.addr d.buf)
  (((s2.emit (.desc r i { d with buf := [] })).emit (.descEnd r i (passPhase (s.g HIF_RING_2_k [r]) i))).p
    HIF_RING_3_d [r] ((i + 1) % M17)).leftRing r b

/-- Ring r has gone, or a write to it has failed: what it has not written waits as if no descriptor were posted (R561, R575). -/
def State.ringGone (s0 : State) (r : Nat) : State :=
  let l := (s0.ring r).ready
  let s := s0.putRing r { s0.ring r with ready := [] }
  let i := s.ringIdx r
  match s.cls r with
  | 2 => s.cmplBack r l
  | 4 => if i < 4 then s.recBack i else s.wavesBack
  | 6 => s.edgesBack l
  | 8 => s.rxBack i l
  | 11 => s.tunBack i l
  | c => { s with hif := { s.hif with held := l.map (fun b => (c, i, b)) ++ s.hif.held } }

/-- WRITE_BACK of ring r: a batch of at most 16 ready descriptors, as many as are posted, then its message; a failed write puts
the ring into ERROR, and the records wait (R557, R560, R561). -/
def writeBack (r : Nat) (failed : Bool) (s : State) : State :=
  let x := s.ring r
  let room := s.ringSize r - (s.g HIF_RING_3_d [r] + M17 - x.h) % M17
  let l := x.ready.take (min 16 room)
  if l.isEmpty || !s.linkOk || !s.ringEn r || s.g HIF_RING_2_state [r] ≠ 1 then s
  else if failed then (((s.p HIF_RING_2_state [r] 2).p HIF_RING_2_err [r] 3).flag HIF 9).ringGone r
  else
    let s1 := s.each l fun s b => s.writeOne r b
    if s.on HIF_RING_2_irq [r] then s1.msix (s.g HIF_RING_2_vec [r]) else s1

/-! ### Ring contexts and doorbells (R554, R555, R558) -/

/-- The legal form of a written HIF_RING[r][2], and the fields clamped (R552, R576). -/
def ringClamp (v : Word) : Word × Nat :=
  let k := min (max (bits v 19 15) 4) 16
  let c := min (bits v 14 11) 11
  let i := min (bits v 10 7) (topIdx c)
  (setBits (setBits (setBits v 19 15 k) 14 11 c) 10 7 i,
    b2n (k ≠ bits v 19 15) + b2n (c ≠ bits v 14 11) + b2n (i ≠ bits v 10 7))

/-- Whether an enable of ring r with these fields finds another enabled ring of the same class and index (R554). -/
def State.ringTaken (s : State) (r : Nat) (w : Word) : Bool :=
  3 ≤ bits w 14 11 && (List.range 128).any fun q =>
    q ≠ r && s.ringEn q && s.cls q = bits w 14 11 && s.ringIdx q = bits w 10 7

/-- The slots that the host has prepared, as many as asked for. -/
def padSlots (n : Nat) (l : List (Nat × Nat)) : List (Nat × Nat) := (l ++ List.replicate n (0, 0)).take n

/-- RING_ENABLE: a write of HIF_RING[r][2], with what the host has written into the slots of a from-device ring. -/
def ringEnable (r : Nat) (v : Word) (slots : List (Nat × Nat)) (s : State) : State :=
  let off := 0x110108 + 16 * r
  let (w, n) := ringClamp v
  let old := s.rd off
  let was := old.msb
  if (was && bits w 19 0 ≠ bits old 19 0) || (w.msb && s.ringTaken r w) then s.notNow off
  else
    let keep := setBits w 23 20 (bits old 23 20)
    let s1 := (s.wr off keep).clampReg off n
    if w.msb && !was then
      let s2 := ((s1.p HIF_RING_2_state [r] 1).p HIF_RING_2_err [r] 0).p HIF_RING_3_d [r] 0
      (s2.putRing r { s2.ring r with h := 0, slots := padSlots (2 ^ bits w 19 15) slots }).pumpRing r
    else if !w.msb && was then (s1.p HIF_RING_2_state [r] 0).ringGone r
    else s1

/-- HIF_DB: a doorbell write, with what the host has written into the slots that it posts (R558). -/
def hifDb (r : Nat) (v : Word) (slots : List (Nat × Nat)) (s : State) : State :=
  let off := 0x114000 + 4 * r
  let x := s.ring r
  let h' := bits v 16 0
  let d := s.g HIF_RING_3_d [r]
  let e := (h' + M17 - x.h) % M17
  let size := s.ringSize r
  if !s.ringEn r || s.g HIF_RING_2_state [r] = 2 || 65536 < e then s.notNow off
  else if toDevice (s.cls r) (s.ringIdx r) then
    let ovr := decide (size < (h' + M17 - d) % M17)
    (s.putRing r { x with h := if ovr then (d + size) % M17 else h' }).clampReg off (b2n ovr)
  else
    let back := (d + M17 - x.h) % M17
    let ovr := decide (back < e)
    let n := if ovr then back else e
    ((s.putRing r { x with h := (x.h + n) % M17, slots := x.slots ++ padSlots n slots }).clampReg off (b2n ovr)).pumpRing r

/-- A write of HIF_RING[r][0] or [1] (R554): not-now while the ring is enabled, when it changes the value. -/
def State.ringBase (s : State) (off r : Nat) (v : Word) : State :=
  if s.ringEn r && v ≠ s.rd off then s.notNow off else s.wr off v

/-! ### The host link and the resets (R549, R550, R575, R642) -/

/-- Messages that waited for the link leave (R403, R549). -/
def State.sendWaiting (s : State) : State :=
  if s.linkOk then
    let l := s.hif.msixWait
    { s with hif := { s.hif with msixWait := [] } }.each l fun s v => s.msix v
  else s

/-- HOST_LINK_CHANGE (R548, R549): a link that is up runs at 2.5, 5.0 or 8.0 GT/s on 1, 2 or 4 lanes; while it is down, HIF_LINK
shows no speed and no lane (log 162). -/
def hostLinkChange (up bme d3 : Bool) (speed width : Nat) (s : State) : State :=
  let sp := if up then min (max speed 1) 3 else 0
  let wd := if !up then 0 else if width ≤ 1 then 1 else if width ≤ 3 then 2 else 4
  let s1 := s.p HIF_LINK [] (b2n d3 * 1024 + b2n bme * 512 + b2n up * 256 + sp * 16 + wd)
  let s2 := s1.sendWaiting
  if s2.linkOk && !s.linkOk then s2.each (List.range 128) State.pumpRing else s2

/-- The HIF block reset beside its registers (R575): completions of taken commands are discarded, and what they return leaves the
Cistern; records wait. -/
def State.hifReset (s : State) : State :=
  let s0 := s.each ((List.range 128).filter s.ringEn) State.ringGone
  let gone := (s0.hif.rings.map fun (x : RingSt) => (x.waiting.map (·.2)).flatten).flatten ++ (s0.hif.comps.map (·.toks)).flatten
  let s1 := s0.freeToks gone
  { s1 with hif := { s1.hif with rings := List.replicate 128 emptyRing, openCmds := [], comps := [] } }

/-- The HIF block reset with its registers. -/
def State.hifBlock (s : State) : State :=
  let s1 := s.hifReset
  { s1 with regs := regResetBlk s1.regs HIF }

/-- FUNCTION_LEVEL_RESET (R550). -/
def functionLevelReset (s : State) : State := s.hifBlock

/-- PERST_N low (R642): the configuration space, so Bus Master Enable and the power state, and the BLK domain of HIF. -/
def perstN (s : State) : State := s.hifBlock.p HIF_LINK [] 0

end Sys2Proof.Machine
end

