-- ==== Sys2Proof/Machine/Sec.lean ====
section
/-! DEFINITION. The security engine: certificate, owner, boot-image checks and attestation (R602 to R624). -/

namespace Sys2Proof.Machine

def State.onSec (s : State) (f : SecSt → SecSt) : State := { s with sec := f s.sec }

abbrev OP_ATTEST : Nat := 0x0301
abbrev OP_SIGN : Nat := 0x0302
abbrev OP_CERT : Nat := 0x0303
abbrev OP_ENROLL : Nat := 0x0304

/-! ### Certificate and owner (R607 to R611) -/

/-- The key identifiers that SEC_DEVID, SEC_ROOTID and SEC_OWNID show. -/
def State.devId (s : State) : List Byte := (s.sec.cert.drop 32).take 8
def State.ownId (s : State) : List Byte := if s.ownerGen = 0 then [] else keyId s.owner.key

/-- SEC_CERT (R608): the certificate waits in the Cistern under consumer SEC until it has been written (R571). Without room there
it completes NO_BUFFER (R569, log 13). -/
def secCert (d : Desc) (s : State) : State :=
  if s.inSt [DAWN, NIGHT] then s.complete d OP_CERT ST_NOT_NOW
  else match s.queue 13 1 s.sec.cert with
    | none => (s.noBuf 13).complete d OP_CERT ST_NO_BUFFER
    | some s1 => (s1.clampDesc d 4 (b2n (d.len.toNat < 3136))).completeWith
        { compOf d OP_CERT ST_DONE with len := 3136, buf := s.sec.cert, toks := [(13, 1)] }

/-- The message digest of an enrolment (R610). -/
def enrolDigest (g : Nat) (buf : List Byte) : List Byte :=
  digest (leBytes 8 Config.serial.toNat ++ leBytes 1 (g + 1) ++ (buf.drop 1793).take 1 ++ buf.take 1793)

/-- SEC_ENROLL (R610, R616). -/
def secEnroll (d : Desc) (buf : List Byte) (s : State) : State :=
  let g := s.ownerGen
  if s.dev ≠ MORNING || 4 ≤ s.sec.gens.length || s.bcp.any (fun c => !c.loading.isEmpty) then s.complete d OP_ENROLL ST_NOT_NOW
  else if s.sec.enroll.isSome then s.complete d OP_ENROLL ST_BUSY
  else
    let s1 := s.clampDesc d 4 (b2n (d.len.toNat ≠ 3088))
    let b := padTo 3088 buf
    let ok := g = 0 || signatureOk s.owner.key "FRTOWNR1" (enrolDigest g b) (leAt b 1800 2) (b.drop 1808)
    let s2 := if g = 0 then s1 else s1.cnt SEC_OPS_verify
    if ok then
      s2.onSec fun x => { x with
        gens := x.gens ++ [⟨b.take 1793, bitAt (leAt b 1793 1) 0, false⟩]
        enroll := some d }
    else s2.complete d OP_ENROLL ST_AUTH_FAIL

/-- ENROLL_COMMIT: the commit marker of the last generation is written (R610). -/
def enrollCommit (s : State) : State := match s.sec.enroll with
  | none => s
  | some d =>
    let s1 := s.onSec fun x => { x with
      enroll := none
      gens := x.gens.zipIdx.map fun (y : OwnerGen × Nat) => if y.2 + 1 = x.gens.length then { y.1 with committed := true } else y.1 }
    (s1.flag SEC 11).complete d OP_ENROLL ST_DONE

/-! ### The key and the trim record in DAWN (R104, R603) -/

/-- The private key is unwrapped; keybad sets when that fails or the derived key is not the certificate's (R603). -/
def State.unwrapKey (s : State) : State :=
  let (k, s1) := s.draw
  let ok := match Config.unwrap k with
    | some key => decide (keyId key = s.devId)
    | none => false
  if ok then s1 else (s1.onSec fun x => { x with keyBad := true }).flag SEC 10

/-- Stores a digest in 16 registers. -/
def State.putDigest (s : State) (f : Fld) (d : List Byte) : State :=
  s.each (List.range 16) fun s k => s.p f [k] (leAt d (4 * k) 4)

/-- The digest of the trim record, and whether its signature passes. -/
def State.trimDigest (s : State) : List Byte := digest (s.trim.take 0x340)
def State.trimOk (s : State) : Bool :=
  signatureOk Config.rootKey "FRTTRIM1" s.trimDigest (leAt s.trim 0x33C 2) ((s.trim.drop 0x340).take 1280)

/-! ### Boot images (R613 to R615) -/

def bootOff (img : List Byte) (k : Nat) : Nat := leAt img (16 + 8 * k) 4
def bootLen (img : List Byte) (k : Nat) : Nat := leAt img (20 + 8 * k) 4
def bootSec (img : List Byte) (k : Nat) : List Byte := (img.drop (bootOff img k)).take (bootLen img k)
def bootSig (img : List Byte) : Nat := leAt img 8 4 - 1360

/-- Check 1: header fields and length. -/
def bootCheck1 (img : List Byte) (len : Nat) : Bool :=
  leAt img 0 4 = 0x31544246 && leAt img 4 2 = 1 && leAt img 6 2 = 64 && leAt img 14 2 = 0
    && decide (1432 ≤ leAt img 8 4) && decide (leAt img 8 4 ≤ 8388608) && leAt img 8 4 = len

/-- Sections k to 5 stand behind an end, in ascending order, at multiples of 8. -/
def bootSections (img : List Byte) : Nat → Nat → Nat → Bool
  | 0, _, fin => decide (fin ≤ bootSig img)
  | n + 1, k, fin =>
    if bootLen img k = 0 then bootSections img n (k + 1) fin
    else bootOff img k % 8 = 0 && decide (fin ≤ bootOff img k) && bootSections img n (k + 1) (bootOff img k + bootLen img k)

/-- Check 2: sections, and the signature section that ends at the image length. -/
def bootCheck2 (img : List Byte) : Bool := decide (8 ≤ bootLen img 0) && bootSig img % 8 = 0 && bootSections img 6 0 64

/-- The checks of a boot image (R614): the code of the first that fails, or 0, and what R612 says of the signer. -/
def State.bootCheck (s : State) (img : List Byte) (len : Nat) : Nat × Verdict :=
  let none_ : Verdict := ⟨false, false, 0, false⟩
  if !bootCheck1 img len then (1, none_)
  else if !bootCheck2 img then (2, none_)
  else
    let o := s.owner
    let v := signerVerdict Config.rootKey o.key s.ownerGen o.vroot "FRTBOOT1" img (bootSig img)
    (if v.ok then 0 else 3, v)

/-- What the checks of a boot image leave in the registers; `host`: the image came over PCIe. -/
def State.bootRecord (s : State) (img : List Byte) (code : Nat) (v : Verdict) (host : Bool) : State :=
  let s1 := if v.verified then s.cnt SEC_OPS_verify else s
  if code = 0 then
    let s2 := s1.p SEC_BOOT [] (2048 * b2n v.donly + 1024 * v.signer + 512 * b2n host + 256)
    let s3 := (s2.putDigest SEC_BOOTDIG (digest (img.take (bootSig img)))).putDigest SEC_UCDIG (digest (bootSec img 0))
    s3.p GEN_REV_ucode [] (leAt img 12 2)
  else (s1.p SEC_BOOT_code [] code).flag SEC 8

/-- The clamps of a boot image's FBC section: its task table lies in an image buffer, as that of a BCP_LOAD (R35), but no ring
brought it: GEN_CLAMPLAST reads kind 1, offset 8 and a ring number that the spec does not state, a free value (log 130). -/
def State.bootClamps (s : State) (n : Nat) : State :=
  if n = 0 then s
  else
    let (k, s1) := s.draw
    (s1.cnt GEN_CLAMPCNT [] n).wr 0x124 (BitVec.ofNat 32 (2 ^ 31 + (Config.freeWord k).toNat % 128 * 2 ^ 24 + 8))

/-- The FBC section of BCP b goes into bank A, which becomes the active image when it passes (R615). -/
def State.bootFbc (s : State) (img : List Byte) (b : Nat) : State :=
  let sec := bootSec img (2 + b)
  if sec.isEmpty then s
  else
    let (code, s1) := s.loadBank b 0 sec sec.length
    if code = 0 then
      let s2 := s1.onCpu b fun c => { c with active := 0, state := B_STOPPED }
      (s2.setTable b).bootClamps (taskClamps sec)
    else s1

/-! ### Attestation (R617 to R621) -/

/-- One item of a report. -/
def reportItem (id idx flags : Nat) (d : List Byte) : List Byte := leBytes 2 id ++ leBytes 2 idx ++ leBytes 4 flags ++ padTo 64 d

/-- The 32-bit registers of a list of words as bytes. -/
def wordBytes (l : List Word) : List Byte := (l.map fun w => leBytes 4 w.toNat).flatten

/-- The element settings in force (R620). -/
def State.eleDigest (s : State) : List Byte :=
  let all := (List.range 256).map s.slot
  digest (wordBytes (all.map (·.cfg) ++ all.map (·.src) ++ all.map (·.lnk) ++ (all.map (·.set)).flatten
    ++ (List.range 512).map fun i => s.rd (0x68000 + 4 * i)))

/-- TMX_ROW with the fields of the report. -/
def State.rowWord (s : State) (r : Nat) : Word :=
  let x := s.row r
  BitVec.ofNat 32 (x.ctl * 2 ^ 28 + x.stop * 2 ^ 26 + b2n x.tblk * 2 ^ 25 + b2n x.tpol * 2 ^ 24
    + b2n x.cls * 2 ^ 8)

/-- The Sluice configuration in force (R620). -/
def State.tmxDigest (s : State) : List Byte :=
  let all := (List.range 64).map s.row
  digest (wordBytes ((List.range 64).map s.rowWord ++ (all.map (·.blk)).flatten ++ all.map (·.dst) ++ all.map (·.dst2)
    ++ all.map (·.sealCfg) ++ ((List.range 16).map fun o => s.rd (0x70800 + 4 * o)) ++ (all.map (·.sel)).flatten))

def State.cisDigest (s : State) : List Byte := digest (wordBytes ((List.range 24).map fun c => s.rd (0x120200 + 4 * c)))

/-- The 64 bytes of a digest in registers. -/
def State.getDigest (s : State) (f : Fld) : List Byte := wordBytes ((List.range 16).map fun k => s.rd (fldOff f [k]))

/-- The item of bank k of BCP b. -/
def State.bankItem (s : State) (b k : Nat) : List Byte :=
  let c := s.cpu b
  let x := c.bank k
  if x.verified then
    reportItem 3 (2 * b + k) (1 + 2 * b2n (c.active = k) + x.sig) (digest (x.img.take (secOff x.img 8)))
  else reportItem 3 (2 * b + k) 0 []

/-- The items of a device report. -/
def State.reportItems (s : State) : List Byte :=
  let boot := b2n (s.on SEC_BOOT_valid) + 4 * s.g SEC_BOOT_signer + 8 * s.g SEC_BOOT_donly
  reportItem 1 0 boot (s.getDigest SEC_BOOTDIG) ++ reportItem 2 0 (b2n (s.on SEC_BOOT_valid)) (s.getDigest SEC_UCDIG)
    ++ ((List.range 8).map fun i => s.bankItem (i / 2) (i % 2)).flatten
    ++ reportItem 4 0 1 s.eleDigest ++ reportItem 5 0 1 s.tmxDigest ++ reportItem 6 0 1 s.cisDigest
    ++ reportItem 7 0 1 (s.getDigest AFE_TRIMDIG)

/-- The report of the present configuration and the last frame, up to its signature, and the frame's sequence (R619). -/
def State.report (s : State) (kind : Nat) (nonce dig : List Byte) : List Byte × Nat :=
  let n := if kind = 0 then 14 else 1
  (leBytes 4 0x52544146 ++ leBytes 2 1 ++ leBytes 2 (1384 + 72 * n) ++ leBytes 8 Config.serial.toNat ++ padTo 8 s.devId
    ++ leBytes 1 kind ++ leBytes 1 (s.ownerGen + 8 * b2n (s.ownerGen ≠ 0 && s.owner.vroot))
    ++ leBytes 1 Config.revMask.toNat ++ leBytes 1 Config.revDigit.toNat ++ leBytes 2 (s.g GEN_REV_ucode)
    ++ leBytes 1 (s.dev + 8 * s.g GEN_STATE_stacked + 16 * s.position) ++ [0] ++ padTo 32 nonce ++ s.dch.frame.header
    ++ padTo 8 s.ownId ++ leBytes 2 n ++ List.replicate 6 0
    ++ (if kind = 0 then s.reportItems else reportItem 16 0 1 dig), s.dch.frame.seq)

/-- The length of a report. -/
def reportLen (kind : Nat) : Nat := if kind = 0 then 2392 else 1456

/-- SEC_ATTEST and SEC_SIGN (R617, R621). -/
def State.secReport (s : State) (d : Desc) (op kind : Nat) (buf : List Byte) : State :=
  let len := reportLen kind
  if s.inSt [DAWN, NIGHT] || s.sec.keyBad then s.complete d op ST_NOT_NOW
  else if s.sec.sign.isSome then s.complete d op ST_BUSY
  else match s.reserve 13 0 len with
    | none => (s.noBuf 13).complete d op ST_NO_BUFFER
    | some s1 =>
      let b := padTo 96 buf
      (s1.clampDesc d 4 (b2n (d.len.toNat < len))).onSec fun x => { x with
        sign := some ⟨d, kind, b.take 32, b.drop 32, s.report kind (b.take 32) (b.drop 32), false⟩ }

def secAttest (d : Desc) (buf : List Byte) (s : State) : State := s.secReport d OP_ATTEST 0 buf
def secSign (d : Desc) (buf : List Byte) (s : State) : State := s.secReport d OP_SIGN 1 buf

/-- The measurements of frame F are taken, once its configuration is in force: at the first frame after the acceptance (R618). -/
def State.takeReport (s : State) : State := match s.sec.sign with
  | some x =>
    if x.framed then s
    else s.onSec fun y => { y with sign := some { x with report := s.report x.kind x.nonce x.dig, framed := true } }
  | none => s

/-- SIGNING_COMPLETE: the report is signed, and is written before its completion (R559, R571); where no frame has run since the acceptance, it is that of the last
frame before it (R618, R621). While frames run, the report waits for its own. -/
def signingComplete (s : State) : State := match s.sec.sign with
  | some ⟨d, kind, _, _, (rep, seq), framed⟩ =>
    if !framed && s.afe.run then s
    else
      let (k, s1) := s.draw
      let sig := (Config.falconSign k (tagBytes (if kind = 0 then "FRTATST1" else "FRTHOST1") ++ digest rep)).toList
      let full := rep ++ leBytes 2 1280 ++ List.replicate 6 0 ++ sig
      (((s1.onSec fun y => { y with sign := none }).cnt SEC_OPS_sign).storeLast 13 0 0 full).completeWith
        (({ compOf d (if kind = 0 then OP_ATTEST else OP_SIGN) ST_DONE with
          len := reportLen kind, buf := full, toks := [(13, 0)] }).seq seq)
  | none => s

end Sys2Proof.Machine
end

