-- ==== Sys2Proof/Machine/Tpc.lean ====
section
/-! DEFINITION. The teleprotection ports: frames, command bits and the channel delay (R537 to R547). -/

namespace Sys2Proof.Machine

def emptyPort : TpcPort := ⟨0, none, none, false, none, 0, true, [], [], 0, 0, none, none, false⟩
def State.port (s : State) (p : Nat) : TpcPort := nth s.tpc p emptyPort
def State.putPort (s : State) (p : Nat) (x : TpcPort) : State := { s with tpc := s.tpc.set p x }

/-- A flag of a port, with its source (R547). -/
def State.tpcFlag (s : State) (p bit : Nat) : State := s.flagAt TPC bit (200 + p)

/-- Whether port p runs (R545). -/
def State.tpcRuns (s : State) (p : Nat) : Bool := s.on TPC_CFG_en [p] && s.inSt [MORNING, NOON, DUSK, SAFE]

/-! ### CRC-32 of IEEE 802.3 -/

def crc32Bits : Nat → BitVec 32 → BitVec 32
  | 0, c => c
  | n + 1, c => crc32Bits n (if c.getLsbD 0 then (c >>> 1) ^^^ 0xEDB88320 else c >>> 1)

def crc32 (l : List Byte) : BitVec 32 :=
  ~~~ l.foldl (fun (c : BitVec 32) (b : Byte) => crc32Bits 8 (c ^^^ BitVec.ofNat 32 b.toNat)) (0xFFFFFFFF : BitVec 32)

/-! ### Sending (R538, R539, R541) -/

/-- The time of the phasors of group g in the last table completed: a remote group fed from SV refers to an earlier frame
(R182). -/
def State.grpTs (s : State) (g : Nat) : Time :=
  let d := if 8 ≤ g && s.g PHE_RGRP_src [g - 8] = 1 then s.g PHE_RGRP_dly [g - 8] else 0
  nth s.phe.times (b2n s.tableWaits + d) s.dch.frame.ts

def State.grpEnabled (s : State) (g : Nat) : Bool := if g < 8 then s.on PHE_GCFG_en [g] else s.on PHE_RGRP_en [g - 8]

/-- A component as binary32: an infinity as itself; where it would be a NaN, a free value that is none (R8, log 167). -/
def telePart (k i : Nat) : FV → Nat
  | .inf neg => fpInf f32 neg
  | .nan => let w := Config.freePhasor k i; (if isNaN32 w then setBits w 23 23 0 else w).toNat
  | .fin x _ => toF32 x

/-- The current phasor i of a group in the last table completed times kI·e^(j·ang), as real and imaginary part. -/
def State.telePhasor (s : State) (k p g i : Nat) : List Byte :=
  let part (j : Nat) : FV := fvOf f32 (nth s.wholeTable.1 (qOf g 0 (2 * i + j)) 0).toNat
  let f := cscale (ofF32 (s.g TPC_PSC_0 [p])) (cexp (radOf (ofF32 (s.g TPC_PSC_1 [p]))))
  let mul (x : Rat) (v : FV) : FV := (FV.ofRat x).mul v
  leBytes 4 (telePart k (2 * i) ((mul f.1 (part 0)).add (mul (-f.2) (part 1))))
    ++ leBytes 4 (telePart k (2 * i + 1) ((mul f.1 (part 1)).add (mul f.2 (part 0))))

/-- The quality bytes of the current phasors of a group, joined. -/
def State.teleQ (s : State) (g : Nat) : Nat :=
  (List.range 6).foldl (fun a e => a ||| (nth s.wholeTable.2.1 (qOf g 0 e) 0).toNat) 0

/-- The outgoing command bits (R541). -/
def State.teleBits (s : State) (p : Nat) : Nat := s.teleRows p ||| s.g TPC_CMDLAT_cmd [p]

/-- Bytes 0 to 51 of a frame as they stand at its start, but for the command bits: sequence, time of transmission, echo and hold. -/
def State.teleBody (s : State) (k p seq : Nat) (ttx : Time) (echo hold : Nat) : List Byte :=
  let g := s.g TPC_CFG_grp [p]
  let ts := s.grpTs g
  let us := (ttx - ts) / oneUs
  let q := s.teleQ g
  let present := s.on TPC_CFG_pub [p] && s.grpEnabled g && us < 65535
  leBytes 2 0xC7B5
    ++ [BitVec.ofNat 8 (1 + 16 * (seq % 16)),
        BitVec.ofNat 8 (s.g MER_STAT_tq + 4 * b2n present + 8 * b2n (bitAt q 5) + 16 * s.g TPC_CFG_addr [p])]
    ++ leBytes 2 0 ++ leBytes 4 (Time.ns ts) ++ leBytes 1 (Time.sec ts) ++ leBytes 1 q
    ++ s.telePhasor k p g 0 ++ s.telePhasor k p g 1 ++ s.telePhasor k p g 2
    ++ leBytes 2 (min us 65535) ++ leBytes 4 (Time.ns ttx) ++ leBytes 4 echo ++ leBytes 3 hold ++ leBytes 3 0

/-- The frame period in units of 2^−16 ns (R538). -/
def State.telePeriod (s : State) (p : Nat) : Nat := 7 * oneMs / s.g TPC_CFG_n [p]

/-- What the data channels beyond n of a C37.94 port carry: ones (R537). -/
def State.teleUnused (s : State) (p : Nat) : List Byte :=
  if s.g TPC_CFG_iface [p] = 0 then List.replicate (12 - s.g TPC_CFG_n [p]) 0xFF else []

/-- Byte 4 of the frame that port p has begun begins: the frame carries the command bits as they stand now (R541). Bytes are sent most
significant bit first (R537). -/
def State.teleRest (s : State) (p : Nat) : State := match (s.port p).begun with
  | none => s
  | some l =>
    let cmd := s.teleBits p
    let body := l.take 4 ++ leBytes 2 cmd ++ l.drop 6
    let frame := body ++ leBytes 4 (crc32 body).toNat
    let rdi := s.g TPC_CFG_iface [p] = 0 && s.g TPC_STAT_state [p] = 1
    ((s.putPort p { s.port p with begun := none }).p TPC_CMDST_tx [p] cmd).emit
      (.tele p (s.g TPC_CFG_iface [p]) (s.g TPC_CFG_n [p]) (s.teleUnused p) rdi frame (bitsMsb frame))

/-- The frames whose byte 4 has begun: 32 of the 448 bits have gone. -/
def State.teleDue (s : State) : State :=
  s.each ((List.range 4).filter fun p => (s.port p).sendCyc.any fun c => decide (s.telePeriod p / 14 ≤ s.since c)) State.teleRest

/-- TP_FRAME_SEND of port p: a frame begins. Before a valid frame has been received, echo and hold are free (log 7). -/
def tpFrameSend (p : Nat) (s0 : State) : State :=
  if !s0.tpcRuns p || (s0.port p).sendCyc.any (fun c => decide (s0.since c < s0.telePeriod p)) then s0
  else
    let s := s0.teleRest p
    let x := s.port p
    let ttx := s.mer.now + s.g TPC_IODLY_txd [p] * oneNs
    let (k, s1) := s.draw
    let (echo, hold) := match x.echo with
      | some (t, arr) => (t, min ((ttx - arr) / oneNs) 0xFFFFFF)
      | none => ((Config.freeWord k).toNat, (Config.freeWord k).toNat % 2 ^ 24)
    s1.putPort p { x with
      seq := (x.seq + 1) % 16, sent := (Time.ns ttx :: x.sent).take 16, sendCyc := some s.mer.cyc
      begun := some (s.teleBody k p x.seq ttx echo hold) }

/-! ### Received bits (R542) -/

/-- The fallback of the received bits. -/
def State.teleFall (s : State) (p : Nat) : Nat :=
  let h := s.g TPC_FALL_hold [p]
  (s.g TPC_CMDST_rx [p] &&& h) ||| (s.g TPC_FALL_val [p] &&& (65535 - h))

/-- The received bits in force change. -/
def State.putRx (s : State) (p v : Nat) : State :=
  if s.g TPC_CMDST_rx [p] = v then s else (s.p TPC_CMDST_rx [p] v).raise (200 + p)

/-! ### The channel delay (R543, R544) -/

/-- A difference of times in ns, taken modulo 1 s, nearest to 0. -/
def modSec (x : Int) : Int := let r := x % 1000000000; if r < 500000000 then r else r - 1000000000

def meanOf (l : List Rat) : Rat := if l.isEmpty then 0 else l.sum / (l.length : Rat)

/-- TPC_DLY shows the delay in force. -/
def State.showDelay (s : State) (p : Nat) : State :=
  s.p TPC_DLY [p, 0] (if s.on TPC_CFG_dhost [p] then s.g TPC_HDLY_dly [p] else wrap 32 (roundAway (meanOf (s.port p).meas)))

/-- A measurement from the matched t_tx, the frame's own t_tx, hold and arrival, in ns. -/
def State.measureDelay (s : State) (p : Nat) (a1 b3 hold a4 : Nat) (locked : Bool) : State :=
  let b2 : Int := b3 - hold
  let fwd := modSec (b2 - a1)
  let rev := modSec ((a4 : Int) - b3)
  let rt := (fwd + rev) % 1000000000
  let x := s.port p
  let a : Rat := if locked then ((rev - fwd : Int) : Rat) / 2 else x.asym
  let d : Rat := if locked then (rev : Rat) else (rt : Rat) / 2 + x.asym
  let m := meanOf x.meas
  let diff := if d < m then m - d else d - m
  let step := !x.meas.isEmpty && decide (((s.g TPC_DCFG_dstep [p] * 1000 : Nat) : Rat) < diff)
  let s1 := s.putPort p { x with meas := if step then [d] else (d :: x.meas).take 8, asym := a }
  let s2 := (((s1.p TPC_DLY [p, 1] (wrap 32 fwd)).p TPC_DLY [p, 2] (wrap 32 rev)).p TPC_DLY [p, 3] (wrap 32 (roundAway a))).p
    TPC_STAT_umode [p] (b2n (!locked))
  let s3 := s2.showDelay p
  if step then s3.tpcFlag p 13 else s3

/-! ### Receiving (R540) -/

/-- The whole time whose seconds have the given low byte, nearest to an arrival. -/
def nearSec (arr : Time) (ns low : Nat) : Time :=
  let d := sgn 8 (low + 256 - Time.sec arr % 256)
  Time.of ((Time.sec arr : Int) + d).toNat ns

/-- The packet of a frame for the PDIF slots (R257). -/
def packetOf (l : List Byte) (arr : Time) : LinePk :=
  { ts := nearSec arr (leAt l 6 4) (leAt l 10 1), arr := arr, age := leAt l 36 2 * oneUs, tq := leAt l 3 1 % 4, q := leAt l 11 1
    ph := (List.range 6).map fun i => BitVec.ofNat 32 (leAt l (12 + 4 * i) 4) }

/-- Whether received bytes are a frame with a correct CRC. -/
def teleOk (l : List Byte) : Bool := l.length = 56 && leAt l 0 2 = 0xC7B5 && leAt l 52 4 = (crc32 (l.take 52)).toNat

/-- The received bits in force: those that the frames gave, or the fallback where they give none or the last frame had
test = 1 and acctest is 0 (R542). -/
def State.rxBits (s : State) (p : Nat) : Nat :=
  let x := s.port p
  if x.test && !s.on TPC_CFG_acctest [p] then s.teleFall p else x.bits.getD (s.teleFall p)

def State.rxFollow (s : State) (p : Nat) : State := s.putRx p (s.rxBits p)

/-- The bits of a valid frame (R542). -/
def State.teleCmd (s : State) (p : Nat) (l : List Byte) : State :=
  let v := leAt l 4 2
  let x := s.port p
  let take := !s.on TPC_CFG_two [p] || x.prev = some v
  (s.putPort p { x with
    prev := some v, bits := if take then some v else x.bits, test := bitAt (leAt l 3 1) 3
    okCyc := s.mer.cyc, timed := false }).rxFollow p

/-- A valid frame: its bits, its packet, its echo and its measurement. -/
def State.teleValid (s : State) (p : Nat) (l : List Byte) (arr : Time) : State :=
  let s1 := (s.p TPC_STAT_rtq [p] (leAt l 3 1 % 4)).teleCmd p l
  let s2 := if bitAt (leAt l 3 1) 2 then
      { s1 with ele := { s1.ele with packets := s1.ele.packets.set p ((packetOf l arr :: nth s1.ele.packets p []).take 8) } }
    else s1
  let echo := leAt l 42 4
  let hold := leAt l 46 3
  let locked := decide (s.g MER_STAT_tq = TQ_LOCKED) && decide (leAt l 3 1 % 4 = TQ_LOCKED)
  let s3 := if (s.port p).sent.contains echo && hold ≠ 0xFFFFFF then
      s2.measureDelay p echo (leAt l 38 4) hold (Time.ns arr) locked
    else s2
  s3.putPort p { s3.port p with echo := some (leAt l 38 4, arr) }

/-- TP_FRAME_RECEIVE of port p: 56 bytes at a frame boundary, with the time of bit 0 of byte 0 at the pin and the
remote-defect indication. While hunting, a frame without a correct CRC is not a frame. -/
def tpFrameReceive (p : Nat) (l : List Byte) (pin : Time) (rdi : Bool) (s : State) : State :=
  if !s.tpcRuns p then s
  else
    let s0 := s.p TPC_STAT_rdi [p] (b2n (rdi && s.g TPC_CFG_iface [p] = 0))
    let x := s0.port p
    if !teleOk l then
      if s0.g TPC_STAT_state [p] = 2 then
        ((s0.putPort p { x with fails := x.fails + 1 }).cnt TPC_STAT_crc [p]).tpcFlag p 10
      else s0
    else
      let s1 := (s0.putPort p { x with fails := 0 }).p TPC_STAT_state [p] 2
      if leAt l 3 1 / 16 = s.g TPC_CFG_addr [p] then s1.tpcFlag p 11
      else s1.teleValid p l (pin - s.g TPC_IODLY_rxd [p] * oneNs)

/-- Port p hunts again (R540). -/
def State.teleHunt (s : State) (p : Nat) : State :=
  ((s.putPort p { s.port p with fails := 0 }).p TPC_STAT_state [p] 1).tpcFlag p 9

/-- LOSS_OF_FRAME of port p: 3 consecutive CRC failures. -/
def lossOfFrame (p : Nat) (s : State) : State :=
  if s.tpcRuns p && s.g TPC_STAT_state [p] = 2 && 3 ≤ (s.port p).fails then s.teleHunt p else s

/-- TP_COMMAND_TIMEOUT of port p: no valid frame for cto ms, of a port that has run. -/
def tpCommandTimeout (p : Nat) (s : State) : State :=
  let x := s.port p
  if !x.timed && s.g TPC_CFG_cto [p] * oneMs ≤ s.since x.okCyc then
    ((s.putPort p { x with timed := true, prev := none, bits := none }).putRx p (s.teleFall p)).tpcFlag p 12
  else s

/-- TPC_LOS of port p: the pin reports loss of signal; each loss sets the flag. -/
def tpcLos (p : Nat) (lost : Bool) (s : State) : State :=
  let x := s.port p
  let s1 := s.putPort p { x with los := lost }
  if lost && !x.los && s.tpcRuns p && s.g TPC_CFG_iface [p] = 0 then s1.tpcFlag p 8 else s1

/-! ### Configuration and states (R545) -/

/-- A port starts to hunt: its receiver and its delay are as new. -/
def State.teleStart (s : State) (p : Nat) : State :=
  let x := s.port p
  (s.putPort p { x with fails := 0, prev := none, echo := none, okCyc := s.mer.cyc, timed := false, sendCyc := none, begun := none }).p
    TPC_STAT_state [p] 1

/-- TPC_CFG of port p has been written. -/
def State.teleWritten (s : State) (p : Nat) (was : Word) : State :=
  let w := s.rd (fldOff TPC_CFG [p])
  let s1 :=
    if was.msb && !w.msb then (s.putPort p { s.port p with begun := none }).p TPC_STAT_state [p] 0
    else if !was.msb && w.msb then (if s.tpcRuns p then s.teleStart p else s)
    else if w.msb && bits was 30 26 ≠ bits w 30 26 then
      let s1 := s.putPort p { s.port p with meas := [], sendCyc := none, begun := none }
      if s1.g TPC_STAT_state [p] = 2 then s1.teleHunt p else s1
    else s
  (s1.showDelay p).rxFollow p

/-- NIGHT stops the ports; a wake starts those that are enabled. -/
def State.teleNight (s : State) : State :=
  s.each (List.range 4) fun s p => (s.putPort p { s.port p with begun := none }).p TPC_STAT_state [p] 0
def State.teleWake (s : State) : State :=
  s.each ((List.range 4).filter fun p => s.on TPC_CFG_en [p]) fun s p => s.teleStart p

/-- The reset of the block. -/
def State.teleReset (s : State) : State :=
  { s with tpc := (List.range 4).map fun p => { emptyPort with los := (s.port p).los, okCyc := s.mer.cyc }
           ele := { s.ele with packets := List.replicate 4 [] } }

end Sys2Proof.Machine
end

