-- ==== Sys2Proof/Machine/Power.lean ====
section
/-! DEFINITION. Supply, device states, the VCORE set point, temperatures and resets (R627 to R643). -/

namespace Sys2Proof.Machine

def State.onPwr (s : State) (f : PwrSt → PwrSt) : State := { s with pwr := f s.pwr }

abbrev OP_PWR_STATE : Nat := 0x0201
abbrev OP_PWR_BOOT : Nat := 0x0202

/-! ### The VCORE set point (R279, R636, R638, R639) -/

/-- A move out of MORNING is not-now while formation runs or has failed, and while boundary scan is enabled (R636, R658). -/
def State.moveNotNow (s : State) : Bool :=
  s.cscState = CS_FORMING || s.cscState = CS_FAILED || s.on TST_JTAG_bscan

/-- The automatic move to NOON waits for the voltage only. -/
def State.autoMoves (s : State) : Bool :=
  s.dev = MORNING && s.pwr.auto && s.on PWR_CFG_autonoon && !s.moveNotNow

/-- A move from MORNING to a state waits (R636). -/
def State.waitsFor (s : State) (t : Nat) : Bool := s.dev = MORNING && s.pwr.want.any fun w => w.2 = t

/-- The set point of the state, before the floor of R279 and R636. -/
def State.basePoint (s : State) : Nat :=
  if s.inSt [DAWN, SAFE] then 800
  else if s.dev = NIGHT then 650
  else if s.dev = DUSK || s.waitsFor DUSK then s.g PWR_VCFG_dusk
  else if s.on PWR_VCFG_mode then s.g PWR_VCFG_vset
  else min (max (s.g PWR_VSTAT_setp) (if s.dev = NOON then 720 else 650)) 900

/-- The set point in force. -/
def State.setPoint (s : State) : Nat :=
  if s.anyS || s.autoMoves || s.waitsFor NOON then max s.basePoint 720 else s.basePoint

/-- PWR_VSTAT shows the set point in force, and ok720 while it and the measured VCORE are at or above 0.72 V (R639). -/
def State.vUpdate (s : State) : State :=
  let v := s.setPoint
  (s.p PWR_VSTAT_setp [] v).p PWR_VSTAT_ok720 [] (b2n (decide (720 ≤ v) && decide (720 ≤ s.g PWR_VSTAT_meas)))

/-! ### Transitions (R629, R634 to R638) -/

/-- A transition: GEN_STATE and PWR_STS.state. -/
def State.goto (s : State) (st : Nat) : State :=
  ((s.p GEN_STATE_prev [] s.dev).p GEN_STATE_state [] st).flag PWR 8

/-- The PWR_STATE that waits completes NOT_NOW (R637). -/
def State.dropWant (s : State) : State :=
  (s.each s.pwr.want.toList fun s w => s.complete w.1 OP_PWR_STATE ST_NOT_NOW).onPwr fun p => { p with want := none }

/-- What waits for the next 72 kHz grid instant of channel n; with the chains stopped nothing does. -/
def State.chanAsk (s : State) (n : Nat) (c : ChanChg) : State :=
  if s.afe.run then s.putChan n { s.chan n with due := (s.chan n).due ++ [(next72 s.mer.now, c)] } else s

/-- Injection is switched off: by a write, and at the entry into NIGHT or SAFE (R107, R119). -/
def State.injEnd (s : State) : State :=
  if s.on AFE_INJ_en then (s.p AFE_INJ_en [] 0).chanAsk (s.g AFE_INJ_chan) .injOff else s

/-- Phasors, formation, station links, units and ports start. -/
def State.restartRest (s : State) : State := s.pheRestart.formStart.rioWake.auxWake.teleWake.netWake

/-- What NIGHT has stopped starts again (R629): modulators and chains, and the rest. -/
def State.restartAll (s : State) (dawn : Bool) : State := (s.startChains dawn).restartRest

/-- The entry into MORNING: drives and seals are clear, and the output word is sent at once (R302, R460). -/
def State.toMorning (s : State) : State := (s.goto MORNING).tmxClear.refresh

/-- The entry into SAFE (R634, R463 and the SAFE row of each chapter). From NIGHT what NIGHT has stopped starts again; from DAWN all
starts but the modulators and chains (R119; log 106). -/
def State.enterSafe (s : State) (cause : Nat) : State :=
  if s.dev = SAFE then s
  else
    let s1 := ((s.goto SAFE).p PWR_SAFECAUSE_cause [] cause).flag PWR 12
    let s2 := if s.dev = NIGHT then (s1.restartAll false).bcpWake else if s.dev = DAWN then s1.restartRest else s1
    let s3 := { s2 with mer := { s2.mer with slew := 0, slewing := false, tset := none } }
    let s4 := if s3.g MER_STAT_tq = TQ_LOCKED then s3.setTq TQ_HOLDOVER else s3
    let s5 := s4.saRefuseAll.tmxClear.bcpSafe.injEnd.dropWant
    let s6 := s5.each s5.pwr.boot.toList fun s x => s.complete x.1 OP_PWR_BOOT ST_NOT_NOW
    (s6.onPwr fun p => { p with boot := none, waits := false, auto := false, dusk := false }).refresh

/-- The entry into NIGHT: the safe states are commanded, and the functions stop (R463 and the NIGHT row of each chapter). -/
def State.enterNight (s : State) : State :=
  let s1 := (s.goto NIGHT).refresh.saRefuseAll
  let s2 := s1.each (List.range 4) fun s b => s.switchEnd b ST_NOT_NOW 0
  let s3 := (s2.recEndAll 2).bcpNight.rioNight.auxNight.netNight.teleNight.cscNight.eleStop.pheStop.tmxClear
  s3.stopChains.injEnd.onPwr fun p => { p with auto := false, dusk := false }

/-- The wake, to MORNING (R629); the automatic move follows where autonoon is 1 (R636). -/
def State.wakeUp (s : State) : State :=
  let s1 := ((s.toMorning.restartAll false).bcpWake)
  s1.onPwr fun p => { p with auto := s.on PWR_CFG_autonoon }

/-- A state is entered by an automatic transition or a PWR_STATE. -/
def State.enter (s : State) (t : Nat) : State := match t with
  | 2 => if s.dev = NIGHT then s.wakeUp else s.toMorning
  | 5 => s.enterNight
  | 6 => s.enterSafe 5
  | _ => (s.goto t).onPwr fun p => { p with auto := false, dusk := false }

/-! ### PWR_STATE (R635 to R637) -/

/-- What a request comes to in the present state: refused, without effect, waiting, or entered at once. -/
inductive Ask where
  | notNow | noEffect | waits | now
deriving DecidableEq, Repr

/-- The table of outcomes (R635), R636 and R658. -/
def State.ask (s : State) (t : Nat) : Ask :=
  if (t = NOON || t = DUSK) && s.on TST_JTAG_bscan then .notNow
  else if s.dev = DAWN then .notNow
  else if s.dev = t then .noEffect
  else if s.dev = SAFE then .notNow
  else if s.dev = NIGHT then (if t = MORNING then .now else .notNow)
  else if t = SAFE then .now
  else if t = NIGHT then (if s.dev = MORNING then .now else .notNow)
  else if s.dev = MORNING && s.moveNotNow then .notNow
  else .waits

/-- PWR_STATE: an accepted request supersedes one that waits. -/
def pwrState (d : Desc) (s : State) : State :=
  let c := bits d.b 2 0
  let t := if c < 2 then 2 else min c 6
  match s.ask t with
  | .notNow => s.complete d OP_PWR_STATE ST_NOT_NOW
  | a =>
    let s1 := ((s.clampDesc d 24 (b2n (t ≠ c))).dropWant).onPwr fun p => { p with dusk := false }
    match a with
    | .waits => s1.onPwr fun p => { p with want := some (d, t) }
    | .now => (s1.enter t).complete d OP_PWR_STATE ST_DONE
    | _ => s1.complete d OP_PWR_STATE ST_DONE

/-- At a frame, the automatic transition comes first, then the request that waits (R636, R637). -/
def State.frameStates (s : State) : State :=
  let ok := s.on PWR_VSTAT_ok720
  let s1 := if s.autoMoves && ok then s.enter NOON else s
  match s1.pwr.want with
  | none => s1
  | some (d, t) =>
    if (t = NOON || t = DUSK) && s1.on TST_JTAG_bscan then s1.dropWant
    else if s1.dev = MORNING && (!ok || s1.moveNotNow) then s1
    else ((if s1.dev = t then s1 else s1.enter t).onPwr fun p => { p with want := none }).complete d OP_PWR_STATE ST_DONE

/-- WAKE: a presented source with wake = 1 (R395, R629). -/
def wake (s : State) : State :=
  if s.dev = NIGHT && (List.range 256).any (fun n => s.presented n && s.on ICU_SRC_wake [n]) then s.wakeUp else s

/-- DUSK_RETURN: 10 s after the deassertion of source 225 (R638). -/
def duskReturn (s : State) : State :=
  if s.dev = DUSK && s.pwr.dusk && !s.icu.level.getLsbD 225 && oneSec * 10 ≤ s.since s.pwr.coolAt then s.enter NOON else s

/-! ### Measurements (R627, R638 to R641) -/

/-- VCORE_CONFIRM: a measured VCORE in mV; ok720 follows (R639). -/
def vcoreConfirm (mv : Nat) (s : State) : State := (s.p PWR_VSTAT_meas [] (min mv 1023)).vUpdate

/-- PACE_MEASURE: handshakes in the last microsecond; the adaptive controller acts on it (R638, R640). -/
def paceMeasure (n : Nat) (s : State) : State :=
  let v := min n 65535
  let s1 := (s.p PWR_PACE_last [] v).p PWR_PACE_min [] (min v (s.g PWR_PACE_min))
  let s2 := if v < s.g PWR_CFG_pmin then s1.flag PWR 10 else s1
  if s.inSt [MORNING, NOON] && !s.on PWR_VCFG_mode then
    let (k, s3) := s2.draw
    s3.p PWR_VSTAT_setp [] (min (max (Config.adaptive k) 650) 900)
  else s2

/-- The temperature of a die, in thousandths of a degree Celsius, as trimmed (R105, R641). -/
def State.trimTemp (s : State) (die : Nat) (raw : Int) : Int := raw - s.trimI (0x300 + 4 * die)

/-- A temperature in K, rounded, as PWR_TEMP shows it. -/
def kelvin (t : Int) : Nat := min ((t + 273150 + 500) / 1000).toNat 1023

/-- The thermal warning rises or falls; in NOON with tdusk its rise takes the device to DUSK (R638, R641). -/
def State.thermal (s : State) (hot : Bool) : State :=
  if s.icu.level.getLsbD 225 = hot then s
  else
    let s1 := (s.setLevel 225 hot).onPwr fun p => { p with coolAt := s.mer.cyc }
    if hot && s.dev = NOON && s.on PWR_CFG_tdusk then (s1.goto DUSK).onPwr fun p => { p with dusk := true } else s1

/-- TEMPERATURE_MEASURE: the sensors of the three dies, and VSUP in mV (R641, R644); 165 °C is a fault (R634). -/
def temperatureMeasure (dig ana io : Int) (vsup : Nat) (s : State) : State :=
  let l := [s.trimTemp 0 dig, s.trimTemp 1 ana, s.trimTemp 2 io]
  let k (i : Nat) : Nat := kelvin (nth l i 0)
  let s1 := ((s.p PWR_TEMP_dig [] (k 0)).p PWR_TEMP_ana [] (k 1)).p PWR_TEMP_io [] (k 2)
  let s2 := (s1.p PWR_VSUP_mv [] (min vsup 65535)).thermal (l.any fun t => decide (150000 ≤ t))
  if l.any fun t => decide (165000 ≤ t) then s2.enterSafe 4 else s2

/-- VSUP_LOW (R627). -/
def vsupLow (s : State) : State := s.flag PWR 9

/-! ### Resets (R627, R642, R643) -/

/-- The machine after the POR release: OTP keeps its contents, and what has left the device, the free values and the
queue are not the device's. -/
def State.fresh (s : State) : State :=
  { State.reset with
    trim := s.trim, sec := { SecSt.reset with cert := s.sec.cert, gens := s.sec.gens }
    mer := { MerSt.reset with stride := s.mer.stride }, out := s.out, free := s.free, pending := s.pending }

/-- A SYS reset: the registers of the POR domain survive, and PWR_RSTCAUSE records it. -/
def State.sysReset (s : State) (cause : Nat) : State :=
  (({ s.fresh with regs := regResetSys s.regs }.p PWR_RSTCAUSE_prev [] s.dev).p PWR_RSTCAUSE_cause [] cause)

/-- POR: VSUP rises through 16.5 V while the device is in OFF; a low RST_N holds the device. -/
def por (s : State) : State := if s.pwr.off then s.fresh.onPwr fun p => { p with held := s.pwr.held } else s

/-- VSUP_FAIL: the device is in OFF. -/
def vsupFail (s : State) : State := s.fresh.onPwr fun p => { p with off := true, held := s.pwr.held }

/-- RST_N low: a SYS reset, held until the pin rises. -/
def rstN (s : State) : State :=
  if s.pwr.held then s
  else (if s.pwr.off then s else s.sysReset 1).onPwr fun p => { p with held := true }

/-- RST_N_RELEASE: the DAWN sequence starts. -/
def rstNRelease (s : State) : State := s.onPwr fun p => { p with held := false }

/-- A write of PWR_RESET. -/
def State.pwrReset (s : State) (key : Nat) : State := if key = 0xD15A then s.sysReset 2 else s

end Sys2Proof.Machine
end

