-- ==== Sys2Proof/Machine/Registers.lean ====
section
/-! DEFINITION. Register reads and writes: clamping, the lock, not-now, the access codes, what a write does besides, the block resets, and what the live registers read (R9 to R12, R24 to R41, and the register descriptions of every chapter). -/

namespace Sys2Proof.Machine

/-! ### Clamping by a field's own range (R32, R33) -/

/-- The legal value nearest to a written one, in a field of w bits. -/
def Legal.clamp (l : Legal) (w v : Nat) : Nat := match l with
  | .any => v
  | .range lo hi => min (max v lo) hi
  | .srange lo hi => wrap w (satI lo hi (sgn w v))
  | .subst l => match l.find? fun x => decide (x.1 ≤ v) && decide (v ≤ x.2.1) with
    | some x => x.2.2
    | none => v
  | .f32 lo hi df =>
    let x := BitVec.ofNat 32 v
    if isNaN32 x then toF32 df
    else if anyVal x < lo then toF32 lo
    else if hi < anyVal x then toF32 hi
    else v
  | .nan d => if isNaN32 (BitVec.ofNat 32 v) then toF32 d else v
  | .odd => if v = 0 then 1 else if v % 2 = 0 then v - 1 else v

/-- Whether a write stores the field. -/
def RField.stores (f : RField) : Bool := f.acc = .rw || f.acc = .rwl

/-- A written word with every stored field within its own range. -/
def clampStatic (fs : List RField) (v : Word) : Word :=
  fs.foldl (fun w f => if f.stores then setBits w f.hi f.lo (f.legal.clamp (f.hi + 1 - f.lo) (bits v f.hi f.lo)) else w) v

/-- How many stored fields differ between two words. -/
def fieldDiff (fs : List RField) (v w : Word) : Nat := (fs.filter fun f => f.stores && bits v f.hi f.lo ≠ bits w f.hi f.lo).length

/-- What a register holds after a write of v that is stored as w (R9). -/
def storeWord (fs : List RField) (old v w : Word) : Word :=
  fs.foldl (fun x f => match f.acc with
    | .rw | .rwl => setBits x f.hi f.lo (bits w f.hi f.lo)
    | .w1c => setBits x f.hi f.lo (bits old f.hi f.lo - (bits old f.hi f.lo &&& bits v f.hi f.lo))
    | .w1s => setBits x f.hi f.lo (bits old f.hi f.lo ||| bits v f.hi f.lo)
    | _ => x) old

/-! ### Clamps that depend on other fields (R34) -/

/-- The lowest n bits set of a number of 32 bits. -/
def lowBits (n v : Nat) : Nat := maskSum ((bitsOf 32 v).take n)

/-- PTMR high: 1 to 10 000 000 in ONESHOT, at most the period in PERIODIC. -/
def State.highClamp (s : State) (u h : Nat) : Nat :=
  match s.g PTMR_CFG_0_mode [u] with
  | 1 => min h (s.g PTMR_CFG_1_period [u])
  | 2 => clampN 1 10000000 h
  | _ => min h 10000000

/-- A reserve and a maximum of consumer c as R573 allows them. -/
def State.quotaClamp (s : State) (c : Nat) (w : Word) : Word :=
  let others := s.resSum - s.g CIS_Q_res [c]
  let r := clampN (if c = 4 then 64 else 0) (4096 - others) (bits w 12 0)
  setBits (setBits w 12 0 r) 28 16 (clampN r 4096 (bits w 28 16))

/-- The clamps of a written word that depend on other fields. -/
def State.depClamp (s : State) (base : Nat) (ix : List Nat) (w : Word) : Word :=
  let i := ix.getD 0 0
  let low (hi lo m : Nat) : Word := setBits w hi lo (min (bits w hi lo) m)
  match base with
  | 0x30100 => setBits w 23 17 (clampN 10 (bits w 16 10 - 10) (bits w 23 17))
  | 0x40200 => setBits w 4 0 (if i < 16 then min (bits w 4 0) 15 else clampN 16 23 (bits w 4 0))
  | 0x60100 => if bits w 1 0 = M_HOST && bits w 12 8 = T_PIOC then setBits w 1 0 M_HW else w
  | 0x60500 =>
    let t := s.g ELE_CFG_type [i]
    let g := clampGrp t (bits w 3 0)
    let w1 := setBits (setBits w 3 0 g) 7 4 (clampOpnd t g (bits w 7 4))
    if bits w1 18 18 = 1 then setBits w1 8 8 0 else w1
  | 0x60900 => low 29 22 (match bits w 31 30 with | 1 => 63 | 2 => 31 | _ => 255)
  | 0x70200 => if s.rowIsS i then (clearBlk s.hostDep w).1 else w
  | 0x70800 => low 11 2 (bits w 21 12)
  | 0x71000 => if s.rowIsS i then (clearSel s.hostDep w (ix.getD 1 0)).1 else w
  | 0xA0120 => if s.g REC_CFG_tap [i] = 0 then low 23 16 0 else w
  | 0xA0130 => if s.g REC_CFG_tap [i] = 4 then w else low 14 8 0
  | 0xA01C4 => low 21 4 (bits w 31 22 * 100)
  | 0xA0200 =>
    let w1 := if s.g REC_CFG_tap [i] = 4 then w else low 28 28 0
    if bits w1 28 28 = 0 then setBits w1 9 0 (min (bits w1 9 0) 23) else w1
  | 0xB0208 => low 23 0 (s.g PTMR_CFG_1_period [i] - 1)
  | 0xB020C => setBits w 23 0 (s.highClamp i (bits w 23 0))
  | 0xD0100 => setBits w 15 0 (clampN ((s.p RIO_LCFG_rto [i] (bits w 20 16)).minCyc i) 65535 (bits w 15 0))
  | 0xD0120 => low 15 0 (s.g RIO_LCFG_cyc [i] - 1)
  | 0xE0140 => if s.g NET_PAIR_mode [i / 2] = 2 then w else low 2 2 0
  | 0xF0100 => if bits w 30 30 = 1 then setBits w 29 26 1 else w
  | 0x100100 => setBits w 19 16 (lowBits 2 (bits w 19 16))
  | 0x100104 => setBits w 23 0 (lowBits ((328 - 160 * (bits w 31 31 + bits w 27 27)) / 4) (bits w 23 0))
  | 0x120200 => s.quotaClamp i w
  | _ => w

/-- How many clamps a write counts: one for each field changed, and one for each selection bit cleared (R35, R276). -/
def clampTotal (base : Nat) (fs : List RField) (v w : Word) : Nat :=
  if base = 0x71000 then (bitsOf 32 (v ^^^ w).toNat).length else fieldDiff fs v w

/-! ### Writes that are refused (R11, R38) -/

/-- Whether a write of w over old changes an RWL field of a locked block. -/
def State.lockRefuses (s : State) (off : Nat) (fs : List RField) (old w : Word) : Bool :=
  s.on BLK_CTRL_lock [off / 0x10000] && fs.any fun f => f.acc = .rwl && bits w f.hi f.lo ≠ bits old f.hi f.lo

/-- Whether an enabled class-S row depends on a slot in HOST mode (R196). -/
def State.hostFeedsS (s : State) : Bool :=
  (List.range 64).any fun r => s.enabledS r && (s.reach_ (s.rowSlots r)).any s.hostSlot

/-- Whether the present state refuses a write of w over old, as each register's description says. -/
def State.refuses (s : State) (off base : Nat) (ix : List Nat) (old w : Word) : Bool :=
  let i := ix.getD 0 0
  let j := ix.getD 1 0
  let diff (hi lo : Nat) : Bool := bits w hi lo ≠ bits old hi lo
  match base with
  | 0x20120 => s.g MER_SRC_mode = 0
  | 0x20124 => s.g MER_SRC_mode = 0 || s.dev = SAFE
  | 0x20144 => s.dev = SAFE || (s.inSt [NOON, DUSK] && !s.on MER_SERVO_stepnoon)
  | 0x20200 => (List.range 8).any fun k => diff (4 * k + 3) (4 * k) && s.saHeld (8 * i + k)
  | 0x30150 => (old.msb && (diff 9 8 || diff 4 0)) || (w.msb && s.inSt [DAWN, NIGHT])
  | 0x40104 => s.g DCH_TRK_src ≠ 1
  | 0x40110 => w.getLsbD 8 && s.inSt [DAWN, NIGHT, SAFE]
  | 0x40200 => (diff 8 8 && s.fading i 1) || (diff 9 9 && s.fading i 2)
  | 0x40500 | 0x41000 => s.bankInUse i j
  | 0x501A0 => !s.on PHE_GCFG_fsrc [i]
  | 0x60100 =>
    (bits w 12 8 = T_PIOC && (List.range 256).countP (fun n => n ≠ i && s.g ELE_CFG_type [n] = T_PIOC) ≥ 32)
      || (bits w 1 0 = M_HOST && s.classSOn i)
  | 0x60900 => (s.wr off w).hostFeedsS
  | 0x80100 => diff 19 19 && (s.cpu i).switch.isSome
  | 0xA0100 | 0xA0110 | 0xA0120 | 0xA0130 | 0xA0400 => s.recActive i
  | 0xB0120 => s.on AUX_CFG_run [i]
  | 0xC0400 => i % 2 = 0 && diff 23 23 && (bitAt (s.g FIO_CMD_low) i || bitAt (s.g FIO_CMD_low) (i + 1))
  | 0xD0100 => old.msb && (diff 20 16 || diff 27 24)
  | 0xD0120 => s.on RIO_LCFG_run [i] && diff 15 0
  | 0xD0200 => s.on RIO_LCFG_run [i] && decide (s.g RIO_LCFG_cyc [i] < (s.wr off w).minCyc i)
  | 0xE0120 => diff 1 0 && (s.on NET_PORT_en [2 * i] || s.on NET_PORT_en [2 * i + 1])
  | 0x100100 => s.inSt [NOON, DUSK]
  | 0x140110 => s.isMember
  | 0x140114 => w.getLsbD 0 && !s.inSt [MORNING, SAFE]
  | _ => false

/-! ### What an accepted write does besides -/

/-- A stored field is clamped again after the field that it depends on has changed (R34). -/
def State.reclamp (s : State) (off : Nat) : State := match findReg off with
  | none => s
  | some (r, ix) =>
    let w := s.depClamp r.base ix (s.rd off)
    (s.wr off w).clampReg off (fieldDiff r.fields (s.rd off) w)

/-- AFE_CCFG[n] has been written over `old`: a change of mode (R99, R119) and of rng (R93). -/
def State.ccfgWritten (s : State) (n : Nat) (old : Word) : State :=
  let m := s.g AFE_CCFG_mode [n]
  let s1 := if s.g AFE_CCFG_rng [n] = bits old 3 2 then s else s.rngWritten n
  if m = bits old 0 0 || s1.injecting n then s1
  else if s1.afe.run then s1.chanAsk n (.mode m)
  else s1.putChan n { s1.chan n with mode := m }

/-- A change of AFE_INJ.en: the injection switches at the next 72 kHz grid instant (R107); 1 starts the count of windows
anew (R109). -/
def State.injWritten (s : State) (old w : Word) : State :=
  if old.msb = w.msb then s
  else if w.msb then (s.p AFE_INJCNT_count [] 0).chanAsk (bits w 4 0) (.injOn (bits w 9 8))
  else s.chanAsk (bits w 4 0) .injOff

/-- A write of DCH_CH[p]: a remap, run, or single-cycle settling (R134, R152, R155). -/
def State.chWritten (s : State) (p : Nat) (old w : Word) : State :=
  let x := s.pipe p
  let t := modAt s.mer.now
  let scs (b : Nat) : Bool := old.getLsbD b ≠ w.getLsbD b
  let map_ := old.msb ≠ w.msb || bits old 4 0 ≠ bits w 4 0
  if !s.afe.run then
    s.putPipe p { x with run := w.msb, src := bits w 4 0, scs48 := w.getLsbD 8, scs40 := w.getLsbD 9 }
  else s.putPipe p { x with
    scsDue := x.scsDue ++ (if scs 8 then [(1, t, w.getLsbD 8)] else []) ++ (if scs 9 then [(2, t, w.getLsbD 9)] else [])
    due := if map_ then x.due ++ [(next72 s.mer.now, w)] else x.due }

/-- A change of a slot's type: the defaults load, and the source is clamped again (R195). -/
def State.typeWritten (s : State) (n typ : Nat) : State :=
  (s.putSettings n (typeDefaults typ)).reclamp (0x60500 + 4 * n)

/-- A write of TMX_ROW[r]: the enable, and a row that becomes class S (R275 to R280). -/
def State.rowWritten (s : State) (r : Nat) (old w : Word) : State :=
  let s0 := s.p TMX_ROW_en [r] (bits old 31 31)
  let s1 := if w.getLsbD 8 && !(old.getLsbD 8 || (s.row r).cls) then
      let (s2, n) := s0.clearHost r
      s2.clampReg (0x70100 + 4 * r) n
    else s0
  (s1.rowEnable r w.msb).vFloor

/-- A change of REC_CFG[k].tap: what depends on it is clamped again (R406). -/
def State.tapWritten (s : State) (k : Nat) : State :=
  ((s.reclamp (0xA0120 + 4 * k)).reclamp (0xA0130 + 4 * k)).each (List.range 4) fun s j => s.reclamp (0xA0200 + 32 * k + 8 * j)

/-- A write of TST_MSUB (R650): setting and clearing en each count as a source change; the reported state follows tq. -/
def State.msubWritten (s : State) (old w : Word) : State :=
  let report (s : State) (tq : Nat) : State := if s.g MER_STAT_tq = tq then s else (s.p MER_STAT_tq [] tq).flag MER 9
  let change (s : State) (c : Nat) : State :=
    let s1 := (s.p MER_STAT_active [] c).flag MER 8
    { s1 with mer := { s1.mer with switched := true, lockCnt := 0, outCnt := 0 } }
  if w.msb then report (if old.msb then s else change s 11) (bits w 1 0)
  else if old.msb then change (report s TQ_FREE) s.bestSrc
  else s

/-- The flags of a block that read 1 for as long as what they show lasts, whatever is written: resshort of the Cistern (R573) and
bootwait (R632). -/
def State.heldFlags (s : State) (blk : Nat) : State :=
  if blk = CIS && s.lacking ≠ 0 then s.p BLK_STS [CIS] (putBit (s.g BLK_STS [CIS]) 9 true)
  else if blk = PWR && s.pwr.waits then s.p BLK_STS [PWR] (putBit (s.g BLK_STS [PWR]) 11 true)
  else s

/-- What an accepted write of v, stored as w over old, does besides storing. -/
def State.written (s : State) (base : Nat) (ix : List Nat) (old v w : Word) : State :=
  let i := ix.getD 0 0
  let rise (b : Nat) : Bool := w.getLsbD b && !old.getLsbD b
  match base with
  | 0x20100 => if rise 20 then s.srcWritten.hctoRestart else s.srcWritten
  | 0x20120 => s.hfreqWritten w
  | 0x20124 => s.hphaseWritten v
  | 0x20144 => s.tsetWritten v
  | 0x20160 => s.portWritten (rise 16) (rise 17)
  | 0x30100 => s.ccfgWritten i old
  | 0x30150 => s.injWritten old w
  | 0x30300 => if rise 31 then s.weirEnabled i else s
  | 0x40100 => if bits w 1 0 = 1 && bits old 1 0 ≠ 1 then s.trkFreqWritten else s
  | 0x40104 => s.trkFreqWritten
  | 0x40110 => if v.getLsbD 8 then s.syncCmd else s
  | 0x40200 => s.chWritten i old w
  | 0x50100 => if rise 6 then s.pheHfreqWritten i else s
  | 0x501A0 => s.pheHfreqWritten i
  | 0x50240 => s.rgrpWritten i old w
  | 0x60100 => if bits old 12 8 = bits w 12 8 then s else s.typeWritten i (bits w 12 8)
  | 0x70100 => s.rowWritten i old w
  | 0x70700 => s.commitRow (bits v 5 0)
  | 0xA0100 => if bits old 2 0 = bits w 2 0 then s else s.tapWritten i
  | 0xB0110 => s.p AUX_STAT_idx [i] 0
  | 0xB0200 => (s.reclamp (0xB020C + 16 * i)).ptmrWritten i
  | 0xB0204 => (s.reclamp (0xB0208 + 16 * i)).reclamp (0xB020C + 16 * i)
  | 0xC0400 => if bits old 31 29 = bits w 31 29 then s else s.putReq i false
  | 0xC04C0 => if rise 17 then s.hostFioRestart else s
  | 0xD0100 => (s.reclamp (0xD0120 + 4 * i)).runWritten i old.msb
  | 0xD0200 => ((s.reclamp (0xD0100 + 4 * i)).reclamp (0xD0120 + 4 * i)).staWritten i (ix.getD 1 0) old
  | 0xD1000 => s.reSubst i (ix.getD 1 0)
  | 0xE0100 => if old.msb = w.msb then s else ethLinkChange i false (s.ptpRestart i)
  | 0xE0120 => (s.reclamp (0xE0140 + 8 * i)).reclamp (0xE0144 + 8 * i)
  | 0xE0140 => if bits old 1 0 = bits w 1 0 then s else s.ptpRestart i
  | 0xE0200 => s.gooseBits
  | 0xF0100 => s.teleWritten i old
  | 0xF0150 => s.showDelay i
  | 0xF0220 => s.rxFollow i
  | 0x10120 => s.pwrReset (bits v 15 0)
  | 0x100100 => s.cscWritten
  | 0x8 => s.heldFlags i
  | 0x120100 => s.cisLevels
  | 0x120200 => (s.reserves (some i)).cisLevels.recRoom
  | 0x140110 => s.msubWritten old w
  | _ => s

/-! ### Block resets (R28, R654) -/

/-- MER: the arms end, and the servo starts anew on its counter. -/
def State.merReset (s : State) : State :=
  let s1 := s.saRefuseAll
  { s1 with mer := { MerSt.reset with
    -- what stands behind MER_STAT and MER_FADJ, which keep their values
    locked := s1.mer.locked, holdAt := s1.mer.holdAt, srcs := s1.mer.srcs, irigBad := s1.mer.irigBad, integ := s1.mer.integ
    now := s1.mer.now, rem := s1.mer.rem, cyc := s1.mer.cyc, stride := s1.mer.stride, hctoAt := s1.mer.cyc, tdc := s1.mer.tdc
    pps := s1.mer.pps, ppsAt := s1.mer.ppsAt, ppsSec := s1.mer.ppsSec, irigSec := s1.mer.irigSec, stepAt := s1.mer.stepAt } }

/-- ELE: the commands that wait end, and every slot is of type NONE. -/
def State.eleReset (s : State) : State :=
  let e := s.ele
  let l := e.setw.map (fun x => (x.2, 0x0601)) ++ e.results.map (fun x => (x.2, 0x0611)) ++ e.opnds.map (fun x => (x.2.1, 0x0901))
  { s with ele := { EleSt.reset with packets := e.packets, pks := e.pks, lastTs := e.lastTs, dt := e.dt, di := e.di, acts := e.acts } }.each l fun s x => s.complete x.1 x.2 ST_NOT_NOW

/-- What the reset of a block does before its registers take their reset values. -/
def State.blkBefore (s : State) (blk : Nat) : State := match blk with
  | 2 => s.merReset
  | 3 => s.injEnd
  | 4 =>
    let s1 := if s.afe.run then s.askReset (nextGrid s.mer.now) 5 none else s
    { s1 with dch := { s1.dch with held := s1.dch.held.or (some s.regs), fresh := true } }
  | 5 => s.pheReset
  | 6 => s.eleReset
  | 7 => { s with tmx := { TmxSt.reset with gbits := s.tmx.gbits, second := s.tmx.second, t0 := s.tmx.t0 } }
  | 8 => s.bcpReset
  | 9 => s.icuReset
  | 10 => s.recReset
  | 11 => s.auxReset
  | 12 => s.fioReset
  | 13 => s.rioReset
  | 14 => s.netReset
  | 15 => s.teleReset
  | 17 => s.hifReset
  | _ => s

/-- What it does after. -/
def State.blkAfter (s : State) (blk : Nat) (before : State) : State := match blk with
  | 1 => s.heldFlags PWR
  | 2 => s.srcWritten
  | 3 =>
    let s1 := s.each (List.range 16) fun s n => (s.ccfgWritten n (before.rd (0x30100 + 4 * n))).putWeir n emptyWeir
    { s1 with afe := { s1.afe with chans := s1.afe.chans.map fun c => { c with wbCnt := 0, mainCnt := 0 } } }
  | 16 => ({ s with csc := s.cscInit } : State).formStart
  | 10 => s.recMres
  | 14 => s.gooseBits
  | 15 => s.each (List.range 4) fun t p =>
    if before.g TPC_CMDST_rx [p] = t.g TPC_CMDST_rx [p] then t else t.raise (200 + p)
  | 18 => s.cisLevels
  | 20 => s.msubWritten (before.rd 0x140110) (s.rd 0x140110)
  | _ => s

/-- The reset of a block's BLK domain with the effects that its chapter states. -/
def State.blkReset (s : State) (blk : Nat) : State :=
  let s1 := s.blkBefore blk
  ({ s1 with regs := regResetBlk s1.regs blk }).blkAfter blk s

/-- Whether a block reset by XXX_CTRL.srst is not-now (R28). -/
def State.srstNotNow (s : State) (blk : Nat) : Bool :=
  if blk = CIS then s.cis.cons.any fun c => !c.bufs.isEmpty
  else [PWR, MER, AFE, DCH, PHE, ELE, TMX, BCP, FIO, RIO, NET, TPC, CSC].contains blk && s.inSt [NOON, DUSK]

/-- A write of XXX_CTRL: the lock, then the reset (R11, R28). -/
def State.ctrlWrite (s : State) (blk : Nat) (v : Word) : State :=
  if v.getLsbD 0 && s.srstNotNow blk then s.notNow (blk * 0x10000 + 4)
  else
    let s1 := if v.getLsbD 1 then s.p BLK_CTRL_lock [blk] 1 else s
    if v.getLsbD 0 then s1.blkReset blk else s1

/-! ### The write of a register -/

/-- Bits of a word that a pair's odd member keeps reserved (R454). -/
def maskReserved (base : Nat) (ix : List Nat) (v : Word) : Word :=
  if base = 0xC0400 && ix.getD 0 0 % 2 = 1 then setBits v 23 23 0 else v

/-- A write of a register without rules of its own. -/
def State.plainWrite (s : State) (off : Nat) (r : Reg) (ix : List Nat) (v0 : Word) : State :=
  let v := maskReserved r.base ix v0
  let old := s.rd off
  let w := s.depClamp r.base ix (clampStatic r.fields v)
  if s.lockRefuses off r.fields old w || s.refuses off r.base ix old w then s.notNow off
  else
    let s1 := (s.wr off (storeWord r.fields old v w)).clampReg off (clampTotal r.base r.fields v w)
    s1.written r.base ix old v w

/-- A write of ELE_SET[n][k] (R204, R205). -/
def State.settingWritten (s : State) (off n k : Nat) (v : Word) : State :=
  let typ := s.g ELE_CFG_type [n]
  let (l, c) := settingWrite typ k (s.settings n) [v]
  let s1 := (s.putSettings n l).each c fun s j => s.clampReg (off + 4 * j - 4 * k) 1
  if s1.roleOf n = s.roleOf n && (s.on ELE_CFG_keep [n] || settingReserved typ (s.settings n) k) then s1
  else s1.putSlot n { s1.slot n with clr := true }

/-- A write by the host, a boot image or the tunnel (R9, R25, R593); `slots`: what the host has put into the ring slots
that the write posts. The party is that of ICU_TAKE and ICU_DONE. -/
def State.hostWrite (s : State) (party off : Nat) (v : Word) (slots : List (Nat × Nat)) : State := match findReg off with
  | none => s
  | some (r, ix) =>
    let i := ix.getD 0 0
    match r.base with
    | 0x4 => s.ctrlWrite i v
    | 0x40520 => dchBdef v s
    | 0x64000 => s.settingWritten off i (ix.getD 1 0) v
    | 0x80130 => bcpImask i v s
    | 0x90100 => icuMode v s
    | 0x90110 => icuTakeBy party (bits v 7 0) s
    | 0x90114 => icuDoneBy party (bits v 7 0) s
    | 0x90120 => icuSwset i v s
    | 0x90140 => icuRaw i v s
    | 0x90160 => icuEn i v s
    | 0x90400 => icuSrc i v s
    | 0xB0100 => auxRun i v s
    | 0xC0480 => fioReq v s
    | 0xC04A0 => fioFltlat i v s
    | 0xE0280 => netGval i v s
    | 0x110100 | 0x110104 => s.ringBase off i (clampStatic r.fields (storeWord r.fields 0 v v))
    | 0x110108 => ringEnable i v slots s
    | 0x114000 => hifDb i v slots s
    | 0x11800C => if v.getLsbD 0 then s.p MSIX_mask [i] 1 else msixVectorUnmask i s
    | _ => s.plainWrite off r ix v

/-! ### What registers read -/

/-- The bits of ICU_PEND or of a source set, 32 from source 32k. -/
def bits32 (v : BitVec 256) (k : Nat) : Nat := v.toNat / 2 ^ (32 * k) % 2 ^ 32

/-- Four bytes of a byte string as a register. -/
def word4 (l : List Byte) (k : Nat) : Word := BitVec.ofNat 32 (leAt l (4 * k) 4)

/-- The live bits of ICU_SRC[n]. -/
def State.srcBits (s : State) (n : Nat) : Nat :=
  b2n (isLevel n && s.icu.level.getLsbD n) * 2 ^ 27 + b2n (s.srcPend n) * 2 ^ 26 + b2n (s.srcAct n) * 2 ^ 25

/-- BCP_STATE[b]. -/
def State.bcpState (s : State) (b : Nat) : Nat :=
  let c := s.cpu b
  let o := c.bank (1 - c.active)
  maskSum ((List.range 16).filter c.live) * 65536 + c.forces.length * 64 + b2n o.map.isSome * 32 + b2n c.switch.isSome * 16
    + b2n o.verified * 8 + c.active * 4 + c.state

/-- What a register reads, given what it stores. -/
def State.live (s : State) (base : Nat) (ix : List Nat) (w : Word) : Word :=
  let i := ix.getD 0 0
  let or_ (n : Nat) : Word := w ||| BitVec.ofNat 32 n
  let is_ (n : Nat) : Word := BitVec.ofNat 32 n
  match base with
  | 0x104 => or_ (Config.revMask.toNat * 256 + Config.revDigit.toNat)
  | 0x108 => is_ (Config.serial.toNat % 2 ^ 32)
  | 0x10C => is_ (Config.serial.toNat / 2 ^ 32)
  | 0x110 => if s.pwr.otp then w else or_ (b2n Config.strapMaster * 512)
  | 0x10100 => if s.pwr.otp then or_ (b2n Config.strapBootsel * 16) else w
  | 0x31000 => word4 s.trim i
  | 0x51000 => s.qv i
  | 0x52000 => is_ (leNat ((List.range 4).map fun b => BitVec.ofNat 8 (s.qq (4 * i + b))))
  | 0x60D00 => is_ (s.eleStat i)
  | 0x61100 => s.eleAcc i
  | 0x61500 => is_ (s.startShown i)
  | 0x61520 => is_ (s.operShown i)
  | 0x61548 => is_ ((List.range 256).countP fun n => s.g ELE_CFG_type [n] = T_PIOC)
  | 0x70100 => or_ (s.rowStat i)
  | 0x70710 => is_ (s.outBits i)
  | 0x70718 => is_ (s.driveBits i)
  | 0x80120 => is_ (s.bcpState i)
  | 0x90120 => if i < 4 then is_ (bits32 s.icu.pending i % 65536) else is_ (bits32 s.icu.pending 7 / 65536 * 65536)
  | 0x90140 => is_ (bits32 s.icu.pending i)
  | 0x90180 => is_ (bits32 s.icu.active i)
  | 0x90200 => is_ (s.icuPend i (ix.getD 1 0))
  | 0x90400 => or_ (s.srcBits i)
  | 0xD0140 => or_ (s.minCyc i * 65536)
  | 0x120104 => is_ (s.sharedFree * 65536 + (4096 - s.usedBufs.length))
  | 0x120280 => or_ (s.cons i).bufs.length
  | 0x130100 => is_ (s.sec.gens.length * 256 + b2n (s.ownerGen ≠ 0 && s.owner.vroot) * 8 + s.ownerGen)
  | 0x130104 => word4 s.devId i
  | 0x13010C => word4 (keyId Config.rootKey) i
  | 0x130114 => word4 s.ownId i
  | _ => w

/-- The value that a read of the register at an offset returns; an offset that is not assigned reads 0 (R27). -/
def State.readVal (s : State) (off : Nat) : Word := match findReg off with
  | none => 0
  | some (r, ix) => s.live r.base ix (s.rd off)

/-- The clear that goes with a read: every RC field takes its reset value (R9, R10). -/
def State.readClear (s : State) (off : Nat) : State := match findReg off with
  | none => s
  | some (r, _) => s.wr off ((r.fields.filter fun f => f.acc = .rc).foldl (fun w f => setBits w f.hi f.lo f.reset) (s.rd off))

/-- What a read latches (R48, R113, R443). -/
def State.latch (s : State) (off : Nat) : State := match findReg off with
  | some (r, ix) =>
    if r.base = 0x20130 then merNowSlo s
    else if r.base = 0x30400 then afeWtsRead (ix.getD 0 0) s
    else if r.base = 0xC0200 then fioDitsRead (ix.getD 0 0) s
    else s
  | none => s

/-- A read: its value, and the state after it. -/
def State.hostRead (s : State) (off : Nat) : Word × State :=
  let s1 := s.latch off
  (s1.readVal off, s1.readClear off)

/-- A read by the host: the value goes out. -/
def rcRead (off : Nat) (s : State) : State := let (v, s1) := s.hostRead off; s1.emit (.read off v)

/-- A read of BAR2 returns byte o of the Cistern at the moment of the read, without a side effect (R551). -/
def bar2Read (o : Nat) (s : State) : State := s.emit (.bar2 o (memGet s.cis.mem o))

/-- A write to BAR2 is discarded without an error report (R551). -/
def bar2Write (s : State) : State := s

/-- A word of the configuration space, in the layout of the PCI Express Base Specification: identification, revision and
class, base address registers of 16 MiB and 8 MiB, no interrupt pin, and the capabilities power management (D0 and D3hot, no
PME), PCI Express (payload 256 bytes, function level reset, ×4 at 8.0 GT/s, ASPM L1), MSI-X with 64 vectors, AER and Device
Serial Number (R548). The places of the capabilities are presumed, and what else a word holds is a free value (log 149). -/
def State.configWord (s : State) (o : Nat) : Word :=
  let w := Config.configSpace o
  match o with
  | 0x00 => 0x48321B5F
  | 0x04 => setBits (setBits w 20 20 1) 2 2 (s.g HIF_LINK_bme)
  | 0x08 => BitVec.ofNat 32 (0x118000 * 256 + (Config.revMask.toNat - 0x40) % 16 * 16 + Config.revDigit.toNat)
  | 0x0C => setBits w 23 16 0
  | 0x10 => setBits w 23 0 0x4
  | 0x18 => setBits w 22 0 0xC
  | 0x20 => 0
  | 0x24 => 0
  | 0x2C => 0x48321B5F
  | 0x34 => setBits w 7 0 0x40
  | 0x3C => setBits w 15 8 0
  | 0x40 => 0x00035001
  | 0x44 => setBits w 1 0 (3 * s.g HIF_LINK_d3)
  | 0x50 => setBits w 23 0 0x029010
  | 0x54 => setBits (setBits w 2 0 1) 28 28 1
  | 0x5C => setBits w 11 0 0x843
  | 0x60 => setBits (setBits w 19 16 (s.g HIF_LINK_speed)) 25 20 (s.g HIF_LINK_width)
  | 0x90 => setBits w 26 0 0x3F0011
  | 0x94 => 0x118000
  | 0x98 => 0x119000
  | 0x100 => 0x14820001
  | 0x148 => 0x10003
  | 0x14C => BitVec.ofNat 32 Config.serial.toNat
  | 0x150 => BitVec.ofNat 32 (Config.serial.toNat / 2 ^ 32)
  | _ => w

/-- A read of the configuration space. -/
def configRead (o : Nat) (s : State) : State := s.emit (.config o (s.configWord o))

/-- A write of the configuration space by the host's software; what it changes in the device comes with HOST_LINK_CHANGE
(R549, log 149). -/
def configWrite (s : State) : State := s

/-- A write with byte enables (R26). -/
def registerWrite (off : Nat) (be : BitVec 4) (v : Word) (s : State) : State :=
  if be = 0xF then s.hostWrite HOST off v [] else s.flag GEN 8

/-- A write by the host. -/
def hostStore (a : HostAddr) (be : BitVec 4) (v : Word) (s : State) : State := match a with
  | .bar0 off => registerWrite off be v s
  | .bar2 _ => bar2Write s
  | .config _ => configWrite s

/-- A read by the host. -/
def hostLoad (a : HostAddr) (s : State) : State := match a with
  | .bar0 off => rcRead off s
  | .bar2 off => bar2Read off s
  | .config off => configRead off s

end Sys2Proof.Machine
end

