-- ==== Sys2Proof/Machine/Startup.lean ====
section
/-! DEFINITION. The DAWN sequence: straps, OTP, the boot image, and the way to MORNING (R104, R603, R630 to R633, R613 to R615). -/

namespace Sys2Proof.Machine

/-- The device waits for a host image (R632). -/
def State.bootWait (s : State) : State :=
  if s.pwr.waits then s else (s.onPwr fun p => { p with waits := true }).flag PWR 11

/-- Steps 3 and 4 of the DAWN sequence, once after tp: the straps are sampled, the key is unwrapped, and the trim record is
checked (R104, R603, R630). -/
def State.dawnOtp (s : State) : State :=
  if s.dev ≠ DAWN || s.pwr.otp then s
  else
    let s1 := ((s.p GEN_STATE_master [] (b2n Config.strapMaster)).onPwr fun p => { p with otp := true }).unwrapKey
    let s2 := (s1.putDigest AFE_TRIMDIG s1.trimDigest).cnt SEC_OPS_verify
    if !s2.trimOk then (s2.flag AFE 10).enterSafe 2
    else if Config.strapBootsel then s2.bootWait
    else s2

/-- The entries of a configuration section as host register writes (R615); a SYS reset that one of them causes ends them. -/
def State.applyConfig (s : State) : List (Nat × Nat) → State
  | [] => s
  | (o, v) :: l =>
    let s1 := s.hostWrite HOST o (BitVec.ofNat 32 v) []
    if s1.pwr.otp then s1.applyConfig l else s1

/-- The entries of a configuration section. -/
def configEntries (l : List Byte) : List (Nat × Nat) := (List.range (l.length / 8)).map fun i => (leAt l (8 * i) 4, leAt l (8 * i + 4) 4)

/-- Steps 6 to 10, once an image has passed: configuration, FBC images, modulators, formation, MORNING, cold starts. -/
def State.dawnExit (s : State) (img : List Byte) : State :=
  let s1 := s.applyConfig (configEntries (bootSec img 1))
  if !s1.pwr.otp || s1.dev ≠ DAWN then s1
  else
    let s2 := s1.each (List.range 4) fun s b => s.bootFbc img b
    let s3 := (s2.onPwr fun p => { p with waits := false }).toMorning.restartAll true
    let s4 := s3.each (List.range 4) fun s b =>
      if bitAt (s.g PWR_CFG_bcpstart) b && (s.cpu b).state = B_STOPPED then s.startBcp b true else s
    s4.onPwr fun p => { p with auto := s4.on PWR_CFG_autonoon }

/-- The checks of a boot image end (R614): what they leave, and whether it has passed. -/
def State.bootChecked (s : State) (img : List Byte) (host : Bool) : Nat × State :=
  let (code, v) := s.bootCheck img img.length
  (code, s.bootRecord img code v host)

/-- BOOT_IMAGE_CHECKED: the host image whose check is running, or else what the flash has answered (R614, R632, R633). -/
def bootImageChecked (flash : Option (List Byte)) (s0 : State) : State :=
  let s := s0.dawnOtp
  if s.dev ≠ DAWN then s
  else match s.pwr.boot with
    | some (d, img) =>
      let (code, s1) := (s.onPwr fun p => { p with boot := none }).bootChecked img true
      if code = 0 then (s1.complete d OP_PWR_BOOT ST_DONE).dawnExit img
      else s1.completeWith { compOf d OP_PWR_BOOT ST_AUTH_FAIL with b := code }
    | none =>
      if s.pwr.waits then s
      else match flash with
        | none => s.bootWait
        | some img =>
          let (code, s1) := s.bootChecked img false
          if code = 0 then s1.dawnExit img else s1.bootWait

/-- PWR_BOOT (R633). -/
def pwrBoot (d : Desc) (buf : List Byte) (s : State) : State :=
  if s.dev ≠ DAWN || !s.pwr.waits then s.complete d OP_PWR_BOOT ST_NOT_NOW
  else if s.pwr.boot.isSome then s.complete d OP_PWR_BOOT ST_BUSY
  else
    let n := d.len.toNat
    let s1 := s.clampDesc d 4 (b2n (decide (8388608 < n)))
    s1.onPwr fun p => { p with boot := some (d, buf.take (min n 8388608)) }

end Sys2Proof.Machine
end

