-- ==== Sys2Proof/Machine/Contain.lean ====
section
/-! DEFINITION. Internal faults and their containment, block stalls, the scrubber, and the test access port (R651 to R658). -/

namespace Sys2Proof.Machine

/-- An internal fault of a cause in a block, and SAFE after it; after the first one since the last SYS reset only the
count changes (R652, R653). -/
def State.internalFault (s : State) (cause blk : Nat) : State :=
  let s1 := s.cnt TST_FLT_count
  if s.pwr.faulted then s1.enterSafe 1
  else
    let s2 := ((s1.p TST_FLT_cause [] cause).p TST_FLT_blk [] blk).onPwr fun p => { p with faulted := true }
    (s2.flag TST 8).enterSafe 1

/-- SLACK_MISS_LIMIT: nmiss consecutive misses, or a PIOC-path slack below 0 (R652). -/
def slackMissLimit (s : State) : State :=
  if s.inSt [NOON, DUSK] && (decide (s.g TST_FCFG_nmiss ≤ s.tmx.misses) || decide (sgn 16 (s.g TMX_PSLACK_last) < 0)) then
    s.internalFault 2 TMX
  else s

/-- REFCLK_LOSS: absence of REFCLK for 10 ms at step 3 of the DAWN sequence (R630, R634); after it the loss is an internal
fault (R50) of MER, whose Meridian clock comes from REFCLK, with a cause that R652 does not number: a free value (log 143). -/
def refclkLoss (s : State) : State :=
  if s.dev = DAWN && !s.pwr.otp then s.enterSafe 3
  else
    let (k, s1) := s.draw
    s1.internalFault (1 + (Config.freeWord k).toNat % 5) MER

/-- INTERDIE_STALL: no acknowledge within 20 µs on a channel to the I/O die, or else to the analogue die. -/
def interdieStall (io : Bool) (s : State) : State := s.internalFault 3 (if io then FIO else AFE)

/-- CLASS_S_STALL: a stage of the class-S path, 0 phasor engine, 1 element array, 2 Sluice, without progress for 100 µs. -/
def classSStall (stage : Nat) (s : State) : State := s.internalFault 4 (PHE + stage)

/-- VCORE_LOW: VCORE below 0.70 V for 10 µs while a class-S row is enabled. -/
def vcoreLow (mv : Nat) (s : State) : State :=
  if s.anyS && mv < 700 then (vcoreConfirm mv s).internalFault 5 PWR else s

/-- SCRUB: what the code of a word read by the scrubber says: 0 right, 1 corrected, 2 uncorrectable, in the SRAM of a
block (R651, R652). -/
def scrub (err blk : Nat) (s : State) : State := match err with
  | 0 => s
  | 1 => (s.cnt TST_ECC_ce).flag TST 9
  | _ => if blk = CIS then (s.cnt TST_ECC_cue).flag TST 10 else s.internalFault 1 blk

/-- BLOCK_STALL: a block that is no stage of the class-S path made no progress for stallt ms (R652, R654). -/
def blockStall (blk : Nat) (s : State) : State :=
  if [PHE, ELE, TMX].contains blk then s
  else (((s.blkReset blk).cnt TST_STALL_count).p TST_STALL_blk [] blk).flag TST 11

/-! ### The test access port (R655 to R658) -/

/-- An instruction is loaded: while bscan is 0, a code that requires it loads BYPASS. -/
def State.jtag (s : State) (code : Nat) : State :=
  s.p TST_JTAG_ir [] (if s.on TST_JTAG_bscan || [0x01, 0x02, 0x1F].contains code then code else 0x1F)

/-- The identification register (R656). -/
def idWord : Word := BitVec.ofNat 32 (Config.revDigit.toNat * 2 ^ 28 + 0x4832 * 2 ^ 12 + 0x2D3 * 2 + 1)

/-- An instruction that selects the boundary register: once loaded, its scans leave levels of the pins and what the tester has
shifted in, free values of its 162 cells (R657, log 89). -/
def State.scanned (s : State) (code : Nat) : State :=
  let s1 := s.jtag code
  if s.on TST_JTAG_bscan || code = 0x02 then
    let (k, s2) := s1.draw
    s2.onPwr fun p => { p with boundary := Config.scan k }
  else s1

/-- EXTEST; one that takes the PCI Express lanes takes the host link down (R549, R658), whose speed and width
then read 0 (log 162). -/
def extest (lanes : Bool) (s : State) : State :=
  let s1 := s.scanned 0x00
  if lanes && s.on TST_JTAG_bscan then s1.p HIF_LINK [] (b2n (s.on HIF_LINK_d3) * 1024 + b2n (s.on HIF_LINK_bme) * 512) else s1

def idcode (s : State) : State := (s.jtag 0x01).onPwr fun p => { p with dr := idWord }
def samplePreload (s : State) : State := s.scanned 0x02
def fieldClamp (s : State) : State := s.jtag 0x04
def highz (s : State) : State := s.jtag 0x05
def extestPulse (s : State) : State := s.scanned 0x06
def extestTrain (s : State) : State := s.scanned 0x07
def bypass (s : State) : State := s.jtag 0x1F

end Sys2Proof.Machine
end

