-- ==== Sys2Proof/Machine/Frame.lean ====
section
/-! DEFINITION. The order of events: one frame end to end, the outputs of the fixed taps, and what follows every command (R22, R142, R200, R272, R589). -/

namespace Sys2Proof.Machine

/-- WB_SAMPLE: one output instant of CIC1; its samples reach the recorder (R128). -/
def wbSample (codes : List (List (Int × Bool))) (s : State) : State :=
  let s1 := wbSampleChain codes s
  if s1.afe.next = s.afe.next then s else s1.recWb.recOutput 0

/-- The PIOC slots whose start has risen on the newest 14 400 sample. -/
def State.piocStarts (s : State) : List Nat :=
  (List.range 256).filter fun n => match (s.slot n).view with
    | (_, o, _) :: l => (s.slot n).typ = T_PIOC && o.start && !(match l with | (_, p, _) :: _ => p.start | [] => false)
    | [] => false

/-- FIXED_TAP_OUTPUT of unit t: on 14 400 samples/s the PIOC path runs, with the time at which the sample became
available and the time of the driver command after it in ns; then the recorder and SV publication (R143, R200, R292). -/
def fixedTapOutput (t : Nat) (avail : Time) (ackNs : Nat) (s : State) : State :=
  if !s.unitReady t then s
  else
    let ts := modTime (nth s.dch.next t 0)
    let s1 := s.fixedTap t
    let s2 := if t = 0 then
        let s2 := s1.piocSample ts
        let s3 := s2.recStarts s2.piocStarts ts
        let s4 := ({ s3 with tmx := { s3.tmx with rose := [] } }.piocPath avail ackNs).recRows ts
        { s4 with tmx := { s4.tmx with rose := s2.tmx.rose } }
      else s1
    (s2.recOutput (t + 1)).svPublish t

/-- TRACKED_INSTANT: the instant t(k) has come; t(k + 1) is fixed, and the master sends it (R136, R585). -/
def trackedInstant (s : State) : State := match s.dch.nextT with
  | none => s
  | some p =>
    if s.afe.run && p.now ≤ s.mer.now then
      match s.tracked p with
      | (some n, s1) => s1.gridSend n
      | (none, s1) => s1
    else s

/-- The end of a frame: its drive, the recorder, the tasks, GOOSE, and the word to the I/O die. -/
def State.frameEnd (s : State) : State :=
  let ts := s.dch.frame.ts
  let starts := (List.range 256).filter fun n => (s.slot n).typ ≠ T_PIOC && (s.slot n).out.start && !(s.slot n).prev.start
  let s1 := (((s.driveOut.latchView.recOutput 4).recTq).recRows ts).recStarts starts ts
  (s1.dropsFirst.frameTasks.gooseEval).refresh

/-- The second part of a frame: the slots and rows with cascade operands, class N, and the slack (R268, R272, R295). A remote group
that no publication of the frame has carried holds its entries (R182), and the element step ends with the slots that waited. -/
def State.frameSecond (s : State) (t : PassTimes) : State :=
  let s1 := s.holdMissing
  let s2 := if s1.ele.wait.isEmpty then s1 else s1.eleCascade.eleDone t.eleNs
  ((s2.passTwo t.ackNs).slack t.ackNs t.lateNs).frameEnd

/-- FRAME with its t0, and the times from t0 at which the element step completed and the driver command was acknowledged,
in ns: the path of R22. A frame whose class-S pass needs publications waits for them or for the deadline. -/
def frame (t0 : Time) (eleNs ackNs : Nat) (s : State) : State :=
  if !(s.frameReady && !s.tmx.second && s.inSt [MORNING, NOON, DUSK, SAFE]) then s
  else
    let s1 := ({ s with rcd := { s.rcd with tele := s.teleRx } }.formFrame.frameStates).netBoundary.recDistances
    let u := s1.phasorUpdate.eleFrame
    let s2 := (if u.ele.wait.isEmpty then u.eleDone eleNs else u).passOne t0 ackNs
    let s3 := s2.takeReport.takeEarly.sendPub
    if s3.needsCascade then { s3 with tmx := { s3.tmx with second := true } } else ((s3.passTwo ackNs).slack ackNs 0).frameEnd

/-- CASCADE_CLASS_S_PASS: every member's publication of the frame is in (R272). -/
def cascadeClassSPass (t : PassTimes) (s : State) : State :=
  if s.tmx.second && s.pubsIn then s.frameSecond t else s

/-- CASCADE_DEADLINE of the present frame of a device in a stack, DETACHED and forming anew included: what has not arrived counts as
missing (R294, R581, R589, R595). A frame that waits goes on at it also when the stack has ended. -/
def cascadeDeadline (t : PassTimes) (s : State) : State :=
  if (s.on GEN_STATE_stacked || s.tmx.second) && deadline s.dch.frame.ts ≤ s.mer.now then
    let s0 := if s.pubsIn || s.tmx.missed then s else { s with tmx := { s.tmx with missed := true } }.flag TMX 13
    let s1 := s0.holdMissing
    if s1.tmx.second then s1.frameSecond t else s1
  else s

/-- TRIG_IN_EDGE: stamped by the TDC, it triggers the streams that select it (R413). -/
def trigInEdge (n : Nat) (rising : Bool) (t : Time) (s : State) : State := match s.tdcStamp (16 + n) t with
  | (some t1, s1) => s1.recPin n rising t1
  | (none, s1) => s1

/-- PPS_IN_EDGE: a servo event, and a trigger (R71, R413). -/
def ppsInEdge (t : Time) (s : State) : State := match s.tdcStamp 18 t with
  | (some t1, s1) => (s1.ppsEvent t1).recPps t1
  | (none, s1) => s1

/-- WEIR_FIRE (R113): the stamp goes to the recorder. -/
def weirFire (n : Nat) (pol : Bool) (t : Time) (s : State) : State := match s.weirFires n pol t with
  | (some t1, s1) => s1.recWeir n t1 pol
  | (none, s1) => s1

/-- DI_DECISION (R443): the filtered state of input i changes with the time of the decision. -/
def diDecision (i : Nat) (s : State) : State := match (s.diSt i).due with
  | some (t, lv, k) => (s.decide_ i t lv k).recDi i t lv
  | none => s

/-! ### What follows every command -/

/-- What follows every command and event in the same arbitration: event dispatch, behind the drop-outs that are decided (R482), the VCORE set point, and the drive. -/
def settle (s : State) : State :=
  (if s.bcp.any (·.dispatch) then s.dropsFirst else s).dispatchAll.vUpdate.driveOut.frames

/-- The outcome of a command or event whose effect leads to t: in OFF and while RST_N is low nothing happens. -/
def done (s t : State) : Host.Outcome State Fault Refusal := .next (if s.pwr.off || s.pwr.held then s else settle t)

/-- A step of an empty queue: the counter runs, and in DAWN the sequence goes on (R49, R630, log 3). -/
def idle (s : State) : State := if s.pwr.off || s.pwr.held then s else settle ((s.runClock s.mer.stride).dawnOtp.teleDue)

end Sys2Proof.Machine
end

