-- ==== Sys2Proof/Machine/Commands.lean ====
section
/-! DEFINITION. The taking of commands: descriptors, the opcodes, the register commands of the tunnel, and tunnel packets (R556, R561 to R568, R591 to R593). -/

namespace Sys2Proof.Machine

/-! ### Descriptors (R562) -/

/-- The opcode of a descriptor. -/
def cmdOp (rd : CmdRead) : Nat := leAt rd.bytes 0 2

/-- Byte 31: phase, nocmp, fence. -/
def cmdFlags (rd : CmdRead) : Nat := leAt rd.bytes 31 1

/-- The fields of a descriptor taken from a ring. -/
def cmdDesc (rd : CmdRead) (ring : Nat) (tunnel : Bool) : Desc := {
  ring := ring, tunnel := tunnel, tag := BitVec.ofNat 16 (leAt rd.bytes 2 2), nocmp := bitAt (cmdFlags rd) 1, fence := bitAt (cmdFlags rd) 0
  len := BitVec.ofNat 32 (leAt rd.bytes 4 4), addr := BitVec.ofNat 64 (leAt rd.bytes 8 8), a := BitVec.ofNat 64 (leAt rd.bytes 16 8)
  b := BitVec.ofNat 32 (leAt rd.bytes 24 4), rf := BitVec.ofNat 16 (leAt rd.bytes 28 2) }

/-! ### The commands of this chapter -/

/-- NOP, and every opcode that is no command (R566, R567). -/
def State.nopAs (s : State) (d : Desc) (op : Nat) : State := s.complete d op ST_DONE

/-- NOP (R567). -/
def nop (d : Desc) (s : State) : State := s.nopAs d 0

/-- TMX_ROWEN (R568): host writes of the enables of the masked rows. -/
def tmxRowen (d : Desc) (s : State) : State :=
  ((s.each (bitsOf 64 d.addr.toNat) fun s r => s.rowEnable r (d.a.getLsbD r)).vFloor).complete d 0x0701 ST_DONE

/-! ### Register commands of the tunnel (R593) -/

/-- One write of CSC_WR, and whether it was refused as not-now: the count of the block's notnow flag tells. -/
def State.tunWrite (s : State) (off : Nat) (v : Word) : Bool × State :=
  let ix := [off / 0x10000, 0]
  let zero := s.p BLK_FLAGCNT_count ix 0
  ((zero.hostWrite CASC off v []).g BLK_FLAGCNT_count ix ≠ 0, s.hostWrite CASC off v [])

/-- The writes of CSC_WR in order, and the number refused. -/
def tunWrites (buf : List Byte) : Nat → Nat → State → Nat × State
  | 0, _, s => (0, s)
  | n + 1, o, s =>
    let (r, s1) := s.tunWrite (leAt buf o 4) (BitVec.ofNat 32 (leAt buf (o + 4) 4))
    let (k, s2) := tunWrites buf n (o + 8) s1
    (k + b2n r, s2)

/-- CSC_WR: 1 to 64 entries of 8 bytes. -/
def cscWr (d : Desc) (buf : List Byte) (s : State) : State :=
  let len := clampN 1 64 (d.len.toNat / 8) * 8
  let s1 := s.clampDesc d 4 (b2n (len ≠ d.len.toNat))
  let (k, s2) := tunWrites buf (len / 8) 0 s1
  s2.completeWith { compOf d 0x0F01 ST_DONE with len := len, b := k }

/-- The reads of CSC_RD in order. -/
def tunReads (buf : List Byte) : Nat → Nat → State → List Byte × State
  | 0, _, s => ([], s)
  | n + 1, o, s =>
    let (v, s1) := s.hostRead (leAt buf o 4)
    let (l, s2) := tunReads buf n (o + 4) s1
    (leBytes 4 v.toNat ++ l, s2)

/-- CSC_RD: 1 to 64 offsets of 4 bytes; the values go into the buffer of a tunnel ring's descriptor. -/
def cscRd (d : Desc) (buf : List Byte) (s : State) : State :=
  let n := clampN 1 64 (d.len.toNat / 4)
  let s1 := s.clampDesc d 4 (b2n (n * 4 ≠ d.len.toNat))
  let (l, s2) := tunReads buf n 0 s1
  s2.completeWith { compOf d 0x0F02 ST_DONE with len := 4 * n, buf := if d.tunnel then l else [] }

/-! ### The opcodes (R566) -/

/-- A command that has been taken is open, and executes (R563, R566). -/
def State.run (s0 : State) (op : Nat) (d : Desc) (buf : List Byte) : State :=
  let s := s0.open_ d
  match op with
  | 0x0101 => saArm d s
  | 0x0102 => saCancel d s
  | 0x0201 => pwrState d s
  | 0x0202 => pwrBoot d buf s
  | 0x0301 => secAttest d buf s
  | 0x0302 => secSign d buf s
  | 0x0303 => secCert d s
  | 0x0304 => secEnroll d buf s
  | 0x0401 => dchSync d s
  | 0x0402 => dchSwap d s
  | 0x0501 => pheRfeed d buf s
  | 0x0601 => eleSetw d buf s
  | 0x0611 => eleResult d s
  | 0x0701 => tmxRowen d s
  | 0x0801 => bcpStart d s
  | 0x0802 => bcpStop d s
  | 0x0803 => bcpLoad d buf s
  | 0x0804 => bcpSwitch d s
  | 0x0805 => bcpMap d buf s
  | 0x0806 => bcpForce d s
  | 0x0807 => bcpUnforce d s
  | 0x0811 => bcpTout d buf s
  | 0x0901 => tstOpnd d buf s
  | 0x0A01 => recStart d s
  | 0x0A02 => recStop d s
  | 0x0A03 => recTrig d s
  | 0x0A04 => recFlref d s
  | 0x0B01 => auxConv d s
  | 0x0B02 => ptmrPulse d s
  | 0x0C01 => fioOreq d s
  | 0x0C02 => fioTpulse d s
  | 0x0D01 => rioOut d buf s
  | 0x0E01 => netTx d buf s
  | 0x0E02 => netGsub d buf s
  | 0x0E03 => netGpub d buf s
  | 0x0E04 => netSvsub d buf s
  | 0x0E05 => netSvpub d buf s
  | 0x0E06 => netKey d buf s
  | 0x0F01 => cscWr d buf s
  | 0x0F02 => cscRd d buf s
  | _ => s.nopAs d op

/-! ### COMMAND_TAKE (R556, R561, R563, R591, R592) -/

/-- The member whose commands a tunnel ring carries; none for a ring of the device's own commands. -/
def State.tunMember (s : State) (r : Nat) : Option Nat := if s.cls r = CLS_TUN then some (s.ringIdx r) else none

/-- Whether the device may take a command from ring r: the link, the ring, its class, and a descriptor posted. -/
def State.canTake (s : State) (r : Nat) : Bool :=
  s.linkOk && s.ringEn r && s.g HIF_RING_2_state [r] = 1 && s.g HIF_RING_3_d [r] ≠ (s.ring r).h && !s.cmplHold r
    && (s.cls r = CLS_CMD || (s.cls r = CLS_TUN && s.isMaster && 1 ≤ s.ringIdx r && s.ringIdx r ≤ 7))

/-- A ring goes into ERROR (R556, R561). -/
def State.ringError (s : State) (r err bit : Nat) : State :=
  ((s.p HIF_RING_2_state [r] 2).p HIF_RING_2_err [r] err).flag HIF bit

/-- The buffer of a tunnelled command is streamed under consumer TUN, one Cistern buffer at a time (R592). -/
def streamTun : Nat → List Byte → State → State
  | 0, _, s => s
  | n + 1, l, s => match s.queue 12 0 (l.take 2048) with
    | some s1 => if l.isEmpty then s else streamTun n (l.drop 2048) (s1.unqueue 12 0)
    | none => s

/-- At TUN's maximum quota the device reads no command buffer for a member (R592). -/
def State.tunPaused (s : State) (l : List Byte) : Bool := !l.isEmpty && (s.reserve 12 0 1).isNone

/-- A command from tunnel ring m goes to member m, or completes NOT_NOW while the member is not there or the stack is not FORMED (R581, R592). -/
def State.toMember (s : State) (m : Nat) (rd : CmdRead) (d : Desc) : State :=
  let s1 := s.open_ d
  if s1.stackFormed && bitAt (s1.g CSC_STAT_present) m then
    (streamTun (rd.buf.length / 2048 + 1) rd.buf s1).tunSend m ([d.ring] ++ rd.bytes.map (·.toNat) ++ rd.buf.map (·.toNat))
  else s1.complete d (cmdOp rd) ST_NOT_NOW

/-- COMMAND_TAKE of ring r: what the device has read of the command at index D, or none for a read that failed. -/
def commandTake (r : Nat) (rd : Option CmdRead) (s : State) : State :=
  if !s.canTake r then s
  else match rd with
    | none => s.ringError r 2 9
    | some c =>
      let i := s.g HIF_RING_3_d [r]
      let d := cmdDesc c r false
      if bitAt (cmdFlags c) 7 ≠ passPhase (s.g HIF_RING_2_k [r]) i then s.ringError r 1 8
      else if d.fence && s.hif.openCmds.any fun x => x.ring = r && !x.tunnel then s
      else if (s.tunMember r).isSome && s.tunPaused c.buf then s.noBuf 12
      else
        let s1 := s.p HIF_RING_3_d [r] ((i + 1) % M17)
        match s1.tunMember r with
        | some m => s1.toMember m c d
        | none => s1.run (cmdOp c) d c.buf

/-! ### TUN_PACKET (R592) -/

/-- The open command of tunnel ring index m with a tag. -/
def State.tunOpen (s : State) (m : Nat) (tag : Nat) : Option Desc :=
  s.hif.openCmds.find? fun d => !d.tunnel && s.tunMember d.ring = some m && d.tag.toNat = tag

/-- The destination of a tunnel packet, and its content as numbers. -/
def tunDest : TunMsg → Nat
  | .command dest _ _ => dest.val
  | .completion .. => 0
def tunBody : TunMsg → List Nat
  | .command _ ring rd => [ring.val] ++ rd.bytes.map (·.toNat) ++ rd.buf.map (·.toNat)
  | .completion op tag status len addr a b rf buf => [op, tag, status, len, addr, a, b, rf] ++ buf.map (·.toNat)

/-- TUN_PACKET: from the master, a command for this member; from a member, a completion for the master; else it passes on (R599). -/
def tunPacket (h : PktHead) (x : TunMsg) (s0 : State) : State :=
  let (mine, s) := s0.packetIn PK_TUN h (some (tunDest x)) (tunBody x)
  if !mine || !s.formed then s
  else match x with
    | .command _ ring rd => if s.isMember then s.run (cmdOp rd) (cmdDesc rd ring.val true) rd.buf else s
    | .completion op tag status len addr a b rf buf =>
      if !s.isMaster then s
      else match s.tunOpen h.src.val tag with
        | none => s
        | some d => s.completeWith ⟨d, op, status, len, addr, a, b, rf, buf, [], false⟩

end Sys2Proof.Machine
end

