-- ==== Sys2Proof/Machine/ExecAnalog.lean ====
section
/-! DEFINITION. The meanings of the rows for the analogue inputs, the decimation chains, the phasor engine, the elements and the Sluice. -/

namespace Sys2Proof.Machine

/-- WEIR_FIRE (R113): A weir firing is stamped and corrected, and it updates AFE_WTS, sets AFE_STS.weir and feeds the recorder and source 164 + n. -/
def execWeirFire (n : Fin 16) (pol : Bool) (t : Time) (s : State) : Host.Outcome State Fault Refusal :=
  done s (weirFire n.val pol t s)

/-- WEIR_REARM (R111): A weir re-arms once its filtered signal has returned within ±hyst × T and 40 ns have passed. -/
def execWeirRearm (n : Fin 16) (s : State) : Host.Outcome State Fault Refusal :=
  done s (weirRearm n.val s)

/-- WEIR_SETTLE (R114): A weir that has been enabled produces stamps only after 10 µs. -/
def execWeirSettle (n : Fin 16) (s : State) : Host.Outcome State Fault Refusal :=
  done s (weirSettle n.val s)

/-- AFE_WTS_READ (R113): A read of AFE_WTS[n][0] latches the other parts of the last stamp. -/
def execAfeWtsRead (n : Fin 16) (s : State) : Host.Outcome State Fault Refusal :=
  done s (rcRead (0x30400 + 16 * n.val) s)

/-- INJECTION_WINDOW (R109): Each 20 ms window that lies wholly under injection updates AFE_INJRES and AFE_INJCNT. -/
def execInjectionWindow (s : State) : Host.Outcome State Fault Refusal :=
  done s (injectionWindow s)

/-- WB_SAMPLE (R128): Each CIC1 output is trimmed, range-selected and delivered as a WB-tap sample. -/
def execWbSample (codes : List (List (Int × Bool))) (s : State) : Host.Outcome State Fault Refusal :=
  done s (wbSample codes s)

/-- MAIN_POINT_SAMPLE (R129): Each FIR-A output is trimmed, range-selected and converted to the unified word at 72 kHz. -/
def execMainPointSample (s : State) : Host.Outcome State Fault Refusal :=
  done s (mainPointSample s)

/-- FIXED_TAP_OUTPUT (R143): A FIR-B unit produces a 14 400, 4800 or 4000 samples/s output of a pipeline. -/
def execFixedTapOutput (t : Fin 3) (avail : Time) (ackNs : Nat) (s : State) : Host.Outcome State Fault Refusal :=
  done s (fixedTapOutput t.val avail ackNs s)

/-- TRACKED_INSTANT (R136): At each tracked instant t(k) the next instant is fixed from the tracking frequency. -/
def execTrackedInstant (s : State) : Host.Outcome State Fault Refusal :=
  done s (trackedInstant s)

/-- DECIMATOR_RESET (R154): At tr of an accepted device reset every chain and pipeline restarts and the tracked grid restarts. -/
def execDecimatorReset (s : State) : Host.Outcome State Fault Refusal :=
  done s (decimatorReset s)

/-- CHANNEL_RESET (R155): At the first 72 kHz grid instant after a mode change or an injection switch, the chains of the channel reset. -/
def execChannelReset (n : Fin 24) (s : State) : Host.Outcome State Fault Refusal :=
  done s (channelReset n.val s)

/-- PIPELINE_RESET (R155): At the first 72 kHz grid instant after a remap or a write of run = 1, the pipeline resets. -/
def execPipelineReset (p : Fin 24) (s : State) : Host.Outcome State Fault Refusal :=
  done s (pipelineReset p.val s)

/-- SYNC_PIN_PULSE (R153): With pinen = 1, a SYNC pulse of at least 20 ns requests a device decimator reset of cause 0. -/
def execSyncPinPulse (rising : Bool) (edge : Time) (width : Nat) (s : State) : Host.Outcome State Fault Refusal :=
  done s (syncPinPulse rising edge width s)

/-- DCH_SYNC (R153): The command requests a device decimator reset at the next multiple of 1.25 ms. -/
def execDchSync (d : Desc) (s : State) : Host.Outcome State Fault Refusal :=
  done s (dchSync d (s.open_ d))

/-- DCH_SYNCCFG_CMD (R153): A write of 1 to DCH_SYNCCFG.cmd requests a device decimator reset of cause 1. -/
def execDchSynccfgCmd (v : Word) (s : State) : Host.Outcome State Fault Refusal :=
  done s (s.hostWrite HOST 0x40110 v [])

/-- DCH_SWAP (R147): The command asks a FIR-B unit for a target bank and starts, reverses or ignores a cross-fade. -/
def execDchSwap (d : Desc) (s : State) : Host.Outcome State Fault Refusal :=
  done s (dchSwap d (s.open_ d))

/-- DCH_BDEF (R144): The write loads the default length and coefficients into the selected banks, or is not-now when a bank is in use. -/
def execDchBdef (v : Word) (s : State) : Host.Outcome State Fault Refusal :=
  done s (s.hostWrite HOST 0x40520 v [])

/-- DCH_TRKFREQ (R137): A host write of the tracking frequency applies it and restarts the hto timer. -/
def execDchTrkfreq (v : Word) (s : State) : Host.Outcome State Fault Refusal :=
  done s (s.hostWrite HOST 0x40104 v [])

/-- TRACKING_HOST_TIMEOUT (R137): After hto without a write, tracked samples carry STALE and fstale is set. -/
def execTrackingHostTimeout (s : State) : Host.Outcome State Fault Refusal :=
  done s (trackingHostTimeout s)

/-- FRAME (R22): At t0 the phasor engine holds the frame and the path of the frame runs through the table, the array and the Sluice passes. -/
def execFrame (t0 : Time) (eleNs ackNs : Nat) (s : State) : Host.Outcome State Fault Refusal :=
  done s (frame t0 eleNs ackNs s)

/-- PHE_RFEED (R184): The command feeds host data into a remote group from the next frame. -/
def execPheRfeed (d : Desc) (buf : List Byte) (s : State) : Host.Outcome State Fault Refusal :=
  done s (pheRfeed d buf (s.open_ d))

/-- PHE_HFREQ (R176): A host write of a group frequency applies it and restarts the hto timer. -/
def execPheHfreq (g : Fin 8) (v : Word) (s : State) : Host.Outcome State Fault Refusal :=
  done s (s.hostWrite HOST (0x501A0 + 4 * g.val) v [])

/-- PHE_HOST_TIMEOUT (R176): With no PHE_HFREQ write within hto, the frequency entry carries STALE and PHE_STS.hto sets. -/
def execPheHostTimeout (g : Fin 8) (s : State) : Host.Outcome State Fault Refusal :=
  done s (pheHostTimeout g.val s)

/-- REMOTE_FEED_TIMEOUT (R182): A host-fed remote group without a feed for dly frames holds its entries with STALE. -/
def execRemoteFeedTimeout (r : Fin 8) (s : State) : Host.Outcome State Fault Refusal :=
  done s (remoteFeedTimeout r.val s)

/-- ELE_SETW (R206): The command writes settings of one slot that take effect in one frame. -/
def execEleSetw (d : Desc) (buf : List Byte) (s : State) : Host.Outcome State Fault Refusal :=
  done s (eleSetw d buf (s.open_ d))

/-- ELE_RESULT (R209): The host returns the result of a host-assisted slot for a given frame. -/
def execEleResult (d : Desc) (s : State) : Host.Outcome State Fault Refusal :=
  done s (eleResult d (s.open_ d))

/-- ELE_CFG (R195): A write of a slot configuration that changes type loads defaults and re-clamps the source, or clears the state. -/
def execEleCfg (n : Fin 256) (v : Word) (s : State) : Host.Outcome State Fault Refusal :=
  done s (s.hostWrite HOST (0x60100 + 4 * n.val) v [])

/-- HOST_RESULT_AGE_EXPIRY (R211): When the result in force is older than 2 frames, the outputs hold with STALE and ELE_STS.hstale sets. -/
def execHostResultAgeExpiry (n : Fin 256) (s : State) : Host.Outcome State Fault Refusal :=
  done s (hostResultAgeExpiry n.val s)

/-- ELEMENT_TIMER_EXPIRY (R199): An element timer or integrator reaches its setting and the slot operates. -/
def execElementTimerExpiry (n : Fin 256) (s : State) : Host.Outcome State Fault Refusal :=
  done s (elementTimerExpiry n.val s)

/-- HOLD_LIMIT_EXPIRY (R202): A HOLD slot whose held time exceeds thold acts as BLOCK. -/
def execHoldLimitExpiry (n : Fin 256) (s : State) : Host.Outcome State Fault Refusal :=
  done s (holdLimitExpiry n.val s)

/-- CASCADE_CLASS_S_PASS (R272): The class-S rows with cascade operands are evaluated once the members' publications are in. -/
def execCascadeClassSPass (t : PassTimes) (s : State) : Host.Outcome State Fault Refusal :=
  done s (cascadeClassSPass t s)

/-- CASCADE_DEADLINE (R589): At the cascade deadline, missing publications count as missing and late ones are discarded. -/
def execCascadeDeadline (t : PassTimes) (s : State) : Host.Outcome State Fault Refusal :=
  done s (cascadeDeadline t s)

/-- SLACK_MISS_LIMIT (R652): nmiss consecutive slack misses are an internal fault. -/
def execSlackMissLimit (s : State) : Host.Outcome State Fault Refusal :=
  done s (slackMissLimit s)

/-- SEAL_LIMIT_EXPIRY (R285): A seal that has lasted tmax is released and TMX_STS.sealto sets. -/
def execSealLimitExpiry (r : Fin 64) (s : State) : Host.Outcome State Fault Refusal :=
  done s (sealLimitExpiry r.val s)

/-- MIN_PULSE_END (R286): Once tmin has passed without seal or act, the drive drops. -/
def execMinPulseEnd (r : Fin 64) (s : State) : Host.Outcome State Fault Refusal :=
  done s (minPulseEnd r.val s)

/-- TMX_COMMIT (R274): The write moves the shadow of a row into force at the next frame. -/
def execTmxCommit (v : Word) (s : State) : Host.Outcome State Fault Refusal :=
  done s (s.hostWrite HOST 0x70700 v [])

/-- TMX_ROW_EN (R280): A write of a row enable applies it, raising VCORE and deferring a class-S enable where needed. -/
def execTmxRowEn (r : Fin 64) (v : Word) (s : State) : Host.Outcome State Fault Refusal :=
  done s (s.hostWrite HOST (0x70100 + 4 * r.val) v [])

/-- TMX_ROWEN (R568): The command writes the enables of the masked rows for the host. -/
def execTmxRowen (d : Desc) (s : State) : Host.Outcome State Fault Refusal :=
  done s (tmxRowen d (s.open_ d))

/-- TCS_ON_CHECK (R298): Without an output current above 20 mA within 5 ms of an on-command, the on-state bit sets. -/
def execTcsOnCheck (o : Fin 16) (sensed : Bool) (s : State) : Host.Outcome State Fault Refusal :=
  done s (tcsOnCheck o.val sensed s)

end Sys2Proof.Machine
end

