-- ==== Sys2Proof/Machine/ExecBase.lean ====
section
/-! DEFINITION. The meanings of the rows for the register file, Meridian, its sources and the scheduled actions. -/

namespace Sys2Proof.Machine

/-- REGISTER_WRITE (R9): A host or tunnel write to a register that has no row of its own stores its fields after clamping, or is refused as not-now. -/
def execRegisterWrite (a : HostAddr) (be : BitVec 4) (v : Word) (s : State) : Host.Outcome State Fault Refusal :=
  done s (hostStore a be v s)

/-- RC_READ (R10): A read of an RC field returns its value and clears it, with a concurrent hardware event ordered after the read. -/
def execRcRead (a : HostAddr) (s : State) : Host.Outcome State Fault Refusal :=
  done s (hostLoad a s)

/-- LOCK (R11): A write of 1 to XXX_CTRL.lock locks every RWL field of the block until a reset of the block's domain. -/
def execLock (blk : Fin 21) (s : State) : Host.Outcome State Fault Refusal :=
  done s (s.ctrlWrite blk.val 2)

/-- SOFT_RESET (R28): A write of 1 to XXX_CTRL.srst resets the block's BLK domain with the effects that the block's chapter states, or is refused as not-now. -/
def execSoftReset (blk : Fin 21) (s : State) : Host.Outcome State Fault Refusal :=
  done s (s.ctrlWrite blk.val 1)

/-- PTP_SYNC_RECEIVE (R516): A PTP Sync message on a SLAVE port is a servo event of source code p. -/
def execPtpSyncReceive (h : RxHead) (domain : Nat) (sender : BitVec 64) (m : PtpSync) (corr : Int) (residence : Nat) (s : State) : Host.Outcome State Fault Refusal :=
  done s (ptpSyncReceive h domain sender m corr residence s)

/-- IRIGB_FRAME (R64): A received IRIG-B frame is decoded as UTC and its on-time edge serves as a servo event. -/
def execIrigbFrame (f : IrigFrame) (edge : Time) (s : State) : Host.Outcome State Fault Refusal :=
  done s (irigbFrame f edge s)

/-- PPS_IN_EDGE (R71): A rising PPS_IN edge is stamped by the TDC, corrected by MER_DLY[0], and serves as a servo event. -/
def execPpsInEdge (t : Time) (s : State) : Host.Outcome State Fault Refusal :=
  done s (ppsInEdge t s)

/-- SOURCE_LOST (R53): A source whose events stop for its loss time becomes unqualified at once. -/
def execSourceLost (c : Fin 11) (s : State) : Host.Outcome State Fault Refusal :=
  done s (sourceLost c.val s)

/-- SOURCE_QUALIFY (R53): A source that has delivered valid events for MER_QUAL.qual seconds becomes qualified. -/
def execSourceQualify (c : Fin 11) (s : State) : Host.Outcome State Fault Refusal :=
  done s (sourceQualify c.val s)

/-- WAIT_TO_RESTORE (R54): With revert = 1, a higher-priority source that has stayed qualified for MER_QUAL.wtr seconds is selected. -/
def execWaitToRestore (c : Fin 12) (s : State) : Host.Outcome State Fault Refusal :=
  done s (waitToRestore c.val s)

/-- TQ_EVALUATE (R61): The time-quality transitions are evaluated once per second when no source event arrives. -/
def execTqEvaluate (s : State) : Host.Outcome State Fault Refusal :=
  done s (tqEvaluate s)

/-- TQ_LOCK (R61): After lockcnt consecutive offsets within lockthr, tq becomes LOCKED and MER_STS.tqchg sets. -/
def execTqLock (s : State) : Host.Outcome State Fault Refusal :=
  done s (tqLock s)

/-- HOLDOVER_LIMIT (R61): When HOLDOVER has lasted MER_HOLD.limit seconds, tq becomes FREE. -/
def execHoldoverLimit (s : State) : Host.Outcome State Fault Refusal :=
  done s (holdoverLimit s)

/-- HOST_CORRECTION_TIMEOUT (R57): In host-assisted mode, no MER_HFREQ or MER_HPHASE write within hcto sets MER_STS.hcto and turns LOCKED into HOLDOVER. -/
def execHostCorrectionTimeout (s : State) : Host.Outcome State Fault Refusal :=
  done s (hostCorrectionTimeout s)

/-- MER_HFREQ (R57): A host write of the frequency adjustment applies it and restarts the host-correction timeout. -/
def execMerHfreq (v : Word) (s : State) : Host.Outcome State Fault Refusal :=
  done s (s.hostWrite HOST 0x20120 v [])

/-- MER_HPHASE (R58): A host phase correction is slewed or stepped and restarts the host-correction timeout. -/
def execMerHphase (v : Word) (s : State) : Host.Outcome State Fault Refusal :=
  done s (s.hostWrite HOST 0x20124 v [])

/-- SLEW_SPENT (R58): When a slewed correction has been spent, its temporary frequency offset ends. -/
def execSlewSpent (s : State) : Host.Outcome State Fault Refusal :=
  done s (slewSpent s)

/-- MER_TSET_HI (R60): The write gives the next whole second the label formed with MER_TSET_LO, as a step. -/
def execMerTsetHi (v : Word) (s : State) : Host.Outcome State Fault Refusal :=
  done s (s.hostWrite HOST 0x20144 v [])

/-- MER_NOW_SLO (R48): A read returns the present seconds and latches MER_NOW_HI and MER_NOW_NS at the same instant. -/
def execMerNowSlo (s : State) : Host.Outcome State Fault Refusal :=
  done s (rcRead 0x20130 s)

/-- PPS_OUT_RISE (R66): 1PPS out rises at each Meridian whole second, after the MER_DLY[2] compensation. -/
def execPpsOutRise (s : State) : Host.Outcome State Fault Refusal :=
  done s (ppsOutRise s)

/-- PPS_OUT_FALL (R66): 1PPS out falls after MER_PORT.ppsw milliseconds. -/
def execPpsOutFall (s : State) : Host.Outcome State Fault Refusal :=
  done s (ppsOutFall s)

/-- IRIGB_OUT_FRAME (R65): With irigen = 1, an IRIG-B B004 frame is sent with its on-time edge at the Meridian whole second. -/
def execIrigbOutFrame (s : State) : Host.Outcome State Fault Refusal :=
  done s (irigbOutFrame s)

/-- TRIG_IN_EDGE (R413): An edge on TRIG_IN0 or TRIG_IN1 is stamped by the TDC and triggers the streams that select it. -/
def execTrigInEdge (n : Fin 2) (rising : Bool) (t : Time) (s : State) : Host.Outcome State Fault Refusal :=
  done s (trigInEdge n.val rising t s)

/-- TDC_REARM (R72): A TDC channel re-arms 40 ns after a stamp. -/
def execTdcRearm (c : Fin 20) (s : State) : Host.Outcome State Fault Refusal :=
  done s (tdcRearm c.val s)

/-- SA_ARM (R79): The command arms a scheduled-action slot with a time, an action and an argument. -/
def execSaArm (d : Desc) (s : State) : Host.Outcome State Fault Refusal :=
  done s (saArm d (s.open_ d))

/-- SA_CANCEL (R81): The command frees an armed slot and completes its arm with cancelled = 1. -/
def execSaCancel (d : Desc) (s : State) : Host.Outcome State Fault Refusal :=
  done s (saCancel d (s.open_ d))

/-- ACTION_EXECUTE (R75): At the action time of an armed slot its action takes effect and the slot completes DONE or LATE. -/
def execActionExecute (i : Fin 64) (s : State) : Host.Outcome State Fault Refusal :=
  done s (actionExecute i.val s)

/-- OUT_PULSE_END (R73): The scheduled request of an OUT_SET with a non-zero length clears after the length. -/
def execOutPulseEnd (o : Fin 16) (s : State) : Host.Outcome State Fault Refusal :=
  done s (outPulseEnd o.val s)

/-- LAUNCH_PACKET (R82): A member receives a stack-wide arm and places it in its slot of the same number or refuses it. -/
def execLaunchPacket (slot : Fin 64) (p : PktTime) (action : Nat) (arg : Word) (s : State) : Host.Outcome State Fault Refusal :=
  done s (launchPacket slot.val p action arg s)

/-- LAUNCHRES_PACKET (R84): The master receives a member's launch outcome and completes the arm once every member has executed or refused. -/
def execLaunchresPacket (h : PktHead) (slot : Fin 64) (st : Nat) (s : State) : Host.Outcome State Fault Refusal :=
  done s (launchresPacket h slot.val st s)

/-- NEXT_WHOLE_SECOND_LABEL (R60): At the next Meridian whole second after a MER_TSET_HI write, that second takes the label formed with MER_TSET_LO as a step of Meridian. -/
def execNextWholeSecondLabel (s : State) : Host.Outcome State Fault Refusal :=
  done s (nextWholeSecondLabel s)

end Sys2Proof.Machine
end

