-- ==== Sys2Proof/Machine/ExecBcp.lean ====
section
/-! DEFINITION. The meanings of the rows for the block-code processors: tasks, commands, instructions and library blocks. -/

namespace Sys2Proof.Machine

/-- TIME_TASK_RELEASE (R311): A TIME task is released at its Meridian release instants. -/
def execTimeTaskRelease (b : Fin 4) (t : Fin 16) (s : State) : Host.Outcome State Fault Refusal :=
  done s (timeTaskRelease b.val t.val s)

/-- KOVER_REACHED (R324): A task's consecutive count reaches kover and the watchdog fallback starts. -/
def execKoverReached (b : Fin 4) (s : State) : Host.Outcome State Fault Refusal :=
  done s (koverReached b.val s)

/-- WATCHDOG_EXPIRY (R324): An instance has run longer than its wdt and the watchdog fallback starts. -/
def execWatchdogExpiry (b : Fin 4) (s : State) : Host.Outcome State Fault Refusal :=
  done s (watchdogExpiry b.val s)

/-- SWITCH_POINT (R335): At the first switch point of a PENDING switch the instance data is carried over and the banks swap. -/
def execSwitchPoint (b : Fin 4) (s : State) : Host.Outcome State Fault Refusal :=
  done s (switchPoint b.val s)

/-- SWITCH_TIMEOUT (R334): Without a switch point within swto, the BCP holds new releases. -/
def execSwitchTimeout (b : Fin 4) (s : State) : Host.Outcome State Fault Refusal :=
  done s (switchTimeout b.val s)

/-- BCP_LOAD_CHECKED (R355): The load checks of an image end and BCP_LOAD completes DONE or AUTH_FAIL. -/
def execBcpLoadChecked (b : Fin 4) (s : State) : Host.Outcome State Fault Refusal :=
  done s (bcpLoadChecked b.val s)

/-- BCP_IMASK (R320): A write of the event-dispatch mask holds dispatch, and its clearing is a dispatch point. -/
def execBcpImask (b : Fin 4) (v : Word) (s : State) : Host.Outcome State Fault Refusal :=
  done s (s.hostWrite HOST (0x80130 + 4 * b.val) v [])

/-- BCP_START (R306): The command starts a BCP with a cold or warm start. -/
def execBcpStart (d : Desc) (s : State) : Host.Outcome State Fault Refusal :=
  done s (bcpStart d (s.open_ d))

/-- BCP_STOP (R307): The command stops a BCP at the next instruction boundary. -/
def execBcpStop (d : Desc) (s : State) : Host.Outcome State Fault Refusal :=
  done s (bcpStop d (s.open_ d))

/-- BCP_LOAD (R330): The command loads and verifies an image into the inactive bank. -/
def execBcpLoad (d : Desc) (buf : List Byte) (s : State) : Host.Outcome State Fault Refusal :=
  done s (bcpLoad d buf (s.open_ d))

/-- BCP_SWITCH (R332): The command makes the switch to the prepared bank PENDING. -/
def execBcpSwitch (d : Desc) (s : State) : Host.Outcome State Fault Refusal :=
  done s (bcpSwitch d (s.open_ d))

/-- BCP_MAP (R337): The command loads the host map for the inactive bank. -/
def execBcpMap (d : Desc) (buf : List Byte) (s : State) : Host.Outcome State Fault Refusal :=
  done s (bcpMap d buf (s.open_ d))

/-- BCP_FORCE (R328): The command forces one variable of a BCP. -/
def execBcpForce (d : Desc) (s : State) : Host.Outcome State Fault Refusal :=
  done s (bcpForce d (s.open_ d))

/-- BCP_UNFORCE (R329): The command releases one force or every force of a BCP. -/
def execBcpUnforce (d : Desc) (s : State) : Host.Outcome State Fault Refusal :=
  done s (bcpUnforce d (s.open_ d))

/-- BCP_TOUT (R341): The host returns the output image of a host-assisted task, applied as its task end. -/
def execBcpTout (d : Desc) (buf : List Byte) (s : State) : Host.Outcome State Fault Refusal :=
  done s (bcpTout d buf (s.open_ d))

/-- FBC_NOP (R363): The NOP instruction does nothing. -/
def execFbcNop (b : Fin 4) (s : State) : Host.Outcome State Fault Refusal :=
  done s (fbcNop b.val s)

/-- LDI (R363): Push the immediate as LINT. -/
def execLdi (b : Fin 4) (s : State) : Host.Outcome State Fault Refusal :=
  done s (ldi b.val s)

/-- LDC (R363): Push a constant-pool entry. -/
def execLdc (b : Fin 4) (s : State) : Host.Outcome State Fault Refusal :=
  done s (ldc b.val s)

/-- DUP (R363): Duplicate the top cell. -/
def execDup (b : Fin 4) (s : State) : Host.Outcome State Fault Refusal :=
  done s (dup b.val s)

/-- DROP (R363): Drop the top cell. -/
def execDrop (b : Fin 4) (s : State) : Host.Outcome State Fault Refusal :=
  done s (drop b.val s)

/-- SWAP (R363): Exchange the two top cells. -/
def execSwap (b : Fin 4) (s : State) : Host.Outcome State Fault Refusal :=
  done s (swap b.val s)

/-- OVER (R363): Copy the second cell to the top. -/
def execFbcOver (b : Fin 4) (s : State) : Host.Outcome State Fault Refusal :=
  done s (fbcOver b.val s)

/-- ROT (R363): Rotate the three top cells. -/
def execRot (b : Fin 4) (s : State) : Host.Outcome State Fault Refusal :=
  done s (rot b.val s)

/-- LDL (R360): Load from IP plus an offset. -/
def execLdl (b : Fin 4) (s : State) : Host.Outcome State Fault Refusal :=
  done s (ldl b.val s)

/-- STL (R360): Store to IP plus an offset. -/
def execStl (b : Fin 4) (s : State) : Host.Outcome State Fault Refusal :=
  done s (stl b.val s)

/-- LDG (R360): Load from an absolute offset. -/
def execLdg (b : Fin 4) (s : State) : Host.Outcome State Fault Refusal :=
  done s (ldg b.val s)

/-- STG (R360): Store to an absolute offset. -/
def execStg (b : Fin 4) (s : State) : Host.Outcome State Fault Refusal :=
  done s (stg b.val s)

/-- LDX (R360): Load from a popped address. -/
def execLdx (b : Fin 4) (s : State) : Host.Outcome State Fault Refusal :=
  done s (ldx b.val s)

/-- STX (R360): Store to a popped address. -/
def execStx (b : Fin 4) (s : State) : Host.Outcome State Fault Refusal :=
  done s (stx b.val s)

/-- LEA (R363): Push IP plus an offset as an address. -/
def execLea (b : Fin 4) (s : State) : Host.Outcome State Fault Refusal :=
  done s (lea b.val s)

/-- QGET (R357): Push the quality tag of the top cell. -/
def execQget (b : Fin 4) (s : State) : Host.Outcome State Fault Refusal :=
  done s (qget b.val s)

/-- QSET (R357): Set the quality tag of a cell. -/
def execQset (b : Fin 4) (s : State) : Host.Outcome State Fault Refusal :=
  done s (qset b.val s)

/-- ADD (R365): Add with saturation. -/
def execAdd (b : Fin 4) (s : State) : Host.Outcome State Fault Refusal :=
  done s (fbcAdd b.val s)

/-- SUB (R365): Subtract with saturation. -/
def execSub (b : Fin 4) (s : State) : Host.Outcome State Fault Refusal :=
  done s (fbcSub b.val s)

/-- MUL (R365): Multiply with saturation. -/
def execMul (b : Fin 4) (s : State) : Host.Outcome State Fault Refusal :=
  done s (fbcMul b.val s)

/-- DIV (R365): Divide, with defined results for division by zero. -/
def execDiv (b : Fin 4) (s : State) : Host.Outcome State Fault Refusal :=
  done s (fbcDiv b.val s)

/-- MOD (R365): Remainder with the sign of the dividend. -/
def execMod (b : Fin 4) (s : State) : Host.Outcome State Fault Refusal :=
  done s (fbcMod b.val s)

/-- NEG (R365): Negate. -/
def execNeg (b : Fin 4) (s : State) : Host.Outcome State Fault Refusal :=
  done s (fbcNeg b.val s)

/-- ABS (R365): Absolute value. -/
def execAbs (b : Fin 4) (s : State) : Host.Outcome State Fault Refusal :=
  done s (fbcAbs b.val s)

/-- MIN (R363): Smaller of two cells. -/
def execMin (b : Fin 4) (s : State) : Host.Outcome State Fault Refusal :=
  done s (fbcMin b.val s)

/-- MAX (R363): Larger of two cells. -/
def execMax (b : Fin 4) (s : State) : Host.Outcome State Fault Refusal :=
  done s (fbcMax b.val s)

/-- LIMIT (R363): Limit a value between a minimum and a maximum. -/
def execLimit (b : Fin 4) (s : State) : Host.Outcome State Fault Refusal :=
  done s (limit b.val s)

/-- CVT (R367): Convert between types by the rules of the type table. -/
def execCvt (b : Fin 4) (s : State) : Host.Outcome State Fault Refusal :=
  done s (cvt b.val s)

/-- MATH (R366): Apply a floating-point function selected by the operand. -/
def execMath (b : Fin 4) (s : State) : Host.Outcome State Fault Refusal :=
  done s (math b.val s)

/-- CMP (R366): Compare two cells under a condition and push a BOOL. -/
def execCmp (b : Fin 4) (s : State) : Host.Outcome State Fault Refusal :=
  done s (cmp b.val s)

/-- SEL (R364): Select one of two cells by a condition. -/
def execSel (b : Fin 4) (s : State) : Host.Outcome State Fault Refusal :=
  done s (sel b.val s)

/-- AND (R363): Bitwise AND. -/
def execAnd (b : Fin 4) (s : State) : Host.Outcome State Fault Refusal :=
  done s (fbcAnd b.val s)

/-- OR (R363): Bitwise OR. -/
def execOr (b : Fin 4) (s : State) : Host.Outcome State Fault Refusal :=
  done s (fbcOr b.val s)

/-- XOR (R363): Bitwise XOR. -/
def execXor (b : Fin 4) (s : State) : Host.Outcome State Fault Refusal :=
  done s (fbcXor b.val s)

/-- NOT (R363): Boolean or bitwise complement. -/
def execNot (b : Fin 4) (s : State) : Host.Outcome State Fault Refusal :=
  done s (fbcNot b.val s)

/-- SHL (R365): Shift left within the width of the type. -/
def execShl (b : Fin 4) (s : State) : Host.Outcome State Fault Refusal :=
  done s (shl b.val s)

/-- SHR (R365): Logical shift right within the width of the type. -/
def execShr (b : Fin 4) (s : State) : Host.Outcome State Fault Refusal :=
  done s (shr b.val s)

/-- JMP (R363): Jump by a signed offset. -/
def execJmp (b : Fin 4) (s : State) : Host.Outcome State Fault Refusal :=
  done s (jmp b.val s)

/-- JZ (R363): Jump when the popped cell is 0. -/
def execJz (b : Fin 4) (s : State) : Host.Outcome State Fault Refusal :=
  done s (jz b.val s)

/-- JNZ (R363): Jump when the popped cell is not 0. -/
def execJnz (b : Fin 4) (s : State) : Host.Outcome State Fault Refusal :=
  done s (jnz b.val s)

/-- CALL (R361): Call an FB instance. -/
def execCall (b : Fin 4) (s : State) : Host.Outcome State Fault Refusal :=
  done s (call b.val s)

/-- RET (R361): Return from an FB, or end the instance when the call stack is empty. -/
def execRet (b : Fin 4) (s : State) : Host.Outcome State Fault Refusal :=
  done s (ret b.val s)

/-- CALLX (R369): A library-block call with an unlisted block or a parameter block outside the region executes as NOP and sets the flag. -/
def execCallx (b : Fin 4) (s : State) : Host.Outcome State Fault Refusal :=
  done s (callx b.val s)

/-- TEND (R314): End the instance and apply its output image in one arbitration. -/
def execTend (b : Fin 4) (s : State) : Host.Outcome State Fault Refusal :=
  done s (tend b.val s)

/-- AFLAG (R368): Push the arithmetic flag. -/
def execAflag (b : Fin 4) (s : State) : Host.Outcome State Fault Refusal :=
  done s (aflag b.val s)

/-- NOW (R363): Push the present Meridian time. -/
def execNow (b : Fin 4) (s : State) : Host.Outcome State Fault Refusal :=
  done s (now b.val s)

/-- TON (R370): On-delay timer block. -/
def execTon (b : Fin 4) (s : State) : Host.Outcome State Fault Refusal :=
  done s (ton b.val s)

/-- TOF (R370): Off-delay timer block. -/
def execTof (b : Fin 4) (s : State) : Host.Outcome State Fault Refusal :=
  done s (tof b.val s)

/-- TP (R370): Pulse timer block. -/
def execTp (b : Fin 4) (s : State) : Host.Outcome State Fault Refusal :=
  done s (tp b.val s)

/-- R_TRIG (R370): Rising-edge detector block. -/
def execRTrig (b : Fin 4) (s : State) : Host.Outcome State Fault Refusal :=
  done s (rTrig b.val s)

/-- F_TRIG (R370): Falling-edge detector block. -/
def execFTrig (b : Fin 4) (s : State) : Host.Outcome State Fault Refusal :=
  done s (fTrig b.val s)

/-- CTU (R370): Up-counter block. -/
def execCtu (b : Fin 4) (s : State) : Host.Outcome State Fault Refusal :=
  done s (ctu b.val s)

/-- CTD (R370): Down-counter block. -/
def execCtd (b : Fin 4) (s : State) : Host.Outcome State Fault Refusal :=
  done s (ctd b.val s)

/-- SR (R370): Set-dominant bistable block. -/
def execSr (b : Fin 4) (s : State) : Host.Outcome State Fault Refusal :=
  done s (sr b.val s)

/-- RS (R370): Reset-dominant bistable block. -/
def execRs (b : Fin 4) (s : State) : Host.Outcome State Fault Refusal :=
  done s (rs b.val s)

/-- ELEREAD (R371): Read the state and accumulator of an element slot. -/
def execEleread (b : Fin 4) (s : State) : Host.Outcome State Fault Refusal :=
  done s (eleread b.val s)

/-- QREAD (R371): Read one or two quantity-table entries of one frame. -/
def execQread (b : Fin 4) (s : State) : Host.Outcome State Fault Refusal :=
  done s (qread b.val s)

/-- ROWEN (R372): Place a row enable in the output image when the BCP controls the row. -/
def execRowen (b : Fin 4) (s : State) : Host.Outcome State Fault Refusal :=
  done s (rowen b.val s)

/-- SAARM (R373): Arm a scheduled-action slot that the BCP owns. -/
def execSaarm (b : Fin 4) (s : State) : Host.Outcome State Fault Refusal :=
  done s (saarm b.val s)

/-- SACANCEL (R373): Cancel a scheduled-action slot that the BCP owns. -/
def execSacancel (b : Fin 4) (s : State) : Host.Outcome State Fault Refusal :=
  done s (sacancel b.val s)

/-- SAREAD (R373): Read the state and last completion of a scheduled-action slot. -/
def execSaread (b : Fin 4) (s : State) : Host.Outcome State Fault Refusal :=
  done s (saread b.val s)

/-- RECMARK (R374): Insert a user mark into the selected record streams. -/
def execRecmark (b : Fin 4) (s : State) : Host.Outcome State Fault Refusal :=
  done s (recmark b.val s)

end Sys2Proof.Machine
end

