-- ==== Sys2Proof/Machine/ExecChip.lean ====
section
/-! DEFINITION. The meanings of the rows for security, power and start-up, test and bypass. -/

namespace Sys2Proof.Machine

/-- SEC_ATTEST (R617): The command requests a signed device report for a nonce. -/
def execSecAttest (d : Desc) (buf : List Byte) (s : State) : Host.Outcome State Fault Refusal :=
  done s (secAttest d buf (s.open_ d))

/-- SEC_SIGN (R617): The command requests a signed report of a host digest. -/
def execSecSign (d : Desc) (buf : List Byte) (s : State) : Host.Outcome State Fault Refusal :=
  done s (secSign d buf (s.open_ d))

/-- SEC_CERT (R608): The command returns the device certificate. -/
def execSecCert (d : Desc) (s : State) : Host.Outcome State Fault Refusal :=
  done s (secCert d (s.open_ d))

/-- SEC_ENROLL (R610): The command programs the next owner generation. -/
def execSecEnroll (d : Desc) (buf : List Byte) (s : State) : Host.Outcome State Fault Refusal :=
  done s (secEnroll d buf (s.open_ d))

/-- SIGNING_COMPLETE (R621): A signing operation ends and its report is written. -/
def execSigningComplete (s : State) : Host.Outcome State Fault Refusal :=
  done s (signingComplete s)

/-- ENROLL_COMMIT (R610): The commit marker of an owner generation is written and the enrolment completes. -/
def execEnrollCommit (s : State) : Host.Outcome State Fault Refusal :=
  done s (enrollCommit s)

/-- POR (R627): A rise of VSUP through 16.5 V releases the POR reset. -/
def execPor (s : State) : Host.Outcome State Fault Refusal :=
  .next (settle (por s))

/-- BOOT_IMAGE_CHECKED (R614): A boot image passes its checks and the DAWN sequence continues to MORNING. -/
def execBootImageChecked (flash : Option (List Byte)) (s : State) : Host.Outcome State Fault Refusal :=
  done s (bootImageChecked flash s)

/-- PWR_BOOT (R633): The command supplies a boot image from the host. -/
def execPwrBoot (d : Desc) (buf : List Byte) (s : State) : Host.Outcome State Fault Refusal :=
  done s (pwrBoot d buf (s.open_ d))

/-- PWR_STATE (R635): The command requests a device state. -/
def execPwrState (d : Desc) (s : State) : Host.Outcome State Fault Refusal :=
  done s (pwrState d (s.open_ d))

/-- VSUP_LOW (R627): VSUP below 16.5 V sets PWR_STS.vlow. -/
def execVsupLow (s : State) : Host.Outcome State Fault Refusal :=
  done s (vsupLow s)

/-- VSUP_FAIL (R627): VSUP below 14.0 V for 100 µs takes the device to OFF. -/
def execVsupFail (s : State) : Host.Outcome State Fault Refusal :=
  .next (settle (vsupFail s))

/-- RST_N (R642): RST_N low for at least 1 µs causes a SYS reset, and DAWN starts at its release. -/
def execRstN (s : State) : Host.Outcome State Fault Refusal :=
  .next (settle (rstN s))

/-- PWR_RESET (R642): A write of 16#D15A causes a SYS reset. -/
def execPwrReset (v : Word) (s : State) : Host.Outcome State Fault Refusal :=
  done s (s.hostWrite HOST 0x10120 v [])

/-- REFCLK_LOSS (R634): Absence of REFCLK for 10 ms enters SAFE. -/
def execRefclkLoss (s : State) : Host.Outcome State Fault Refusal :=
  done s (refclkLoss s)

/-- VCORE_CONFIRM (R639): The set point and measured VCORE reach 0.72 V and ok720 becomes 1. -/
def execVcoreConfirm (mv : Nat) (s : State) : Host.Outcome State Fault Refusal :=
  done s (vcoreConfirm mv s)

/-- WAKE (R629): A presented wake source or PWR_STATE takes the device from NIGHT to MORNING. -/
def execWake (s : State) : Host.Outcome State Fault Refusal :=
  done s (wake s)

/-- TEMPERATURE_MEASURE (R641): Each die temperature is measured every 1 ms. -/
def execTemperatureMeasure (dig ana io : Int) (vsup : Nat) (s : State) : Host.Outcome State Fault Refusal :=
  done s (temperatureMeasure dig ana io vsup s)

/-- DUSK_RETURN (R638): After thermal warning has been deasserted for 10 s, the device returns from DUSK to NOON. -/
def execDuskReturn (s : State) : Host.Outcome State Fault Refusal :=
  done s (duskReturn s)

/-- PACE_MEASURE (R640): PWR_PACE counts reference handshakes per microsecond and sets slowpace below pmin. -/
def execPaceMeasure (n : Nat) (s : State) : Host.Outcome State Fault Refusal :=
  done s (paceMeasure n s)

/-- TST_OPND (R646): The command supplies test operands to a TEST-mode slot. -/
def execTstOpnd (d : Desc) (buf : List Byte) (s : State) : Host.Outcome State Fault Refusal :=
  done s (tstOpnd d buf (s.open_ d))

/-- TST_MSUB (R650): A write of Meridian substitution selects free-run and reports the substituted tq. -/
def execTstMsub (v : Word) (s : State) : Host.Outcome State Fault Refusal :=
  done s (s.hostWrite HOST 0x140110 v [])

/-- SCRUB (R651): The scrubber reads and corrects SRAM words. -/
def execScrub (err : Fin 3) (blk : Fin 21) (s : State) : Host.Outcome State Fault Refusal :=
  done s (scrub err.val blk.val s)

/-- INTERDIE_STALL (R652): A channel between the dies without acknowledge for 20 µs is an internal fault. -/
def execInterdieStall (io : Bool) (s : State) : Host.Outcome State Fault Refusal :=
  done s (interdieStall io s)

/-- CLASS_S_STALL (R652): A class-S path stage without progress for 100 µs is an internal fault. -/
def execClassSStall (stage : Fin 3) (s : State) : Host.Outcome State Fault Refusal :=
  done s (classSStall stage.val s)

/-- VCORE_LOW (R652): VCORE below 0.70 V for 10 µs while a class-S row is enabled is an internal fault. -/
def execVcoreLow (mv : Nat) (s : State) : Host.Outcome State Fault Refusal :=
  done s (vcoreLow mv s)

/-- BLOCK_STALL (R654): A block without progress for stallt is reset as by its srst. -/
def execBlockStall (blk : Fin 21) (s : State) : Host.Outcome State Fault Refusal :=
  done s (blockStall blk.val s)

/-- EXTEST (R655): The boundary-scan EXTEST instruction. -/
def execExtest (lanes : Bool) (s : State) : Host.Outcome State Fault Refusal :=
  done s (extest lanes s)

/-- IDCODE (R656): The IDCODE instruction selects the identification register. -/
def execIdcode (s : State) : Host.Outcome State Fault Refusal :=
  done s (idcode s)

/-- SAMPLE_PRELOAD (R655): The SAMPLE/PRELOAD instruction. -/
def execSamplePreload (s : State) : Host.Outcome State Fault Refusal :=
  done s (samplePreload s)

/-- FIELD_CLAMP (R655): The CLAMP instruction. -/
def execFieldClamp (s : State) : Host.Outcome State Fault Refusal :=
  done s (fieldClamp s)

/-- HIGHZ (R655): The HIGHZ instruction. -/
def execHighz (s : State) : Host.Outcome State Fault Refusal :=
  done s (highz s)

/-- EXTEST_PULSE (R655): The IEEE 1149.6 EXTEST_PULSE instruction. -/
def execExtestPulse (s : State) : Host.Outcome State Fault Refusal :=
  done s (extestPulse s)

/-- EXTEST_TRAIN (R655): The IEEE 1149.6 EXTEST_TRAIN instruction. -/
def execExtestTrain (s : State) : Host.Outcome State Fault Refusal :=
  done s (extestTrain s)

/-- BYPASS (R655): The BYPASS instruction, also loaded for every other code. -/
def execBypass (s : State) : Host.Outcome State Fault Refusal :=
  done s (bypass s)

/-- RST_N_RELEASE (R642): The rising edge of RST_N ends the held reset, and the DAWN sequence starts with that instant as tp. -/
def execRstNRelease (s : State) : Host.Outcome State Fault Refusal :=
  .next (settle (rstNRelease s))

end Sys2Proof.Machine
end

