-- ==== Sys2Proof/Machine/ExecField.lean ====
section
/-! DEFINITION. The meanings of the rows for interrupts, the recorder, field I/O, remote I/O, converters and timers. -/

namespace Sys2Proof.Machine

/-- ICU_TAKE (R384): The host claims a pending source, or the TAKE counts as bad. -/
def execIcuTake (src : BitVec 8) (s : State) : Host.Outcome State Fault Refusal :=
  done s (s.hostWrite HOST 0x90110 (src.setWidth 32) [])

/-- ICU_DONE (R386): The taker releases an active source, or the DONE counts as bad. -/
def execIcuDone (src : BitVec 8) (s : State) : Host.Outcome State Fault Refusal :=
  done s (s.hostWrite HOST 0x90114 (src.setWidth 32) [])

/-- ICU_SWSET (R378): A write of 1 raises a software interrupt source. -/
def execIcuSwset (j : Fin 5) (v : Word) (s : State) : Host.Outcome State Fault Refusal :=
  done s (s.hostWrite HOST (0x90120 + 4 * j.val) v [])

/-- ICU_RAW (R392): A host write of 1 clears the pending bit of an edge source. -/
def execIcuRaw (k : Fin 8) (v : Word) (s : State) : Host.Outcome State Fault Refusal :=
  done s (s.hostWrite HOST (0x90140 + 4 * k.val) v [])

/-- ICU_EN (R383): A write of enables gates presentation and presents pending sources. -/
def execIcuEn (k : Fin 8) (v : Word) (s : State) : Host.Outcome State Fault Refusal :=
  done s (s.hostWrite HOST (0x90160 + 4 * k.val) v [])

/-- ICU_SRC (R393): A write of target, vector or wake moves presentation to a new target, or is not-now while the source is active. -/
def execIcuSrc (n : Fin 256) (v : Word) (s : State) : Host.Outcome State Fault Refusal :=
  done s (s.hostWrite HOST (0x90400 + 4 * n.val) v [])

/-- ICU_MODE (R401): Entry into compatibility mode fixes the targets of sources 0 to 127. -/
def execIcuMode (v : Word) (s : State) : Host.Outcome State Fault Refusal :=
  done s (s.hostWrite HOST 0x90100 v [])

/-- LEVEL_CHANGE (R380): The level of a level source changes its pending bit, and a rise counts as one raise. -/
def execLevelChange (n : Fin 256) (lv : Bool) (s : State) : Host.Outcome State Fault Refusal :=
  done s (levelChange n.val lv s)

/-- MSIX_VECTOR_UNMASK (R397): Unmasking a vector with its PBA bit set sends one message. -/
def execMsixVectorUnmask (vec : Fin 64) (s : State) : Host.Outcome State Fault Refusal :=
  done s (s.hostWrite HOST (0x11800C + 16 * vec.val) 0 [])

/-- REC_START (R410): The command starts a record stream in RUN or ARMED. -/
def execRecStart (d : Desc) (s : State) : Host.Outcome State Fault Refusal :=
  done s (recStart d (s.open_ d))

/-- REC_STOP (R436): The command ends a stream with an END mark of cause 1. -/
def execRecStop (d : Desc) (s : State) : Host.Outcome State Fault Refusal :=
  done s (recStop d (s.open_ d))

/-- REC_TRIG (R414): The command triggers the selected streams. -/
def execRecTrig (d : Desc) (s : State) : Host.Outcome State Fault Refusal :=
  done s (recTrig d (s.open_ d))

/-- REC_FLREF (R435): The command writes a host-refined distance to entry 78. -/
def execRecFlref (d : Desc) (s : State) : Host.Outcome State Fault Refusal :=
  done s (recFlref d (s.open_ d))

/-- RECORD_FLUSH (R425): A buffer whose flush time has passed since its first record is completed. -/
def execRecordFlush (k : Fin 4) (s : State) : Host.Outcome State Fault Refusal :=
  done s (recordFlush k.val s)

/-- WAVEFRONT_CAPTURE_END (R431): Once the last sample of a wavefront window is available, the window is delivered. -/
def execWavefrontCaptureEnd (s : State) : Host.Outcome State Fault Refusal :=
  done s (wavefrontCaptureEnd s)

/-- FAULT_LOCATION_TIMEOUT (R434): Without a qualifying second arrival by t1 + tmax, REC_STS.flnone sets. -/
def execFaultLocationTimeout (s : State) : Host.Outcome State Fault Refusal :=
  done s (faultLocationTimeout s)

/-- TRIG_PACKET (R430): A cascade trigger-line message reaches the streams with xin = 1 as source-7 triggers. -/
def execTrigPacket (h : PktHead) (t : Time) (method : Nat) (test : Bool) (code idx : Nat) (s : State) : Host.Outcome State Fault Refusal :=
  done s (trigPacket h t method test code idx s)

/-- DI_SAMPLE (R441): The I/O die delivers a 1 µs sample of each digital input. -/
def execDiSample (us : Nat) (samples : BitVec 32) (s : State) : Host.Outcome State Fault Refusal :=
  done s (diSample us samples s)

/-- DI_FILTER_TICK (R442): At each filter tick the input's counter moves up or down. -/
def execDiFilterTick (i : Fin 32) (s : State) : Host.Outcome State Fault Refusal :=
  done s (diFilterTick i.val s)

/-- DI_DECISION (R443): When the counter reaches L or 0 the filtered state changes with timestamp t_dec and raises its DI group source. -/
def execDiDecision (i : Fin 32) (s : State) : Host.Outcome State Fault Refusal :=
  done s (diDecision i.val s)

/-- FIO_OREQ (R451): The command sets the requests of host-owned outputs. -/
def execFioOreq (d : Desc) (s : State) : Host.Outcome State Fault Refusal :=
  done s (fioOreq d (s.open_ d))

/-- FIO_REQ (R451): A host write of output requests applies them and restarts the host watchdog. -/
def execFioReq (v : Word) (s : State) : Host.Outcome State Fault Refusal :=
  done s (s.hostWrite HOST 0xC0480 v [])

/-- FIO_HOST_TIMEOUT (R451): With hwd = 1 and no host request within T, host-owned requests go to their safe values. -/
def execFioHostTimeout (s : State) : Host.Outcome State Fault Refusal :=
  done s (fioHostTimeout s)

/-- FIO_TPULSE (R465): The command starts test pulses on the named outputs. -/
def execFioTpulse (d : Desc) (s : State) : Host.Outcome State Fault Refusal :=
  done s (fioTpulse d (s.open_ d))

/-- TEST_PULSE_START (R465): A periodic test pulse starts, or is skipped. -/
def execTestPulseStart (o : Fin 16) (s : State) : Host.Outcome State Fault Refusal :=
  done s (testPulseStart o.val s)

/-- TEST_PULSE_END (R464): A test pulse ends and passes or fails by the pin read-back. -/
def execTestPulseEnd (o : Fin 16) (crossed : Bool) (s : State) : Host.Outcome State Fault Refusal :=
  done s (testPulseEnd o.val crossed s)

/-- LOGIC_SILENT_EXPIRY (R461): Without a refresh for T, every output goes to its safe state. -/
def execLogicSilentExpiry (s : State) : Host.Outcome State Fault Refusal :=
  done s (logicSilentExpiry s)

/-- REFRESH_REPEAT (R460): When no word has been sent for 500 µs, the last output word is repeated. -/
def execRefreshRepeat (s : State) : Host.Outcome State Fault Refusal :=
  done s (refreshRepeat s)

/-- OVERCURRENT (R456): An output in its current limit for 20 µs sets its ovc bits. -/
def execOvercurrent (o : Fin 16) (s : State) : Host.Outcome State Fault Refusal :=
  done s (overcurrent o.val s)

/-- THERMAL_SHUTDOWN (R457): An output switch at 170 °C switches off and sets its tsd bits. -/
def execThermalShutdown (o : Fin 16) (s : State) : Host.Outcome State Fault Refusal :=
  done s (thermalShutdown o.val s)

/-- THERMAL_RESUME (R457): An unlatched output resumes its command once cooled to 150 °C. -/
def execThermalResume (o : Fin 16) (s : State) : Host.Outcome State Fault Refusal :=
  done s (thermalResume o.val s)

/-- EXTDRV (R458): An output commanded off whose pin exceeds VSUP/2 for 50 µs is in EXTDRV. -/
def execExtdrv (o : Fin 16) (s : State) : Host.Outcome State Fault Refusal :=
  done s (extdrv o.val s)

/-- EXTDRV_CLEAR (R458): EXTDRV clears after 10 ms below VSUP/2. -/
def execExtdrvClear (o : Fin 16) (s : State) : Host.Outcome State Fault Refusal :=
  done s (extdrvClear o.val s)

/-- FIO_FLTLAT (R457): A W1C clear of a fault latch clears it and re-enables a latched output. -/
def execFioFltlat (k : Fin 4) (v : Word) (s : State) : Host.Outcome State Fault Refusal :=
  done s (s.hostWrite HOST (0xC04A0 + 4 * k.val) v [])

/-- FIO_DITS_READ (R443): A read of FIO_DITS[i][0] latches the rest of the last decision. -/
def execFioDitsRead (i : Fin 32) (s : State) : Host.Outcome State Fault Refusal :=
  done s (rcRead (0xC0200 + 16 * i.val) s)

/-- POLL_SEND (R475): At its slot offset a station's POLL is sent with its latched output bytes. -/
def execPollSend (l : Fin 8) (i : Fin 16) (s : State) : Host.Outcome State Fault Refusal :=
  done s (pollSend l.val i.val s)

/-- RESP_RECEIVE (R474): A RESP is received and checked, and a valid one updates the station's inputs. -/
def execRespReceive (l : Fin 8) (r : List Byte) (after : Nat) (s : State) : Host.Outcome State Fault Refusal :=
  done s (respReceive l.val r after s)

/-- POLL_SLOT_END (R475): At the end of a station's slot the outcome of the poll is decided. -/
def execPollSlotEnd (l : Fin 8) (s : State) : Host.Outcome State Fault Refusal :=
  done s (pollSlotEnd l.val s)

/-- STATION_DROP_OUT (R481): The n-th consecutive miss takes the station DOWN with substitute inputs. -/
def execStationDropOut (l : Fin 8) (i : Fin 16) (s : State) : Host.Outcome State Fault Refusal :=
  done s (stationDropOut l.val i.val s)

/-- RIO_OUT (R488): The command writes the output bytes of a host-owned station. -/
def execRioOut (d : Desc) (buf : List Byte) (s : State) : Host.Outcome State Fault Refusal :=
  done s (rioOut d buf (s.open_ d))

/-- RIO_HOST_TIMEOUT (R486): Without an RIO_OUT for hto, the station's outputs go to their substitutes. -/
def execRioHostTimeout (l : Fin 8) (i : Fin 16) (s : State) : Host.Outcome State Fault Refusal :=
  done s (rioHostTimeout l.val i.val s)

/-- AUX_CONV (R504): The command starts conversions of the named converters. -/
def execAuxConv (d : Desc) (s : State) : Host.Outcome State Fault Refusal :=
  done s (auxConv d (s.open_ d))

/-- AUX_RUN (R501): A change of run from 0 to 1 allocates the circular buffer, or is not-now. -/
def execAuxRun (a : Fin 2) (v : Word) (s : State) : Host.Outcome State Fault Refusal :=
  done s (s.hostWrite HOST (0xB0100 + 4 * a.val) v [])

/-- AUX_INTEGRATION_START (R496): At the first fMOD edge after a trigger and its delay the integration begins. -/
def execAuxIntegrationStart (a : Fin 2) (s : State) : Host.Outcome State Fault Refusal :=
  done s (auxIntegrationStart a.val s)

/-- AUX_RESULT (R501): A conversion result is written to the circular buffer. -/
def execAuxResult (a : Fin 2) (raw : Int) (s : State) : Host.Outcome State Fault Refusal :=
  done s (auxResult a.val raw s)

/-- AUX_BUSY_END (R496): The converter stops being busy at ts_c + Tint + 4.0 ms. -/
def execAuxBusyEnd (a : Fin 2) (s : State) : Host.Outcome State Fault Refusal :=
  done s (auxBusyEnd a.val s)

/-- PTMR_EVENT (R505): A PERIODIC unit produces a period event and its PWM output goes high. -/
def execPtmrEvent (u : Fin 8) (s : State) : Host.Outcome State Fault Refusal :=
  done s (ptmrEvent u.val s)

/-- PTMR_HIGH_END (R505): The PWM output goes low after high µs. -/
def execPtmrHighEnd (u : Fin 8) (s : State) : Host.Outcome State Fault Refusal :=
  done s (ptmrHighEnd u.val s)

/-- PTMR_ONESHOT_START (R508): A pending ONESHOT pulse starts at its start time. -/
def execPtmrOneshotStart (u : Fin 8) (s : State) : Host.Outcome State Fault Refusal :=
  done s (ptmrOneshotStart u.val s)

/-- PTMR_PULSE (R508): The command requests one pulse of a ONESHOT unit. -/
def execPtmrPulse (d : Desc) (s : State) : Host.Outcome State Fault Refusal :=
  done s (ptmrPulse d (s.open_ d))

/-- OUTPUT_LEAVES_LIMIT (R456): An output that leaves its current limit clears its bit in FIO_FLTST.ovc and ends the 20 µs count toward a latched ovc. -/
def execOutputLeavesLimit (o : Fin 16) (s : State) : Host.Outcome State Fault Refusal :=
  done s (outputLeavesLimit o.val s)

end Sys2Proof.Machine
end

