-- ==== Sys2Proof/Machine/ExecNet.lean ====
section
/-! DEFINITION. The meanings of the rows for the networks, the host interface and the stack. -/

namespace Sys2Proof.Machine

/-- ETH_LINK_CHANGE (R511): A port's link goes up or down and NET_STS.link sets. -/
def execEthLinkChange (p : Fin 8) (up : Bool) (s : State) : Host.Outcome State Fault Refusal :=
  done s (ethLinkChange p.val up s)

/-- RX_FRAME (R520): A received frame that no engine consumes passes to a host ring by class. -/
def execRxFrame (h : RxHead) (s : State) : Host.Outcome State Fault Refusal :=
  done s (rxFrame h s)

/-- PTP_MESSAGE_RECEIVE (R515): A PTP general or peer-delay message is received and processed. -/
def execPtpMessageReceive (h : RxHead) (domain : Nat) (m : PtpMsg) (s : State) : Host.Outcome State Fault Refusal :=
  done s (ptpMessageReceive h domain m s)

/-- PTP_SYNC_SEND (R516): A port in the MASTER state sends Sync and Follow_Up. -/
def execPtpSyncSend (p : Fin 8) (s : State) : Host.Outcome State Fault Refusal :=
  done s (ptpSyncSend p.val s)

/-- PTP_ANNOUNCE_SEND (R517): A MASTER port sends an Announce message. -/
def execPtpAnnounceSend (p : Fin 8) (s : State) : Host.Outcome State Fault Refusal :=
  done s (ptpAnnounceSend p.val s)

/-- PDELAY_REQ_SEND (R515): A peer-delay request goes out once per second. -/
def execPdelayReqSend (p : Fin 8) (s : State) : Host.Outcome State Fault Refusal :=
  done s (pdelayReqSend p.val s)

/-- PRP_SUPERVISION_SEND (R513): A redundant pair sends a supervision frame every 2 s. -/
def execPrpSupervisionSend (k : Fin 4) (s : State) : Host.Outcome State Fault Refusal :=
  done s (prpSupervisionSend k.val s)

/-- DUPLICATE_FORGET (R513): A duplicate-discard entry expires after the forget time. -/
def execDuplicateForget (k : Fin 4) (s : State) : Host.Outcome State Fault Refusal :=
  done s (duplicateForget k.val s)

/-- SV_FRAME_RECEIVE (R524): A matching SV frame delivers its ASDUs to its subscription. -/
def execSvFrameReceive (h : RxHead) (f : SvIn) (s : State) : Host.Outcome State Fault Refusal :=
  done s (svFrameReceive h f s)

/-- SV_SUBSCRIPTION_LOST (R525): Without a valid sample for 10 sample periods the subscription is lost. -/
def execSvSubscriptionLost (k : Fin 64) (s : State) : Host.Outcome State Fault Refusal :=
  done s (svSubscriptionLost k.val s)

/-- GOOSE_FRAME_RECEIVE (R529): A matching GOOSE frame updates its subscription and the mapped GOOSE bits. -/
def execGooseFrameReceive (h : RxHead) (f : GooseIn) (s : State) : Host.Outcome State Fault Refusal :=
  done s (gooseFrameReceive h f s)

/-- GOOSE_TAL_EXPIRY (R529): When timeAllowedToLive expires the subscription is lost. -/
def execGooseTalExpiry (k : Fin 256) (s : State) : Host.Outcome State Fault Refusal :=
  done s (gooseTalExpiry k.val s)

/-- GOOSE_REPEAT (R533): A GOOSE frame is repeated at the next interval. -/
def execGooseRepeat (j : Fin 64) (s : State) : Host.Outcome State Fault Refusal :=
  done s (gooseRepeat j.val s)

/-- NET_GVAL (R534): A host write of publication values changes the values that the host owns. -/
def execNetGval (j : Fin 8) (v : Word) (s : State) : Host.Outcome State Fault Refusal :=
  done s (s.hostWrite HOST (0xE0280 + 4 * j.val) v [])

/-- NET_TX (R522): The command sends a host frame on the named ports. -/
def execNetTx (d : Desc) (buf : List Byte) (s : State) : Host.Outcome State Fault Refusal :=
  done s (netTx d buf (s.open_ d))

/-- NET_SVSUB (R523): The command loads an SV subscription. -/
def execNetSvsub (d : Desc) (buf : List Byte) (s : State) : Host.Outcome State Fault Refusal :=
  done s (netSvsub d buf (s.open_ d))

/-- NET_SVPUB (R526): The command loads an SV publication. -/
def execNetSvpub (d : Desc) (buf : List Byte) (s : State) : Host.Outcome State Fault Refusal :=
  done s (netSvpub d buf (s.open_ d))

/-- NET_GSUB (R529): The command loads a GOOSE subscription. -/
def execNetGsub (d : Desc) (buf : List Byte) (s : State) : Host.Outcome State Fault Refusal :=
  done s (netGsub d buf (s.open_ d))

/-- NET_GPUB (R532): The command loads a GOOSE publication. -/
def execNetGpub (d : Desc) (buf : List Byte) (s : State) : Host.Outcome State Fault Refusal :=
  done s (netGpub d buf (s.open_ d))

/-- NET_KEY (R535): The command loads or empties an authentication key slot. -/
def execNetKey (d : Desc) (buf : List Byte) (s : State) : Host.Outcome State Fault Refusal :=
  done s (netKey d buf (s.open_ d))

/-- TP_FRAME_SEND (R539): A teleprotection frame starts with its phasors, command bits and timestamps. -/
def execTpFrameSend (p : Fin 4) (s : State) : Host.Outcome State Fault Refusal :=
  done s (tpFrameSend p.val s)

/-- TP_FRAME_RECEIVE (R540): A CRC-correct teleprotection frame is received and its bits and packet pass on. -/
def execTpFrameReceive (p : Fin 4) (l : List Byte) (pin : Time) (rdi : Bool) (s : State) : Host.Outcome State Fault Refusal :=
  done s (tpFrameReceive p.val l pin rdi s)

/-- LOSS_OF_FRAME (R540): Three consecutive CRC failures declare loss of frame. -/
def execLossOfFrame (p : Fin 4) (s : State) : Host.Outcome State Fault Refusal :=
  done s (lossOfFrame p.val s)

/-- TP_COMMAND_TIMEOUT (R542): Without a valid frame for cto, the received bits take their fallback. -/
def execTpCommandTimeout (p : Fin 4) (s : State) : Host.Outcome State Fault Refusal :=
  done s (tpCommandTimeout p.val s)

/-- TPC_LOS (R537): The TPCp_LOS pin reports loss of signal from the transceiver. -/
def execTpcLos (p : Fin 4) (lost : Bool) (s : State) : Host.Outcome State Fault Refusal :=
  done s (tpcLos p.val lost s)

/-- COMMAND_TAKE (R563): The device takes the next command of a CMD ring. -/
def execCommandTake (r : Fin 128) (rd : Option CmdRead) (s : State) : Host.Outcome State Fault Refusal :=
  done s (commandTake r.val rd s)

/-- COMPLETION_WRITE (R564): A completion is written to its CMPL ring, or waits in the Cistern. -/
def execCompletionWrite (s : State) : Host.Outcome State Fault Refusal :=
  done s (completionWrite s)

/-- WRITE_BACK (R560): A batch of ready descriptors is written to a from-device ring, followed by its MSI-X message. -/
def execWriteBack (r : Fin 128) (failed : Bool) (s : State) : Host.Outcome State Fault Refusal :=
  done s (writeBack r.val failed s)

/-- RING_ENABLE (R555): A write of en from 0 to 1 resets the ring's indexes and starts it. -/
def execRingEnable (r : Fin 128) (v : Word) (slots : List (Nat × Nat)) (s : State) : Host.Outcome State Fault Refusal :=
  done s (s.hostWrite HOST (0x110108 + 16 * r.val) v slots)

/-- HIF_DB (R558): A doorbell write posts descriptors or releases them, after its checks. -/
def execHifDb (r : Fin 128) (v : Word) (slots : List (Nat × Nat)) (s : State) : Host.Outcome State Fault Refusal :=
  done s (s.hostWrite HOST (0x114000 + 4 * r.val) v slots)

/-- NOP (R567): The ring command does nothing and completes DONE. -/
def execNop (d : Desc) (s : State) : Host.Outcome State Fault Refusal :=
  done s (nop d (s.open_ d))

/-- FUNCTION_LEVEL_RESET (R550): A function level reset acts as a HIF block reset. -/
def execFunctionLevelReset (s : State) : Host.Outcome State Fault Refusal :=
  done s (functionLevelReset s)

/-- PERST_N (R642): PERST_N low resets the PCI Express configuration space and the HIF block. -/
def execPerstN (s : State) : Host.Outcome State Fault Refusal :=
  done s (perstN s)

/-- HOST_LINK_CHANGE (R549): The host link goes down or up, Bus Master Enable changes or D3hot is entered. -/
def execHostLinkChange (up bme d3 : Bool) (speed width : Nat) (s : State) : Host.Outcome State Fault Refusal :=
  done s (hostLinkChange up bme d3 speed width s)

/-- LOHELYS_LINK_CHANGE (R577): A stack link gains or loses block lock and formation runs again. -/
def execLohelysLinkChange (j : Fin 4) (lock : Bool) (s : State) : Host.Outcome State Fault Refusal :=
  done s (lohelysLinkChange j.val lock s)

/-- HELLO_SEND (R580): A HELLO packet is sent on each stack link every 100 µs. -/
def execHelloSend (j : Fin 4) (s : State) : Host.Outcome State Fault Refusal :=
  done s (helloSend j.val s)

/-- HELLO_PACKET (R580): A HELLO packet from a neighbour is received. -/
def execHelloPacket (h : PktHead) (serial : BitVec 64) (strap : Bool) (st pos plink : Nat) (s : State) : Host.Outcome State Fault Refusal :=
  done s (helloPacket h serial strap st pos plink s)

/-- FORMATION_END (R580): Formation ends as FORMED, STANDALONE or FAILED. -/
def execFormationEnd (g : StackGroup) (s : State) : Host.Outcome State Fault Refusal :=
  done s (formationEnd g s)

/-- LINK_DELAY_MEASURE (R582): Each stack link measures its delay with TIME packets every 1 ms. -/
def execLinkDelayMeasure (j : Fin 4) (s : State) : Host.Outcome State Fault Refusal :=
  done s (linkDelayMeasure j.val s)

/-- TIME_PACKET (R582): A TIME packet with stamps of the link-delay exchange is received. -/
def execTimePacket (h : PktHead) (stamps : List Time) (arr : Time) (s : State) : Host.Outcome State Fault Refusal :=
  done s (timePacket h stamps arr s)

/-- CASCADE_SYNC_SEND (R583): The master sends a SYNC packet at each whole Meridian millisecond. -/
def execCascadeSyncSend (s : State) : Host.Outcome State Fault Refusal :=
  done s (cascadeSyncSend s)

/-- SYNC_PACKET (R583): A member corrects its Meridian from a SYNC packet, stepping on a step flag. -/
def execSyncPacket (h : PktHead) (sent : Time) (cum tq : Nat) (step : Bool) (response : Option Int) (s : State) : Host.Outcome State Fault Refusal :=
  done s (syncPacket h sent cum tq step response s)

/-- ALIGNMENT (R584): A member whose offset has stayed within ±50 ns for 16 SYNC packets is aligned. -/
def execAlignment (s : State) : Host.Outcome State Fault Refusal :=
  done s (alignment s)

/-- GRID_PACKET (R585): A member takes the next tracked instant and N from a GRID packet. -/
def execGridPacket (p : PktTime) (rate : Nat) (s : State) : Host.Outcome State Fault Refusal :=
  done s (gridPacket p rate s)

/-- PUB_PACKET (R589): A member's publication arrives and counts as arrived for its frame. -/
def execPubPacket (h : PktHead) (hdr parts rest : List Byte) (s : State) : Host.Outcome State Fault Refusal :=
  done s (pubPacket h hdr parts rest s)

/-- LEVEL_PACKET (R398): A member's CASC view state sets the master's forward source level. -/
def execLevelPacket (h : PktHead) (lv : Bool) (s : State) : Host.Outcome State Fault Refusal :=
  done s (levelPacket h lv s)

/-- LEVEL_SEND (R598): A LEVEL packet is sent at each change and every 1 ms. -/
def execLevelSend (s : State) : Host.Outcome State Fault Refusal :=
  done s (levelSend s)

/-- TUN_PACKET (R592): A tunnelled command, buffer or completion fragment is received. -/
def execTunPacket (h : PktHead) (x : TunMsg) (s : State) : Host.Outcome State Fault Refusal :=
  done s (tunPacket h x s)

/-- CSC_WR (R593): The tunnel command applies register writes on a member. -/
def execCscWr (d : Desc) (buf : List Byte) (s : State) : Host.Outcome State Fault Refusal :=
  done s (cscWr d buf (s.open_ d))

/-- CSC_RD (R593): The tunnel command reads registers of a member. -/
def execCscRd (d : Desc) (buf : List Byte) (s : State) : Host.Outcome State Fault Refusal :=
  done s (cscRd d buf (s.open_ d))

/-- CSC_CFG (R580): An accepted write of the stacking configuration restarts formation. -/
def execCscCfg (v : Word) (s : State) : Host.Outcome State Fault Refusal :=
  done s (s.hostWrite HOST 0x100100 v [])

/-- MEMBER_LOST (R594): The master declares a member lost after 1 ms without its packets. -/
def execMemberLost (m : Fin 8) (s : State) : Host.Outcome State Fault Refusal :=
  done s (memberLost m.val s)

/-- DETACH (R595): A member detaches after 1 ms without SYNC or GRID packets. -/
def execDetach (s : State) : Host.Outcome State Fault Refusal :=
  done s (detach s)

/-- ANNOUNCE_RECEIPT_TIMEOUT (R516): A PTP port taking part in the best master clock algorithm that receives no Announce within the profile's receipt timeout changes its port state and sets NET_STS.ptpst. -/
def execAnnounceReceiptTimeout (p : Fin 8) (s : State) : Host.Outcome State Fault Refusal :=
  done s (announceReceiptTimeout p.val s)

end Sys2Proof.Machine
end

