-- ==== Sys2Proof/Machine/Dispatch.lean ====
section
/-! DEFINITION. Dispatch: one arm for each constructor of Instr. -/

namespace Sys2Proof.Machine

def exec (i : Instr) (s : State) : Host.Outcome State Fault Refusal :=
  match i with
  | .registerWrite a be v => Sys2Proof.Machine.execRegisterWrite a be v s
  | .rcRead a => Sys2Proof.Machine.execRcRead a s
  | .lock blk => Sys2Proof.Machine.execLock blk s
  | .softReset blk => Sys2Proof.Machine.execSoftReset blk s
  | .ptpSyncReceive h domain sender m corr residence => Sys2Proof.Machine.execPtpSyncReceive h domain sender m corr residence s
  | .irigbFrame f edge => Sys2Proof.Machine.execIrigbFrame f edge s
  | .ppsInEdge t => Sys2Proof.Machine.execPpsInEdge t s
  | .sourceLost c => Sys2Proof.Machine.execSourceLost c s
  | .sourceQualify c => Sys2Proof.Machine.execSourceQualify c s
  | .waitToRestore c => Sys2Proof.Machine.execWaitToRestore c s
  | .tqEvaluate => Sys2Proof.Machine.execTqEvaluate s
  | .tqLock => Sys2Proof.Machine.execTqLock s
  | .holdoverLimit => Sys2Proof.Machine.execHoldoverLimit s
  | .hostCorrectionTimeout => Sys2Proof.Machine.execHostCorrectionTimeout s
  | .merHfreq v => Sys2Proof.Machine.execMerHfreq v s
  | .merHphase v => Sys2Proof.Machine.execMerHphase v s
  | .slewSpent => Sys2Proof.Machine.execSlewSpent s
  | .merTsetHi v => Sys2Proof.Machine.execMerTsetHi v s
  | .merNowSlo => Sys2Proof.Machine.execMerNowSlo s
  | .ppsOutRise => Sys2Proof.Machine.execPpsOutRise s
  | .ppsOutFall => Sys2Proof.Machine.execPpsOutFall s
  | .irigbOutFrame => Sys2Proof.Machine.execIrigbOutFrame s
  | .trigInEdge n rising t => Sys2Proof.Machine.execTrigInEdge n rising t s
  | .tdcRearm c => Sys2Proof.Machine.execTdcRearm c s
  | .saArm d => Sys2Proof.Machine.execSaArm d s
  | .saCancel d => Sys2Proof.Machine.execSaCancel d s
  | .actionExecute n => Sys2Proof.Machine.execActionExecute n s
  | .outPulseEnd o => Sys2Proof.Machine.execOutPulseEnd o s
  | .launchPacket slot p action arg => Sys2Proof.Machine.execLaunchPacket slot p action arg s
  | .launchresPacket h slot st => Sys2Proof.Machine.execLaunchresPacket h slot st s
  | .weirFire n pol t => Sys2Proof.Machine.execWeirFire n pol t s
  | .weirRearm n => Sys2Proof.Machine.execWeirRearm n s
  | .weirSettle n => Sys2Proof.Machine.execWeirSettle n s
  | .afeWtsRead n => Sys2Proof.Machine.execAfeWtsRead n s
  | .injectionWindow => Sys2Proof.Machine.execInjectionWindow s
  | .wbSample codes => Sys2Proof.Machine.execWbSample codes s
  | .mainPointSample => Sys2Proof.Machine.execMainPointSample s
  | .fixedTapOutput t avail ackNs => Sys2Proof.Machine.execFixedTapOutput t avail ackNs s
  | .trackedInstant => Sys2Proof.Machine.execTrackedInstant s
  | .decimatorReset => Sys2Proof.Machine.execDecimatorReset s
  | .channelReset n => Sys2Proof.Machine.execChannelReset n s
  | .pipelineReset p => Sys2Proof.Machine.execPipelineReset p s
  | .syncPinPulse rising edge width => Sys2Proof.Machine.execSyncPinPulse rising edge width s
  | .dchSync d => Sys2Proof.Machine.execDchSync d s
  | .dchSynccfgCmd v => Sys2Proof.Machine.execDchSynccfgCmd v s
  | .dchSwap d => Sys2Proof.Machine.execDchSwap d s
  | .dchBdef v => Sys2Proof.Machine.execDchBdef v s
  | .dchTrkfreq v => Sys2Proof.Machine.execDchTrkfreq v s
  | .trackingHostTimeout => Sys2Proof.Machine.execTrackingHostTimeout s
  | .frame t0 eleNs ackNs => Sys2Proof.Machine.execFrame t0 eleNs ackNs s
  | .pheRfeed d buf => Sys2Proof.Machine.execPheRfeed d buf s
  | .pheHfreq g v => Sys2Proof.Machine.execPheHfreq g v s
  | .pheHostTimeout g => Sys2Proof.Machine.execPheHostTimeout g s
  | .remoteFeedTimeout r => Sys2Proof.Machine.execRemoteFeedTimeout r s
  | .eleSetw d buf => Sys2Proof.Machine.execEleSetw d buf s
  | .eleResult d => Sys2Proof.Machine.execEleResult d s
  | .eleCfg n v => Sys2Proof.Machine.execEleCfg n v s
  | .hostResultAgeExpiry n => Sys2Proof.Machine.execHostResultAgeExpiry n s
  | .elementTimerExpiry n => Sys2Proof.Machine.execElementTimerExpiry n s
  | .holdLimitExpiry n => Sys2Proof.Machine.execHoldLimitExpiry n s
  | .cascadeClassSPass t => Sys2Proof.Machine.execCascadeClassSPass t s
  | .cascadeDeadline t => Sys2Proof.Machine.execCascadeDeadline t s
  | .slackMissLimit => Sys2Proof.Machine.execSlackMissLimit s
  | .sealLimitExpiry r => Sys2Proof.Machine.execSealLimitExpiry r s
  | .minPulseEnd r => Sys2Proof.Machine.execMinPulseEnd r s
  | .tmxCommit v => Sys2Proof.Machine.execTmxCommit v s
  | .tmxRowEn r v => Sys2Proof.Machine.execTmxRowEn r v s
  | .tmxRowen d => Sys2Proof.Machine.execTmxRowen d s
  | .tcsOnCheck o sensed => Sys2Proof.Machine.execTcsOnCheck o sensed s
  | .timeTaskRelease b t => Sys2Proof.Machine.execTimeTaskRelease b t s
  | .koverReached b => Sys2Proof.Machine.execKoverReached b s
  | .watchdogExpiry b => Sys2Proof.Machine.execWatchdogExpiry b s
  | .switchPoint b => Sys2Proof.Machine.execSwitchPoint b s
  | .switchTimeout b => Sys2Proof.Machine.execSwitchTimeout b s
  | .bcpLoadChecked b => Sys2Proof.Machine.execBcpLoadChecked b s
  | .bcpImask b v => Sys2Proof.Machine.execBcpImask b v s
  | .bcpStart d => Sys2Proof.Machine.execBcpStart d s
  | .bcpStop d => Sys2Proof.Machine.execBcpStop d s
  | .bcpLoad d buf => Sys2Proof.Machine.execBcpLoad d buf s
  | .bcpSwitch d => Sys2Proof.Machine.execBcpSwitch d s
  | .bcpMap d buf => Sys2Proof.Machine.execBcpMap d buf s
  | .bcpForce d => Sys2Proof.Machine.execBcpForce d s
  | .bcpUnforce d => Sys2Proof.Machine.execBcpUnforce d s
  | .bcpTout d buf => Sys2Proof.Machine.execBcpTout d buf s
  | .fbcNop b => Sys2Proof.Machine.execFbcNop b s
  | .ldi b => Sys2Proof.Machine.execLdi b s
  | .ldc b => Sys2Proof.Machine.execLdc b s
  | .dup b => Sys2Proof.Machine.execDup b s
  | .drop b => Sys2Proof.Machine.execDrop b s
  | .swap b => Sys2Proof.Machine.execSwap b s
  | .fbcOver b => Sys2Proof.Machine.execFbcOver b s
  | .rot b => Sys2Proof.Machine.execRot b s
  | .ldl b => Sys2Proof.Machine.execLdl b s
  | .stl b => Sys2Proof.Machine.execStl b s
  | .ldg b => Sys2Proof.Machine.execLdg b s
  | .stg b => Sys2Proof.Machine.execStg b s
  | .ldx b => Sys2Proof.Machine.execLdx b s
  | .stx b => Sys2Proof.Machine.execStx b s
  | .lea b => Sys2Proof.Machine.execLea b s
  | .qget b => Sys2Proof.Machine.execQget b s
  | .qset b => Sys2Proof.Machine.execQset b s
  | .add b => Sys2Proof.Machine.execAdd b s
  | .sub b => Sys2Proof.Machine.execSub b s
  | .mul b => Sys2Proof.Machine.execMul b s
  | .div b => Sys2Proof.Machine.execDiv b s
  | .mod b => Sys2Proof.Machine.execMod b s
  | .neg b => Sys2Proof.Machine.execNeg b s
  | .abs b => Sys2Proof.Machine.execAbs b s
  | .min b => Sys2Proof.Machine.execMin b s
  | .max b => Sys2Proof.Machine.execMax b s
  | .limit b => Sys2Proof.Machine.execLimit b s
  | .cvt b => Sys2Proof.Machine.execCvt b s
  | .math b => Sys2Proof.Machine.execMath b s
  | .cmp b => Sys2Proof.Machine.execCmp b s
  | .sel b => Sys2Proof.Machine.execSel b s
  | .and b => Sys2Proof.Machine.execAnd b s
  | .or b => Sys2Proof.Machine.execOr b s
  | .xor b => Sys2Proof.Machine.execXor b s
  | .not b => Sys2Proof.Machine.execNot b s
  | .shl b => Sys2Proof.Machine.execShl b s
  | .shr b => Sys2Proof.Machine.execShr b s
  | .jmp b => Sys2Proof.Machine.execJmp b s
  | .jz b => Sys2Proof.Machine.execJz b s
  | .jnz b => Sys2Proof.Machine.execJnz b s
  | .call b => Sys2Proof.Machine.execCall b s
  | .ret b => Sys2Proof.Machine.execRet b s
  | .callx b => Sys2Proof.Machine.execCallx b s
  | .tend b => Sys2Proof.Machine.execTend b s
  | .aflag b => Sys2Proof.Machine.execAflag b s
  | .now b => Sys2Proof.Machine.execNow b s
  | .ton b => Sys2Proof.Machine.execTon b s
  | .tof b => Sys2Proof.Machine.execTof b s
  | .tp b => Sys2Proof.Machine.execTp b s
  | .rTrig b => Sys2Proof.Machine.execRTrig b s
  | .fTrig b => Sys2Proof.Machine.execFTrig b s
  | .ctu b => Sys2Proof.Machine.execCtu b s
  | .ctd b => Sys2Proof.Machine.execCtd b s
  | .sr b => Sys2Proof.Machine.execSr b s
  | .rs b => Sys2Proof.Machine.execRs b s
  | .eleread b => Sys2Proof.Machine.execEleread b s
  | .qread b => Sys2Proof.Machine.execQread b s
  | .rowen b => Sys2Proof.Machine.execRowen b s
  | .saarm b => Sys2Proof.Machine.execSaarm b s
  | .sacancel b => Sys2Proof.Machine.execSacancel b s
  | .saread b => Sys2Proof.Machine.execSaread b s
  | .recmark b => Sys2Proof.Machine.execRecmark b s
  | .icuTake src => Sys2Proof.Machine.execIcuTake src s
  | .icuDone src => Sys2Proof.Machine.execIcuDone src s
  | .icuSwset j v => Sys2Proof.Machine.execIcuSwset j v s
  | .icuRaw k v => Sys2Proof.Machine.execIcuRaw k v s
  | .icuEn k v => Sys2Proof.Machine.execIcuEn k v s
  | .icuSrc n v => Sys2Proof.Machine.execIcuSrc n v s
  | .icuMode v => Sys2Proof.Machine.execIcuMode v s
  | .levelChange n lv => Sys2Proof.Machine.execLevelChange n lv s
  | .msixVectorUnmask vec => Sys2Proof.Machine.execMsixVectorUnmask vec s
  | .recStart d => Sys2Proof.Machine.execRecStart d s
  | .recStop d => Sys2Proof.Machine.execRecStop d s
  | .recTrig d => Sys2Proof.Machine.execRecTrig d s
  | .recFlref d => Sys2Proof.Machine.execRecFlref d s
  | .recordFlush k => Sys2Proof.Machine.execRecordFlush k s
  | .wavefrontCaptureEnd => Sys2Proof.Machine.execWavefrontCaptureEnd s
  | .faultLocationTimeout => Sys2Proof.Machine.execFaultLocationTimeout s
  | .trigPacket h t method test code idx => Sys2Proof.Machine.execTrigPacket h t method test code idx s
  | .diSample us samples => Sys2Proof.Machine.execDiSample us samples s
  | .diFilterTick n => Sys2Proof.Machine.execDiFilterTick n s
  | .diDecision n => Sys2Proof.Machine.execDiDecision n s
  | .fioOreq d => Sys2Proof.Machine.execFioOreq d s
  | .fioReq v => Sys2Proof.Machine.execFioReq v s
  | .fioHostTimeout => Sys2Proof.Machine.execFioHostTimeout s
  | .fioTpulse d => Sys2Proof.Machine.execFioTpulse d s
  | .testPulseStart o => Sys2Proof.Machine.execTestPulseStart o s
  | .testPulseEnd o crossed => Sys2Proof.Machine.execTestPulseEnd o crossed s
  | .logicSilentExpiry => Sys2Proof.Machine.execLogicSilentExpiry s
  | .refreshRepeat => Sys2Proof.Machine.execRefreshRepeat s
  | .overcurrent o => Sys2Proof.Machine.execOvercurrent o s
  | .thermalShutdown o => Sys2Proof.Machine.execThermalShutdown o s
  | .thermalResume o => Sys2Proof.Machine.execThermalResume o s
  | .extdrv o => Sys2Proof.Machine.execExtdrv o s
  | .extdrvClear o => Sys2Proof.Machine.execExtdrvClear o s
  | .fioFltlat k v => Sys2Proof.Machine.execFioFltlat k v s
  | .fioDitsRead n => Sys2Proof.Machine.execFioDitsRead n s
  | .pollSend l n => Sys2Proof.Machine.execPollSend l n s
  | .respReceive l r after => Sys2Proof.Machine.execRespReceive l r after s
  | .pollSlotEnd l => Sys2Proof.Machine.execPollSlotEnd l s
  | .stationDropOut l n => Sys2Proof.Machine.execStationDropOut l n s
  | .rioOut d buf => Sys2Proof.Machine.execRioOut d buf s
  | .rioHostTimeout l n => Sys2Proof.Machine.execRioHostTimeout l n s
  | .auxConv d => Sys2Proof.Machine.execAuxConv d s
  | .auxRun a v => Sys2Proof.Machine.execAuxRun a v s
  | .auxIntegrationStart a => Sys2Proof.Machine.execAuxIntegrationStart a s
  | .auxResult a raw => Sys2Proof.Machine.execAuxResult a raw s
  | .auxBusyEnd a => Sys2Proof.Machine.execAuxBusyEnd a s
  | .ptmrEvent u => Sys2Proof.Machine.execPtmrEvent u s
  | .ptmrHighEnd u => Sys2Proof.Machine.execPtmrHighEnd u s
  | .ptmrOneshotStart u => Sys2Proof.Machine.execPtmrOneshotStart u s
  | .ptmrPulse d => Sys2Proof.Machine.execPtmrPulse d s
  | .ethLinkChange p up => Sys2Proof.Machine.execEthLinkChange p up s
  | .rxFrame h => Sys2Proof.Machine.execRxFrame h s
  | .ptpMessageReceive h domain m => Sys2Proof.Machine.execPtpMessageReceive h domain m s
  | .ptpSyncSend p => Sys2Proof.Machine.execPtpSyncSend p s
  | .ptpAnnounceSend p => Sys2Proof.Machine.execPtpAnnounceSend p s
  | .pdelayReqSend p => Sys2Proof.Machine.execPdelayReqSend p s
  | .prpSupervisionSend k => Sys2Proof.Machine.execPrpSupervisionSend k s
  | .duplicateForget k => Sys2Proof.Machine.execDuplicateForget k s
  | .svFrameReceive h f => Sys2Proof.Machine.execSvFrameReceive h f s
  | .svSubscriptionLost k => Sys2Proof.Machine.execSvSubscriptionLost k s
  | .gooseFrameReceive h f => Sys2Proof.Machine.execGooseFrameReceive h f s
  | .gooseTalExpiry k => Sys2Proof.Machine.execGooseTalExpiry k s
  | .gooseRepeat j => Sys2Proof.Machine.execGooseRepeat j s
  | .netGval j v => Sys2Proof.Machine.execNetGval j v s
  | .netTx d buf => Sys2Proof.Machine.execNetTx d buf s
  | .netSvsub d buf => Sys2Proof.Machine.execNetSvsub d buf s
  | .netSvpub d buf => Sys2Proof.Machine.execNetSvpub d buf s
  | .netGsub d buf => Sys2Proof.Machine.execNetGsub d buf s
  | .netGpub d buf => Sys2Proof.Machine.execNetGpub d buf s
  | .netKey d buf => Sys2Proof.Machine.execNetKey d buf s
  | .tpFrameSend p => Sys2Proof.Machine.execTpFrameSend p s
  | .tpFrameReceive p l pin rdi => Sys2Proof.Machine.execTpFrameReceive p l pin rdi s
  | .lossOfFrame p => Sys2Proof.Machine.execLossOfFrame p s
  | .tpCommandTimeout p => Sys2Proof.Machine.execTpCommandTimeout p s
  | .tpcLos p lost => Sys2Proof.Machine.execTpcLos p lost s
  | .commandTake r rd => Sys2Proof.Machine.execCommandTake r rd s
  | .completionWrite => Sys2Proof.Machine.execCompletionWrite s
  | .writeBack r failed => Sys2Proof.Machine.execWriteBack r failed s
  | .ringEnable r v slots => Sys2Proof.Machine.execRingEnable r v slots s
  | .hifDb r v slots => Sys2Proof.Machine.execHifDb r v slots s
  | .nop d => Sys2Proof.Machine.execNop d s
  | .functionLevelReset => Sys2Proof.Machine.execFunctionLevelReset s
  | .perstN => Sys2Proof.Machine.execPerstN s
  | .hostLinkChange up bme d3 speed width => Sys2Proof.Machine.execHostLinkChange up bme d3 speed width s
  | .lohelysLinkChange j lock => Sys2Proof.Machine.execLohelysLinkChange j lock s
  | .helloSend j => Sys2Proof.Machine.execHelloSend j s
  | .helloPacket h serial strap st pos plink => Sys2Proof.Machine.execHelloPacket h serial strap st pos plink s
  | .formationEnd g => Sys2Proof.Machine.execFormationEnd g s
  | .linkDelayMeasure j => Sys2Proof.Machine.execLinkDelayMeasure j s
  | .timePacket h stamps arr => Sys2Proof.Machine.execTimePacket h stamps arr s
  | .cascadeSyncSend => Sys2Proof.Machine.execCascadeSyncSend s
  | .syncPacket h sent cum tq step response => Sys2Proof.Machine.execSyncPacket h sent cum tq step response s
  | .alignment => Sys2Proof.Machine.execAlignment s
  | .gridPacket p rate => Sys2Proof.Machine.execGridPacket p rate s
  | .pubPacket h hdr parts rest => Sys2Proof.Machine.execPubPacket h hdr parts rest s
  | .levelPacket h lv => Sys2Proof.Machine.execLevelPacket h lv s
  | .levelSend => Sys2Proof.Machine.execLevelSend s
  | .tunPacket h x => Sys2Proof.Machine.execTunPacket h x s
  | .cscWr d buf => Sys2Proof.Machine.execCscWr d buf s
  | .cscRd d buf => Sys2Proof.Machine.execCscRd d buf s
  | .cscCfg v => Sys2Proof.Machine.execCscCfg v s
  | .memberLost m => Sys2Proof.Machine.execMemberLost m s
  | .detach => Sys2Proof.Machine.execDetach s
  | .secAttest d buf => Sys2Proof.Machine.execSecAttest d buf s
  | .secSign d buf => Sys2Proof.Machine.execSecSign d buf s
  | .secCert d => Sys2Proof.Machine.execSecCert d s
  | .secEnroll d buf => Sys2Proof.Machine.execSecEnroll d buf s
  | .signingComplete => Sys2Proof.Machine.execSigningComplete s
  | .enrollCommit => Sys2Proof.Machine.execEnrollCommit s
  | .por => Sys2Proof.Machine.execPor s
  | .bootImageChecked flash => Sys2Proof.Machine.execBootImageChecked flash s
  | .pwrBoot d buf => Sys2Proof.Machine.execPwrBoot d buf s
  | .pwrState d => Sys2Proof.Machine.execPwrState d s
  | .vsupLow => Sys2Proof.Machine.execVsupLow s
  | .vsupFail => Sys2Proof.Machine.execVsupFail s
  | .rstN => Sys2Proof.Machine.execRstN s
  | .pwrReset v => Sys2Proof.Machine.execPwrReset v s
  | .refclkLoss => Sys2Proof.Machine.execRefclkLoss s
  | .vcoreConfirm mv => Sys2Proof.Machine.execVcoreConfirm mv s
  | .wake => Sys2Proof.Machine.execWake s
  | .temperatureMeasure dig ana io vsup => Sys2Proof.Machine.execTemperatureMeasure dig ana io vsup s
  | .duskReturn => Sys2Proof.Machine.execDuskReturn s
  | .paceMeasure n => Sys2Proof.Machine.execPaceMeasure n s
  | .tstOpnd d buf => Sys2Proof.Machine.execTstOpnd d buf s
  | .tstMsub v => Sys2Proof.Machine.execTstMsub v s
  | .scrub err blk => Sys2Proof.Machine.execScrub err blk s
  | .interdieStall io => Sys2Proof.Machine.execInterdieStall io s
  | .classSStall stage => Sys2Proof.Machine.execClassSStall stage s
  | .vcoreLow mv => Sys2Proof.Machine.execVcoreLow mv s
  | .blockStall blk => Sys2Proof.Machine.execBlockStall blk s
  | .extest lanes => Sys2Proof.Machine.execExtest lanes s
  | .idcode => Sys2Proof.Machine.execIdcode s
  | .samplePreload => Sys2Proof.Machine.execSamplePreload s
  | .fieldClamp => Sys2Proof.Machine.execFieldClamp s
  | .highz => Sys2Proof.Machine.execHighz s
  | .extestPulse => Sys2Proof.Machine.execExtestPulse s
  | .extestTrain => Sys2Proof.Machine.execExtestTrain s
  | .bypass => Sys2Proof.Machine.execBypass s
  | .nextWholeSecondLabel => Sys2Proof.Machine.execNextWholeSecondLabel s
  | .rstNRelease => Sys2Proof.Machine.execRstNRelease s
  | .outputLeavesLimit o => Sys2Proof.Machine.execOutputLeavesLimit o s
  | .announceReceiptTimeout p => Sys2Proof.Machine.execAnnounceReceiptTimeout p s

end Sys2Proof.Machine
end

