-- ==== Sys2Proof/Machine/Step.lean ====
section
/-! DEFINITION. One step of the block: the command or event at the front of the queue, or a span of time when nothing waits. -/

namespace Sys2Proof.Machine

/-- A step takes the front of the queue and runs it on the machine with the rest of the queue; with an empty queue the
clock runs (log 3). -/
def step (s : State) : Host.Outcome State Fault Refusal := match s.pending with
  | [] => .next (idle s)
  | i :: rest => exec i { s with pending := rest }

/-- The state with the command that a word spells at the front of its queue. -/
def State.withFetchWord (s : State) (nbits w : Nat) : State := match decodeTableWord nbits w with
  | some i => { s with pending := i :: s.pending }
  | none => s

end Sys2Proof.Machine
end

