-- ==== Sys2Proof/Safety.lean ====
section
/-! DEFINITION. When the device takes commands and events, and the relations between its registers and the rest of its state
that every step keeps, in the terms that the statements use. -/

namespace Sys2Proof.Machine

/-- The device has its supply and RST_N is high: commands and events have their effect (R627, R642). -/
def State.Runs (s : State) : Prop := s.pwr.off = false ∧ s.pwr.held = false

/-- FIO_CMD shows the Sluice command and the combined command, and FIO_OUTST the state applied (R449, R450, R466). -/
def State.DriveShown (s : State) : Prop :=
  s.g FIO_CMD_high = s.sluiceCmd ∧ s.g FIO_CMD_low = s.combined ∧ s.g FIO_OUTST_low = s.applied

/-- While a class-S row is enabled the VCORE set point is at least 0.72 V, and ok720 is 1 only while set point and
measured VCORE both are (R279, R639). -/
def State.VcoreFloor (s : State) : Prop :=
  (s.anyS = true → 720 ≤ s.g PWR_VSTAT_setp) ∧
  (s.on PWR_VSTAT_ok720 = true → 720 ≤ s.g PWR_VSTAT_setp ∧ 720 ≤ s.g PWR_VSTAT_meas)

/-- A register outside what settling writes: the event counters of the block-code processors, the interrupt controller's
presentation, PWR_VSTAT, the outputs' shown state and the pending-bit array (settle). -/
def settleKeeps (off : Nat) : Prop :=
  ¬ (0x80000 ≤ off ∧ off < 0x90000) ∧ ¬ (0x90000 ≤ off ∧ off < 0xA0000) ∧ ¬ (0xC0000 ≤ off ∧ off < 0xD0000) ∧
  ¬ (0x118000 ≤ off ∧ off < 0x11A000) ∧ off ≠ 0x10108

/-- The registers whose writes have a rule for the whole word, each under its own row or in its chapter: XXX_CTRL, DCH_BDEF, ELE_SET,
BCP_IMASK, the TAKE, DONE, software, raw, enable and source registers of the interrupt controller, the mode of delivery, AUX_RUN,
FIO_REQ, FIO_FLTLAT, NET_GVAL, the ring registers, the doorbells, and the mask of an MSI-X vector. -/
def wholeWord : List Nat :=
  [0x4, 0x40520, 0x64000, 0x80130, 0x90100, 0x90110, 0x90114, 0x90120, 0x90140, 0x90160, 0x90400, 0xB0100, 0xC0480, 0xC04A0,
   0xE0280, 0x110100, 0x110104, 0x110108, 0x114000, 0x11800C]

/-- The next instruction of BCP b is word w with opcode op, in an instance whose input image has been copied in (R315, R361). -/
def State.Executes (s : State) (b op : Nat) (i : Inst) (w : Word) : Prop := s.fbcNow b op = some (i, w) ∧ i.started = true

/-- The state after an instruction that leaves the running instance with a stack, and its arithmetic flag joined with f. -/
def State.stepped (s : State) (b : Nat) (i : Inst) (l : List Cell) (f : Bool) : State :=
  s.putInst b { i.next with stack := l, aflag := i.aflag || f }

/-- The next instruction of BCP b is CALLX of block k, with a parameter block at p within the region and the stack r below its
address (R369). -/
def State.CallsBlock (s : State) (b k : Nat) (i : Inst) (r : List Cell) (p : Nat) : Prop :=
  ∃ w a n, s.Executes b 0x45 i w ∧ bits w 23 0 = k ∧ i.stack = a :: r ∧ blockSize k = some n ∧
    inRegion (s.cpu b) (cellInt a.1) n = true ∧ p = (cellInt a.1).toNat

/-! ### What each command and event does -/

/-- The effect of a command or event by its rules, without what follows every one (settle). -/
def effect (i : Instr) (s : State) : State := match i with
  | .registerWrite a be v => hostStore a be v s
  | .rcRead a => hostLoad a s
  | .lock blk => s.ctrlWrite blk.val 2
  | .softReset blk => s.ctrlWrite blk.val 1
  | .ptpSyncReceive h domain sender m corr residence => ptpSyncReceive h domain sender m corr residence s
  | .irigbFrame f edge => irigbFrame f edge s
  | .ppsInEdge t => ppsInEdge t s
  | .sourceLost c => sourceLost c.val s
  | .sourceQualify c => sourceQualify c.val s
  | .waitToRestore c => waitToRestore c.val s
  | .tqEvaluate => tqEvaluate s
  | .tqLock => tqLock s
  | .holdoverLimit => holdoverLimit s
  | .hostCorrectionTimeout => hostCorrectionTimeout s
  | .merHfreq v => s.hostWrite HOST 0x20120 v []
  | .merHphase v => s.hostWrite HOST 0x20124 v []
  | .slewSpent => slewSpent s
  | .merTsetHi v => s.hostWrite HOST 0x20144 v []
  | .merNowSlo => rcRead 0x20130 s
  | .ppsOutRise => ppsOutRise s
  | .ppsOutFall => ppsOutFall s
  | .irigbOutFrame => irigbOutFrame s
  | .trigInEdge n rising t => trigInEdge n.val rising t s
  | .tdcRearm c => tdcRearm c.val s
  | .saArm d => saArm d (s.open_ d)
  | .saCancel d => saCancel d (s.open_ d)
  | .actionExecute i => actionExecute i.val s
  | .outPulseEnd o => outPulseEnd o.val s
  | .launchPacket slot p action arg => launchPacket slot.val p action arg s
  | .launchresPacket h slot st => launchresPacket h slot.val st s
  | .weirFire n pol t => weirFire n.val pol t s
  | .weirRearm n => weirRearm n.val s
  | .weirSettle n => weirSettle n.val s
  | .afeWtsRead n => rcRead (0x30400 + 16 * n.val) s
  | .injectionWindow => injectionWindow s
  | .wbSample codes => wbSample codes s
  | .mainPointSample => mainPointSample s
  | .fixedTapOutput t avail ackNs => fixedTapOutput t.val avail ackNs s
  | .trackedInstant => trackedInstant s
  | .decimatorReset => decimatorReset s
  | .channelReset n => channelReset n.val s
  | .pipelineReset p => pipelineReset p.val s
  | .syncPinPulse rising edge width => syncPinPulse rising edge width s
  | .dchSync d => dchSync d (s.open_ d)
  | .dchSynccfgCmd v => s.hostWrite HOST 0x40110 v []
  | .dchSwap d => dchSwap d (s.open_ d)
  | .dchBdef v => s.hostWrite HOST 0x40520 v []
  | .dchTrkfreq v => s.hostWrite HOST 0x40104 v []
  | .trackingHostTimeout => trackingHostTimeout s
  | .frame t0 eleNs ackNs => frame t0 eleNs ackNs s
  | .pheRfeed d buf => pheRfeed d buf (s.open_ d)
  | .pheHfreq g v => s.hostWrite HOST (0x501A0 + 4 * g.val) v []
  | .pheHostTimeout g => pheHostTimeout g.val s
  | .remoteFeedTimeout r => remoteFeedTimeout r.val s
  | .eleSetw d buf => eleSetw d buf (s.open_ d)
  | .eleResult d => eleResult d (s.open_ d)
  | .eleCfg n v => s.hostWrite HOST (0x60100 + 4 * n.val) v []
  | .hostResultAgeExpiry n => hostResultAgeExpiry n.val s
  | .elementTimerExpiry n => elementTimerExpiry n.val s
  | .holdLimitExpiry n => holdLimitExpiry n.val s
  | .cascadeClassSPass t => cascadeClassSPass t s
  | .cascadeDeadline t => cascadeDeadline t s
  | .slackMissLimit => slackMissLimit s
  | .sealLimitExpiry r => sealLimitExpiry r.val s
  | .minPulseEnd r => minPulseEnd r.val s
  | .tmxCommit v => s.hostWrite HOST 0x70700 v []
  | .tmxRowEn r v => s.hostWrite HOST (0x70100 + 4 * r.val) v []
  | .tmxRowen d => tmxRowen d (s.open_ d)
  | .tcsOnCheck o sensed => tcsOnCheck o.val sensed s
  | .timeTaskRelease b t => timeTaskRelease b.val t.val s
  | .koverReached b => koverReached b.val s
  | .watchdogExpiry b => watchdogExpiry b.val s
  | .switchPoint b => switchPoint b.val s
  | .switchTimeout b => switchTimeout b.val s
  | .bcpLoadChecked b => bcpLoadChecked b.val s
  | .bcpImask b v => s.hostWrite HOST (0x80130 + 4 * b.val) v []
  | .bcpStart d => bcpStart d (s.open_ d)
  | .bcpStop d => bcpStop d (s.open_ d)
  | .bcpLoad d buf => bcpLoad d buf (s.open_ d)
  | .bcpSwitch d => bcpSwitch d (s.open_ d)
  | .bcpMap d buf => bcpMap d buf (s.open_ d)
  | .bcpForce d => bcpForce d (s.open_ d)
  | .bcpUnforce d => bcpUnforce d (s.open_ d)
  | .bcpTout d buf => bcpTout d buf (s.open_ d)
  | .fbcNop b => fbcNop b.val s
  | .ldi b => ldi b.val s
  | .ldc b => ldc b.val s
  | .dup b => dup b.val s
  | .drop b => drop b.val s
  | .swap b => swap b.val s
  | .fbcOver b => fbcOver b.val s
  | .rot b => rot b.val s
  | .ldl b => ldl b.val s
  | .stl b => stl b.val s
  | .ldg b => ldg b.val s
  | .stg b => stg b.val s
  | .ldx b => ldx b.val s
  | .stx b => stx b.val s
  | .lea b => lea b.val s
  | .qget b => qget b.val s
  | .qset b => qset b.val s
  | .add b => fbcAdd b.val s
  | .sub b => fbcSub b.val s
  | .mul b => fbcMul b.val s
  | .div b => fbcDiv b.val s
  | .mod b => fbcMod b.val s
  | .neg b => fbcNeg b.val s
  | .abs b => fbcAbs b.val s
  | .min b => fbcMin b.val s
  | .max b => fbcMax b.val s
  | .limit b => limit b.val s
  | .cvt b => cvt b.val s
  | .math b => math b.val s
  | .cmp b => cmp b.val s
  | .sel b => sel b.val s
  | .and b => fbcAnd b.val s
  | .or b => fbcOr b.val s
  | .xor b => fbcXor b.val s
  | .not b => fbcNot b.val s
  | .shl b => shl b.val s
  | .shr b => shr b.val s
  | .jmp b => jmp b.val s
  | .jz b => jz b.val s
  | .jnz b => jnz b.val s
  | .call b => call b.val s
  | .ret b => ret b.val s
  | .callx b => callx b.val s
  | .tend b => tend b.val s
  | .aflag b => aflag b.val s
  | .now b => now b.val s
  | .ton b => ton b.val s
  | .tof b => tof b.val s
  | .tp b => tp b.val s
  | .rTrig b => rTrig b.val s
  | .fTrig b => fTrig b.val s
  | .ctu b => ctu b.val s
  | .ctd b => ctd b.val s
  | .sr b => sr b.val s
  | .rs b => rs b.val s
  | .eleread b => eleread b.val s
  | .qread b => qread b.val s
  | .rowen b => rowen b.val s
  | .saarm b => saarm b.val s
  | .sacancel b => sacancel b.val s
  | .saread b => saread b.val s
  | .recmark b => recmark b.val s
  | .icuTake src => s.hostWrite HOST 0x90110 (src.setWidth 32) []
  | .icuDone src => s.hostWrite HOST 0x90114 (src.setWidth 32) []
  | .icuSwset j v => s.hostWrite HOST (0x90120 + 4 * j.val) v []
  | .icuRaw k v => s.hostWrite HOST (0x90140 + 4 * k.val) v []
  | .icuEn k v => s.hostWrite HOST (0x90160 + 4 * k.val) v []
  | .icuSrc n v => s.hostWrite HOST (0x90400 + 4 * n.val) v []
  | .icuMode v => s.hostWrite HOST 0x90100 v []
  | .levelChange n lv => levelChange n.val lv s
  | .msixVectorUnmask vec => s.hostWrite HOST (0x11800C + 16 * vec.val) 0 []
  | .recStart d => recStart d (s.open_ d)
  | .recStop d => recStop d (s.open_ d)
  | .recTrig d => recTrig d (s.open_ d)
  | .recFlref d => recFlref d (s.open_ d)
  | .recordFlush k => recordFlush k.val s
  | .wavefrontCaptureEnd => wavefrontCaptureEnd s
  | .faultLocationTimeout => faultLocationTimeout s
  | .trigPacket h t method test code idx => trigPacket h t method test code idx s
  | .diSample us samples => diSample us samples s
  | .diFilterTick i => diFilterTick i.val s
  | .diDecision i => diDecision i.val s
  | .fioOreq d => fioOreq d (s.open_ d)
  | .fioReq v => s.hostWrite HOST 0xC0480 v []
  | .fioHostTimeout => fioHostTimeout s
  | .fioTpulse d => fioTpulse d (s.open_ d)
  | .testPulseStart o => testPulseStart o.val s
  | .testPulseEnd o crossed => testPulseEnd o.val crossed s
  | .logicSilentExpiry => logicSilentExpiry s
  | .refreshRepeat => refreshRepeat s
  | .overcurrent o => overcurrent o.val s
  | .thermalShutdown o => thermalShutdown o.val s
  | .thermalResume o => thermalResume o.val s
  | .extdrv o => extdrv o.val s
  | .extdrvClear o => extdrvClear o.val s
  | .fioFltlat k v => s.hostWrite HOST (0xC04A0 + 4 * k.val) v []
  | .fioDitsRead i => rcRead (0xC0200 + 16 * i.val) s
  | .pollSend l i => pollSend l.val i.val s
  | .respReceive l r after => respReceive l.val r after s
  | .pollSlotEnd l => pollSlotEnd l.val s
  | .stationDropOut l i => stationDropOut l.val i.val s
  | .rioOut d buf => rioOut d buf (s.open_ d)
  | .rioHostTimeout l i => rioHostTimeout l.val i.val s
  | .auxConv d => auxConv d (s.open_ d)
  | .auxRun a v => s.hostWrite HOST (0xB0100 + 4 * a.val) v []
  | .auxIntegrationStart a => auxIntegrationStart a.val s
  | .auxResult a raw => auxResult a.val raw s
  | .auxBusyEnd a => auxBusyEnd a.val s
  | .ptmrEvent u => ptmrEvent u.val s
  | .ptmrHighEnd u => ptmrHighEnd u.val s
  | .ptmrOneshotStart u => ptmrOneshotStart u.val s
  | .ptmrPulse d => ptmrPulse d (s.open_ d)
  | .ethLinkChange p up => ethLinkChange p.val up s
  | .rxFrame h => rxFrame h s
  | .ptpMessageReceive h domain m => ptpMessageReceive h domain m s
  | .ptpSyncSend p => ptpSyncSend p.val s
  | .ptpAnnounceSend p => ptpAnnounceSend p.val s
  | .pdelayReqSend p => pdelayReqSend p.val s
  | .prpSupervisionSend k => prpSupervisionSend k.val s
  | .duplicateForget k => duplicateForget k.val s
  | .svFrameReceive h f => svFrameReceive h f s
  | .svSubscriptionLost k => svSubscriptionLost k.val s
  | .gooseFrameReceive h f => gooseFrameReceive h f s
  | .gooseTalExpiry k => gooseTalExpiry k.val s
  | .gooseRepeat j => gooseRepeat j.val s
  | .netGval j v => s.hostWrite HOST (0xE0280 + 4 * j.val) v []
  | .netTx d buf => netTx d buf (s.open_ d)
  | .netSvsub d buf => netSvsub d buf (s.open_ d)
  | .netSvpub d buf => netSvpub d buf (s.open_ d)
  | .netGsub d buf => netGsub d buf (s.open_ d)
  | .netGpub d buf => netGpub d buf (s.open_ d)
  | .netKey d buf => netKey d buf (s.open_ d)
  | .tpFrameSend p => tpFrameSend p.val s
  | .tpFrameReceive p l pin rdi => tpFrameReceive p.val l pin rdi s
  | .lossOfFrame p => lossOfFrame p.val s
  | .tpCommandTimeout p => tpCommandTimeout p.val s
  | .tpcLos p lost => tpcLos p.val lost s
  | .commandTake r rd => commandTake r.val rd s
  | .completionWrite => completionWrite s
  | .writeBack r failed => writeBack r.val failed s
  | .ringEnable r v slots => s.hostWrite HOST (0x110108 + 16 * r.val) v slots
  | .hifDb r v slots => s.hostWrite HOST (0x114000 + 4 * r.val) v slots
  | .nop d => nop d (s.open_ d)
  | .functionLevelReset => functionLevelReset s
  | .perstN => perstN s
  | .hostLinkChange up bme d3 speed width => hostLinkChange up bme d3 speed width s
  | .lohelysLinkChange j lock => lohelysLinkChange j.val lock s
  | .helloSend j => helloSend j.val s
  | .helloPacket h serial strap st pos plink => helloPacket h serial strap st pos plink s
  | .formationEnd g => formationEnd g s
  | .linkDelayMeasure j => linkDelayMeasure j.val s
  | .timePacket h stamps arr => timePacket h stamps arr s
  | .cascadeSyncSend => cascadeSyncSend s
  | .syncPacket h sent cum tq step response => syncPacket h sent cum tq step response s
  | .alignment => alignment s
  | .gridPacket p rate => gridPacket p rate s
  | .pubPacket h hdr parts rest => pubPacket h hdr parts rest s
  | .levelPacket h lv => levelPacket h lv s
  | .levelSend => levelSend s
  | .tunPacket h x => tunPacket h x s
  | .cscWr d buf => cscWr d buf (s.open_ d)
  | .cscRd d buf => cscRd d buf (s.open_ d)
  | .cscCfg v => s.hostWrite HOST 0x100100 v []
  | .memberLost m => memberLost m.val s
  | .detach => detach s
  | .secAttest d buf => secAttest d buf (s.open_ d)
  | .secSign d buf => secSign d buf (s.open_ d)
  | .secCert d => secCert d (s.open_ d)
  | .secEnroll d buf => secEnroll d buf (s.open_ d)
  | .signingComplete => signingComplete s
  | .enrollCommit => enrollCommit s
  | .por => por s
  | .bootImageChecked flash => bootImageChecked flash s
  | .pwrBoot d buf => pwrBoot d buf (s.open_ d)
  | .pwrState d => pwrState d (s.open_ d)
  | .vsupLow => vsupLow s
  | .vsupFail => vsupFail s
  | .rstN => rstN s
  | .pwrReset v => s.hostWrite HOST 0x10120 v []
  | .refclkLoss => refclkLoss s
  | .vcoreConfirm mv => vcoreConfirm mv s
  | .wake => wake s
  | .temperatureMeasure dig ana io vsup => temperatureMeasure dig ana io vsup s
  | .duskReturn => duskReturn s
  | .paceMeasure n => paceMeasure n s
  | .tstOpnd d buf => tstOpnd d buf (s.open_ d)
  | .tstMsub v => s.hostWrite HOST 0x140110 v []
  | .scrub err blk => scrub err.val blk.val s
  | .interdieStall io => interdieStall io s
  | .classSStall stage => classSStall stage.val s
  | .vcoreLow mv => vcoreLow mv s
  | .blockStall blk => blockStall blk.val s
  | .extest lanes => extest lanes s
  | .idcode => idcode s
  | .samplePreload => samplePreload s
  | .fieldClamp => fieldClamp s
  | .highz => highz s
  | .extestPulse => extestPulse s
  | .extestTrain => extestTrain s
  | .bypass => bypass s
  | .nextWholeSecondLabel => nextWholeSecondLabel s
  | .rstNRelease => rstNRelease s
  | .outputLeavesLimit o => outputLeavesLimit o.val s
  | .announceReceiptTimeout p => announceReceiptTimeout p.val s

end Sys2Proof.Machine
end

