-- ==== Sys2Proof/Certificates/Slice0/Obligations.lean ====
section
/-! DEFINITION. The statements for the provers: what the block does on every command and event, what every step keeps, and
the rules of the spec that they formalise. -/

open Sys2Proof Sys2Proof.Machine

/-! ### The block -/

/-- Every step runs the command or event at the front of the queue on the state with the rest of the queue. -/
def Obligations.StepRunsFront : Prop :=
  ∀ (c : Instr) (rest : List Instr) (s : State), s.pending = c :: rest → step s = exec c { s with pending := rest }

/-- With nothing waiting the clock runs by the stride, in DAWN the start-up sequence goes on, and teleprotection frames whose byte 4
has begun take their command bits (the model's choice, log 3); a device in OFF or held in reset stays as it is. -/
def Obligations.StepIdles : Prop :=
  ∀ s : State, s.pending = [] →
    (s.Runs → step s = .next (settle (s.runClock s.mer.stride).dawnOtp.teleDue)) ∧ (¬ s.Runs → step s = .next s)

/-- Every command and event answers a next state in every state; none faults or is refused (log 1). While the device runs, it
is the state after the effect that its rules give it (`effect` names each one's), settled; the events of the supply and of RST_N
have theirs in every state. -/
def Obligations.EveryCommandAnswers : Prop :=
  (∀ (i : Instr) (s : State), ∃ t, exec i s = .next t) ∧
  (∀ (i : Instr) (s : State), s.Runs → exec i s = .next (settle (effect i s))) ∧
  (∀ (i : Instr) (s : State), i = .por ∨ i = .vsupFail ∨ i = .rstN ∨ i = .rstNRelease → exec i s = .next (settle (effect i s)))

/-- In OFF and while RST_N is low, nothing but the supply and the pin changes the state. -/
def Obligations.UnpoweredHolds : Prop :=
  ∀ (i : Instr) (s : State), ¬ s.Runs → i ≠ .por → i ≠ .vsupFail → i ≠ .rstN → i ≠ .rstNRelease → exec i s = .next s

/-- What follows every command (dispatch, the set point, the drive, the network frames) comes behind the drop-outs of stations that
are decided while an event waits for dispatch, and leaves of the state after these Meridian, the scheduled actions, the Cistern, the
front end, the chains, the quantity table, the subscriptions, the elements, the view of the last frame, the rows, the recorder,
remote I/O, the keys, the converters, teleprotection, the cascade, the supply, the trim record, the free values and the queue as
they are. Of the network it sends the frames that wait, in strict priority, and changes nothing else; it appends to what has left
the device and to the completions, and it changes registers of the block-code processors, the interrupt controller, the field
outputs, the pending-bit array and PWR_VSTAT only. -/
def Obligations.SettleKeeps : Prop :=
  ∀ s u : State, u = (if s.bcp.any (·.dispatch) then s.dropsFirst else s) →
    (settle s).mer = u.mer ∧ (settle s).sa = u.sa ∧ (settle s).cis = u.cis ∧ (settle s).afe = u.afe ∧ (settle s).dch = u.dch ∧
    (settle s).phe = u.phe ∧ (settle s).sv = u.sv ∧ (settle s).ele = u.ele ∧ (settle s).view = u.view ∧ (settle s).tmx.rows = u.tmx.rows ∧
    (settle s).tmx.pubs = u.tmx.pubs ∧ (settle s).rcd = u.rcd ∧ (settle s).rio = u.rio ∧ (settle s).sec = u.sec ∧
    (settle s).aux = u.aux ∧ (settle s).net = { u.net with tx := [] } ∧ (settle s).tpc = u.tpc ∧ (settle s).csc = u.csc ∧
    (settle s).pwr = u.pwr ∧ (settle s).trim = u.trim ∧ (settle s).free = u.free ∧ (settle s).pending = u.pending ∧
    (∃ l, (settle s).out = (inPriority u.net.tx).reverse ++ l ++ u.out) ∧ (∃ l, (settle s).hif.comps = u.hif.comps ++ l) ∧
    (∀ off, settleKeeps off → (settle s).rd off = u.rd off)

/-- From every state in which FIO_CMD and FIO_OUTST show the drive, every step leads to one in which they do, whatever
command or event it runs. -/
def Obligations.DriveShownKept : Prop := ∀ s t : State, s.DriveShown → step s = .next t → t.DriveShown

/-- From every state in which the set point keeps its floor, every step leads to one in which it does. -/
def Obligations.VcoreFloorKept : Prop := ∀ s t : State, s.VcoreFloor → step s = .next t → t.VcoreFloor

/-- Both relations hold right after the POR release. -/
def Obligations.ShownAtReset : Prop := State.reset.DriveShown ∧ State.reset.VcoreFloor ∧ State.reset.Runs

/-! ### Registers -/

/-- An offset of BAR0 that is not assigned reads 0, and a write to it changes nothing (R27). Every other read returns what the
register holds and its live bits, after what the read latches, and clears its RC fields; reading a flag counter clears it (R9,
R10). A read of BAR2 returns a byte of the Cistern, and a write to it changes nothing (R551); a read of the configuration space
returns its word, and a write to it changes nothing in the device (R548, log 149). A write with a partial byte enable is
discarded with GEN_STS.badacc (R26). A write of a register that has no rule of its own for the whole word is refused as not-now
where a locked field would change or the register's rule forbids it; otherwise it stores each field at the nearest legal value,
counts one clamp for each that it changed so, and has the effect that its chapter gives the write (R11, R32, R35, R38). So the
data word of an MSI-X vector takes every value, and a write of 0 to MER_STEP stores 1 and 1 with two clamps. -/
def Obligations.RegisterAccess : Prop :=
  ∀ (s : State), s.Runs →
    (∀ off v, findReg off = none → exec (.rcRead (.bar0 off)) s = .next (settle (s.emit (.read off 0))) ∧
      exec (.registerWrite (.bar0 off) 0xF v) s = .next (settle s)) ∧
    (∀ off t, t = s.latch off → exec (.rcRead (.bar0 off)) s = .next (settle ((t.readClear off).emit (.read off (t.readVal off))))) ∧
    (∀ (b : Fin 21) (f : Fin 32),
      exec (.rcRead (.bar0 (0x10000 * b.val + 0x40 + 4 * f.val))) s =
        .next (settle ((s.wr (0x10000 * b.val + 0x40 + 4 * f.val) (setBits (s.rd (0x10000 * b.val + 0x40 + 4 * f.val)) 15 0 0)).emit
          (.read (0x10000 * b.val + 0x40 + 4 * f.val) (s.rd (0x10000 * b.val + 0x40 + 4 * f.val)))))) ∧
    (∀ off, exec (.rcRead (.bar2 off)) s = .next (settle (s.emit (.bar2 off (memGet s.cis.mem off)))) ∧
      exec (.rcRead (.config off)) s = .next (settle (s.emit (.config off (s.configWord off)))) ∧
      ∀ be v, exec (.registerWrite (.bar2 off) be v) s = .next (settle s) ∧
        exec (.registerWrite (.config off) be v) s = .next (settle s)) ∧
    (∀ off be v, be ≠ 0xF → exec (.registerWrite (.bar0 off) be v) s = .next (settle (s.flag GEN 8))) ∧
    (∀ off r ix v x w, findReg off = some (r, ix) → r.base ∉ wholeWord → x = maskReserved r.base ix v →
      w = s.depClamp r.base ix (clampStatic r.fields x) →
      ((s.lockRefuses off r.fields (s.rd off) w || s.refuses off r.base ix (s.rd off) w) = true →
        exec (.registerWrite (.bar0 off) 0xF v) s = .next (settle (s.notNow off))) ∧
      ((s.lockRefuses off r.fields (s.rd off) w || s.refuses off r.base ix (s.rd off) w) = false →
        exec (.registerWrite (.bar0 off) 0xF v) s = .next (settle
          (((s.wr off (storeWord r.fields (s.rd off) x w)).clampReg off (clampTotal r.base r.fields x w)).written
            r.base ix (s.rd off) x w)))) ∧
    (∀ (k : Fin 64) v,
      exec (.registerWrite (.bar0 (0x118008 + 16 * k.val)) 0xF v) s = .next (settle (s.wr (0x118008 + 16 * k.val) v))) ∧
    exec (.registerWrite (.bar0 0x2010C) 0xF 0) s = .next (settle ((s.wr 0x2010C 0x00010001).clampReg 0x2010C 2))

/-- LOCK sets XXX_CTRL.lock of the block, and a write that changes an RWL field of a locked block is refused as not-now, as one
of ELE_CFG.type shows (R11, R38). SOFT_RESET is refused in NOON and DUSK for the blocks that R28 names, and for the Cistern while
a buffer is in use; otherwise it gives the block's registers of domain BLK their reset values, between what the block's chapter
states before and after, which is nothing for GEN and SEC (R28, R654). -/
def Obligations.LockAndSoftReset : Prop :=
  ∀ (s : State), s.Runs →
    (∀ b : Fin 21, exec (.lock b) s = .next (settle (s.p BLK_CTRL_lock [b.val] 1))) ∧
    (∀ (n : Fin 256) (v : Word), s.on BLK_CTRL_lock [ELE] = true → bits v 12 8 ≠ s.g ELE_CFG_type [n.val] → bits v 12 8 ≤ 15 →
      exec (.eleCfg n v) s = .next (settle (s.notNow (0x60100 + 4 * n.val)))) ∧
    (∀ b : Fin 21, [PWR, MER, AFE, DCH, PHE, ELE, TMX, BCP, FIO, RIO, NET, TPC, CSC].contains b.val = true →
      s.dev = NOON ∨ s.dev = DUSK → exec (.softReset b) s = .next (settle (s.notNow (b.val * 0x10000 + 4)))) ∧
    (∀ b : Fin 21, b.val = CIS → (∃ c ∈ s.cis.cons, c.bufs ≠ []) →
      exec (.softReset b) s = .next (settle (s.notNow (b.val * 0x10000 + 4)))) ∧
    (∀ (b : Fin 21) t, ([PWR, MER, AFE, DCH, PHE, ELE, TMX, BCP, FIO, RIO, NET, TPC, CSC].contains b.val = true →
        s.dev ≠ NOON ∧ s.dev ≠ DUSK) → (b.val = CIS → ∀ c ∈ s.cis.cons, c.bufs = []) → t = s.blkBefore b.val →
      exec (.softReset b) s = .next (settle (({ t with regs := regResetBlk t.regs b.val } : State).blkAfter b.val s))) ∧
    (∀ b : Fin 21, b.val = SEC ∨ b.val = GEN →
      exec (.softReset b) s = .next (settle { s with regs := regResetBlk s.regs b.val }))

/-! ### Meridian -/

/-- Servo events: a one-step PTP Sync of the port's master on a SLAVE port that is not of an HSR pair, less path delay, correction and
asymmetry, serves as source p, and the port notes its master's sync interval; a two-step Sync waits for its Follow_Up; a Sync on a port
without PTP, or of another domain, goes to the host; a frame that the port does not receive changes nothing further. A decoded
IRIG-B frame serves as source 8, a PPS_IN edge as source 9 and as a trigger. An edge is stamped by a TDC channel that is armed, which
then is not until it re-arms; on one that is not armed tdclost sets. A frame that does not decode ends the run of valid frames and
counts as missed (R53, R516, R518, R520, R64, R71, R72, R413). -/
def Obligations.ServoEvents : Prop :=
  ∀ (s : State), s.Runs →
    (∀ h domain sender m corr residence (s0 : State) on p, s.rxCheck h = (true, on, s0) → p = h.port.val → s0.pairMode (p / 2) ≠ 2 →
      on = false →
      ((s0.g NET_PTP_role [p] = 0 ∨ domain ≠ s0.g NET_PTPCFG_domain) →
        exec (.ptpSyncReceive h domain sender m corr residence) s = .next (settle (s0.rxHost h false))) ∧
      (s0.g NET_PTP_role [p] ≠ 0 → domain = s0.g NET_PTPCFG_domain → s0.g NET_PTP_state [p] = PS_SLAVE →
        (s0.portBest p).any (fun m => decide (m.sender = sender)) = true →
        (m.twoStep = false → exec (.ptpSyncReceive h domain sender m corr residence) s = .next (settle
          ((s0.putPtp p { s0.ptpPort p with logInt := m.logInt, synced := none }).ptpOffset p h.arr m.origin corr))) ∧
        (m.twoStep = true → exec (.ptpSyncReceive h domain sender m corr residence) s = .next (settle
          (s0.putPtp p { s0.ptpPort p with logInt := m.logInt, synced := some (sender, m.seq, h.arr, corr) }))))) ∧
    (∀ h domain sender m corr residence (s0 : State), s.rxCheck h = (false, false, s0) →
      exec (.ptpSyncReceive h domain sender m corr residence) s = .next (settle s0)) ∧
    (∀ (u : State) p arr origin corr, u.ptpOffset p arr origin corr = u.sourceEvent p
      ((arr : Int) - origin - corr - (u.ptpPort p).delay - sgn 16 (u.g NET_PTP_asym [p]) * oneNs)) ∧
    (∀ f edge, f.ok = true → (nth s.mer.tdc 19 (true, 0)).1 = true →
      exec (.irigbFrame f edge) s = .next (settle
        (({ s with mer := { s.mer with tdc := s.mer.tdc.set 19 (false, edge), irigBad := 0 } } : State).sourceEvent 8
          (((((edge : Int) - s.trimI (0x2A0 + 4 * 19) * 1024).toNat / 1024 * 1024 : Nat) : Int) - s.dly 1
            - (s.irigTai f * oneSec : Nat))))) ∧
    (∀ f edge, f.ok = true → (nth s.mer.tdc 19 (true, 0)).1 = false → exec (.irigbFrame f edge) s = .next (settle (s.flag MER 12))) ∧
    (∀ f edge, f.ok = false → exec (.irigbFrame f edge) s =
      .next (settle (({ s with mer := { s.mer with irigBad := s.mer.irigBad + 1 } } : State).breakRun 8))) ∧
    (∀ (edge t1 : Time), (nth s.mer.tdc 18 (true, 0)).1 = true →
      t1 = ((edge : Int) - s.trimI (0x2A0 + 4 * 18) * 1024).toNat / 1024 * 1024 →
      exec (.ppsInEdge edge) s = .next (settle
        ((({ s with mer := { s.mer with tdc := s.mer.tdc.set 18 (false, edge) } } : State).sourceEvent 9
          (secOffset ((t1 : Int) - s.dly 0))).recPps t1))) ∧
    (∀ edge, (nth s.mer.tdc 18 (true, 0)).1 = false → exec (.ppsInEdge edge) s = .next (settle (s.flag MER 12)))

/-- A source that is lost becomes unqualified at once, its run of valid events ends, and the best of those that remain is selected if
it was in use; on a member, which selects none, losing the master takes LOCKED to HOLDOVER. A source that has delivered valid events
for qual seconds becomes qualified, and the best is selected where none is. With revert = 1 a higher source that has stayed qualified
for wtr seconds is selected where no still higher one is qualified (the model's choice, log 173), and otherwise nothing changes
(R53, R54, R55). -/
def Obligations.SourceSelection : Prop :=
  ∀ (s : State), s.Runs →
    (∀ (c : Fin 11) u, u = (s.setQual c false).putSrcSt c { s.srcSt c with since := none } → s.srcIsLost c = true →
      (s.qualified c = false → exec (.sourceLost c) s = .next (settle (s.putSrcSt c { s.srcSt c with since := none }))) ∧
      (s.qualified c = true → s.isMember = false → s.g MER_STAT_active ≠ c.val → exec (.sourceLost c) s = .next (settle u)) ∧
      (s.qualified c = true → s.isMember = false → s.g MER_STAT_active = c.val →
        exec (.sourceLost c) s = .next (settle (u.selectSrc u.bestSrc))) ∧
      (s.qualified c = true → s.isMember = true → c.val ≠ 10 ∨ s.g MER_STAT_tq ≠ TQ_LOCKED →
        exec (.sourceLost c) s = .next (settle u)) ∧
      (s.qualified c = true → s.isMember = true → c.val = 10 → s.g MER_STAT_tq = TQ_LOCKED →
        exec (.sourceLost c) s = .next (settle (u.setTq TQ_HOLDOVER)))) ∧
    (∀ c : Fin 11, s.srcIsLost c = false → exec (.sourceLost c) s = .next (settle s)) ∧
    (∀ (c : Fin 11) t u, (s.srcSt c).since = some t → u = (s.setQual c true).putSrcSt c { s.srcSt c with qualAt := s.mer.cyc } →
      s.qualified c = false → s.g MER_QUAL_qual * oneSec ≤ s.since t → s.srcIsLost c = false →
      (s.g MER_STAT_active ≠ 12 ∨ s.isMember = true → exec (.sourceQualify c) s = .next (settle u)) ∧
      (s.g MER_STAT_active = 12 → s.isMember = false → exec (.sourceQualify c) s = .next (settle (u.selectSrc u.bestSrc)))) ∧
    (∀ c : Fin 11, (s.srcSt c).since = none ∨ s.qualified c = true ∨ s.srcIsLost c = true →
      exec (.sourceQualify c) s = .next (settle s)) ∧
    (∀ c : Fin 12, s.isMember = false → s.on MER_SRC_revert = true → s.qualified c = true → s.srcList.contains c.val = true →
      s.srcRank c < s.srcRank (s.g MER_STAT_active) → s.bestSrc = c.val →
      s.g MER_QUAL_wtr * oneSec ≤ s.since (s.srcSt c).qualAt →
      exec (.waitToRestore c) s = .next (settle (s.selectSrc c))) ∧
    (∀ c : Fin 12, s.isMember = true ∨ s.on MER_SRC_revert = false ∨ s.bestSrc ≠ c.val →
      exec (.waitToRestore c) s = .next (settle s))

/-- Time quality: LOCKED after lockcnt consecutive offsets within lockthr; HOLDOVER when LOCKED has no qualified source left, or when
no correction came within hcto in host-assisted mode, which sets the flag; FREE from HOLDOVER when free-run is in use, and when
HOLDOVER has lasted its limit (R61, R57). A member that follows the master of its stack has the master's tq and no limit of its own,
and one that has lost it keeps its limit; a member has no host correction (R55). A change of tq sets tqchg and starts the counts of
offsets afresh; one to HOLDOVER notes its time, and with the hardware servo or on a member gives MER_FADJ the mean of R62; one to FREE
changes nothing else (R62, R63). -/
def Obligations.TimeQuality : Prop :=
  ∀ (s : State), s.Runs →
    (s.isMember = false → s.g MER_STAT_tq ≠ TQ_LOCKED → s.g MER_SERVO_lockcnt ≤ s.mer.lockCnt → s.g MER_STAT_active ≤ 10 →
      s.dev ≠ SAFE → exec .tqLock s = .next (settle (s.setTq TQ_LOCKED))) ∧
    (s.isMember = true ∨ s.g MER_STAT_tq = TQ_LOCKED ∨ s.mer.lockCnt < s.g MER_SERVO_lockcnt ∨ 10 < s.g MER_STAT_active ∨ s.dev = SAFE →
      exec .tqLock s = .next (settle s)) ∧
    (s.isMember = false → s.g MER_STAT_tq = TQ_LOCKED → 11 ≤ s.g MER_STAT_active →
      (∀ c ∈ s.srcList, c ≠ 11 → s.qualified c = false) → exec .tqEvaluate s = .next (settle (s.setTq TQ_HOLDOVER))) ∧
    (s.isMember = false → s.g MER_STAT_tq = TQ_HOLDOVER → s.g MER_STAT_active = 11 →
      exec .tqEvaluate s = .next (settle (s.setTq TQ_FREE))) ∧
    (s.g MER_STAT_tq = TQ_FREE → exec .tqEvaluate s = .next (settle s) ∧ exec .holdoverLimit s = .next (settle s)) ∧
    (s.g MER_STAT_tq = TQ_HOLDOVER → s.g MER_HOLD_limit * oneSec ≤ s.since s.mer.holdAt → s.follows = false →
      exec .holdoverLimit s = .next (settle (s.setTq TQ_FREE)) ∧ exec .tqEvaluate s = .next (settle (s.setTq TQ_FREE))) ∧
    (s.follows = true → exec .holdoverLimit s = .next (settle s) ∧ exec .tqEvaluate s = .next (settle s)) ∧
    (s.isMember = false → s.g MER_SRC_mode = 1 → s.mer.hctoDone = false → s.g MER_HOLD_hcto * oneSec ≤ s.since s.mer.hctoAt →
      ∀ u, u = ({ s with mer := { s.mer with hctoDone := true } } : State).flag MER 13 →
        (s.g MER_STAT_tq ≠ TQ_LOCKED → exec .hostCorrectionTimeout s = .next (settle u)) ∧
        (s.g MER_STAT_tq = TQ_LOCKED → exec .hostCorrectionTimeout s = .next (settle (u.setTq TQ_HOLDOVER)))) ∧
    (s.isMember = true ∨ s.g MER_SRC_mode = 0 ∨ s.mer.hctoDone = true → exec .hostCorrectionTimeout s = .next (settle s)) ∧
    (∀ q t, q < 3 → s.g MER_STAT_tq ≠ q → s.on TST_MSUB_en = false → t = s.setTq q →
      t.g MER_STAT_tq = q ∧ bitAt (t.g BLK_STS [MER]) 9 = true ∧ t.mer.lockCnt = 0 ∧ t.mer.outCnt = 0 ∧
      (q = TQ_FREE → t = { (s.p MER_STAT_tq [] q).flag MER 9 with mer := { s.mer with lockCnt := 0, outCnt := 0 } }) ∧
      (q = TQ_HOLDOVER → t.mer.holdAt = s.mer.cyc) ∧
      (q = TQ_HOLDOVER → s.g MER_SRC_mode = 0 ∨ s.isMember = true → s.dev ≠ SAFE → t.g MER_FADJ = wrap 32 s.lockedMean))

/-- Corrections by the host: MER_HFREQ within ±200 ppm sets the adjustment, MER_HPHASE slews a correction that does not exceed
stepthr, and both restart the host-correction timeout; a member follows the master, and they leave its adjustment. A spent slew ends.
MER_TSET_HI arms the label for the next whole second, which is taken as a step, except in SAFE; it is refused in SAFE, and in NOON and
DUSK without stepnoon (R57, R58, R60, R55). In hardware mode the two host writes are refused. -/
def Obligations.Corrections : Prop :=
  ∀ (s : State), s.Runs →
    (∀ v, s.g MER_SRC_mode = 0 → exec (.merHfreq v) s = .next (settle (s.notNow 0x20120)) ∧
      exec (.merHphase v) s = .next (settle (s.notNow 0x20124))) ∧
    (∀ v : Word, s.g MER_SRC_mode = 1 → s.dev ≠ SAFE → -200000000 ≤ sgn 32 v.toNat → sgn 32 v.toNat ≤ 200000000 →
      (s.isMember = false → s.g MER_STAT_tq ≠ TQ_LOCKED →
        exec (.merHfreq v) s = .next (settle { ((s.wr 0x20120 v).p MER_FADJ [] v.toNat) with
          mer := { s.mer with integ := sgn 32 v.toNat, hctoAt := s.mer.cyc, hctoDone := false } })) ∧
      (s.isMember = true → exec (.merHfreq v) s = .next (settle { (s.wr 0x20120 v) with
        mer := { s.mer with hctoAt := s.mer.cyc, hctoDone := false } }))) ∧
    (∀ v : Word, s.g MER_SRC_mode = 1 → s.dev ≠ SAFE →
      (s.isMember = false → (sgn 32 v.toNat * 1024).natAbs ≤ s.g MER_STEP_stepthr * oneUs →
        exec (.merHphase v) s = .next (settle { (s.wr 0x20124 (s.rd 0x20124)) with
          mer := { s.mer with slew := sgn 32 v.toNat * 1024, slewRem := 0, slewing := decide (sgn 32 v.toNat * 1024 ≠ 0)
                              hctoAt := s.mer.cyc, hctoDone := false } })) ∧
      (s.isMember = true → exec (.merHphase v) s = .next (settle { (s.wr 0x20124 (s.rd 0x20124)) with
        mer := { s.mer with hctoAt := s.mer.cyc, hctoDone := false } }))) ∧
    (s.mer.slewing = true → s.mer.slew = 0 →
      exec .slewSpent s = .next (settle { s with mer := { s.mer with slewing := false } })) ∧
    (s.mer.slewing = false ∨ s.mer.slew ≠ 0 → exec .slewSpent s = .next (settle s)) ∧
    (∀ v : Word, s.dev = SAFE ∨ ((s.dev = NOON ∨ s.dev = DUSK) ∧ s.on MER_SERVO_stepnoon = false) →
      exec (.merTsetHi v) s = .next (settle (s.notNow 0x20144))) ∧
    (∀ v : Word, s.dev ≠ SAFE → (s.dev ≠ NOON ∧ s.dev ≠ DUSK) ∨ s.on MER_SERVO_stepnoon = true →
      exec (.merTsetHi v) s = .next (settle { (s.wr 0x20144 (s.rd 0x20144)) with
        mer := { s.mer with tset := some (Time.sec s.mer.now, v.toNat % 2 ^ 16 * 2 ^ 32 + s.g MER_TSET_LO) } })) ∧
    (∀ sec label u, s.mer.tset = some (sec, label) → sec < Time.sec s.mer.now → u = ({ s with mer := { s.mer with tset := none } } : State) →
      (s.dev ≠ SAFE → exec .nextWholeSecondLabel s = .next (settle (u.stepBy (((label : Int) - ((sec : Int) + 1)) * oneSec)))) ∧
      (s.dev = SAFE → exec .nextWholeSecondLabel s = .next (settle u))) ∧
    (s.mer.tset = none → exec .nextWholeSecondLabel s = .next (settle s))

/-- The time ports: a read of MER_NOW_SLO returns the seconds and latches the other two registers at the same instant; the
PPS output rises at a compensated whole second and falls after ppsw milliseconds; an IRIG-B frame is sent at each whole second
with the time of year; a TRIG_IN edge is stamped and triggers where its TDC channel is armed, and sets tdclost where it is not;
a TDC channel re-arms 40 ns after its stamp (R48, R65, R66, R72, R413). -/
def Obligations.TimePorts : Prop :=
  ∀ (s : State), s.Runs →
    (∀ t, t = ((((s.p MER_NOW_SLO [] (Time.sec s.mer.now % 2 ^ 32)).p MER_NOW_HI_sec [] (Time.sec s.mer.now / 2 ^ 32)).p
        MER_NOW_HI_frac [] (Time.frac s.mer.now)).p MER_NOW_NS [] (Time.ns s.mer.now)) →
      exec .merNowSlo s = .next (settle ((t.wr 0x20130 (t.rd 0x20130)).emit (.read 0x20130 (BitVec.ofNat 32 (Time.sec s.mer.now)))))) ∧
    (∀ c, c = ((s.mer.now : Int) - s.dly 2).toNat / oneSec → s.on MER_PORT_ppsen = true → s.mer.ppsSec < c →
      exec .ppsOutRise s = .next (settle { s with
        mer := { s.mer with pps := true, ppsSec := c, ppsAt := ((c * oneSec : Nat) + s.dly 2).toNat } })) ∧
    (s.on MER_PORT_ppsen = false → exec .ppsOutRise s = .next (settle s)) ∧
    (s.mer.pps = true → s.mer.ppsAt + s.g MER_PORT_ppsw * oneMs ≤ s.mer.now →
      exec .ppsOutFall s = .next (settle { s with mer := { s.mer with pps := false } })) ∧
    (∀ c, c = ((s.mer.now : Int) - s.dly 3).toNat / oneSec → s.on MER_PORT_irigen = true → s.mer.irigSec < c →
      exec .irigbOutFrame s = .next (settle
        (({ s with mer := { s.mer with irigSec := c } } : State).emit (.irig (irigFields ((c : Int) - s.g MER_UTC_offset)))))) ∧
    (s.on MER_PORT_irigen = false → exec .irigbOutFrame s = .next (settle s)) ∧
    (∀ (n : Fin 2) rising edge, (nth s.mer.tdc (16 + n.val) (true, 0)).1 = true →
      exec (.trigInEdge n rising edge) s = .next (settle
        (({ s with mer := { s.mer with tdc := s.mer.tdc.set (16 + n.val) (false, edge) } } : State).recPin n rising
          (((edge : Int) - s.trimI (0x2A0 + 4 * (16 + n.val)) * 1024).toNat / 1024 * 1024)))) ∧
    (∀ (n : Fin 2) rising edge, (nth s.mer.tdc (16 + n.val) (true, 0)).1 = false →
      exec (.trigInEdge n rising edge) s = .next (settle (s.flag MER 12))) ∧
    (∀ (c : Fin 20) at_, nth s.mer.tdc c.val (true, 0) = (false, at_) → at_ + 40 * oneNs ≤ s.mer.now →
      exec (.tdcRearm c) s = .next (settle { s with mer := { s.mer with tdc := s.mer.tdc.set c (true, at_) } }))

/-! ### Scheduled actions -/

/-- SA_ARM is refused where the slot is not the host's, the state or the action forbids it, and BUSY where the slot holds an arm that it
does not replace; otherwise it counts its clamped fields, cancels the arm that it replaces, arms the slot, and executes at once when
its time has passed. SA_CANCEL of a slot that holds an arm of the host completes the arm DONE with cancelled = 1 and makes the slot
FREE; of any other it is refused. An action whose time has come executes, LATE when more than 20 ns have passed: OUT_SET sets the
scheduled request of its output, with an end where it has a length, OUT_CLR clears it, REC_TRIG triggers, DCH_RST asks for the reset,
TRK_RATE sets the rate, BCP_BANK makes the switch PENDING or is refused, ROW_EN and ROW_DIS enable a row or not, and TPC_SET latches a
command bit; the arm of each but the switch completes with its time. One whose time has not come waits. The request of an OUT_SET with
a length clears after it (R73, R75 to R81). -/
def Obligations.ScheduledActions : Prop :=
  ∀ (s : State), s.Runs →
    (∀ d r rep cl u v, armFields d = (r, rep, cl) → u = (s.open_ d).each cl (fun t x => t.clampDesc d x.1 x.2) →
      v = (u.saForget r.slot).saFree r.slot →
      (s.armNotNow 0 r = true → exec (.saArm d) s = .next (settle ((s.open_ d).complete d 0x0101 ST_NOT_NOW))) ∧
      (s.armNotNow 0 r = false → u.saHeld r.slot = true → rep = false →
        exec (.saArm d) s = .next (settle (u.complete d 0x0101 ST_BUSY))) ∧
      (s.armNotNow 0 r = false → r.stack = false → u.saHeld r.slot = false →
        exec (.saArm d) s = .next (settle (((u.putSa r.slot { (u.sas r.slot) with
          who := .host d, time := r.time, action := r.action, arg := r.arg, stack := false, exec := 0, late := 0, refused := 0,
          own := none, pendLate := false }).putSaState r.slot SA_ARMED).saRun r.slot))) ∧
      (s.armNotNow 0 r = false → r.stack = false → u.saHeld r.slot = true → rep = true →
        exec (.saArm d) s = .next (settle (((v.putSa r.slot { (v.sas r.slot) with
          who := .host d, time := r.time, action := r.action, arg := r.arg, stack := false, exec := 0, late := 0, refused := 0,
          own := none, pendLate := false }).putSaState r.slot SA_ARMED).saRun r.slot)))) ∧
    (∀ d i, i = d.rf.toNat % 64 → s.saOwner i = 0 → s.saHeld i = true →
      ((s.cpu ((s.sas i).arg.toNat % 4)).switch = none →
        exec (.saCancel d) s = .next (settle (((s.open_ d).saEnd i ST_DONE true 0).complete d 0x0102 ST_DONE))) ∧
      exec (.saCancel d) s = .next (settle (((s.open_ d).saFree i).complete d 0x0102 ST_DONE))) ∧
    (∀ d i, i = d.rf.toNat % 64 → (s.saOwner i ≠ 0 ∧ s.saOwner i ≠ 5) ∨ s.saHeld i = false →
      exec (.saCancel d) s = .next (settle ((s.open_ d).complete d 0x0102 ST_NOT_NOW))) ∧
    (∀ (i : Fin 64) x st t v, x = s.sas i → v = x.arg.toNat → s.saFirst i = true → s.saState i = SA_ARMED → x.own = none →
      x.time ≤ s.mer.now → (st, t) = (if x.time + 20 * oneNs < s.mer.now then (ST_LATE, s.mer.now) else (ST_DONE, x.time)) →
      (x.action = 0 → ∀ l, l = s.fio.pulseEnd.set (v % 16)
          (if bits x.arg 31 16 = 0 then none else some (s.mer.cyc + bits x.arg 31 16 * 25000)) →
        exec (.actionExecute i) s = .next (settle (({ (s.p FIO_REQST_high [] (putBit (s.g FIO_REQST_high) (v % 16) true))
          with fio := { s.fio with pulseEnd := l } } : State).saDone i st t))) ∧
      (x.action = 1 → ∀ l, l = s.fio.pulseEnd.set (v % 16) none →
        exec (.actionExecute i) s = .next (settle (({ (s.p FIO_REQST_high [] (putBit (s.g FIO_REQST_high) (v % 16) false))
          with fio := { s.fio with pulseEnd := l } } : State).saDone i st t))) ∧
      (x.action = 2 → exec (.actionExecute i) s =
        .next (settle ((s.triggers (v % 16) ⟨x.time, 3, false, 9, i, 0, none, 1⟩).saDone i st t))) ∧
      (x.action = 3 → exec (.actionExecute i) s = .next (settle ((s.askReset (modTime (modAt t)) 2 none).saDone i st t))) ∧
      (x.action = 4 → exec (.actionExecute i) s = .next (settle ((s.p DCH_TRK_rate [] (min (v % 4) 2)).saDone i st t))) ∧
      (x.action = 5 → s.switchOk (v % 4) = true → (s.cpu (v % 4)).switch = none → exec (.actionExecute i) s = .next (settle
        (((s.putSa i { x with pendLate := decide (st = ST_LATE) }).putSaState i SA_PENDING).switchPend (v % 4) (some i) none))) ∧
      (x.action = 5 → s.switchOk (v % 4) = false ∨ (s.cpu (v % 4)).switch ≠ none →
        exec (.actionExecute i) s = .next (settle (s.saDone i ST_NOT_NOW 0))) ∧
      (x.action = 6 → exec (.actionExecute i) s = .next (settle ((s.rowEnable (v % 64) true).saDone i st t))) ∧
      (x.action = 7 → exec (.actionExecute i) s = .next (settle ((s.rowEnable (v % 64) false).saDone i st t))) ∧
      (x.action = 8 → exec (.actionExecute i) s = .next (settle ((s.p TPC_CMDLAT_cmd [v % 4]
        (putBit (s.g TPC_CMDLAT_cmd [v % 4]) (bits x.arg 7 4) (bitAt v 8))).saDone i st t)))) ∧
    (∀ i : Fin 64, s.mer.now < (s.sas i).time → exec (.actionExecute i) s = .next (settle s)) ∧
    (∀ (o : Fin 16) c, nth s.fio.pulseEnd o.val none = some c → c ≤ s.mer.cyc →
      exec (.outPulseEnd o) s = .next (settle { (s.p FIO_REQST_high [] (putBit (s.g FIO_REQST_high) o.val false)) with
        fio := { s.fio with pulseEnd := s.fio.pulseEnd.set o.val none } })) ∧
    (∀ o : Fin 16, nth s.fio.pulseEnd o.val none = none → exec (.outPulseEnd o) s = .next (settle s))

/-- The master's stack-wide arm goes to every device of the stack, and those that are absent have refused it; a member that follows its
master takes a launch into a FREE slot of owner CASC, or refuses it and says so; the master notes what a member reports, and the arm
completes once it has executed itself and every member has answered. A packet that the device does not take in, or that does not
concern it, has no effect beyond its reception (R82 to R84, R599). -/
def Obligations.StackLaunch : Prop :=
  ∀ (s : State), s.Runs →
    (∀ d r rep, armFields d = (r, rep, [(16, 0), (24, 0), (29, 0)]) → s.armNotNow 0 r = false → r.stack = true →
      s.saHeld r.slot = false →
      exec (.saArm d) s = .next (settle (((((s.open_ d).putSa r.slot { (s.sas r.slot) with
        who := .host d, time := r.time, action := r.action, arg := r.arg, stack := true, exec := 0, late := 0, refused := s.absent,
        own := none, pendLate := false }).putSaState r.slot SA_ARMED).stackSend
          PK_LAUNCH [r.slot, Time.sec r.time, Time.ns r.time, r.action, r.arg.toNat]).saRun r.slot))) ∧
    (∀ (slot : Fin 64) p action arg (u : State),
      s.packetIn PK_LAUNCH p.head none [slot, Time.sec p.t, Time.ns p.t, action, arg.toNat] = (true, u) → u.follows = true →
      (u.armNotNow 5 ⟨slot, min action 8, arg, p.t, false⟩ = false → u.saHeld slot = false →
        exec (.launchPacket slot p action arg) s = .next (settle (((u.putSa slot { (u.sas slot) with
          who := .casc, time := p.t, action := min action 8, arg := arg, stack := false, exec := 0, late := 0, refused := 0,
          own := none, pendLate := false }).putSaState slot SA_ARMED).saRun slot))) ∧
      (u.armNotNow 5 ⟨slot, min action 8, arg, p.t, false⟩ = true →
        exec (.launchPacket slot p action arg) s =
          .next (settle (u.stackSend PK_LAUNCHRES [u.position, slot.val, ST_NOT_NOW])))) ∧
    (∀ (slot : Fin 64) p action arg ok (u : State),
      s.packetIn PK_LAUNCH p.head none [slot, Time.sec p.t, Time.ns p.t, action, arg.toNat] = (ok, u) → ok = false ∨ u.follows = false →
      exec (.launchPacket slot p action arg) s = .next (settle u)) ∧
    (∀ h (slot : Fin 64) st (u : State) x, s.packetIn PK_LAUNCHRES h none [h.src.val, slot, st] = (true, u) → x = u.sas slot →
      u.isMaster = true → u.saHeld slot = true → x.stack = true →
      (st = ST_NOT_NOW → exec (.launchresPacket h slot st) s =
        .next (settle ((u.putSa slot { x with refused := putBit x.refused h.src.val true }).saSettle slot))) ∧
      (st = ST_LATE → exec (.launchresPacket h slot st) s = .next (settle ((u.putSa slot { x with
        exec := putBit x.exec h.src.val true, late := putBit x.late h.src.val true }).saSettle slot))) ∧
      (st ≠ ST_NOT_NOW → st ≠ ST_LATE → exec (.launchresPacket h slot st) s =
        .next (settle ((u.putSa slot { x with exec := putBit x.exec h.src.val true }).saSettle slot)))) ∧
    (∀ h (slot : Fin 64) st ok (u : State), s.packetIn PK_LAUNCHRES h none [h.src.val, slot, st] = (ok, u) →
      ok = false ∨ u.isMaster = false ∨ u.saHeld slot = false ∨ (u.sas slot).stack = false →
      exec (.launchresPacket h slot st) s = .next (settle u))

/-! ### The analogue front end and the decimation chains -/

/-- Weirs: a firing of an enabled, settled and armed weir, on a TDC channel that is armed, is stamped, counted, latched and raises its
source, and goes to the recorder; one that is off, settling or has not re-armed does not fire. The weir is armed again once its signal
has returned and its TDC channel has re-armed; settling ends 10 µs after the enabling write; a read of AFE_WTS[n][0] latches the other
parts of the last stamp at the same instant. An injection window that lay wholly under injection and has ended gives its means, of a
current channel for both gains, and counts; without one nothing is shown (R72, R109, R111 to R114). -/
def Obligations.WeirsAndInjection : Prop :=
  ∀ (s : State), s.Runs →
    (∀ (n : Fin 16) pol (edge t1 st : Time) w c, w = s.weir n → s.afe.run = true → s.on AFE_WCFG_en [n.val] = true → w.settling = none →
      w.armed = true → (nth s.mer.tdc n.val (true, 0)).1 = true →
      t1 = ((edge : Int) - s.trimI (0x2A0 + 4 * n.val) * 1024).toNat / 1024 * 1024 →
      st = ((t1 : Int) - s.trimI (0x220 + 8 * n.val) * 1024).toNat → c = (w.count + 1) % 2 ^ 32 →
      exec (.weirFire n pol edge) s = .next (settle
        ((((((({ s with mer := { s.mer with tdc := s.mer.tdc.set n.val (false, edge) } } : State).putWeir n
          { w with armed := false, stamp := st, pol := pol, count := c }).p AFE_WTS_3 [n.val] c).p AFE_WTS_0 [n.val]
          (Time.sec st % 2 ^ 32)).flag AFE 9).raise (164 + n.val)).recWeir n st pol))) ∧
    (∀ (n : Fin 16) pol edge, s.afe.run = false ∨ s.on AFE_WCFG_en [n.val] = false ∨ (s.weir n).settling ≠ none →
      exec (.weirFire n pol edge) s = .next (settle s)) ∧
    (∀ n : Fin 16, (s.weir n).armed = false → (nth s.mer.tdc n.val (true, 0)).1 = true →
      exec (.weirRearm n) s = .next (settle (s.putWeir n { s.weir n with armed := true }))) ∧
    (∀ n : Fin 16, (s.weir n).armed = true ∨ (nth s.mer.tdc n.val (true, 0)).1 = false → exec (.weirRearm n) s = .next (settle s)) ∧
    (∀ (n : Fin 16) c, (s.weir n).settling = some c → 10 * oneUs ≤ s.since c →
      exec (.weirSettle n) s = .next (settle (s.putWeir n { s.weir n with settling := none }))) ∧
    (∀ (n : Fin 16) t w, w = s.weir n → t = (((((s.p AFE_WTS_0 [n.val] (Time.sec w.stamp % 2 ^ 32)).p AFE_WTS_1 [n.val] (Time.ns w.stamp)).p
        AFE_WTS_2_frac [n.val] (Time.frac w.stamp / 1024)).p AFE_WTS_2_pol [n.val] (b2n w.pol)).p
        AFE_WTS_2_sechi [n.val] (Time.sec w.stamp / 2 ^ 32)) →
      exec (.afeWtsRead n) s = .next (settle ((t.wr (0x30400 + 16 * n.val) (t.rd (0x30400 + 16 * n.val))).emit
        (.read (0x30400 + 16 * n.val) (BitVec.ofNat 32 (Time.sec w.stamp)))))) ∧
    (∀ n k hg lg (mean : Int → Nat), s.afe.inj.full = some (n, k, hg, lg) →
      mean = (fun x : Int => wrap 32 (roundAway ((x : Rat) / ((128 * k : Nat) : Rat)))) →
      exec .injectionWindow s = .next (settle
        ((((s.p AFE_INJRES_HG [] (if n < 16 then mean hg else 0)).p AFE_INJRES_LG [] (mean lg)).cnt AFE_INJCNT_count).putInj
          { s.afe.inj with full := none }))) ∧
    (s.afe.inj.full = none → exec .injectionWindow s = .next (settle s))

/-- The chains: an output instant of CIC1 takes 16 codes of each modulator, and its samples reach the recorder; a MAIN point
gives each pipeline its channel's word and feeds the pre-decimation grid; a fixed tap's output is published and, on
14 400 samples/s, first evaluates the PIOC slots; at a tracked instant the next one is fixed and the master sends it. With the
modulators stopped no sample comes, and a unit that is not ready gives no output (R128, R129, R136, R143, R200, R585). -/
def Obligations.SampleChains : Prop :=
  ∀ (s : State), s.Runs →
    (∀ codes, s.afe.run = true → s.afe.mainDue = none → s.resetFirst = false →
      exec (.wbSample codes) s = .next (settle ((s.wbFeed codes).recWb.recOutput 0))) ∧
    (∀ codes, s.afe.run = false → exec (.wbSample codes) s = .next (settle s)) ∧
    (∀ m us u, s.afe.mainDue = some m → (∀ p ∈ List.range 24, s.pipeDue m p = false) → (∀ t ∈ [0, 1, 2], s.unitReady t = false) →
      (us, u) = (s.stopPipes m).mainPoints (List.range 24) →
      exec .mainPointSample s = .next (settle { (u.injAdd m) with
        afe := { (u.injAdd m).afe with mainDue := none }
        dch := { (u.injAdd m).dch with
          pipes := (u.injAdd m).dch.pipes.map fun x => x.push us m
          mainAt := some m
          preAt := if m % 1024 = 0 ∧ 1024 ≤ m then some (m - 1024) else (u.injAdd m).dch.preAt } })) ∧
    (s.afe.mainDue = none → exec .mainPointSample s = .next (settle s)) ∧
    (∀ (t : Fin 3) avail ack, s.unitReady t = true → t ≠ 0 →
      exec (.fixedTapOutput t avail ack) s = .next (settle (((s.fixedTap t).recOutput (t.val + 1)).svPublish t))) ∧
    (∀ avail ack ts u v w, s.unitReady 0 = true → ts = modTime (nth s.dch.next 0 0) → u = (s.fixedTap 0).piocSample ts →
      v = u.recStarts u.piocStarts ts → w = ({ v with tmx := { v.tmx with rose := [] } }.piocPath avail ack).recRows ts →
      exec (.fixedTapOutput 0 avail ack) s = .next (settle
        ((({ w with tmx := { w.tmx with rose := u.tmx.rose } } : State).recOutput 1).svPublish 0))) ∧
    (∀ (t : Fin 3) avail ack, s.unitReady t = false → exec (.fixedTapOutput t avail ack) s = .next (settle s)) ∧
    (∀ p u, s.dch.nextT = some p → s.afe.run = true → p.now ≤ s.mer.now →
      (s.tracked p = (none, u) → exec .trackedInstant s = .next (settle u)) ∧
      (∀ n, s.tracked p = (some n, u) → exec .trackedInstant s = .next (settle (u.gridSend n)))) ∧
    (s.dch.nextT = none → exec .trackedInstant s = .next (settle s))

/-- Resets of the chains: requested by SYNC_IN with pinen = 1 at 8 ns after the edge, and by DCH_SYNC and by DCH_SYNCCFG.cmd at the next
multiple of 1.25 ms, which are refused in DAWN, NIGHT and SAFE; taken at their instant, with DCH_LASTSYNC and the flag, and the
DCH_SYNC commands complete with it; a channel that changes its mode and a pipeline that is remapped restart alone (R99, R134, R153 to
R155, R158). -/
def Obligations.ChainResets : Prop :=
  ∀ (s : State), s.Runs →
    (∀ rising edge width, s.on DCH_SYNCCFG_pinen = true → 20 ≤ width → rising = !s.on DCH_SYNCCFG_pinpol →
      exec (.syncPinPulse rising edge width) s = .next (settle { s with
        dch := { s.dch with resets := s.dch.resets ++ [(modTime (modAt (edge + 8 * oneNs)), 0, none)] } })) ∧
    (∀ rising edge width, s.on DCH_SYNCCFG_pinen = false ∨ width < 20 ∨ rising = s.on DCH_SYNCCFG_pinpol →
      exec (.syncPinPulse rising edge width) s = .next (settle s)) ∧
    (∀ d, s.inSt [DAWN, NIGHT, SAFE] = false → exec (.dchSync d) s = .next (settle { (s.open_ d) with
        dch := { s.dch with resets := s.dch.resets ++ [(nextGrid s.mer.now, 1, some d)] } })) ∧
    (∀ d, s.inSt [DAWN, NIGHT, SAFE] = true → exec (.dchSync d) s = .next (settle ((s.open_ d).complete d 0x0401 ST_NOT_NOW))) ∧
    (∀ v : Word, v.getLsbD 8 = true → s.inSt [DAWN, NIGHT, SAFE] = false →
      exec (.dchSynccfgCmd v) s = .next (settle
        { (s.wr 0x40110 (setBits (setBits (s.rd 0x40110) 1 1 (bits v 1 1)) 0 0 (bits v 0 0))) with
          dch := { s.dch with resets := s.dch.resets ++ [(nextGrid s.mer.now, 1, none)] } })) ∧
    (∀ v : Word, v.getLsbD 8 = true → s.inSt [DAWN, NIGHT, SAFE] = true →
      exec (.dchSynccfgCmd v) s = .next (settle (s.notNow 0x40110))) ∧
    (∀ tr l u b, s.resetDue = some tr → l = s.dch.resets.filter (fun r => r.1 = tr) → s.afe.run = true → s.chainsBusy = false →
      modAt tr < s.reach → s.chanBefore (modAt tr) = false →
      u = { s with dch := { s.dch with resets := s.dch.resets.filter (fun r => r.1 ≠ tr) } } →
      b = (l.any (fun r => r.2.1 = 5) || l.any (fun r => r.2.1 = 4)) →
      exec .decimatorReset s = .next (settle (((((if b then u.takeConfig else u).restart tr b).lastSync tr
          ((l.map fun r => r.2.1).foldl max 0)).flag DCH 8).syncDone l ST_DONE))) ∧
    (s.resetDue = none → exec .decimatorReset s = .next (settle s)) ∧
    (∀ (n : Fin 24) tr c l, (s.chan n).due = (tr, c) :: l → s.afe.run = true → s.chainsBusy = false → tr < s.reach →
      (∀ t, s.resetDue = some t → tr < modAt t) →
      exec (.channelReset n) s = .next (settle (((s.resetChan n tr).each ((List.range 24).filter fun p =>
        ((s.pipe p).takeDue tr).1.src = n.val) fun s p => s.resetPipe p tr).flag DCH 8))) ∧
    (∀ n : Fin 24, (s.chan n).due = [] → exec (.channelReset n) s = .next (settle s)) ∧
    (∀ (p : Fin 24) m tr, s.afe.mainDue = some m → ((s.pipe p).takeDue m).2.getLast? = some tr →
      (∀ t ∈ [0, 1, 2], s.unitReady t = false) → s.frameReady = false →
      exec (.pipelineReset p) s = .next (settle ((s.resetPipe p (max tr (s.pipe p).tr)).flag DCH 8))) ∧
    (∀ p : Fin 24, s.afe.mainDue = none → exec (.pipelineReset p) s = .next (settle s))

/-- Coefficient banks and tracking: DCH_SWAP queues the swap of one running pipeline on the bank, or of all of them, at the clamped
fade length, and is refused in DAWN, NIGHT and SAFE and for a pipeline that does not run or has its coefficients from elsewhere;
DCH_BDEF reloads the default banks that it selects unless one is in use; DCH_TRKFREQ stores the host frequency, of a device that takes
it, and restarts its timer, which runs out after hto (R137, R144, R145, R147 to R150). -/
def Obligations.BanksAndTracking : Prop :=
  ∀ (s : State), s.Runs →
    (∀ d p0 t0 w0 p t w u, p0 = d.rf.toNat % 32 → t0 = d.rf.toNat / 32 % 4 → w0 = d.b.toNat % 512 → p = min p0 23 → t = min t0 2 →
      w = min (max w0 8) 256 → u = (((s.open_ d).clampDesc d 24 (b2n (w ≠ w0))).clampDesc d 28
        (b2n (!bitAt d.rf.toNat 8 && 23 < p0))).clampDesc d 28 (b2n (t0 = 3)) →
      (s.inSt [DAWN, NIGHT, SAFE] = true → exec (.dchSwap d) s = .next (settle ((s.open_ d).complete d 0x0402 ST_NOT_NOW))) ∧
      (u.inSt [DAWN, NIGHT, SAFE] = false → bitAt d.rf.toNat 8 = false → u.runsNow p = true → u.scsNow p t = false →
        exec (.dchSwap d) s = .next (settle { u with dch := { u.dch with
          swaps := u.dch.swaps ++ [⟨t, [p], s.mer.now, b2n (bitAt d.rf.toNat 7), w, d⟩] } })) ∧
      (bitAt d.rf.toNat 8 = false → u.runsNow p = false ∨ u.scsNow p t = true →
        exec (.dchSwap d) s = .next (settle ((s.open_ d).complete d 0x0402 ST_NOT_NOW))) ∧
      (u.inSt [DAWN, NIGHT, SAFE] = false → bitAt d.rf.toNat 8 = true →
        exec (.dchSwap d) s = .next (settle { u with dch := { u.dch with
          swaps := u.dch.swaps ++ [⟨t, (List.range 24).filter (fun q => u.runsNow q && !u.scsNow q t), s.mer.now,
            b2n (bitAt d.rf.toNat 7), w, d⟩] } }))) ∧
    (∀ v : Word, (∀ x ∈ bdefBanks v.toNat, s.bankInUse x.1 x.2 = false) →
      exec (.dchBdef v) s = .next (settle (s.each (bdefBanks v.toNat) State.bankDefault))) ∧
    (∀ v : Word, (∃ x ∈ bdefBanks v.toNat, s.bankInUse x.1 x.2 = true) →
      exec (.dchBdef v) s = .next (settle (s.notNow 0x40520))) ∧
    (∀ v : Word, s.g DCH_TRK_src = 1 → 10000000 ≤ v.toNat → v.toNat ≤ 70000000 →
      exec (.dchTrkfreq v) s = .next (settle { (s.wr 0x40104 v) with
        dch := { s.dch with hostCyc := s.mer.cyc, hostDone := false } })) ∧
    (∀ v : Word, s.g DCH_TRK_src ≠ 1 → exec (.dchTrkfreq v) s = .next (settle (s.notNow 0x40104))) ∧
    (s.dg DCH_TRK_src = 1 → s.dch.hostDone = false → s.dg DCH_TRK_hto * oneMs ≤ s.since s.dch.hostCyc →
      exec .trackingHostTimeout s = .next (settle { s with dch := { s.dch with hostDone := true } })) ∧
    (s.dg DCH_TRK_src ≠ 1 ∨ s.dch.hostDone = true → exec .trackingHostTimeout s = .next (settle s))

/-! ### Frames, phasors and elements -/

/-- A frame forms its samples, updates the phasors, evaluates the elements, makes the first pass over the rows and publishes;
without cascade operands the second pass, the slack and the end of the frame follow at once, else it waits for the other members'
publications or their deadline, at which a missing publication sets TMX_STS.cmiss and its entries are held; the slots that waited are
evaluated then, before the second pass (R22, R268, R272, R294, R295, R589). -/
def Obligations.FrameOrder : Prop :=
  ∀ (s : State), s.Runs →
    (∀ t0 ele ack u v w, s.frameReady = true → s.tmx.second = false → s.inSt [MORNING, NOON, DUSK, SAFE] = true →
      u = ((({ s with rcd := { s.rcd with tele := s.teleRx } }.formFrame.frameStates).netBoundary.recDistances).phasorUpdate.eleFrame) →
      v = (if u.ele.wait.isEmpty then u.eleDone ele else u) → w = ((v.passOne t0 ack).takeReport.takeEarly).sendPub →
      (w.needsCascade = true → exec (.frame t0 ele ack) s = .next (settle { w with tmx := { w.tmx with second := true } })) ∧
      (w.needsCascade = false → exec (.frame t0 ele ack) s = .next (settle (((w.passTwo ack).slack ack 0).frameEnd)))) ∧
    (∀ t0 ele ack, s.frameReady = false ∨ s.tmx.second = true → exec (.frame t0 ele ack) s = .next (settle s)) ∧
    (∀ ele ack late u, u = s.holdMissing → s.tmx.second = true → s.pubsIn = true →
      (u.ele.wait = [] → exec (.cascadeClassSPass ⟨ele, ack, late⟩) s = .next (settle (((u.passTwo ack).slack ack late).frameEnd))) ∧
      (u.ele.wait ≠ [] → exec (.cascadeClassSPass ⟨ele, ack, late⟩) s = .next (settle
        ((((u.eleCascade.eleDone ele).passTwo ack).slack ack late).frameEnd)))) ∧
    (∀ t, s.tmx.second = false ∨ s.pubsIn = false → exec (.cascadeClassSPass t) s = .next (settle s)) ∧
    (∀ t u, s.on GEN_STATE_stacked = true ∨ s.tmx.second = true → deadline s.dch.frame.ts ≤ s.mer.now →
      u = (if s.pubsIn || s.tmx.missed then s else ({ s with tmx := { s.tmx with missed := true } } : State).flag TMX 13) →
      (u.holdMissing.tmx.second = false → exec (.cascadeDeadline t) s = .next (settle u.holdMissing)) ∧
      (u.holdMissing.tmx.second = true → exec (.cascadeDeadline t) s = .next (settle (u.holdMissing.frameSecond t)))) ∧
    (∀ t, (s.on GEN_STATE_stacked = false ∧ s.tmx.second = false) ∨ s.mer.now < deadline s.dch.frame.ts →
      exec (.cascadeDeadline t) s = .next (settle s))

/-- Phasor feeds: PHE_RFEED queues the feed of an enabled host-fed remote group and is refused otherwise, PHE_HFREQ stores the host
frequency of a group that takes it and restarts the group's timer, whose expiry sets fhto; a remote group without a feed for dly
frames is held with STALE (R176, R182, R184). -/
def Obligations.PhasorFeeds : Prop :=
  ∀ (s : State), s.Runs →
    (∀ d buf r u, r = d.rf.toNat % 8 → s.inSt [DAWN, NIGHT] = false → s.on PHE_RGRP_en [r] = true → s.g PHE_RGRP_src [r] = 3 →
      u = (s.open_ d).clampDesc d 4 (b2n (d.len.toNat ≠ 160)) →
      exec (.pheRfeed d buf) s = .next (settle { u with phe := { u.phe with feeds := u.phe.feeds ++ [(r, d, buf)] } })) ∧
    (∀ d buf r, r = d.rf.toNat % 8 → s.inSt [DAWN, NIGHT] = true ∨ s.on PHE_RGRP_en [r] = false ∨ s.g PHE_RGRP_src [r] ≠ 3 →
      exec (.pheRfeed d buf) s = .next (settle ((s.open_ d).complete d 0x0501 ST_NOT_NOW))) ∧
    (∀ (g : Fin 8) (v : Word), s.on PHE_GCFG_fsrc [g.val] = true → 10000000 ≤ v.toNat → v.toNat ≤ 70000000 →
      exec (.pheHfreq g v) s = .next (settle ((s.wr (0x501A0 + 4 * g.val) v).putGrp g { s.grp g with
        hostCyc := s.mer.cyc, hostDone := false }))) ∧
    (∀ (g : Fin 8) (v : Word), s.on PHE_GCFG_fsrc [g.val] = false →
      exec (.pheHfreq g v) s = .next (settle (s.notNow (0x501A0 + 4 * g.val)))) ∧
    (∀ g : Fin 8, s.on PHE_GCFG_fsrc [g.val] = true → (s.grp g).hostDone = false →
      s.g PHE_GFCFG_hto [g.val] * oneMs ≤ s.since (s.grp g).hostCyc →
      exec (.pheHostTimeout g) s = .next (settle ((s.putGrp g { s.grp g with hostDone := true }).flag PHE 10))) ∧
    (∀ g : Fin 8, s.on PHE_GCFG_fsrc [g.val] = false ∨ (s.grp g).hostDone = true → exec (.pheHostTimeout g) s = .next (settle s)) ∧
    (∀ r : Fin 8, s.on PHE_RGRP_en [r.val] = true → s.g PHE_RGRP_src [r.val] = 3 → s.on PHE_RSTAT_stale [r.val] = false →
      (∀ a, (s.grp (8 + r.val)).age = some a → s.g PHE_RGRP_dly [r.val] ≤ a) →
      exec (.remoteFeedTimeout r) s = .next (settle ((s.remHold r).remStat r true))) ∧
    (∀ r : Fin 8, s.on PHE_RGRP_en [r.val] = false ∨ s.g PHE_RGRP_src [r.val] ≠ 3 ∨ s.on PHE_RSTAT_stale [r.val] = true →
      exec (.remoteFeedTimeout r) s = .next (settle s))

/-- Elements: ELE_SETW counts its clamps, stores its values with those that depend on them, clears the slot's state unless keep = 1 and
its role stays, and waits for them to be in force; one without a value and with keep = 1 is done at once. ELE_RESULT queues a result
of a HOST slot and is refused otherwise. A write of ELE_CFG is a register write; one of 0 over another type loads the defaults of NONE
and leaves the reserved bits. A host result older than two frames is STALE with a flag; a slot whose timer has reached its setting
operates and raises its source; a slot that has held for thold blocks (R195, R199, R202, R206, R207, R209, R211). -/
def Obligations.ElementSlots : Prop :=
  ∀ (s : State), s.Runs →
    (∀ d buf, s.inSt [DAWN, NIGHT] = true → exec (.eleSetw d buf) s = .next (settle ((s.open_ d).complete d 0x0601 ST_NOT_NOW))) ∧
    (∀ d buf n first cnt0 cnt u, s.inSt [DAWN, NIGHT] = false → n = d.rf.toNat % 256 → first = d.b.toNat % 16 →
      cnt0 = min d.len.toNat 64 / 4 → cnt = min cnt0 (16 - first) →
      u = ((s.open_ d).clampDesc d 4 (b2n (4 * cnt0 ≠ d.len.toNat))).clampDesc d 4 (b2n (cnt ≠ cnt0)) →
      (cnt = 0 → bitAt d.rf.toNat 8 = true → exec (.eleSetw d buf) s = .next (settle (u.complete d 0x0601 ST_DONE))) ∧
      (∀ l c v, cnt ≠ 0 ∨ bitAt d.rf.toNat 8 = false →
        (l, c) = settingWrite (u.g ELE_CFG_type [n]) first (u.settings n)
          ((List.range cnt).map fun i => BitVec.ofNat 32 (leAt buf (4 * i) 4)) →
        v = (u.putSettings n l).each c (fun t k =>
          if first ≤ k && k < first + cnt then t.clampDesc d 8 1 else t.clampReg (0x64000 + 64 * n + 4 * k) 1) →
        (bitAt d.rf.toNat 8 = true → v.roleOf n = (s.open_ d).roleOf n → exec (.eleSetw d buf) s = .next (settle { v with
          ele := { v.ele with setw := v.ele.setw ++ [(n, d)] } })) ∧
        (∀ w, bitAt d.rf.toNat 8 = false ∨ v.roleOf n ≠ (s.open_ d).roleOf n → w = v.putSlot n { v.slot n with clr := true } →
          exec (.eleSetw d buf) s = .next (settle { w with ele := { w.ele with setw := w.ele.setw ++ [(n, d)] } })))) ∧
    (∀ d n, n = d.rf.toNat % 256 → s.inSt [DAWN, NIGHT] = false → (s.slot n).mode = M_HOST →
      exec (.eleResult d) s = .next (settle { (s.open_ d) with ele := { s.ele with results := s.ele.results ++ [(n, d)] } })) ∧
    (∀ d n, n = d.rf.toNat % 256 → s.inSt [DAWN, NIGHT] = true ∨ (s.slot n).mode ≠ M_HOST →
      exec (.eleResult d) s = .next (settle ((s.open_ d).complete d 0x0611 ST_NOT_NOW))) ∧
    (∀ (n : Fin 256) v, exec (.eleCfg n v) s = exec (.registerWrite (.bar0 (0x60100 + 4 * n.val)) 0xF v) s) ∧
    (∀ (n : Fin 256), s.on BLK_CTRL_lock [ELE] = false → s.g ELE_CFG_type [n.val] ≠ 0 →
      exec (.eleCfg n 0) s = .next (settle (((s.wr (0x60100 + 4 * n.val) (s.rd (0x60100 + 4 * n.val) &&& 0x4E0FC)).putSettings n
        (typeDefaults 0)).reclamp (0x60500 + 4 * n.val)))) ∧
    (∀ (n : Fin 256) x k o, x = s.slot n → x.res = some (k, o) → x.mode = M_HOST → x.stale = false →
      2 < resultAge s.dch.frame.seq k →
      exec (.hostResultAgeExpiry n) s = .next (settle ((s.putSlot n { x with
        stale := true, res := none, out := { x.out with q := x.out.q ||| Q_STALE } }).flag ELE 8))) ∧
    (∀ n : Fin 256, (s.slot n).res = none → exec (.hostResultAgeExpiry n) s = .next (settle s)) ∧
    (∀ (n : Fin 256) x, x = s.slot n → x.mode = M_HW ∨ x.mode = M_TEST → x.vst = 0 → x.timerDue = true → x.out.oper = false →
      exec (.elementTimerExpiry n) s = .next (settle ((s.putSlot n { x with
        out := { x.out with oper := true, po := if x.typ = T_RBRF then 0 else x.out.ps } }).raise (128 + n.val / 32)))) ∧
    (∀ n : Fin 256, (s.slot n).timerDue = false ∨ (s.slot n).out.oper = true ∨ (s.slot n).vst ≠ 0 →
      exec (.elementTimerExpiry n) s = .next (settle s)) ∧
    (∀ (n : Fin 256) x, x = s.slot n → x.typ ≠ T_PIOC → x.vst = 1 → x.val 3 < x.held →
      exec (.holdLimitExpiry n) s = .next (settle (s.putEval n { x with
        out := { noOut with q := x.out.q }, vst := 2, lim := true, mem := x.blockMem x.mem, acc := 0 }))) ∧
    (∀ (n : Fin 256) x ts o f l, x = s.slot n → x.typ = T_PIOC → x.view = (ts, o, 1, f) :: l → x.val 3 < x.held →
      exec (.holdLimitExpiry n) s = .next (settle ((s.putSlot n { x with
        view := (ts, { noOut with q := o.q }, 2, 0) :: l, lim := true, mem := x.fresh }).flag ELE 9))) ∧
    (∀ n : Fin 256, (s.slot n).held ≤ (s.slot n).val 3 → exec (.holdLimitExpiry n) s = .next (settle s))

/-! ### The Sluice -/

/-- Row enables: the host's write of one is stored whatever blocks it; a class-N row whose enable goes from 0 to 1 comes into force at
once, and a class-S row below 0.72 V keeps its enable deferred, with TMX_STS.vdefer; a row that is disabled is out of force; the set
point keeps its floor. TMX_ROWEN does the same for each row of its mask and completes DONE. A write of TMX_COMMIT takes the row's
shadow, as it stands, for the next frame, and clears from a class-S row what leads to a slot in HOST mode, counted as clamps (R274,
R276, R277, R280, R568). -/
def Obligations.RowEnables : Prop :=
  ∀ (s : State), s.Runs → s.on BLK_CTRL_lock [TMX] = false →
    (∀ (r : Fin 64) (v : Word), v.msb = true → v.getLsbD 8 = false → (s.row r).cls = false → s.on TMX_ROW_en [r.val] = false →
      ∃ u : State, u.tmx = s.tmx ∧ u.on TMX_ROW_en [r.val] = true ∧
        (∀ x, x ≠ 0x70100 + 4 * r.val → x ≠ 0x120 → x ≠ 0x124 → u.rd x = s.rd x) ∧
        exec (.tmxRowEn r v) s = .next (settle ((u.putRow r { s.row r with armed := true, deferred := false }).vFloor).vFloor)) ∧
    (∀ (r : Fin 64) (v : Word), v.msb = true → v.getLsbD 8 = true → (s.row r).cls = true → s.on TMX_ROW_en [r.val] = false →
      s.g PWR_VSTAT_meas < 720 →
      ∃ u : State, u.tmx = s.tmx ∧ u.on TMX_ROW_en [r.val] = true ∧
        (∀ x, x ≠ 0x70100 + 4 * r.val → x ≠ 0x120 → x ≠ 0x124 → u.rd x = s.rd x) ∧
        exec (.tmxRowEn r v) s = .next (settle (((u.putRow r { s.row r with deferred := true }).vFloor).flag TMX 12).vFloor)) ∧
    (∀ (r : Fin 64) (v : Word), v.msb = false → v.getLsbD 8 = (s.row r).cls →
      ∃ u : State, u.tmx = s.tmx ∧ u.on TMX_ROW_en [r.val] = false ∧
        (∀ x, x ≠ 0x70100 + 4 * r.val → x ≠ 0x120 → x ≠ 0x124 → u.rd x = s.rd x) ∧
        exec (.tmxRowEn r v) s = .next (settle (u.putRow r { s.row r with armed := false, deferred := false }).vFloor)) ∧
    (∀ (d : Desc) (r : Fin 64), d.addr.toNat = 2 ^ r.val → d.a.getLsbD r = false →
      exec (.tmxRowen d) s = .next (settle ((((((s.open_ d).p TMX_ROW_en [r.val] 0).putRow r
        { s.row r with armed := false, deferred := false })).vFloor).complete d 0x0701 ST_DONE))) ∧
    (∀ d : Desc, exec (.tmxRowen d) s = .next (settle ((((s.open_ d).each (bitsOf 64 d.addr.toNat) fun s r =>
        s.rowEnable r (d.a.getLsbD r)).vFloor).complete d 0x0701 ST_DONE))) ∧
    (∀ (v : Word) r u, r = bits v 5 0 → u = (s.wr 0x70700 (s.rd 0x70700)).putRow r { s.row r with commit := some (s.shadow r) } →
      (s.rowIsS r = false → exec (.tmxCommit v) s = .next (settle u)) ∧
      (s.rowIsS r = true → exec (.tmxCommit v) s = .next (settle ((u.clearHost r).1.clampReg 0x70700 (u.clearHost r).2))))

/-- At an evaluation, by its tnow: a seal that has lasted tmax is released with TMX_STS.sealto, and its drive drops once tmin has passed as well; a drive without
act and seal drops at tmin; a supervised output without current within 5 ms of its on-command sets its on bit, and a current
clears it; nmiss slack misses in a row, or a PIOC slack below 0, are an internal fault of cause 2, which enters SAFE with its
cause and block recorded the first time and counts every time. An expiry
that is not due, an output without a check and a limit that is not reached change nothing (R285, R286, R298, R652, R653). -/
def Obligations.SluiceEvents : Prop :=
  ∀ (s : State), s.Runs →
    (∀ (r : Fin 64) x (tmax tmin : Time), x = s.row r → x.cls = true → x.act = false → x.drive = true → x.sealOn = true →
      tmax = bits x.sealCfg 15 8 * 100 * oneMs → tmin = bits x.sealCfg 7 0 * 5 * oneMs → 0 < tmax → x.tc + tmax ≤ x.tnow →
      (x.tc + tmin ≤ x.tnow →
        exec (.sealLimitExpiry r) s = .next (settle ((s.putRow r { x with sealOn := false, drive := false }).flag TMX 10))) ∧
      (x.tnow < x.tc + tmin →
        exec (.sealLimitExpiry r) s = .next (settle ((s.putRow r { x with sealOn := false, drive := true }).flag TMX 10)))) ∧
    (∀ r : Fin 64, (s.row r).cls = false ∨ (s.row r).act = true ∨ (s.row r).sealOn = false →
      exec (.sealLimitExpiry r) s = .next (settle s)) ∧
    (∀ (r : Fin 64) x, x = s.row r → x.cls = true → x.act = false → x.drive = true → x.sealOn = false →
      x.tc + bits x.sealCfg 7 0 * 5 * oneMs ≤ x.tnow →
      exec (.minPulseEnd r) s = .next (settle (s.putRow r { x with drive := false }))) ∧
    (∀ r : Fin 64, (s.row r).cls = false ∨ (s.row r).act = true ∨ (s.row r).sealOn = true →
      exec (.minPulseEnd r) s = .next (settle s)) ∧
    (∀ (o : Fin 16) on l, nth s.tmx.onAt o.val none = some on → s.on TMX_TCS_onchk [o.val] = true → l = s.tmx.onAt.set o none →
      (exec (.tcsOnCheck o true) s = .next (settle
        (({ s with tmx := { s.tmx with onAt := l } } : State).p TMX_TCSST_on [] (putBit (s.g TMX_TCSST_on) o false)))) ∧
      (on + 5 * oneMs ≤ s.mer.now → bitAt (s.g TMX_TCSST_on) o = false → exec (.tcsOnCheck o false) s = .next (settle
        ((({ s with tmx := { s.tmx with onAt := l } } : State).p TMX_TCSST_on [] (putBit (s.g TMX_TCSST_on) o true)).flag TMX 11)))) ∧
    (∀ (o : Fin 16) sensed, nth s.tmx.onAt o.val none = none → exec (.tcsOnCheck o sensed) s = .next (settle s)) ∧
    (s.inSt [NOON, DUSK] = false ∨ (s.tmx.misses < s.g TST_FCFG_nmiss ∧ 0 ≤ sgn 16 (s.g TMX_PSLACK_last)) →
      exec .slackMissLimit s = .next (settle s)) ∧
    (s.inSt [NOON, DUSK] = true → s.g TST_FCFG_nmiss ≤ s.tmx.misses ∨ sgn 16 (s.g TMX_PSLACK_last) < 0 →
      (s.pwr.faulted = false → exec .slackMissLimit s = .next (settle (((({ (((s.cnt TST_FLT_count).p TST_FLT_cause [] 2).p
        TST_FLT_blk [] TMX) with pwr := { s.pwr with faulted := true } } : State).flag TST 8).enterSafe 1)))) ∧
      (s.pwr.faulted = true → exec .slackMissLimit s = .next (settle ((s.cnt TST_FLT_count).enterSafe 1))))

/-! ### Interrupts -/

/-- TAKE makes a pending source of its target active, and clears the pending bit of an edge source; DONE by the taker ends it,
and presents again what is pending; every other TAKE and DONE counts, is recorded and sets its flag, and nothing else
(R384 to R386). -/
def Obligations.TakeAndDone : Prop :=
  ∀ (s : State), s.Runs →
    (∀ (n : BitVec 8) k, k = n.toNat → s.srcPend k = true → s.srcAct k = false → s.srcTgt k = HOST →
      exec (.icuTake n) s = .next (settle (s.icuTo k { s.icu with
        active := putSrc s.icu.active k true
        pending := if isLevel k = true then s.icu.pending else putSrc s.icu.pending k false
        taker := (k, HOST) :: s.icu.taker.filter fun (e : Nat × Nat) => e.1 ≠ k }))) ∧
    (∀ n : BitVec 8, s.srcPend n.toNat = false ∨ s.srcAct n.toNat = true ∨ s.srcTgt n.toNat ≠ HOST →
      exec (.icuTake n) s = .next (settle (((s.cnt ICU_BADTAKE_count).p ICU_BADTAKE_src [] n.toNat).flag ICU 9))) ∧
    (∀ (n : BitVec 8) k, k = n.toNat → s.srcAct k = true → (k, HOST) ∈ s.icu.taker →
      exec (.icuDone n) s = .next (settle (s.icuTo k { s.icu with
        active := putSrc s.icu.active k false, taker := s.icu.taker.filter fun (e : Nat × Nat) => e.1 ≠ k }))) ∧
    (∀ n : BitVec 8, s.srcAct n.toNat = false ∨ (n.toNat, HOST) ∉ s.icu.taker →
      exec (.icuDone n) s = .next (settle (((s.cnt ICU_BADDONE_count).p ICU_BADDONE_src [] n.toNat).flag ICU 8)))

/-- Software raises; the clear of edge pending bits; the enables, which are stored and whose rise presents what is pending; a source's
target, whose change is not-now while the source is active and else presents what is pending to the new one; compatibility mode, which
is not-now while a BCP runs or a source is active, and when it is set gives sources 0 to 127 their targets; the levels, of which a
change sets the pending bit and a rise counts, that of source 222 as the shared pool stands; and the message of a vector that is
unmasked with its bit of the array set (R378, R380, R383, R392, R393,
R397, R401). -/
def Obligations.InterruptControl : Prop :=
  ∀ (s : State), s.Runs →
    (∀ (j : Fin 5) (v : Word), j.val < 4 →
      exec (.icuSwset j v) s = .next (settle (s.each ((bitsOf 16 v.toNat).map (32 * j.val + ·)) State.raise))) ∧
    (∀ v : Word, exec (.icuSwset 4 v) s = .next (settle (s.each ((bitsOf 16 (v.toNat / 65536)).map (240 + ·)) State.raise))) ∧
    (∀ (k : Fin 8) (v : Word), exec (.icuRaw k v) s = .next (settle
      (s.each (((bitsOf 32 v.toNat).map (32 * k.val + ·)).filter (!isLevel ·)) fun s n =>
        s.icuTo n { s.icu with pending := putSrc s.icu.pending n false }))) ∧
    (∀ (k : Fin 8) (v : Word) u, u = s.wr (0x90160 + 4 * k.val) v →
      exec (.icuEn k v) s = .next (settle (u.each (((List.range 32).map (32 * k.val + ·)).filter fun n =>
        !s.presented n && u.presented n) State.present))) ∧
    (∀ (n : Fin 256) (v : Word) tg, tg = v.toNat % 8 → tg ≤ 6 → s.srcTgt n ≠ tg → s.srcAct n = true →
      exec (.icuSrc n v) s = .next (settle (s.notNow (0x90400 + 4 * n.val)))) ∧
    (∀ (n : Fin 256) (v : Word) tg u, tg = v.toNat % 8 → tg ≤ 6 → s.srcTgt n ≠ tg → s.srcAct n = false →
      s.on ICU_MODE_compat = false →
      u = ((s.p ICU_SRC_vec [n.val] (bits v 13 8)).p ICU_SRC_wake [n.val] (bits v 16 16)).p ICU_SRC_tgt [n.val] tg →
      (u.presented n = true → exec (.icuSrc n v) s = .next (settle (u.present n))) ∧
      (u.presented n = false → exec (.icuSrc n v) s = .next (settle u))) ∧
    (∀ (n : Fin 256) (v : Word) tg, tg = v.toNat % 8 → tg ≤ 6 → s.srcTgt n = tg →
      exec (.icuSrc n v) s = .next (settle
        (((s.p ICU_SRC_vec [n.val] (bits v 13 8)).p ICU_SRC_wake [n.val] (bits v 16 16)).p ICU_SRC_tgt [n.val] tg))) ∧
    (∀ v : Word, bits v 0 0 = s.g ICU_MODE_compat → exec (.icuMode v) s = .next (settle s)) ∧
    (∀ v : Word, bits v 0 0 ≠ s.g ICU_MODE_compat → (∃ b ∈ s.bcp, b.state = 2) ∨ s.icu.active ≠ 0 →
      exec (.icuMode v) s = .next (settle (s.notNow 0x90100))) ∧
    (∀ v : Word, v.getLsbD 0 = true → s.g ICU_MODE_compat = 0 → (∀ b ∈ s.bcp, b.state ≠ 2) → s.icu.active = 0 →
      exec (.icuMode v) s = .next (settle ((s.p ICU_MODE_compat [] 1).each (List.range 128) fun s n => s.retarget n (n / 32)))) ∧
    (∀ (n : Fin 256) lv, n.val ≠ 222 → isLevel n = true → s.icu.level.getLsbD n = !lv →
      exec (.levelChange n lv) s = .next (settle ((if lv then s.cnt ICU_CNT_count [n.val] else s).icuTo n { s.icu with
        level := putSrc s.icu.level n lv, pending := putSrc s.icu.pending n lv }))) ∧
    (∀ (n : Fin 256) lv, n.val ≠ 222 → isLevel n = false ∨ s.icu.level.getLsbD n = lv →
      exec (.levelChange n lv) s = .next (settle s)) ∧
    (∀ lv, exec (.levelChange 222 lv) s = .next (settle s.cisLevels)) ∧
    (∀ vec : Fin 64, bitAt (s.g MSIX_pba [vec.val / 32]) (vec.val % 32) = true →
      exec (.msixVectorUnmask vec) s = .next (settle (((s.p MSIX_mask [vec.val] 0).p MSIX_pba [vec.val / 32]
        (putBit (s.g MSIX_pba [vec.val / 32]) (vec.val % 32) false)).msix vec))) ∧
    (∀ vec : Fin 64, bitAt (s.g MSIX_pba [vec.val / 32]) (vec.val % 32) = false →
      exec (.msixVectorUnmask vec) s = .next (settle (s.p MSIX_mask [vec.val] 0)))

/-! ### The recorder -/

/-- REC_START of a stream that is IDLE or STOPPED takes it to RUN or, in SINGLE with room for its pre sets, to ARMED; it is NOT_NOW
otherwise. REC_STOP ends an active stream with cause 1, and completes with its END mark; it is NOT_NOW for another. REC_TRIG triggers
every selected stream at its time, clamped, or at the present time where it gives none; it is NOT_NOW in DAWN and NIGHT. A trigger
line message that a device of a formed stack takes in triggers every stream with xin = 1 as source 7. A buffer is completed once its
flush time has passed, and not before (R410, R414, R425, R430, R436). -/
def Obligations.RecordStreams : Prop :=
  ∀ (s : State), s.Runs →
    (∀ d k, k = d.rf.toNat % 4 → s.recActive k = false → s.inSt [DAWN, NIGHT] = false →
      (s.on REC_CFG_mode [k] = true → (s.g REC_LEN_pre [k] * s.setLen k + 2047) / 2048 ≤ s.g CIS_Q_max [k]) →
      exec (.recStart d) s = .next (settle ((((s.open_ d).putStr k { s.str k with
        start := some d, next := 0, times := [], stopAt := none, run := none, pend := [], last := none })).p REC_STAT_state [k]
          (if s.on REC_CFG_mode [k] then RS_ARMED else RS_RUN)))) ∧
    (∀ d k, k = d.rf.toNat % 4 → s.recActive k = true ∨ s.inSt [DAWN, NIGHT] = true ∨
      (s.on REC_CFG_mode [k] = true ∧ s.g CIS_Q_max [k] < (s.g REC_LEN_pre [k] * s.setLen k + 2047) / 2048) →
      exec (.recStart d) s = .next (settle ((s.open_ d).complete d 0x0A01 ST_NOT_NOW))) ∧
    (∀ d k, k = d.rf.toNat % 4 →
      (s.recActive k = true → ∀ u, u = (s.open_ d).recEnd k 1 → exec (.recStop d) s = .next (settle
        ((u.putStr k { u.str k with stops := (u.str k).stops ++ [(u.rcd.seq, d)] }).recStops k))) ∧
      (s.recActive k = false → exec (.recStop d) s = .next (settle ((s.open_ d).complete d 0x0A02 ST_NOT_NOW)))) ∧
    (∀ (d : Desc) sec ns t u, s.inSt [DAWN, NIGHT] = false → sec = d.addr.toNat % 2 ^ 48 → ns = d.a.toNat % 2 ^ 32 →
      t = (if sec = 0 ∧ ns = 0 then s.mer.now else Time.of sec (min ns 999999999)) →
      u = (s.open_ d).clampDesc d 16 (b2n (min ns 999999999 ≠ ns)) →
      exec (.recTrig d) s = .next (settle ((u.each (bitsOf 4 (bits d.b 3 0)) fun s k =>
        s.trigger k ⟨t, 3, bitAt d.b.toNat 4, 8, 0, 0, none, 1⟩).complete d 0x0A03 ST_DONE))) ∧
    (∀ d : Desc, s.inSt [DAWN, NIGHT] = true →
      exec (.recTrig d) s = .next (settle ((s.open_ d).complete d 0x0A03 ST_NOT_NOW))) ∧
    (∀ (h : PktHead) (t : Time) method test code idx ok u, (ok, u) = s.packetIn PK_TRIG h none [h.src.val, t, method, b2n test, code, idx] →
      (ok = true → u.formed = true → exec (.trigPacket h t method test code idx) s = .next (settle
        (u.each ((List.range 4).filter fun k => u.on REC_CFG_xin [k]) fun s k =>
          s.trigger k ⟨t, method, test, 7, h.src.val, code % 256 + 256 * (idx % 65536), none, 1⟩))) ∧
      (ok = false ∨ u.formed = false → exec (.trigPacket h t method test code idx) s = .next (settle u))) ∧
    (∀ (k : Fin 4) c, (s.str k).cur = some c →
      (s.g REC_CFG_flush [k.val] * 100 * oneUs ≤ s.since c.cyc → exec (.recordFlush k) s = .next (settle (s.recData k))) ∧
      (s.since c.cyc < s.g REC_CFG_flush [k.val] * 100 * oneUs → exec (.recordFlush k) s = .next (settle s))) ∧
    (∀ k : Fin 4, (s.str k).cur = none → exec (.recordFlush k) s = .next (settle s))

/-- Fault location: REC_FLREF queues a distance between 0 and 1 000 000 m as it is, and NaN and a negative one as 0 and a longer one as
1 000 000, each with one clamp; it is NOT_NOW in DAWN and NIGHT. First arrivals whose tmax has passed are dropped, each with
REC_STS.flnone. A wavefront window is delivered once 111 instants at or after its stamp are there, its instants before the
first one that is there with a free value, and not before (R431, R434, R435). -/
def Obligations.FaultLocation : Prop :=
  ∀ (s : State), s.Runs →
    (∀ d : Desc, s.inSt [DAWN, NIGHT] = false → isNaN f32 d.b.toNat = false → isInf f32 d.b.toNat = false → 0 ≤ ofF32 d.b.toNat →
      ofF32 d.b.toNat ≤ 1000000 → exec (.recFlref d) s = .next (settle (({ (s.open_ d) with
        rcd := { s.rcd with dist := s.rcd.dist ++ [d.b] } } : State).complete d 0x0A04 ST_DONE))) ∧
    (∀ d : Desc, s.inSt [DAWN, NIGHT] = false → isNaN f32 d.b.toNat = true ∨ (isInf f32 d.b.toNat = false ∧ ofF32 d.b.toNat < 0) →
      ∀ u, u = (s.open_ d).clampDesc d 24 1 →
      exec (.recFlref d) s = .next (settle (({ u with rcd := { u.rcd with dist := u.rcd.dist ++ [0] } } : State).complete d
        0x0A04 ST_DONE))) ∧
    (∀ d : Desc, s.inSt [DAWN, NIGHT] = false → isNaN f32 d.b.toNat = false → isInf f32 d.b.toNat = false → 1000000 < ofF32 d.b.toNat →
      ∀ u, u = (s.open_ d).clampDesc d 24 1 →
      exec (.recFlref d) s = .next (settle (({ u with rcd := { u.rcd with dist := u.rcd.dist ++ [BitVec.ofNat 32 (toF32 1000000)] } }
        : State).complete d 0x0A04 ST_DONE))) ∧
    (∀ d : Desc, s.inSt [DAWN, NIGHT] = true →
      exec (.recFlref d) s = .next (settle ((s.open_ d).complete d 0x0A04 ST_NOT_NOW))) ∧
    (∀ (old : Time × Bool → Bool), (old = fun a => decide (a.1 + s.g REC_FLCFG_tmax * oneUs < s.mer.now)) →
      exec .faultLocationTimeout s = .next (settle (({ s with rcd := { s.rcd with
        arrivals := s.rcd.arrivals.filter fun a => !old a } } : State).each (s.rcd.arrivals.filter old) fun s _ => s.flag REC 13))) ∧
    (∀ c w f u w1 b, s.rcd.cap = some c → w = s.window c.t1 →
      111 ≤ (w.filter fun e => decide (c.t1 ≤ e.1)).length → (f, u) = s.drawWord →
      w1 = List.replicate (148 - w.length) ((nth w 0 (0, [])).1, List.replicate 16 f) ++ w → b = waveRecord c c.chans w1 →
      exec .wavefrontCaptureEnd s = .next (settle (pumpWaves (u.rcd.waves.length + 1) { u.storeLast 5 0 0 b with
        rcd := { u.rcd with cap := none, waves := u.rcd.waves ++ [(b, c.chans.length)] } }))) ∧
    (∀ c, s.rcd.cap = some c → ((s.window c.t1).filter fun e => decide (c.t1 ≤ e.1)).length < 111 →
      exec .wavefrontCaptureEnd s = .next (settle s)) ∧
    (s.rcd.cap = none → exec .wavefrontCaptureEnd s = .next (settle s))

/-! ### Field inputs and outputs -/

/-- Digital inputs: a sample is shown in FIO_DIRAW; outside DAWN it starts the filters that have none yet, and a change of an input
with raw = 1 is a raw edge. At its ticks a filter counts up to L and down to 0, and a decision falls where it reaches the end opposite
to its state; elsewhere the tick changes nothing. A decision changes FIO_DISTATE, keeps its time and raises the group's source; a
read of FIO_DITS latches the rest of the last decision (R441 to R445). -/
def Obligations.DigitalInputs : Prop :=
  ∀ (s : State), s.Runs →
    (∀ us v u, u = (({ s with fio := { s.fio with sampleUs := us } } : State).p FIO_DIRAW [] v.toNat) →
      (s.dev = DAWN → exec (.diSample us v) s = .next (settle u)) ∧
      (s.dev ≠ DAWN → exec (.diSample us v) s = .next (settle (u.each (List.range 32) fun t i =>
        if (t.diSt i).started = false then t.diStart i (v.getLsbD i)
        else if t.on FIO_DICFG_raw [i] = true ∧ v.getLsbD i ≠ bitAt (s.g FIO_DIRAW) i then t.rawEdge us i (v.getLsbD i)
        else t)))) ∧
    (∀ (i : Fin 32) x us l c e, x = s.diSt i → us = s.fio.sampleUs → s.dev ≠ DAWN → x.started = true → x.due = none →
      us % 1000000 % 10 ^ s.g FIO_DICFG_tick [i.val] = 0 → x.tickAt ≠ us * oneUs → l = s.g FIO_DICFG_lim [i.val] →
      c = (if bitAt (s.g FIO_DIRAW) i then min (min x.cnt l + 1) l else min x.cnt l - 1) →
      e = (us * oneUs, !bitAt (s.g FIO_DISTATE) i, l * 10 ^ s.g FIO_DICFG_tick [i.val]) →
      ((c = l ∧ bitAt (s.g FIO_DISTATE) i = false) ∨ (c = 0 ∧ bitAt (s.g FIO_DISTATE) i = true) →
        exec (.diFilterTick i) s = .next (settle (s.putDi i { x with cnt := c, tickAt := us * oneUs, due := some e }))) ∧
      (¬ (c = l ∧ bitAt (s.g FIO_DISTATE) i = false) → ¬ (c = 0 ∧ bitAt (s.g FIO_DISTATE) i = true) →
        exec (.diFilterTick i) s = .next (settle (s.putDi i { x with cnt := c, tickAt := us * oneUs, due := none })))) ∧
    (∀ i : Fin 32, s.dev = DAWN ∨ (s.diSt i).started = false ∨ (s.diSt i).due ≠ none ∨
      s.fio.sampleUs % 1000000 % 10 ^ s.g FIO_DICFG_tick [i.val] ≠ 0 ∨ (s.diSt i).tickAt = s.fio.sampleUs * oneUs →
      exec (.diFilterTick i) s = .next (settle s)) ∧
    (∀ (i : Fin 32) (t : Time) lv k, (s.diSt i).due = some (t, lv, k) →
      exec (.diDecision i) s = .next (settle (((((s.putDi i { s.diSt i with due := none, decT := t, decLevel := lv, decDelay := k }).p
        FIO_DISTATE [] (putBit (s.g FIO_DISTATE) i lv)).p FIO_DITS_0 [i.val] (Time.sec t)).raise (180 + i / 8)).recDi i t lv))) ∧
    (∀ i : Fin 32, (s.diSt i).due = none → exec (.diDecision i) s = .next (settle s)) ∧
    (∀ (i : Fin 32) x t, x = s.diSt i → t = ((((s.p FIO_DITS_1 [i.val] (Time.ns x.decT)).p FIO_DITS_2_level [i.val] (b2n x.decLevel)).p
        FIO_DITS_2_sechi [i.val] (Time.sec x.decT / 2 ^ 32)).p FIO_DITS_3 [i.val] x.decDelay) →
      exec (.fioDitsRead i) s = .next (settle ((t.wr (0xC0200 + 16 * i.val) (t.rd (0xC0200 + 16 * i.val))).emit
        (.read (0xC0200 + 16 * i.val) (t.rd (0xC0200 + 16 * i.val))))))

/-- Host requests: FIO_REQ and FIO_OREQ set the masked outputs that the host owns, and restart the host watchdog; FIO_OREQ is
NOT_NOW in DAWN and NIGHT. When T has passed with hwd = 1, every host-owned request takes its safe value and FIO_STS.hto sets. The last
word is repeated once 500 µs have passed. Without a refresh for T of the I/O die's clock the die applies the safe states by itself, with
silent set and counted. Before its time each of these changes nothing (R451, R452, R460, R461). -/
def Obligations.OutputRequests : Prop :=
  ∀ (s : State), s.Runs →
    (∀ (v : Word) u, u = s.each ((bitsOf 16 (bits v 31 16)).filter s.hostOwns) (fun s o => s.putReq o (bitAt (bits v 15 0) o)) →
      exec (.fioReq v) s = .next (settle { u with fio := { u.fio with hostCyc := u.mer.cyc, hostDone := false } })) ∧
    (∀ (d : Desc) u, s.inSt [DAWN, NIGHT] = false → u = (s.open_ d).each ((bitsOf 16 (bits d.b 31 16)).filter s.hostOwns)
        (fun s o => s.putReq o (bitAt (bits d.b 15 0) o)) → exec (.fioOreq d) s = .next (settle
          (({ u with fio := { u.fio with hostCyc := u.mer.cyc, hostDone := false } } : State).complete d 0x0C01 ST_DONE))) ∧
    (∀ d : Desc, s.inSt [DAWN, NIGHT] = true →
      exec (.fioOreq d) s = .next (settle ((s.open_ d).complete d 0x0C01 ST_NOT_NOW))) ∧
    (∀ u, s.on FIO_WDCFG_hwd = true → s.fio.hostDone = false → s.g FIO_WDCFG_t * oneMs ≤ s.since s.fio.hostCyc →
      u = (s.each ((List.range 16).filter s.hostOwns) State.reqSafe).flag FIO 13 →
      exec .fioHostTimeout s = .next (settle { u with fio := { u.fio with hostDone := true } })) ∧
    (s.on FIO_WDCFG_hwd = false ∨ s.fio.hostDone = true ∨ s.since s.fio.hostCyc < s.g FIO_WDCFG_t * oneMs →
      exec .fioHostTimeout s = .next (settle s)) ∧
    (s.inSt [MORNING, NOON, DUSK, SAFE] = true → 500 * oneUs ≤ s.since s.fio.wordCyc →
      exec .refreshRepeat s = .next (settle (s.sendWord s.fio.word.toNat))) ∧
    (s.inSt [MORNING, NOON, DUSK, SAFE] = false ∨ s.since s.fio.wordCyc < 500 * oneUs →
      exec .refreshRepeat s = .next (settle s)) ∧
    (s.inSt [DAWN, NIGHT] = false → s.dieSafe = false → s.g FIO_WDCFG_t * oneMs * 85 ≤ s.since s.fio.refCyc * 100 →
      exec .logicSilentExpiry s = .next (settle ((((s.edges s.safeWord).p FIO_WDSTAT_silent [] 1).cnt FIO_WDSTAT_count).flag FIO 11))) ∧
    (s.inSt [DAWN, NIGHT] = true ∨ s.dieSafe = true ∨ s.since s.fio.refCyc * 100 < s.g FIO_WDCFG_t * oneMs * 85 →
      exec .logicSilentExpiry s = .next (settle s))

/-- Faults of the outputs: 20 µs in the current limit, 170 °C, and a pin driven from outside each set their present bit and,
with their latch, counter and flag, the output's latched one; leaving the limit, 10 ms below VSUP/2, and cooling end the
present state; the host clears latches, but not that of a switch that is still hot. An output that is off is in no current limit, a
bit that is set already is not set again, and an output that is commanded on, pulsed or off for less than 2 ms is not in EXTDRV
(R456 to R458). -/
def Obligations.OutputFaults : Prop :=
  ∀ (s : State), s.Runs →
    (∀ o : Fin 16, bitAt (s.g FIO_OUTST_low) o = true → bitAt (s.g FIO_FLTST_ovc_or_ext) o = false →
      exec (.overcurrent o) s = .next (settle
        ((s.p FIO_FLTST_ovc_or_ext [] (putBit (s.g FIO_FLTST_ovc_or_ext) o true)).fault 0 o 9))) ∧
    (∀ o : Fin 16, bitAt (s.g FIO_OUTST_low) o = false ∨ bitAt (s.g FIO_FLTST_ovc_or_ext) o = true →
      exec (.overcurrent o) s = .next (settle s)) ∧
    (∀ o : Fin 16, exec (.outputLeavesLimit o) s = .next (settle
      (s.p FIO_FLTST_ovc_or_ext [] (putBit (s.g FIO_FLTST_ovc_or_ext) o false)))) ∧
    (∀ o : Fin 16, s.fio.hot.getLsbD o = false ∨ bitAt (s.g FIO_FLTST_tsd) o = false →
      exec (.thermalShutdown o) s = .next (settle ((({ s with fio := { s.fio with
        hot := BitVec.ofNat 16 (putBit s.fio.hot.toNat o true) } } : State).p FIO_FLTST_tsd []
          (putBit (s.g FIO_FLTST_tsd) o true)).fault 1 o 10))) ∧
    (∀ o : Fin 16, s.fio.hot.getLsbD o = true → bitAt (s.g FIO_FLTST_tsd) o = true →
      exec (.thermalShutdown o) s = .next (settle s)) ∧
    (∀ o : Fin 16, exec (.thermalResume o) s = .next (settle { s with fio := { s.fio with
      hot := BitVec.ofNat 16 (putBit s.fio.hot.toNat o false) } })) ∧
    (∀ o : Fin 16, bitAt s.cmdWord o = false → bitAt (s.g FIO_EXTST_ovc_or_ext) o = false →
      s.pulse (s.lead o) = none → 2 * oneMs ≤ s.since (nth s.fio.offCyc o 0) →
      exec (.extdrv o) s = .next (settle
        ((s.p FIO_EXTST_ovc_or_ext [] (putBit (s.g FIO_EXTST_ovc_or_ext) o true)).fault 2 o 8))) ∧
    (∀ o : Fin 16, bitAt s.cmdWord o = true ∨ bitAt (s.g FIO_EXTST_ovc_or_ext) o = true ∨ (s.pulse (s.lead o)).isSome = true ∨
      s.since (nth s.fio.offCyc o 0) < 2 * oneMs → exec (.extdrv o) s = .next (settle s)) ∧
    (∀ o : Fin 16, exec (.extdrvClear o) s = .next (settle
      (s.p FIO_EXTST_ovc_or_ext [] (putBit (s.g FIO_EXTST_ovc_or_ext) o false)))) ∧
    (∀ (k : Fin 4) (v : Word) lat, lat = s.g FIO_FLTLAT_lat [k.val] → k.val ≠ 1 ∨ s.fio.hot = 0 →
      exec (.fioFltlat k v) s = .next (settle (s.p FIO_FLTLAT_lat [k.val] (lat - (lat &&& bits v 15 0))))) ∧
    (∀ (v : Word) (o : Fin 16) lat, lat = s.g FIO_FLTLAT_lat [1] → lat &&& bits v 15 0 = 2 ^ o.val →
      s.fio.hot.getLsbD o = true →
      exec (.fioFltlat 1 v) s = .next (settle ((s.p FIO_FLTLAT_lat [1] (lat - 2 ^ o.val)).fault 1 o 10)))

/-- Test pulses: a pulse starts at its instants and at FIO_TPULSE, or is skipped and counted. FIO_TPULSE waits for the pulses that it
starts, is done at once where it starts none, and is NOT_NOW where no pulse may start. At its end the output counts the
pulse, its off time and that of its pair start, and a pin that did not cross VSUP/2 is a failure; before its end, and without a pulse,
nothing changes (R458, R464 to R466). -/
def Obligations.TestPulses : Prop :=
  ∀ (s : State), s.Runs →
    (∀ (o : Fin 16) per, per = s.g FIO_TPCFG_per [o.val] → s.pulsesRun = true → s.g FIO_TPCFG_mode [o.val] ≠ 0 → per ≠ 0 →
      s.oddPair o = false → (s.mer.now / oneUs) % (1000 * per) = 1000 * o.val % (1000 * per) →
      (s.pulseSkips o = false → exec (.testPulseStart o) s = .next (settle (s.putPulse o
        (some ⟨s.mer.now, s.g FIO_TPCFG_mode [o.val]⟩)))) ∧
      (s.pulseSkips o = true → exec (.testPulseStart o) s = .next (settle (s.cnt FIO_TPRES_skip [o.val])))) ∧
    (∀ (o : Fin 16) per, per = s.g FIO_TPCFG_per [o.val] → s.pulsesRun = false ∨ s.g FIO_TPCFG_mode [o.val] = 0 ∨ per = 0 ∨
      s.oddPair o = true ∨ (s.mer.now / oneUs) % (1000 * per) ≠ 1000 * o.val % (1000 * per) →
      exec (.testPulseStart o) s = .next (settle s)) ∧
    (∀ d l own u, s.pulsesRun = true → l = bitsOf 16 (bits d.b 15 0) → own = l.filter (fun o => !s.pulseSkips o) →
      u = (s.open_ d).each l State.startPulse →
      (own = [] → exec (.fioTpulse d) s = .next (settle (u.complete d 0x0C02 ST_DONE))) ∧
      (own ≠ [] → exec (.fioTpulse d) s = .next (settle { u with
        fio := { u.fio with tpulse := u.fio.tpulse ++ [(d, BitVec.ofNat 16 (maskSum own))] } }))) ∧
    (∀ d, s.pulsesRun = false → exec (.fioTpulse d) s = .next (settle ((s.open_ d).complete d 0x0C02 ST_NOT_NOW))) ∧
    (∀ (o : Fin 16) x u, s.pulse o = some x → x.at_ + s.g FIO_TPCFG_len [o.val] * oneUs ≤ s.mer.now →
      u = (s.putPulse o none).cnt FIO_TPRES_done [o.val] →
      exec (.testPulseEnd o true) s = .next (settle (((u.p FIO_TPRES_fail [o.val] 0).offNow o).tpulseDone o)) ∧
      exec (.testPulseEnd o false) s = .next (settle ((((u.p FIO_TPRES_fail [o.val] 1).offNow o).fault 3 o 12).tpulseDone o))) ∧
    (∀ (o : Fin 16) crossed, (∀ x, s.pulse o = some x → s.mer.now < x.at_ + s.g FIO_TPCFG_len [o.val] * oneUs) →
      exec (.testPulseEnd o crossed) s = .next (settle s))

/-! ### Remote I/O, converters and pulse timers -/

/-- The first station of a cycle starts the cycle; the next station of the cycle is polled in its slot with its latched bytes, or
with substitutes; a valid RESP within rto of a station in UP gives its inputs, one with a wrong CRC is counted; the end of a slot counts a
poll without a valid RESP; n misses in a row drop the station out with its substitute inputs; RIO_OUT gives the bytes of
a station that the host owns and is NOT_NOW for another, and its timeout lets substitutes stand. A link that is stopped polls none, a
RESP outside a slot and an end before its time change nothing, and so does a drop-out that is not due (R472, R474, R475, R477, R481,
R486, R488). -/
def Obligations.RemoteStations : Prop :=
  ∀ (s : State) (l : Fin 8), s.Runs →
    (∀ (i : Fin 16) k x u sub b ov f (c fin : Time), k = s.link l → x = s.sta l i → k.running = true → s.inSt [DAWN, NIGHT] = false →
      k.slot = none → k.cycAt = some c → (s.toPoll l).head? = some i.val → c + halfUs (s.slotOff l i) ≤ s.mer.now →
      sub = s.substOut l i → b = (if sub then s.subOut l i else x.out.take x.no) →
      ov = (decide (s.staState l i = S_UP) && (sub || !x.withhold)) →
      fin = c + halfUs (s.slotOff l i + slotLen x.ni x.no (s.g RIO_LCFG_rto [l.val])) → f = pollFrame i (k.count % 16) ov sub b →
      u = s.putLink l { k with polled := k.polled ++ [i.val], slot := some (i.val, k.count % 16, fin), answer := none } →
      exec (.pollSend l i) s = .next (settle ((if ov then u.putSta l i { u.sta l i with sent := b } else u).emit
        (.poll l i f (serialBits f))))) ∧
    (∀ (i : Fin 16) (t : Time) u, (s.link l).running = true → (s.link l).stopping = false → s.inSt [DAWN, NIGHT] = false → (s.link l).slot = none →
      (s.toPoll l).isEmpty = true ∨ (s.link l).cycAt = none → s.cycleDue l = some t → u = s.cycleStart l t →
      (u.toPoll l).head? = some i.val → (u.link l).cycAt = some t → t + halfUs (u.slotOff l i) ≤ u.mer.now →
      exec (.pollSend l i) s = .next (settle (u.sendPoll l i))) ∧
    (∀ i : Fin 16, (s.link l).running = false ∨ s.inSt [DAWN, NIGHT] = true ∨ (s.link l).slot ≠ none →
      exec (.pollSend l i) s = .next (settle s)) ∧
    (∀ (r : List Byte) after k (i : Fin 16) q (fin : Time) u inp, k = s.link l → k.slot = some (i.val, q, fin) → k.answer = none →
      after ≤ s.g RIO_LCFG_rto [l.val] * 1000 →
      respCrcBad r = false → respOk i q (s.sta l i).ni r = true → u = s.putLink l { k with answer := some true } →
      u.staState l i = S_UP → inp = (r.drop 4).take (u.sta l i).ni →
      exec (.respReceive l r after) s = .next (settle ((((u.putSta l i { u.sta l i with inp := inp }).putIn l i inp).p
        RIO_SST_miss [l.val, i.val] 0).p RIO_SST_qual [l.val, i.val] (if (nth r 3 0).getLsbD 0 then 0x80 else 0)))) ∧
    (∀ (r : List Byte) after k (i : Fin 16) q (fin : Time), k = s.link l → k.slot = some (i.val, q, fin) → k.answer = none →
      respCrcBad r = true → exec (.respReceive l r after) s = .next (settle (((s.putLink l { k with answer := some false }).cnt
        RIO_SST_crc [l.val, i.val]).flagAt RIO 10 (186 + l)))) ∧
    (∀ (r : List Byte) after k (i : Fin 16) q (fin : Time), k = s.link l → k.slot = some (i.val, q, fin) → k.answer = none →
      respCrcBad r = false → s.g RIO_LCFG_rto [l.val] * 1000 < after ∨ respOk i q (s.sta l i).ni r = false →
      exec (.respReceive l r after) s = .next (settle (s.putLink l { k with answer := some false }))) ∧
    (∀ r after, (s.link l).slot = none ∨ (s.link l).answer ≠ none → exec (.respReceive l r after) s = .next (settle s)) ∧
    (∀ k (i : Fin 16) q (fin : Time) u, k = s.link l → k.slot = some (i.val, q, fin) → fin ≤ s.mer.now → k.stopping = false →
      u = s.putLink l { k with slot := none, answer := none } →
      (k.answer = some true → u.dropDue l i = false → exec (.pollSlotEnd l) s = .next (settle (u.rioImg l i))) ∧
      (k.answer ≠ some true → (u.cnt RIO_SST_miss [l.val, i.val]).dropDue l i = false →
        exec (.pollSlotEnd l) s = .next (settle ((u.cnt RIO_SST_miss [l.val, i.val]).rioImg l i))) ∧
      (k.answer ≠ some true → (u.cnt RIO_SST_miss [l.val, i.val]).dropDue l i = true →
        exec (.pollSlotEnd l) s = .next (settle (u.cnt RIO_SST_miss [l.val, i.val])))) ∧
    (∀ k, k = s.link l → (∀ i q fin, k.slot = some (i, q, fin) → s.mer.now < fin) → exec (.pollSlotEnd l) s = .next (settle s)) ∧
    (∀ (i : Fin 16) u, s.dropDue l i = true → u = ((((s.putSta l i { s.sta l i with dropped := true }).p RIO_SST_drops
        [l.val, i.val] ((s.g RIO_SST_drops [l.val, i.val] + 1) % 256)).toSubst l i S_DOWN).flagAt RIO 8 (186 + l)) →
      ((s.sta l i).own = 0 → exec (.stationDropOut l i) s = .next (settle (u.rioImg l i))) ∧
      (∀ b, (s.sta l i).own = b + 1 → b < 4 → exec (.stationDropOut l i) s = .next (settle ((u.raise (32 * b + 25)).bcpCause b
        fun e => { e with cause := e.cause ||| 1, dropped := e.dropped ||| BitVec.ofNat 128 (2 ^ (16 * l.val + i.val)) })))) ∧
    (∀ i : Fin 16, s.dropDue l i = false → exec (.stationDropOut l i) s = .next (settle s)) ∧
    (∀ (i : Fin 16) d buf x, x = s.sta l i → d.rf.toNat % 128 = 16 * l.val + i.val → s.inSt [DAWN, NIGHT] = false →
      x.own = 0 → s.staState l i ≠ S_IDLE →
      exec (.rioOut d buf) s = .next (settle ((((s.open_ d).clampDesc d 4 (b2n (d.len.toNat ≠ x.no))).putSta l i { x with
        out := (buf.take x.no ++ (s.outBase l i).drop (min buf.length x.no)).take 64
        subst := false, newOwn := false, hostCyc := s.mer.cyc, hostDone := false
        withhold := x.withhold && !x.imgSeen }).complete d 0x0D01 ST_DONE))) ∧
    (∀ (i : Fin 16) d buf, d.rf.toNat % 128 = 16 * l.val + i.val →
      s.inSt [DAWN, NIGHT] = true ∨ (s.sta l i).own ≠ 0 ∨ s.staState l i = S_IDLE →
      exec (.rioOut d buf) s = .next (settle ((s.open_ d).complete d 0x0D01 ST_NOT_NOW))) ∧
    (∀ (i : Fin 16) x, x = s.sta l i → x.en = true → x.own = 0 → x.hostDone = false →
      s.g RIO_HCFG_hto * oneMs ≤ s.since x.hostCyc →
      exec (.rioHostTimeout l i) s = .next (settle ((s.putSta l i { x with hostDone := true }).flagAt RIO 11 (186 + l)))) ∧
    (∀ i : Fin 16, (s.sta l i).en = false ∨ (s.sta l i).own ≠ 0 ∨ (s.sta l i).hostDone = true →
      exec (.rioHostTimeout l i) s = .next (settle s))

/-- Converters: AUX_CONV starts the named converters that run and are not busy; it is NOT_NOW where one does not run, and BUSY with a
skip of each busy one. A change of run to 1 allocates the circular buffer or is not-now and counted there, a change to 0 stops the
converter. An integration begins at its fMOD edge with its Tint, or is skipped while the converter is busy; a result goes into the
circular buffer at the write index, which advances, and out as a record, with its flags and sources; busy ends at its time. Without a
start, a conversion or a time that is due nothing changes (R495, R496, R499, R501, R502, R504). -/
def Obligations.Converters : Prop :=
  ∀ (s : State), s.Runs →
    (∀ d m, m = d.b.toNat % 4 → s.coupled = false →
      (s.inSt [DAWN, NIGHT] = true ∨ (∃ a ∈ bitsOf 2 m, s.on AUX_CFG_run [a] = false) →
        exec (.auxConv d) s = .next (settle ((s.open_ d).complete d 0x0B01 ST_NOT_NOW))) ∧
      (s.inSt [DAWN, NIGHT] = false → (∀ a ∈ bitsOf 2 m, s.on AUX_CFG_run [a] = true) →
        ((∃ a ∈ bitsOf 2 m, s.auxBusy a = true) →
          exec (.auxConv d) s = .next (settle ((((s.open_ d).each ((bitsOf 2 m).filter s.auxBusy) State.auxSkip).complete d 0x0B01
            ST_BUSY)))) ∧
        ((∀ a ∈ bitsOf 2 m, s.auxBusy a = false) → m ≠ 0 →
          exec (.auxConv d) s = .next (settle (({ (s.open_ d) with aux := { s.aux with
            cmds := s.aux.cmds ++ [(d, (bitsOf 2 m).map fun a => (a, modAt (s.mer.now + s.convDelay d a * oneUs)))] } } : State).each
              (bitsOf 2 m) fun u a => u.auxTrigger a u.mer.now (u.convDelay d a) true))))) ∧
    (∀ (a : Fin 2) (v w : Word), bits v 18 16 ≤ 3 → w = setBits (v &&& 0xF777FFFF) 18 16 (bits v 18 16) →
      (v.getLsbD 31 = true → s.on AUX_CFG_run [a.val] = false →
        (∀ u, s.auxAlloc a (s.g AUX_BUF_nbuf [a.val]) = some u →
          exec (.auxRun a v) s = .next (settle (u.wr (0xB0100 + 4 * a.val) w))) ∧
        (s.auxAlloc a (s.g AUX_BUF_nbuf [a.val]) = none →
          exec (.auxRun a v) s = .next (settle ((s.noBuf (6 + a)).notNow (0xB0100 + 4 * a.val))))) ∧
      (v.getLsbD 31 = false → s.on AUX_CFG_run [a.val] = true →
        exec (.auxRun a v) s = .next (settle ((s.auxStop a).wr (0xB0100 + 4 * a.val) w))) ∧
      (v.getLsbD 31 = s.on AUX_CFG_run [a.val] →
        exec (.auxRun a v) s = .next (settle (s.wr (0xB0100 + 4 * a.val) w)))) ∧
    (∀ (a : Fin 2) e host, (s.conv a).starts = [(e, host)] → modTime e ≤ s.mer.now → s.inSt [DAWN, NIGHT] = false →
      (s.auxBusy a = false → s.coupled = false →
        exec (.auxIntegrationStart a) s = .next (settle (s.auxBegin a e (s.auxTint a) host))) ∧
      (s.auxBusy a = true → host = false → exec (.auxIntegrationStart a) s = .next (settle
        ((s.putConv a { s.conv a with starts := [] }).auxSkip a)))) ∧
    (∀ a : Fin 2, (s.conv a).starts = [] → exec (.auxIntegrationStart a) s = .next (settle s)) ∧
    (∀ (a : Fin 2) raw x r w code ovr flags m u ok s3 s5 s6, x = s.conv a → x.run = some r → r.endAt ≤ s.mer.now →
      w = s.g AUX_WIDX [a.val] → (code, ovr) = s.auxCode a raw →
      flags = b2n ovr + 2 * b2n r.fq + 4 * b2n r.host + 8 * b2n (decide (r.endAt + 7 * oneMs / 2 < s.mer.now)) →
      m = memWrite s.cis.mem (s.g AUX_BUFBASE_off [a.val] + w % (64 * s.g AUX_BUF_nbuf [a.val]) * 32)
        (auxRecord a x.count r flags code (s.auxScaled r.ch code)) →
      u = (({ s with cis := { s.cis with mem := m } } : State).p AUX_WIDX [a.val] ((w + 1) % 2 ^ 32)).putConv a
        { x with run := none, count := (x.count + 1) % 65536 } →
      (ok, s3) = u.deliver CLS_AUX a ⟨0x0B10, 0, r.tint, Time.sec r.ts % 2 ^ 48 + x.count * 2 ^ 48, Time.ns r.ts + code * 2 ^ 32,
        wrap 32 (s.auxScaled r.ch code), a + 2 * r.ch + 32 * flags, ST_DONE, []⟩ true →
      s5 = ((if ok then s3 else (s3.cnt AUX_LOST_count [a.val]).auxFlag a 10).auxFlagIf ovr a 9).auxFlagIf r.fq a 11 →
      s6 = (if s5.on AUX_CFG_irq [a.val] then s5.raise (218 + a) else s5) →
      exec (.auxResult a raw) s = .next (settle (if r.ch ≤ 3 then s6.tcsResult a r.ch ((code * 1000 : Nat) / (2 ^ 20 : Rat)) else s6))) ∧
    (∀ (a : Fin 2) raw, (∀ r, (s.conv a).run = some r → s.mer.now < r.endAt) → exec (.auxResult a raw) s = .next (settle s)) ∧
    (∀ a : Fin 2, s.auxBusy a = true → (s.conv a).busyTo ≤ s.mer.now →
      exec (.auxBusyEnd a) s = .next (settle (s.p AUX_STAT_busy [a.val] 0))) ∧
    (∀ a : Fin 2, s.auxBusy a = false ∨ s.mer.now < (s.conv a).busyTo → exec (.auxBusyEnd a) s = .next (settle s))

/-- Pulse timers: a PERIODIC unit's event at its grid instant loads the settings written since and starts the high phase, which
ends after high µs; PTMR_PULSE of a ONESHOT unit that is free sets its pulse for a time, for the next microsecond where it gives none,
and starts it at once when the time has passed; it is BUSY while a pulse waits or runs, and NOT_NOW for a unit that is not ONESHOT. A
pulse that ends completes its command DONE, or LATE. Before its time, and without a pulse, each of these changes nothing (R505 to
R508). -/
def Obligations.PulseTimers : Prop :=
  ∀ (s : State), s.Runs →
    (∀ (u : Fin 8) x v, x = s.unit u → x.mode = 1 → s.inSt [DAWN, NIGHT] = false → x.next ≤ s.mer.now / oneUs →
      s.mer.stepAt ≤ x.next * oneUs → v = s.unitLoad u x.next →
      exec (.ptmrEvent u) s = .next (settle (v.unitEvent u (v.unit u).high (x.next * oneUs)
        (decide ((v.unit u).high = (v.unit u).period))))) ∧
    (∀ u : Fin 8, (s.unit u).mode ≠ 1 ∨ s.inSt [DAWN, NIGHT] = true ∨ s.mer.now / oneUs < (s.unit u).next →
      exec (.ptmrEvent u) s = .next (settle s)) ∧
    (∀ (u : Fin 8) (t : Time) v, (s.unit u).hiEnd = some t → t ≤ s.mer.now → v = s.pwmLow u t →
      (∀ at_ late d, (v.unit u).shot = some (at_, late, true, d) →
        exec (.ptmrHighEnd u) s = .next (settle (v.shotEnd u (if late then ST_LATE else ST_DONE)))) ∧
      ((∀ at_ late d, (v.unit u).shot ≠ some (at_, late, true, d)) → exec (.ptmrHighEnd u) s = .next (settle v))) ∧
    (∀ u : Fin 8, (∀ t, (s.unit u).hiEnd = some t → s.mer.now < t) → exec (.ptmrHighEnd u) s = .next (settle s)) ∧
    (∀ (u : Fin 8) at_ late d, (s.unit u).shot = some (at_, late, false, d) → at_ * oneUs ≤ s.mer.now →
      s.mer.stepAt ≤ at_ * oneUs → exec (.ptmrOneshotStart u) s = .next (settle ((s.putUnit u { s.unit u with shot := some (at_, late, true, d) }).unitEvent u
        (s.g PTMR_CFG_3_high [u.val]) (at_ * oneUs) false))) ∧
    (∀ u : Fin 8, (∀ at_ late d, (s.unit u).shot = some (at_, late, false, d) → s.mer.now < at_ * oneUs) →
      exec (.ptmrOneshotStart u) s = .next (settle s)) ∧
    (∀ (d : Desc) u sec ns at_ late v, u = d.b.toNat % 8 → s.inSt [DAWN, NIGHT] = false → (s.unit u).mode = 2 → (s.unit u).shot = none →
      sec = d.addr.toNat % 2 ^ 48 → ns = d.a.toNat % 2 ^ 32 →
      at_ = (if sec = 0 ∧ ns = 0 then s.mer.now / oneUs + 1 else (Time.of sec ns + oneUs - 1) / oneUs) →
      late = decide ((sec ≠ 0 ∨ ns ≠ 0) ∧ at_ * oneUs < s.mer.now) →
      v = ((s.open_ d).putUnit u { s.unit u with shot := some (at_, late, false, d) }).putShot u true →
      (late = false → exec (.ptmrPulse d) s = .next (settle v)) ∧
      (late = true → exec (.ptmrPulse d) s = .next (settle (v.shotStart u v.mer.now)))) ∧
    (∀ (d : Desc) u, u = d.b.toNat % 8 →
      (s.inSt [DAWN, NIGHT] = true ∨ (s.unit u).mode ≠ 2 →
        exec (.ptmrPulse d) s = .next (settle ((s.open_ d).complete d 0x0B02 ST_NOT_NOW))) ∧
      (s.inSt [DAWN, NIGHT] = false → (s.unit u).mode = 2 → (s.unit u).shot ≠ none →
        exec (.ptmrPulse d) s = .next (settle ((s.open_ d).complete d 0x0B02 ST_BUSY))))

/-! ### The block-code processors -/

/-- Tasks: a TIME task whose instant has come is released, behind the drop-outs that are decided, or is skipped and counted with the
overrun cause while its last instance has not ended; its next instant follows. A consecutive count that has reached kover, and an
instance that has outlived its wdt, start the fallback with their cause; a switch is taken once no instance is left, and holds new
releases after swto; BCP_IMASK stores the dispatch mask, and clearing it is a dispatch point. What is not due changes nothing (R311,
R320, R323, R324, R334, R335). -/
def Obligations.TaskControl : Prop :=
  ∀ (s : State) (b : Fin 4), s.Runs →
    (∀ (t : Fin 16) v us u, v = s.dropsFirst → us = v.mer.now / oneUs → s.timeDue b t = true →
      u = v.putCpu b { v.cpu b with
        nextRel := (v.cpu b).nextRel.set t (nextRelease us (v.g BCP_TASK_1 [b.val, t.val]) (v.g BCP_TASK_2 [b.val, t.val])) } →
      ((u.cpu b).busy t = false → exec (.timeTaskRelease b t) s = .next (settle (u.releaseTask b t))) ∧
      ((u.cpu b).busy t = true → exec (.timeTaskRelease b t) s = .next (settle
        ((((u.cnt BCP_TSTAT_0_ovr [b.val, t.val]).cnt BCP_TSTAT_0_consec [b.val, t.val]).flag BCP 8).bcpCause b
          (ErrRec.overrun t))))) ∧
    (∀ t : Fin 16, s.bcpRuns b = false ∨ s.taskKind b t ≠ K_TIME ∨ s.mer.now / oneUs < nth (s.cpu b).nextRel t 0 →
      exec (.timeTaskRelease b t) s = .next (settle s)) ∧
    (∀ (t : Fin 16) k, k = s.g BCP_CFG_kover [b.val] → k ≠ 0 → s.bcpRuns b = true → k ≤ s.g BCP_TSTAT_0_consec [b.val, t.val] →
      (∀ u < t.val, s.g BCP_TSTAT_0_consec [b.val, u] < k) →
      exec (.koverReached b) s = .next (settle (s.fallback b t 2))) ∧
    (∀ k, k = s.g BCP_CFG_kover [b.val] → k = 0 ∨ s.bcpRuns b = false ∨ (∀ t < 16, s.g BCP_TSTAT_0_consec [b.val, t] < k) →
      exec (.koverReached b) s = .next (settle s)) ∧
    (∀ i rest, (s.cpu b).insts = i :: rest → s.bcpRuns b = true → s.g BCP_TASK_3 [b.val, i.task] ≠ 0 →
      s.g BCP_TASK_3 [b.val, i.task] * oneUs < s.since i.relCyc →
      exec (.watchdogExpiry b) s = .next (settle (s.fallback b i.task 1))) ∧
    (s.bcpRuns b = false ∨ (∀ i ∈ (s.cpu b).insts, s.g BCP_TASK_3 [b.val, i.task] = 0 ∨
      s.since i.relCyc ≤ s.g BCP_TASK_3 [b.val, i.task] * oneUs) → exec (.watchdogExpiry b) s = .next (settle s)) ∧
    (∀ w, (s.cpu b).switch = some w → (s.cpu b).insts = [] →
      exec (.switchPoint b) s = .next (settle (s.takeSwitch b w))) ∧
    ((s.cpu b).switch = none ∨ (s.cpu b).insts ≠ [] → exec (.switchPoint b) s = .next (settle s)) ∧
    (∀ w, (s.cpu b).switch = some w →
      (w.holding = false → s.g BCP_CFG_swto [b.val] * oneMs ≤ s.since w.cyc →
        exec (.switchTimeout b) s = .next (settle (s.putCpu b { s.cpu b with switch := some { w with holding := true } }))) ∧
      (w.holding = true ∨ s.since w.cyc < s.g BCP_CFG_swto [b.val] * oneMs →
        exec (.switchTimeout b) s = .next (settle s))) ∧
    ((s.cpu b).switch = none → exec (.switchTimeout b) s = .next (settle s)) ∧
    (∀ v : Word, v.getLsbD 0 = false → s.on BCP_IMASK_mask [b.val] = true →
      exec (.bcpImask b v) s = .next (settle ((s.p BCP_IMASK_mask [b.val] 0).putCpu b { s.cpu b with dispatch := true }))) ∧
    (∀ v : Word, v.getLsbD 0 = false → s.on BCP_IMASK_mask [b.val] = false →
      exec (.bcpImask b v) s = .next (settle (s.p BCP_IMASK_mask [b.val] 0))) ∧
    (∀ v : Word, v.getLsbD 0 = true → exec (.bcpImask b v) s = .next (settle (s.p BCP_IMASK_mask [b.val] 1)))

/-- Start, stop, load and online change: BCP_START starts a BCP with an image that does not run, warm or cold; BCP_STOP drops every
instance, and takes a switch that waits; BCP_LOAD empties the inactive bank and queues the checks, whose outcome is in its completion:
code 0 with the task table's clamps counted, or the code that failed; BCP_SWITCH makes a permitted switch PENDING, and on a BCP that
does not run takes it at once; BCP_MAP stores the map of a verified inactive bank, each bad conversion a clamp. Each is NOT_NOW in the
other states (R306, R307, R330, R332, R337, R345, R355). -/
def Obligations.BcpLifecycle : Prop :=
  ∀ (s : State) (d : Desc) b c, s.Runs → b = d.rf.toNat % 4 → c = s.cpu b →
    (s.inSt [DAWN, NIGHT, SAFE] = false → c.state ≠ B_EMPTY → c.state ≠ B_RUNNING →
      exec (.bcpStart d) s = .next (settle (((s.open_ d).startBcp b (d.rf.getLsbD 8)).complete d 0x0801 ST_DONE))) ∧
    (s.inSt [DAWN, NIGHT, SAFE] = true ∨ c.state = B_EMPTY ∨ c.state = B_RUNNING →
      exec (.bcpStart d) s = .next (settle ((s.open_ d).complete d 0x0801 ST_NOT_NOW))) ∧
    (s.inSt [DAWN, NIGHT] = false → c.state ≠ B_EMPTY → c.state ≠ B_STOPPED → ∀ v u, v = (s.open_ d).dropInsts b →
      u = v.putCpu b { v.cpu b with state := B_STOPPED } →
      ((u.cpu b).switch = none → exec (.bcpStop d) s = .next (settle (u.complete d 0x0802 ST_DONE))) ∧
      (∀ w, (u.cpu b).switch = some w → exec (.bcpStop d) s = .next (settle ((u.takeSwitch b w).complete d 0x0802 ST_DONE)))) ∧
    (s.inSt [DAWN, NIGHT] = true ∨ c.state = B_EMPTY ∨ c.state = B_STOPPED →
      exec (.bcpStop d) s = .next (settle ((s.open_ d).complete d 0x0802 ST_NOT_NOW))) ∧
    (∀ buf, s.inSt [DAWN, NIGHT, SAFE] = false → c.switch = none →
      ∀ u, u = ((s.open_ d).clampDesc d 4 (b2n (524288 < d.len.toNat))).clearBank b (1 - c.active) → exec (.bcpLoad d buf) s = .next (settle
        (u.putCpu b { u.cpu b with loading := (u.cpu b).loading ++ [(d, buf.take 524288)] }))) ∧
    (∀ buf, s.inSt [DAWN, NIGHT, SAFE] = true ∨ c.switch ≠ none →
      exec (.bcpLoad d buf) s = .next (settle ((s.open_ d).complete d 0x0803 ST_NOT_NOW))) ∧
    (∀ (k : Fin 4) e img rest code u, (s.cpu k).loading = (e, img) :: rest →
      (code, u) = (s.putCpu k { s.cpu k with loading := rest }).loadBank k (1 - (s.cpu k).active) img (min e.len.toNat 524288) →
      exec (.bcpLoadChecked k) s = .next (settle (if code = 0 then (u.clampDesc e 8 (taskClamps img)).completeWith { compOf e 0x0803 ST_DONE with b := 0 }
        else u.completeWith { compOf e 0x0803 ST_AUTH_FAIL with b := code }))) ∧
    (∀ k : Fin 4, (s.cpu k).loading = [] → exec (.bcpLoadChecked k) s = .next (settle s)) ∧
    (∀ w u, s.inSt [DAWN, NIGHT] = false → s.switchOk b = true → c.switch = none → w = ⟨none, some d, s.mer.now, s.mer.cyc, false⟩ →
      u = (s.open_ d).putCpu b { c with switch := some w } →
      (c.state = B_RUNNING → exec (.bcpSwitch d) s = .next (settle u)) ∧
      (c.state ≠ B_RUNNING → exec (.bcpSwitch d) s = .next (settle (u.takeSwitch b w)))) ∧
    (s.inSt [DAWN, NIGHT] = true ∨ s.switchOk b = false ∨ c.switch ≠ none →
      exec (.bcpSwitch d) s = .next (settle ((s.open_ d).complete d 0x0804 ST_NOT_NOW))) ∧
    (∀ buf n m u, s.inSt [DAWN, NIGHT] = false → (c.bank (1 - c.active)).verified = true → n = min (d.len.toNat / 20) 16384 →
      m = (List.range n).map (fun i => (buf.drop (20 * i)).take 20) →
      u = ((s.open_ d).clampDesc d 4 (b2n (n * 20 ≠ d.len.toNat))).clampDesc d 8 (m.filter fun e => 2 < leAt e 16 1).length →
      exec (.bcpMap d buf) s = .next (settle ((u.putCpu b (c.putBank (1 - c.active) { c.bank (1 - c.active) with
        map := some m.flatten })).complete d 0x0805 ST_DONE))) ∧
    (∀ buf, s.inSt [DAWN, NIGHT] = true ∨ (c.bank (1 - c.active)).verified = false →
      exec (.bcpMap d buf) s = .next (settle ((s.open_ d).complete d 0x0805 ST_NOT_NOW)))

/-- Forces and the host's outputs: BCP_FORCE of a variable of the active image that is no FB instance replaces its force, or is
NOT_NOW; BCP_UNFORCE releases the key, or all; BCP_TOUT of the outstanding instance ends its task with the items of
its buffer, of another count is LATE, and with none outstanding is NOT_NOW. In DAWN and NIGHT each is NOT_NOW (R328, R329, R341). -/
def Obligations.ForceAndHostOutput : Prop :=
  ∀ (s : State) (d : Desc), s.Runs →
    (∀ b c v x f, b = d.rf.toNat % 4 → c = s.cpu b → findKey c.img d.a.toNat = some v → s.inSt [DAWN, NIGHT] = false →
      v.isFb = false → (c.forces.filter (·.key ≠ d.a.toNat)).length < 256 → (x, f) = forceClamp (v.typ.code % 8) d.addr →
      exec (.bcpForce d) s = .next (settle ((((s.open_ d).clampDesc d 8 (b2n f)).putCpu b
        ({ c with forces := c.forces.filter (·.key ≠ d.a.toNat) ++
          [⟨d.a.toNat, v.typ.code, x, d.b.truncate 8⟩] } : BcpSt).putForces).complete d 0x0806 ST_DONE))) ∧
    (∀ b c, b = d.rf.toNat % 4 → c = s.cpu b → findKey c.img d.a.toNat = none ∨ s.inSt [DAWN, NIGHT] = true ∨
      (∀ v, findKey c.img d.a.toNat = some v → v.isFb = true) ∨ 256 ≤ (c.forces.filter (·.key ≠ d.a.toNat)).length →
      exec (.bcpForce d) s = .next (settle ((s.open_ d).complete d 0x0806 ST_NOT_NOW))) ∧
    (∀ b, b = d.rf.toNat % 4 → s.inSt [DAWN, NIGHT] = false →
      (d.rf.getLsbD 8 = true → exec (.bcpUnforce d) s = .next (settle
        (((s.open_ d).putCpu b { s.cpu b with forces := [] }).complete d 0x0807 ST_DONE))) ∧
      (d.rf.getLsbD 8 = false → exec (.bcpUnforce d) s = .next (settle
        (((s.open_ d).putCpu b { s.cpu b with forces := (s.cpu b).forces.filter fun f => f.key ≠ d.a.toNat }).complete d
          0x0807 ST_DONE)))) ∧
    (s.inSt [DAWN, NIGHT] = true →
      exec (.bcpUnforce d) s = .next (settle ((s.open_ d).complete d 0x0807 ST_NOT_NOW))) ∧
    (∀ buf, s.inSt [DAWN, NIGHT] = true →
      exec (.bcpTout d buf) s = .next (settle ((s.open_ d).complete d 0x0811 ST_NOT_NOW))) ∧
    (∀ buf t b c, t = d.rf.toNat % 16 → b = d.rf.toNat / 16 % 4 → c = s.cpu b →
      ((∀ i ∈ c.insts, i.host = true → i.task ≠ t) →
        exec (.bcpTout d buf) s = .next (settle ((s.open_ d).complete d 0x0811 ST_NOT_NOW))) ∧
      (∀ i e, c.insts.find? (fun i => i.host && i.task = t) = some i → s.inSt [DAWN, NIGHT] = false → e = taskEnt c.img t →
        (d.a.toNat % 65536 ≠ i.relCount →
          exec (.bcpTout d buf) s = .next (settle ((s.open_ d).complete d 0x0811 ST_LATE))) ∧
        (d.a.toNat % 65536 = i.relCount →
          exec (.bcpTout d buf) s = .next (settle (((s.open_ d).taskEnd b { i with aflag := d.b.getLsbD 0 }
            ((splitItems buf 0 (mapEnts c.img 4 e.outFirst e.outCount)).map fun (m, l) => (m, c.withForces m.off l))).complete d
              0x0811 ST_DONE)))))

/-! ### Block code -/

/-- The stack instructions, each with the stack that it leaves; LDI onto a full stack discards its cell, and DROP from an empty one
leaves it empty, each with the arithmetic flag. The first instruction of an instance, whichever it is, comes behind the copy-in of the
input image; an instruction that is not the next one of its BCP changes nothing, as NOP shows (R315, R359, R363). -/
def Obligations.StackInstructions : Prop :=
  ∀ (s : State) (b : Fin 4) i w, s.Runs →
    (s.Executes b 0x00 i w → exec (.fbcNop b) s = .next (settle (s.stepped b i i.stack false))) ∧
    (s.fbcNow b 0x00 = none → exec (.fbcNop b) s = .next (settle s)) ∧
    (∀ e : Nat × Instr, e ∈ ([
      (0x00, .fbcNop b), (0x01, .ldi b), (0x02, .ldc b), (0x03, .dup b), (0x04, .drop b), (0x05, .swap b), (0x06, .fbcOver b),
        (0x07, .rot b), (0x10, .ldl b), (0x11, .stl b), (0x12, .ldg b), (0x13, .stg b), (0x14, .ldx b), (0x15, .stx b),
        (0x16, .lea b), (0x18, .qget b), (0x19, .qset b), (0x20, .add b), (0x21, .sub b), (0x22, .mul b), (0x23, .div b),
        (0x24, .mod b), (0x25, .neg b), (0x26, .abs b), (0x27, .min b), (0x28, .max b), (0x29, .limit b), (0x2A, .cvt b),
        (0x2B, .math b), (0x30, .cmp b), (0x31, .sel b), (0x38, .and b), (0x39, .or b), (0x3A, .xor b), (0x3B, .not b),
        (0x3C, .shl b), (0x3D, .shr b), (0x40, .jmp b), (0x41, .jz b), (0x42, .jnz b), (0x43, .call b), (0x44, .ret b),
        (0x46, .tend b), (0x47, .aflag b), (0x48, .now b)] : List (Nat × Instr)) →
      s.fbcNow b e.1 = some (i, w) → exec e.2 s = exec e.2 (s.startInst b i)) ∧
    (s.Executes b 0x01 i w → i.stack.length < 64 →
      exec (.ldi b) s = .next (settle (s.stepped b i ((intCell (opSigned w), 0) :: i.stack) false))) ∧
    (s.Executes b 0x01 i w → 64 ≤ i.stack.length → exec (.ldi b) s = .next (settle (s.stepped b i i.stack true))) ∧
    (s.Executes b 0x02 i w → i.stack.length < 64 → exec (.ldc b) s = .next (settle (s.stepped b i
      ((BitVec.ofNat 64 (leAt (s.cpu b).img (secOff (s.cpu b).img 6 + 8 * bits w 23 0) 8), 0) :: i.stack) false))) ∧
    (s.Executes b 0x47 i w → i.stack.length < 64 →
      exec (.aflag b) s = .next (settle (s.stepped b i ((boolCell i.aflag, 0) :: i.stack) false))) ∧
    (s.Executes b 0x48 i w → i.stack.length < 64 →
      exec (.now b) s = .next (settle (s.stepped b i ((BitVec.ofNat 64 (s.mer.now / oneNs), 0) :: i.stack) false))) ∧
    (s.Executes b 0x04 i w → i.stack = [] → exec (.drop b) s = .next (settle (s.stepped b i [] true))) ∧
    (∀ x r, i.stack = x :: r → r.length < 62 →
      (s.Executes b 0x03 i w → exec (.dup b) s = .next (settle (s.stepped b i (x :: x :: r) false))) ∧
      (s.Executes b 0x04 i w → exec (.drop b) s = .next (settle (s.stepped b i r false))) ∧
      (s.Executes b 0x18 i w →
        exec (.qget b) s = .next (settle (s.stepped b i ((BitVec.ofNat 64 x.2.toNat, 0) :: x :: r) false)))) ∧
    (∀ x y r, i.stack = y :: x :: r → r.length < 61 →
      (s.Executes b 0x05 i w → exec (.swap b) s = .next (settle (s.stepped b i (x :: y :: r) false))) ∧
      (s.Executes b 0x06 i w → exec (.fbcOver b) s = .next (settle (s.stepped b i (x :: y :: x :: r) false))) ∧
      (s.Executes b 0x19 i w → exec (.qset b) s = .next (settle (s.stepped b i ((x.1, y.1.truncate 8) :: r) false)))) ∧
    (∀ x y z r, i.stack = z :: y :: x :: r → r.length < 61 →
      (s.Executes b 0x07 i w → exec (.rot b) s = .next (settle (s.stepped b i (x :: z :: y :: r) false))))

/-- Loads and stores: an access within the region and aligned reads the bytes of its type, and a quality variant its quality
byte; one outside reads 0 or stores nothing, and sets the flag; a store to a forced variable is discarded; LEA gives the
address as a DINT (R357, R360). -/
def Obligations.LoadsAndStores : Prop :=
  ∀ (s : State) (b : Fin 4) i w c t q, s.Runs → c = s.cpu b → t = formM w → q = formQ w →
    (∀ (a : Int) l x, accOk (regionSize c.img) t q a = true → c.forcedAt a.toNat (accSize t q) = none →
      l = memRead c.mem a.toNat (accSize t q) →
      x = (loadCell t (l.take (baseSize t)), if q then nth l (baseSize t) 0 else 0) →
      (s.Executes b 0x10 i w → i.stack.length < 64 → a = i.addr (formOff w) →
        exec (.ldl b) s = .next (settle (s.stepped b i (x :: i.stack) false))) ∧
      (s.Executes b 0x12 i w → i.stack.length < 64 → a = (formOff w : Int) →
        exec (.ldg b) s = .next (settle (s.stepped b i (x :: i.stack) false))) ∧
      (∀ y r, s.Executes b 0x14 i w → i.stack = y :: r → r.length < 64 → a = cellInt y.1 →
        exec (.ldx b) s = .next (settle (s.stepped b i (x :: r) false)))) ∧
    (∀ a : Int, accOk (regionSize c.img) t q a = false →
      (s.Executes b 0x10 i w → i.stack.length < 64 → a = i.addr (formOff w) →
        exec (.ldl b) s = .next (settle (s.stepped b i ((0, 0) :: i.stack) true))) ∧
      (∀ x r, s.Executes b 0x13 i w → i.stack = x :: r → a = (formOff w : Int) →
        exec (.stg b) s = .next (settle (s.stepped b i r true)))) ∧
    (∀ (a : Int) (x : Cell) u, accOk (regionSize c.img) t q a = true → c.forcedAt a.toNat (accSize t q) = none →
      u = s.putCpu b (c.setMem (memWrite c.mem a.toNat (storeBytes t x.1 ++ if q then [x.2] else []))) →
      (∀ r, s.Executes b 0x11 i w → i.stack = x :: r → a = i.addr (formOff w) →
        exec (.stl b) s = .next (settle (u.stepped b i r false))) ∧
      (∀ r, s.Executes b 0x13 i w → i.stack = x :: r → a = (formOff w : Int) →
        exec (.stg b) s = .next (settle (u.stepped b i r false))) ∧
      (∀ y r, s.Executes b 0x15 i w → i.stack = x :: y :: r → a = cellInt y.1 →
        exec (.stx b) s = .next (settle (u.stepped b i r false)))) ∧
    (∀ (a : Int) x r, accOk (regionSize c.img) t q a = true → c.forcedAt a.toNat (accSize t q) ≠ none →
      s.Executes b 0x13 i w → i.stack = x :: r → a = (formOff w : Int) →
      exec (.stg b) s = .next (settle (s.stepped b i r false))) ∧
    (s.Executes b 0x16 i w → i.stack.length < 64 → exec (.lea b) s = .next (settle (s.stepped b i
      ((intCell (sgn 32 (BitVec.ofInt 32 (i.addr (formOff w))).toNat), 0) :: i.stack) false)))

/-- Arithmetic: the integer types compute exactly and saturate with the flag, the real types compute with their values, and the
tags join; integer division truncates, and by zero it gives the end of the range of the dividend's sign, or 0, with the flag, as the
remainder gives 0; LIMIT, CVT and MATH with its functions of one operand and EXPT (R363 to R367). -/
def Obligations.Arithmetic : Prop :=
  ∀ (s : State) (b : Fin 4) i w t, s.Runs → t = formT w →
    (∀ x y r, i.stack = y :: x :: r → r.length < 64 →
      (∀ v f, isReal t = false →
        (s.Executes b 0x20 i w → (v, f) = satType t (cellInt x.1 + cellInt y.1) →
          exec (.add b) s = .next (settle (s.stepped b i ((intCell v, x.2 ||| y.2) :: r) f))) ∧
        (s.Executes b 0x21 i w → (v, f) = satType t (cellInt x.1 - cellInt y.1) →
          exec (.sub b) s = .next (settle (s.stepped b i ((intCell v, x.2 ||| y.2) :: r) f))) ∧
        (s.Executes b 0x22 i w → (v, f) = satType t (cellInt x.1 * cellInt y.1) →
          exec (.mul b) s = .next (settle (s.stepped b i ((intCell v, x.2 ||| y.2) :: r) f))) ∧
        (s.Executes b 0x23 i w → cellInt y.1 ≠ 0 → (v, f) = satType t ((cellInt x.1).tdiv (cellInt y.1)) →
          exec (.div b) s = .next (settle (s.stepped b i ((intCell v, x.2 ||| y.2) :: r) f))) ∧
        (s.Executes b 0x23 i w → cellInt y.1 = 0 → 0 < cellInt x.1 → exec (.div b) s = .next (settle
          (s.stepped b i ((intCell (2 ^ (intWidth t - 1) - 1), x.2 ||| y.2) :: r) true))) ∧
        (s.Executes b 0x23 i w → cellInt y.1 = 0 → cellInt x.1 < 0 → exec (.div b) s = .next (settle
          (s.stepped b i ((intCell (-(2 ^ (intWidth t - 1))), x.2 ||| y.2) :: r) true))) ∧
        (s.Executes b 0x23 i w → cellInt y.1 = 0 → cellInt x.1 = 0 → exec (.div b) s = .next (settle
          (s.stepped b i ((intCell 0, x.2 ||| y.2) :: r) true))) ∧
        (s.Executes b 0x24 i w → cellInt y.1 = 0 → exec (.mod b) s = .next (settle
          (s.stepped b i ((intCell 0, x.2 ||| y.2) :: r) true))) ∧
        (s.Executes b 0x24 i w → cellInt y.1 ≠ 0 → (v, f) = satType t ((cellInt x.1).tmod (cellInt y.1)) →
          exec (.mod b) s = .next (settle (s.stepped b i ((intCell v, x.2 ||| y.2) :: r) f))) ∧
        (s.Executes b 0x27 i w → (v, f) = satType t (min (cellInt x.1) (cellInt y.1)) →
          exec (.min b) s = .next (settle (s.stepped b i ((intCell v, x.2 ||| y.2) :: r) f))) ∧
        (s.Executes b 0x28 i w → (v, f) = satType t (max (cellInt x.1) (cellInt y.1)) →
          exec (.max b) s = .next (settle (s.stepped b i ((intCell v, x.2 ||| y.2) :: r) f)))) ∧
      (∀ v f, isReal t = true →
        (s.Executes b 0x20 i w → (v, f) = fvCell t ((cellFV t x.1).add (cellFV t y.1)) →
          exec (.add b) s = .next (settle (s.stepped b i ((v, x.2 ||| y.2) :: r) f))) ∧
        (s.Executes b 0x22 i w → (v, f) = fvCell t ((cellFV t x.1).mul (cellFV t y.1)) →
          exec (.mul b) s = .next (settle (s.stepped b i ((v, x.2 ||| y.2) :: r) f))) ∧
        (s.Executes b 0x21 i w → (v, f) = fvCell t ((cellFV t x.1).add (cellFV t y.1).neg) →
          exec (.sub b) s = .next (settle (s.stepped b i ((v, x.2 ||| y.2) :: r) f))) ∧
        (s.Executes b 0x23 i w → (v, f) = fvCell t ((cellFV t x.1).div (cellFV t y.1)) →
          exec (.div b) s = .next (settle (s.stepped b i ((v, x.2 ||| y.2) :: r) f))) ∧
        (s.Executes b 0x27 i w → (v, f) = fvCell t ((cellFV t x.1).min (cellFV t y.1)) →
          exec (.min b) s = .next (settle (s.stepped b i ((v, x.2 ||| y.2) :: r) f))) ∧
        (s.Executes b 0x28 i w → (v, f) = fvCell t ((cellFV t x.1).max (cellFV t y.1)) →
          exec (.max b) s = .next (settle (s.stepped b i ((v, x.2 ||| y.2) :: r) f)))) ∧
      (∀ v f, s.Executes b 0x2B i w → bits w 3 0 = 10 → (v, f) = fvCell t (mathExpt (cellFV t x.1) (cellFV t y.1)) →
        exec (.math b) s = .next (settle (s.stepped b i ((v, x.2 ||| y.2) :: r) f)))) ∧
    (∀ x r v f, i.stack = x :: r → r.length < 64 →
      (isReal t = false → s.Executes b 0x25 i w → (v, f) = satType t (-cellInt x.1) →
        exec (.neg b) s = .next (settle (s.stepped b i ((intCell v, x.2) :: r) f))) ∧
      (isReal t = false → s.Executes b 0x26 i w → (v, f) = satType t ((cellInt x.1).natAbs : Int) →
        exec (.abs b) s = .next (settle (s.stepped b i ((intCell v, x.2) :: r) f))) ∧
      (isReal t = true → s.Executes b 0x25 i w → ∀ y, (y, f) = fvCell t (cellFV t x.1).neg →
        exec (.neg b) s = .next (settle (s.stepped b i ((y, x.2) :: r) f))) ∧
      (isReal t = true → s.Executes b 0x26 i w → ∀ y, (y, f) = fvCell t (cellFV t x.1).abs →
        exec (.abs b) s = .next (settle (s.stepped b i ((y, x.2) :: r) f)))) ∧
    (∀ x r v f, i.stack = x :: r → r.length < 64 →
      (s.Executes b 0x2A i w → (v, f) = convert t (bits w 19 16) x.1 →
        exec (.cvt b) s = .next (settle (s.stepped b i ((v, x.2) :: r) f))) ∧
      (s.Executes b 0x2B i w → bits w 3 0 ≠ 10 → (v, f) = fvCell t (mathFn (bits w 3 0) (cellFV t x.1)) →
        exec (.math b) s = .next (settle (s.stepped b i ((v, x.2) :: r) f)))) ∧
    (∀ x mn mx r f, i.stack = mx :: x :: mn :: r → r.length < 64 → s.Executes b 0x29 i w →
      (∀ v, isReal t = false → (v, f) = satType t (min (max (cellInt x.1) (cellInt mn.1)) (cellInt mx.1)) →
        exec (.limit b) s = .next (settle (s.stepped b i ((intCell v, mn.2 ||| x.2 ||| mx.2) :: r) f))) ∧
      (∀ v, isReal t = true → (v, f) = fvCell t (((cellFV t x.1).max (cellFV t mn.1)).min (cellFV t mx.1)) →
        exec (.limit b) s = .next (settle (s.stepped b i ((v, mn.2 ||| x.2 ||| mx.2) :: r) f))))

/-- Logic, comparison and control: the bit operations, shifts within the type's width, SEL with the tags of its selector and
choice, comparisons, jumps relative to the next instruction, CALL and RET through the call stack, TEND and a RET of the
outermost level, which end the task with its output image, and a CALLX whose block is not listed or whose parameter block lies outside the
region, which pops its address and sets the flag (R314, R361, R363 to R365, R369). -/
def Obligations.LogicAndControl : Prop :=
  ∀ (s : State) (b : Fin 4) i w t, s.Runs → t = formT w →
    (∀ x y r, i.stack = y :: x :: r → r.length < 64 →
      (s.Executes b 0x38 i w → exec (.and b) s = .next (settle (s.stepped b i ((x.1 &&& y.1, x.2 ||| y.2) :: r) false))) ∧
      (s.Executes b 0x39 i w → exec (.or b) s = .next (settle (s.stepped b i ((x.1 ||| y.1, x.2 ||| y.2) :: r) false))) ∧
      (s.Executes b 0x3A i w → exec (.xor b) s = .next (settle (s.stepped b i ((x.1 ^^^ y.1, x.2 ||| y.2) :: r) false))) ∧
      (s.Executes b 0x30 i w → exec (.cmp b) s = .next (settle
        (s.stepped b i ((boolCell (compareCells t (bits w 3 0) x.1 y.1), x.2 ||| y.2) :: r) false)))) ∧
    (∀ x y g r, i.stack = g :: y :: x :: r → r.length < 64 → s.Executes b 0x31 i w →
      (g.1 = 0 → exec (.sel b) s = .next (settle (s.stepped b i ((x.1, g.2 ||| x.2) :: r) false))) ∧
      (g.1 ≠ 0 → exec (.sel b) s = .next (settle (s.stepped b i ((y.1, g.2 ||| y.2) :: r) false)))) ∧
    (∀ x r, i.stack = x :: r → r.length < 64 →
      (s.Executes b 0x3B i w → t = TB → exec (.not b) s = .next (settle (s.stepped b i ((1 - x.1, x.2) :: r) false))) ∧
      (s.Executes b 0x3B i w → t ≠ TB → exec (.not b) s = .next (settle (s.stepped b i ((narrow t (~~~ x.1), x.2) :: r) false))) ∧
      (s.Executes b 0x3C i w → intWidth t ≤ bits w 5 0 → exec (.shl b) s = .next (settle (s.stepped b i ((0, x.2) :: r) false))) ∧
      (s.Executes b 0x3C i w → bits w 5 0 < intWidth t →
        exec (.shl b) s = .next (settle (s.stepped b i ((narrow t (x.1 <<< bits w 5 0), x.2) :: r) false))) ∧
      (s.Executes b 0x3D i w → intWidth t ≤ bits w 5 0 → exec (.shr b) s = .next (settle (s.stepped b i ((0, x.2) :: r) false))) ∧
      (s.Executes b 0x3D i w → bits w 5 0 < intWidth t → exec (.shr b) s = .next (settle (s.stepped b i
        ((narrow t (BitVec.ofNat 64 (x.1.toNat % 2 ^ intWidth t / 2 ^ bits w 5 0)), x.2) :: r) false))) ∧
      (s.Executes b 0x41 i w →
        (x.1 = 0 → exec (.jz b) s = .next (settle (s.putInst b { i.next with
          stack := r, pc := (((i.pc + 1 : Nat) : Int) + opSigned w).toNat }))) ∧
        (x.1 ≠ 0 → exec (.jz b) s = .next (settle (s.stepped b i r false)))) ∧
      (s.Executes b 0x42 i w →
        (x.1 ≠ 0 → exec (.jnz b) s = .next (settle (s.putInst b { i.next with
          stack := r, pc := (((i.pc + 1 : Nat) : Int) + opSigned w).toNat }))) ∧
        (x.1 = 0 → exec (.jnz b) s = .next (settle (s.stepped b i r false)))) ∧
      (s.Executes b 0x43 i w → exec (.call b) s = .next (settle (s.putInst b { i.next with
        stack := r, calls := (i.pc + 1, i.ip) :: i.calls, ip := x.1.toNat, pc := (typeEnt (s.cpu b).img (bits w 23 0)).entry }))) ∧
      (s.Executes b 0x45 i w → (∀ n, blockSize (bits w 23 0) = some n → inRegion (s.cpu b) (cellInt x.1) n = false) →
        exec (.callx b) s = .next (settle (s.stepped b i r true)))) ∧
    (s.Executes b 0x40 i w → exec (.jmp b) s = .next (settle (s.putInst b { i.next with
      pc := (((i.pc + 1 : Nat) : Int) + opSigned w).toNat }))) ∧
    (∀ pc ip l, s.Executes b 0x44 i w → i.calls = (pc, ip) :: l →
      exec (.ret b) s = .next (settle (s.putInst b { i.next with pc := pc, ip := ip, calls := l }))) ∧
    (s.Executes b 0x44 i w → i.calls = [] →
      exec (.ret b) s = .next (settle (s.taskEnd b i.next (s.outItems b i)))) ∧
    (s.Executes b 0x46 i w → exec (.tend b) s = .next (settle (s.taskEnd b i.next (s.outItems b i))))

/-- The standard blocks: the timers by their steps, the edge detectors, the counters and the latches. A block called by the first
instruction of an instance comes behind the copy-in of the input image (R315, R370). -/
def Obligations.StandardBlocks : Prop :=
  ∀ (s : State) (b : Fin 4) i r p u, s.Runs → u = s.stepped b i r false →
    (∀ (e : Nat × Instr) w a n, e ∈ ([
      (0, .ton b), (1, .tof b), (2, .tp b), (3, .rTrig b), (4, .fTrig b), (5, .ctu b), (6, .ctd b), (7, .sr b), (8, .rs b),
        (16, .eleread b), (17, .qread b), (18, .rowen b), (19, .saarm b), (20, .sacancel b), (21, .saread b), (22, .recmark b)] : List (Nat × Instr)) →
      s.fbcNow b 0x45 = some (i, w) → bits w 23 0 = e.1 → i.stack = a :: r → blockSize e.1 = some n →
      inRegion (s.cpu b) (cellInt a.1) n = true → exec e.2 s = exec e.2 (s.startInst b i)) ∧
    (s.CallsBlock b 0 i r p → exec (.ton b) s = .next (settle (u.timer b p tonStep))) ∧
    (s.CallsBlock b 1 i r p → exec (.tof b) s = .next (settle (u.timer b p tofStep))) ∧
    (s.CallsBlock b 2 i r p → exec (.tp b) s = .next (settle (u.timer b p tpStep))) ∧
    (∀ t : TimerIn, t.in_ = false → tonStep t = (false, 0, 0)) ∧
    (∀ t : TimerIn, t.in_ = true → t.phase ≠ 0 →
      tonStep t = (decide (t.pt ≤ min (t.et + t.dt) (max t.pt 0)), min (t.et + t.dt) (max t.pt 0), 1)) ∧
    (∀ t : TimerIn, t.in_ = true → tofStep t = (true, 0, 2)) ∧
    (∀ t : TimerIn, t.in_ = false → t.phase = 2 → 0 < t.pt → tofStep t = (true, 0, 1)) ∧
    (∀ t : TimerIn, t.in_ = true → t.phase = 0 → 0 < t.pt → tpStep t = (true, 0, 1)) ∧
    (∀ t : TimerIn, t.phase = 1 → t.pt ≤ min (t.et + t.dt) (max t.pt 0) → t.in_ = false → tpStep t = (false, 0, 0)) ∧
    (s.CallsBlock b 3 i r p → exec (.rTrig b) s = .next (settle
      (u.pput b (p + 1) [boolByte (u.pbool b p && !u.pbool b (p + 2)), boolByte (u.pbool b p)]))) ∧
    (s.CallsBlock b 4 i r p → exec (.fTrig b) s = .next (settle
      (u.pput b (p + 1) [boolByte (!u.pbool b p && !u.pbool b (p + 2)), boolByte (!u.pbool b p)]))) ∧
    (∀ v, s.CallsBlock b 5 i r p →
      v = (if u.pbool b (p + 1) then 0 else if u.pbool b p && !u.pbool b (p + 7) then min (u.pint b (p + 4) + 1) 32767
        else u.pint b (p + 4)) →
      exec (.ctu b) s = .next (settle (u.pput b (p + 4) (leBytes 2 (wrap 16 v) ++
        [boolByte (decide (u.pint b (p + 2) ≤ v)), boolByte (u.pbool b p)])))) ∧
    (∀ v, s.CallsBlock b 6 i r p →
      v = (if u.pbool b (p + 1) then u.pint b (p + 2) else if u.pbool b p && !u.pbool b (p + 7)
        then max (u.pint b (p + 4) - 1) (-32768) else u.pint b (p + 4)) →
      exec (.ctd b) s = .next (settle (u.pput b (p + 4) (leBytes 2 (wrap 16 v) ++
        [boolByte (decide (v ≤ 0)), boolByte (u.pbool b p)])))) ∧
    (s.CallsBlock b 7 i r p → exec (.sr b) s = .next (settle
      (u.pput b (p + 2) [boolByte (u.pbool b p || (!u.pbool b (p + 1) && u.pbool b (p + 2)))]))) ∧
    (s.CallsBlock b 8 i r p → exec (.rs b) s = .next (settle
      (u.pput b (p + 2) [boolByte (!u.pbool b (p + 1) && (u.pbool b p || u.pbool b (p + 2)))])))

/-- The device blocks, on what the last completed frame shows: each takes effect and answers DONE in its status, or RANGE for an
argument outside its range and NOT_NOW where its rule says so; SAARM of a slot that is held without its rearm answers BUSY, and one
whose time has passed answers what the arm has ended with (R371 to R374). -/
def Obligations.DeviceBlocks : Prop :=
  ∀ (s : State) (b : Fin 4) i r p u, s.Runs → u = s.stepped b i r false →
    (∀ n : Fin 256, s.CallsBlock b 16 i r p → u.pint b (p + 2) = (n.val : Int) → exec (.eleread b) s = .next (settle
      ((u.pput b (p + 4) (leBytes 4 (nth u.view.stats n.val 0) ++ leBytes 4 (nth u.view.accs n.val 0).toNat ++
        leBytes 2 u.view.seq)).pput b p [0]))) ∧
    (s.CallsBlock b 16 i r p → u.pint b (p + 2) < 0 ∨ 255 < u.pint b (p + 2) →
      exec (.eleread b) s = .next (settle (u.pput b p [0x20]))) ∧
    (∀ (q : Fin 1024) v, s.CallsBlock b 17 i r p → u.pint b (p + 2) = (q.val : Int) →
      v = u.pput b (p + 8) (leBytes 4 (nth u.wholeTable.1 q.val 0).toNat ++ [nth u.wholeTable.2.1 q.val 0]) →
      (u.pint b (p + 4) = 1 →
        exec (.qread b) s = .next (settle ((v.pput b (p + 24) (leBytes 2 u.wholeTable.2.2)).pput b p [0]))) ∧
      (u.pint b (p + 4) = 2 → q.val < 1023 → exec (.qread b) s = .next (settle (((v.pput b (p + 16)
        (leBytes 4 (nth u.wholeTable.1 (q.val + 1) 0).toNat ++ [nth u.wholeTable.2.1 (q.val + 1) 0])).pput b (p + 24)
          (leBytes 2 u.wholeTable.2.2)).pput b p [0])))) ∧
    (s.CallsBlock b 17 i r p → u.pint b (p + 2) < 0 ∨ 1024 < u.pint b (p + 2) + u.pint b (p + 4) ∨ u.pint b (p + 4) < 1 ∨
      2 < u.pint b (p + 4) → exec (.qread b) s = .next (settle (u.pput b p [0x20]))) ∧
    (∀ (k : Fin 64) j, s.CallsBlock b 18 i r p → u.pint b (p + 2) = (k.val : Int) → (u.row k).ctl = b.val + 1 →
      u.current b = some j → exec (.rowen b) s = .next (settle
        ((u.putInst b { j with rowen := (k.val, u.pbool b (p + 4)) :: j.rowen }).pput b p [0]))) ∧
    (∀ k : Fin 64, s.CallsBlock b 18 i r p → u.pint b (p + 2) = (k.val : Int) → (u.row k).ctl ≠ b.val + 1 →
      exec (.rowen b) s = .next (settle (u.pput b p [2]))) ∧
    (s.CallsBlock b 18 i r p → u.pint b (p + 2) < 0 ∨ 63 < u.pint b (p + 2) →
      exec (.rowen b) s = .next (settle (u.pput b p [0x20]))) ∧
    (∀ (k : Fin 64) (a : Fin 9) (arg : Nat) (tm : Time) q, s.CallsBlock b 19 i r p → u.pint b (p + 2) = (k.val : Int) →
      u.pint b (p + 4) = (a.val : Int) → arg = u.pget b (p + 8) 4 → a.val ≠ 4 ∨ arg % 4 ≠ 3 →
      tm = (sgn 64 (u.pget b (p + 16) 8)).toNat * oneNs → q = ⟨k, a, BitVec.ofNat 32 arg, tm, false⟩ →
      (u.armNotNow (b + 1) q = true → exec (.saarm b) s = .next (settle (u.pput b p [2]))) ∧
      (u.armNotNow (b + 1) q = false → u.saHeld k = true → u.pbool b (p + 24) = false →
        exec (.saarm b) s = .next (settle (u.pput b p [3]))) ∧
      (∀ v, u.armNotNow (b + 1) q = false → u.saHeld k = false ∨ u.pbool b (p + 24) = true → v = u.armSlot (.bcp b) q →
        exec (.saarm b) s = .next (settle (v.pput b p [BitVec.ofNat 8 (if v.saHeld k then 0 else (v.sas k).lastSt)])))) ∧
    (s.CallsBlock b 19 i r p → u.pint b (p + 2) < 0 ∨ 63 < u.pint b (p + 2) ∨ u.pint b (p + 4) < 0 ∨ 8 < u.pint b (p + 4) ∨
      (u.pint b (p + 4) = 4 ∧ u.pget b (p + 8) 4 % 4 = 3) → exec (.saarm b) s = .next (settle (u.pput b p [0x20]))) ∧
    (∀ k : Fin 64, s.CallsBlock b 20 i r p → u.pint b (p + 2) = (k.val : Int) →
      (u.saOwner k = b.val + 1 → u.saHeld k = true → exec (.sacancel b) s = .next (settle ((u.saFree k).pput b p [0]))) ∧
      (u.saOwner k ≠ b.val + 1 ∨ u.saHeld k = false → exec (.sacancel b) s = .next (settle (u.pput b p [2])))) ∧
    (s.CallsBlock b 20 i r p → u.pint b (p + 2) < 0 ∨ 63 < u.pint b (p + 2) →
      exec (.sacancel b) s = .next (settle (u.pput b p [0x20]))) ∧
    (∀ (k : Fin 64) x, s.CallsBlock b 21 i r p → u.pint b (p + 2) = (k.val : Int) → x = u.sas k →
      exec (.saread b) s = .next (settle ((u.pput b (p + 4) (leBytes 2 (u.saState k) ++ leBytes 1 x.lastSt ++
        [boolByte x.lastCanc] ++ leBytes 8 (x.lastTime / oneNs))).pput b p [0]))) ∧
    (s.CallsBlock b 21 i r p → u.pint b (p + 2) < 0 ∨ 63 < u.pint b (p + 2) →
      exec (.saread b) s = .next (settle (u.pput b p [0x20]))) ∧
    (∀ m : Fin 16, s.CallsBlock b 22 i r p → u.pint b (p + 2) = (m.val : Int) → m.val ≠ 0 →
      ((∃ k ∈ bitsOf 4 m.val, u.recActive k = true) →
        exec (.recmark b) s = .next (settle ((u.each ((bitsOf 4 m.val).filter u.recActive) fun t k =>
          t.trigger k ⟨t.mer.now, 3, false, 0xFFFF, b, t.pget b (p + 4) 4, none, 5⟩).pput b p [0]))) ∧
      ((∀ k ∈ bitsOf 4 m.val, u.recActive k = false) → exec (.recmark b) s = .next (settle (u.pput b p [2])))) ∧
    (s.CallsBlock b 22 i r p → u.pint b (p + 2) < 1 ∨ 15 < u.pint b (p + 2) →
      exec (.recmark b) s = .next (settle (u.pput b p [0x20])))

/-! ### The network -/

/-- Ports and frames: a change of a link is flagged and its PTP port starts afresh; without a change nothing happens. A frame with a
wrong FCS, or of a wrong length, is counted and dropped, and one at a port without link has no effect; a frame without a redundancy
trailer or tag reaches the engines and the host; supervision frames of a redundant pair are counted and every other frame that no
engine consumes goes to the host; what reception discards has no further effect. Supervision frames leave every 2 s on the ports of a
redundant pair; the entries of the duplicate table that are older than forget go. NET_TX sends its frame, padded to 60 bytes and cut at
the longest length, on the named ports that are up, with the trailer or tag where it asks for it, and its completion carries the
time where it asks for that; it is NO_BUFFER without a buffer of the Cistern, and NOT_NOW in DAWN and NIGHT and without a port (R511,
R512, R513, R520, R522). -/
def Obligations.NetPorts : Prop :=
  ∀ (s : State), s.Runs →
    (∀ (p : Fin 8) up v, v = (up && s.on NET_PORT_en [p.val] && s.netRuns) →
      (s.on NET_PORT_link [p.val] = v → exec (.ethLinkChange p up) s = .next (settle s)) ∧
      (s.on NET_PORT_link [p.val] = !v → exec (.ethLinkChange p up) s = .next (settle
        (((s.p NET_PORT_link [p.val] (b2n v)).flag NET 8).ptpRestart p)))) ∧
    (∀ h : RxHead,
      (s.portUp h.port = false → exec (.rxFrame h) s = .next (settle s)) ∧
      (s.portUp h.port = true → h.fcsOk = false ∨ h.bytes.length + (if h.tag.isSome then 10 else 4) < 64 ∨
          1518 < h.bytes.length →
        exec (.rxFrame h) s = .next (settle (s.cnt NET_RXDROP [h.port.val]))) ∧
      (s.portUp h.port = true → h.fcsOk = true → h.tag = none → 60 ≤ h.bytes.length → h.bytes.length ≤ 1518 →
        s.pairMode (h.port.val / 2) = 0 ∨ etherType h.bytes ≠ 0x88FB →
        exec (.rxFrame h) s = .next (settle (s.rxHost h false)))) ∧
    (∀ (h : RxHead) u k, s.rxAccept h = (true, u) → k = h.port.val / 2 →
      (u.pairMode k = 0 ∨ etherType h.bytes ≠ 0x88FB → exec (.rxFrame h) s = .next (settle (u.rxHost h false))) ∧
      (u.pairMode k ≠ 0 → etherType h.bytes = 0x88FB → exec (.rxFrame h) s = .next (settle (u.cnt NET_REDCNT_sup [k])))) ∧
    (∀ (h : RxHead) u, s.rxAccept h = (false, u) → exec (.rxFrame h) s = .next (settle u)) ∧
    (∀ k : Fin 4,
      (s.pairMode k ≠ 0 → s.portUp (2 * k) = true ∨ s.portUp (2 * k + 1) = true → 2 * oneSec ≤ s.since (nth s.net.supCyc k 0) →
        ∀ ports u l, (ports, u) = s.enginePorts (3 * 4 ^ k.val) → l = u.net.supCyc.set k s.mer.cyc →
        exec (.prpSupervisionSend k) s = .next (settle
          (({ u with net := { u.net with supCyc := l } } : State).transmit (.supervision k ports)))) ∧
      (s.pairMode k = 0 ∨ (s.portUp (2 * k) = false ∧ s.portUp (2 * k + 1) = false) ∨
          s.since (nth s.net.supCyc k 0) < 2 * oneSec →
        exec (.prpSupervisionSend k) s = .next (settle s))) ∧
    (∀ (k : Fin 4) l, l = s.net.dup.set k ((nth s.net.dup k []).filter fun x =>
        decide (s.since x.cyc < s.g NET_PAIR_forget [k.val] * oneMs)) →
      exec (.duplicateForget k) s = .next (settle { s with net := { s.net with dup := l } })) ∧
    (∀ d buf ports hi len f, s.inSt [DAWN, NIGHT] = false → ports = (bitsOf 8 (d.rf.toNat % 256)).filter s.portUp → ports ≠ [] →
      hi = (if beAt buf 12 2 = 0x8100 then 1522 else 1518) → len = min d.len.toNat hi →
      f = (buf.take len ++ List.replicate 1522 Config.pad).take (max len 60) →
      ((s.open_ d).queue 10 0 f = none →
        exec (.netTx d buf) s = .next (settle (((s.open_ d).noBuf 10).complete d 0x0E01 ST_NO_BUFFER))) ∧
      (∀ u v l w, (s.open_ d).queue 10 0 f = some u → v = (u.unqueue 10 0).clampDesc d 4 (b2n (hi < d.len.toNat)) →
        (l, w) = v.redPorts ports (fun p => bitAt d.rf.toNat 8 && s.pairMode (p / 2) ≠ 0) →
        (bitAt d.rf.toNat 9 = false → exec (.netTx d buf) s = .next (settle ((w.each l fun t p =>
          t.transmit (.eth p.1 p.2 f)).complete d 0x0E01 ST_DONE))) ∧
        (bitAt d.rf.toNat 9 = true → ∀ c, c = compOf d 0x0E01 ST_DONE →
          exec (.netTx d buf) s = .next (settle ((w.each l fun t p => t.transmit (.eth p.1 p.2 f)).completeWith
            { c with a := Time.ns s.mer.now + 2 ^ 32 * (Time.sec s.mer.now % 2 ^ 32) }))))) ∧
    (∀ d buf, s.inSt [DAWN, NIGHT] = true ∨ (∀ p ∈ bitsOf 8 (d.rf.toNat % 256), s.portUp p = false) →
      exec (.netTx d buf) s = .next (settle ((s.open_ d).complete d 0x0E01 ST_NOT_NOW)))

/-- PTP ports: a message of another domain, and every message at a port of role 0, goes to the host; announcements reach the best
master clock algorithm; a Follow_Up of the Sync that a SLAVE port holds is its servo event, and another has no effect; a peer-delay
request is answered, and the response to the last request gives the link delay. A Sync of the parent of a SLAVE port is a servo event,
in two-step operation with its Follow_Up, and a Sync elsewhere has no effect but its passing on in a ring. A MASTER port sends Sync with
its Follow_Up, and Announce, each second, and every port with a role a peer-delay request; after three intervals without an
announcement the foreign masters go; before their times, without link and in another state these events have no effect (R515 to R518,
R520). -/
def Obligations.PtpPorts : Prop :=
  ∀ (s : State), s.Runs →
    (∀ (h : RxHead) dom m u, s.rxAccept h = (false, u) → exec (.ptpMessageReceive h dom m) s = .next (settle u)) ∧
    (∀ (h : RxHead) dom m u p x, s.rxAccept h = (true, u) → p = h.port.val → x = u.ptpPort p →
      (u.g NET_PTP_role [p] = 0 ∨ dom ≠ u.g NET_PTPCFG_domain →
        exec (.ptpMessageReceive h dom m) s = .next (settle (u.rxHost h false))) ∧
      (u.g NET_PTP_role [p] ≠ 0 → dom = u.g NET_PTPCFG_domain →
        (∀ d, m = .announce d → exec (.ptpMessageReceive h dom m) s = .next (settle (u.announced p d))) ∧
        (∀ sender q origin corr arr c, m = .followUp sender q origin corr → u.g NET_PTP_state [p] = PS_SLAVE →
          x.synced = some (sender, q, arr, c) →
          exec (.ptpMessageReceive h dom m) s = .next (settle
            ((u.putPtp p { x with synced := none }).ptpOffset p arr origin (c + corr)))) ∧
        (∀ sender q origin corr, m = .followUp sender q origin corr →
          u.g NET_PTP_state [p] ≠ PS_SLAVE ∨ (∀ arr c, x.synced ≠ some (sender, q, arr, c)) →
          exec (.ptpMessageReceive h dom m) s = .next (settle u)) ∧
        (∀ q, m = .pdelayReq q → exec (.ptpMessageReceive h dom m) s = .next (settle
          (u.ptpSend p (.pdelayResp q h.arr u.mer.now 0)))) ∧
        (∀ (t1 t2 t3 : Time) corr, m = .pdelayResp x.reqSeq t2 t3 corr → x.reqAt = some t1 →
          exec (.ptpMessageReceive h dom m) s = .next (settle (u.putPtp p { x with
            reqAt := none, delay := (((h.arr : Int) - t1) - ((t3 : Int) - t2) - corr) / 2 }))) ∧
        (∀ q (t2 t3 : Time) corr, m = .pdelayResp q t2 t3 corr → x.reqAt = none ∨ q ≠ x.reqSeq →
          exec (.ptpMessageReceive h dom m) s = .next (settle u)))) ∧
    (∀ (h : RxHead) dom sender m corr res ok on u v p, (ok, on, u) = s.rxCheck h → p = h.port.val →
      v = u.ptpForward h on ok dom m corr res →
      (ok = false → exec (.ptpSyncReceive h dom sender m corr res) s = .next (settle v)) ∧
      (ok = true → v.g NET_PTP_role [p] = 0 ∨ dom ≠ v.g NET_PTPCFG_domain →
        exec (.ptpSyncReceive h dom sender m corr res) s = .next (settle (v.rxHost h false))) ∧
      (ok = true → v.g NET_PTP_role [p] ≠ 0 → dom = v.g NET_PTPCFG_domain →
        (v.g NET_PTP_state [p] ≠ PS_SLAVE ∨ (∀ d, v.portBest p = some d → d.sender ≠ sender) →
          exec (.ptpSyncReceive h dom sender m corr res) s = .next (settle v)) ∧
        (∀ d, v.g NET_PTP_state [p] = PS_SLAVE → v.portBest p = some d → d.sender = sender →
          (m.twoStep = true → exec (.ptpSyncReceive h dom sender m corr res) s = .next (settle (v.putPtp p { v.ptpPort p with
            logInt := m.logInt, synced := some (sender, m.seq, h.arr, corr) }))) ∧
          (m.twoStep = false → exec (.ptpSyncReceive h dom sender m corr res) s = .next (settle ((v.putPtp p { v.ptpPort p with
            logInt := m.logInt, synced := none }).ptpOffset p h.arr m.origin corr)))))) ∧
    (∀ (p : Fin 8) x q r, x = s.ptpPort p → q = (x.syncSeq + 1) % 65536 → r = (x.reqSeq + 1) % 65536 →
      (s.portUp p = true → s.g NET_PTP_state [p.val] = PS_MASTER → oneSec ≤ s.since x.syncCyc → exec (.ptpSyncSend p) s = .next (settle
        (((s.putPtp p { x with syncCyc := s.mer.cyc, syncSeq := q }).ptpSend p (.sync ⟨q, s.mer.now, true, 0⟩ 0)).ptpSend p
          (.followUp Config.clockId q s.mer.now 0)))) ∧
      (s.portUp p = false ∨ s.g NET_PTP_state [p.val] ≠ PS_MASTER ∨ s.since x.syncCyc < oneSec →
        exec (.ptpSyncSend p) s = .next (settle s)) ∧
      (s.portUp p = true → s.g NET_PTP_state [p.val] = PS_MASTER → oneSec ≤ s.since x.annSent →
        exec (.ptpAnnounceSend p) s = .next (settle
          ((s.putPtp p { x with annSent := s.mer.cyc }).ptpSend p (.announce (s.announceData p))))) ∧
      (s.portUp p = false ∨ s.g NET_PTP_state [p.val] ≠ PS_MASTER ∨ s.since x.annSent < oneSec →
        exec (.ptpAnnounceSend p) s = .next (settle s)) ∧
      (s.portUp p = true → s.g NET_PTP_role [p.val] ≠ 0 → oneSec ≤ s.since x.reqCyc →
        exec (.pdelayReqSend p) s = .next (settle ((s.putPtp p { x with
          reqCyc := s.mer.cyc, reqSeq := r, reqAt := some s.mer.now }).ptpSend p (.pdelayReq r)))) ∧
      (s.portUp p = false ∨ s.g NET_PTP_role [p.val] = 0 ∨ s.since x.reqCyc < oneSec →
        exec (.pdelayReqSend p) s = .next (settle s)) ∧
      (s.portUp p = true → s.g NET_PTP_role [p.val] ≠ 0 → 3 * oneSec ≤ s.since x.annCyc →
        [PS_LISTENING, PS_PASSIVE, PS_SLAVE].contains (s.g NET_PTP_state [p.val]) = true →
        exec (.announceReceiptTimeout p) s = .next (settle ((s.putPtp p { x with foreign := [] }).ptpDecide))) ∧
      (s.portUp p = false ∨ s.g NET_PTP_role [p.val] = 0 ∨ s.since x.annCyc < 3 * oneSec ∨
          [PS_LISTENING, PS_PASSIVE, PS_SLAVE].contains (s.g NET_PTP_state [p.val]) = false →
        exec (.announceReceiptTimeout p) s = .next (settle s)))

/-- Sampled values and GOOSE: a frame whose extension does not verify counts as bad at the subscriptions that match it, with the flag,
and goes no further; a frame that no subscription matches, and every one while the subscribers do not run, goes to the host; the
others go to each subscription that matches. An SV frame delivers its ASDU, and an smpCnt at or above the rate counts as bad; a
GOOSE frame makes its subscription live with its members. Silence makes a subscription lost, and before its time has no effect; a
publication repeats at twice its interval up to T0, and not before its time; the host writes the publication values that it owns, and a
change has the publications evaluate; the commands store their entries, with the fields out of range clamped, and are NOT_NOW in DAWN
and NIGHT (R523 to R526, R529, R532 to R536). -/
def Obligations.Subscriptions : Prop :=
  ∀ (s : State), s.Runs →
    (∀ (h : RxHead) f u l, s.rxAccept h = (true, u) → l = (List.range 64).filter (fun k => svMatch (u.svSub k).entry f) →
      (∀ a, f.auth = some a → u.authOk a h.arr = false → exec (.svFrameReceive h f) s = .next (settle
        ((u.each (if u.subsRun then l else []) fun s k => s.cnt NET_SVSTAT_bad [k] f.asdus.length).flag NET 13))) ∧
      (∀ b, f.auth = none ∧ b = false ∨ (∃ a, f.auth = some a ∧ u.authOk a h.arr = true) ∧ b = true →
        (l = [] ∨ u.subsRun = false → exec (.svFrameReceive h f) s = .next (settle (u.rxHost h b))) ∧
        (l ≠ [] → u.subsRun = true →
          exec (.svFrameReceive h f) s = .next (settle (u.each l fun s k => s.svFrame k f h.arr)))) ∧
      (∀ (k : Fin 64) a, u.subsRun = true → l = [k.val] → f.sim = false → f.dataSet = true →
        f.auth = none → bitAt (leAt (u.svSub k).entry 8 1) 1 = false → f.asdus = [a] →
        (svRate (u.svSub k).entry ≤ a.smpCnt →
          exec (.svFrameReceive h f) s = .next (settle (u.cnt NET_SVSTAT_bad [k.val]))) ∧
        (a.smpCnt < svRate (u.svSub k).entry → a.vals.length = 8 → ∀ y l, y = (⟨svIndex (svRate (u.svSub k).entry) a.smpCnt h.arr,
            a.vals.map (·.v.toInt), a.vals.map fun v => svQual v a.synch false,
            a.vals.map fun v => v.validity = 1 || v.validity = 3⟩ : SvSamp) →
          l = u.sv.set k { u.svSub k with samples := (insSamp y (u.svSub k).samples).take 12000, last := some u.mer.cyc } →
          exec (.svFrameReceive h f) s = .next (settle ((({ u with sv := l } : State).p NET_SVSTAT_state [k.val] 2).p
            NET_SVSTAT_synch [k.val] (min a.synch 3)))))) ∧
    (∀ (h : RxHead) f u l, s.rxAccept h = (true, u) → l = (List.range 256).filter (fun k => gooseMatch (u.gsub k).entry f) →
      (∀ a, f.auth = some a → u.authOk a h.arr = false → exec (.gooseFrameReceive h f) s = .next (settle
        ((u.each (if u.subsRun then l else []) fun s k => s.cnt NET_GSTAT_bad [k]).flag NET 15))) ∧
      (∀ b, f.auth = none ∧ b = false ∨ (∃ a, f.auth = some a ∧ u.authOk a h.arr = true) ∧ b = true →
        (l = [] ∨ u.subsRun = false → exec (.gooseFrameReceive h f) s = .next (settle (u.rxHost h b))) ∧
        (l ≠ [] → u.subsRun = true →
          exec (.gooseFrameReceive h f) s = .next (settle (u.each l fun s k => s.gooseFrame k f).gooseBits))) ∧
      (∀ (k : Fin 256), u.subsRun = true → f.auth = none → l = [k.val] →
        bitAt (leAt (u.gsub k).entry 8 1) 1 = false → f.members.length = leAt (u.gsub k).entry 10 2 →
        (u.gsub k).last ≠ some (f.stNum, f.sqNum) →
        exec (.gooseFrameReceive h f) s = .next (settle (((((u.putGsub k { u.gsub k with
          last := some (f.stNum, f.sqNum), members := f.members, until_ := u.mer.cyc + f.tal * 250000 }).p NET_GSTAT_state
            [k.val] 2).p NET_GSTAT_test [k.val] (b2n f.test)).p NET_GSTAT_sim [k.val] (b2n f.sim)).gooseBits)))) ∧
    (∀ (h : RxHead) u, s.rxAccept h = (false, u) →
      (∀ f, exec (.svFrameReceive h f) s = .next (settle u)) ∧ (∀ f, exec (.gooseFrameReceive h f) s = .next (settle u))) ∧
    (∀ (k : Fin 64), (∀ c, s.netRuns = true → s.g NET_SVSTAT_state [k.val] = 2 → (s.svSub k).last = some c →
        10 * oneSec ≤ s.since c * svRate (s.svSub k).entry →
        exec (.svSubscriptionLost k) s = .next (settle ((s.p NET_SVSTAT_state [k.val] 1).flag NET 12))) ∧
      (s.netRuns = false ∨ s.g NET_SVSTAT_state [k.val] ≠ 2 ∨
          (∀ c, (s.svSub k).last = some c → s.since c * svRate (s.svSub k).entry < 10 * oneSec) →
        exec (.svSubscriptionLost k) s = .next (settle s))) ∧
    (∀ k : Fin 256, (s.netRuns = true → s.g NET_GSTAT_state [k.val] = 2 → (s.gsub k).until_ ≤ s.mer.cyc →
        exec (.gooseTalExpiry k) s = .next (settle (((s.p NET_GSTAT_state [k.val] 1).flag NET 14).gooseBits))) ∧
      (s.netRuns = false ∨ s.g NET_GSTAT_state [k.val] ≠ 2 ∨ s.mer.cyc < (s.gsub k).until_ →
        exec (.gooseTalExpiry k) s = .next (settle s))) ∧
    (∀ (j : Fin 64) x, x = s.gpub j →
      (s.netRuns = true → x.enabled = true → x.nextAt ≤ s.mer.cyc → exec (.gooseRepeat j) s = .next (settle
        (s.gooseSend j { x with sq := x.sq + 1 } (min (2 * x.interval) (leAt x.entry 16 4))))) ∧
      (s.netRuns = false ∨ x.enabled = false ∨ s.mer.cyc < x.nextAt → exec (.gooseRepeat j) s = .next (settle s))) ∧
    (∀ (j : Fin 8) (v : Word) u, u = s.each ((List.range 32).map v.getLsbD).zipIdx (fun s (b, i) =>
        if 32 * j.val + i < 256 && s.gvOwner (32 * j.val + i) = 0 then
          s.p NET_GVAL [(32 * j.val + i) / 32] (putBit (s.g NET_GVAL [(32 * j.val + i) / 32]) ((32 * j.val + i) % 32) b)
        else s) →
      (u.g NET_GVAL [j.val] = s.g NET_GVAL [j.val] → exec (.netGval j v) s = .next (settle u)) ∧
      (u.g NET_GVAL [j.val] ≠ s.g NET_GVAL [j.val] → exec (.netGval j v) s = .next (settle u.gooseEval))) ∧
    (∀ d buf, s.inSt [DAWN, NIGHT] = true →
      exec (.netSvsub d buf) s = .next (settle ((s.open_ d).complete d 0x0E04 ST_NOT_NOW)) ∧
      exec (.netSvpub d buf) s = .next (settle ((s.open_ d).complete d 0x0E05 ST_NOT_NOW)) ∧
      exec (.netGsub d buf) s = .next (settle ((s.open_ d).complete d 0x0E02 ST_NOT_NOW)) ∧
      exec (.netGpub d buf) s = .next (settle ((s.open_ d).complete d 0x0E03 ST_NOT_NOW)) ∧
      exec (.netKey d buf) s = .next (settle ((s.open_ d).complete d 0x0E06 ST_NOT_NOW))) ∧
    (∀ d buf, s.inSt [DAWN, NIGHT] = false →
      (∀ k e n u, k = d.rf.toNat % 64 → (e, n) = clampLe 9 1 0 2 (padTo 80 buf, 0) → u = (s.open_ d).clampDesc d 8 n →
        exec (.netSvsub d buf) s = .next (settle (({ u with
          sv := u.sv.set k { u.svSub k with next := some e } } : State).complete d 0x0E04 ST_DONE))) ∧
      (∀ k e n, k = d.rf.toNat % 256 → (e, n) = clampLe 10 2 1 64 (padTo 160 buf, 0) →
        exec (.netGsub d buf) s = .next (settle ((((s.open_ d).clampDesc d 8 n).putGsub k { s.gsub k with
          next := some e }).complete d 0x0E02 ST_DONE))) ∧
      (∀ j e n u, j = d.rf.toNat % 64 → (e, n) = clampGpub buf → u = ((s.open_ d).clampDesc d 8 n).putGpub j ⟨e, 0, 0, [], 0, 0, 0⟩ →
        (bitAt (leAt e 10 1) 0 = true →
          exec (.netGpub d buf) s = .next (settle ((u.gooseEvent j (u.gooseVals e)).complete d 0x0E03 ST_DONE))) ∧
        (bitAt (leAt e 10 1) 0 = false → exec (.netGpub d buf) s = .next (settle (u.complete d 0x0E03 ST_DONE)))) ∧
      (∀ j x y z p u l, j = d.rf.toNat % 8 → x = clampLe 11 1 0 31 (padTo 128 buf, 0) →
        y = (List.range 8).foldl (fun x c => if c < 4 then clampLe (16 + c) 1 0 15 x else clampLe (16 + c) 1 16 23 x) x →
        z = (List.range 8).foldl (fun (x : List Byte × Nat) c =>
          let v := leAt x.1 (24 + 4 * c) 4
          let w := if isNaN f32 v then toF32 (1 / 1000) else if isInf f32 v then toF32 (if fmtNeg f32 v then 1 / 1000 else 1000000)
            else if ofF32 v < 1 / 1000 then toF32 (1 / 1000) else if 1000000 < ofF32 v then toF32 1000000 else v
          if v = w then x else (putLe x.1 (24 + 4 * c) 4 w, x.2 + 1)) y →
        p = nth s.net.svpubs j (⟨[], none, []⟩ : SvPub) → u = (s.open_ d).clampDesc d 8 z.2 →
        l = u.net.svpubs.set j { p with next := some (Time.sec s.mer.now, z.1) } →
        exec (.netSvpub d buf) s = .next (settle (({ u with net := { u.net with svpubs := l } } : State).complete d 0x0E05 ST_DONE))) ∧
      (∀ i l, i = d.rf.toNat % 32 → bitAt d.rf.toNat 8 = true → l = s.net.keys.set i none →
        exec (.netKey d buf) s = .next (settle ((({ (s.open_ d) with net := { s.net with keys := l } } : State).p NET_KEYST []
          (putBit (s.g NET_KEYST) i false)).complete d 0x0E06 ST_DONE))) ∧
      (∀ i e n alg k u l v, i = d.rf.toNat % 32 → bitAt d.rf.toNat 8 = false → (e, n) = clampLe 0 1 1 2 (padTo 52 buf, 0) →
        alg = leAt e 0 1 → k = (⟨alg, leAt e 4 4, leAt e 8 6, leAt e 14 6, (e.drop 20).take (16 * alg)⟩ : AuthKey) →
        u = (s.open_ d).clampDesc d 8 n → l = u.net.keys.set i (some k) → v = ({ u with net := { u.net with keys := l } } : State) →
        exec (.netKey d buf) s = .next (settle ((v.p NET_KEYST [] (putBit (v.g NET_KEYST) i true)).complete d 0x0E06 ST_DONE))))

/-- Teleprotection: once the period of the last frame has passed, a frame begins, with the echo and hold of the last valid frame, or free
ones before it (log 7), after what is left of the frame before it has gone, and not before; it takes its command bits when its byte 4
begins. A frame with a wrong CRC counts while the port is found; a correct one makes it found, and one with the port's own address is a
loop; a port that does not run receives nothing. Three failures in a row are a loss of frame, fewer are not; silence for cto lets the
received bits take their fallback, once; the loss of signal at an optical port that runs is flagged once (R537 to R542). -/
def Obligations.Teleprotection : Prop :=
  ∀ (s : State) (p : Fin 4) x, s.Runs → x = s.port p →
    (∀ (ttx : Time) eh u y k v, s.tpcRuns p = true → (∀ c, x.sendCyc = some c → s.telePeriod p ≤ s.since c) →
      u = s.teleRest p → y = u.port p → (k, v) = u.draw →
      ttx = u.mer.now + u.g TPC_IODLY_txd [p.val] * oneNs →
      eh = (match y.echo with
        | some (t, arr) => (t, min ((ttx - arr) / oneNs) 0xFFFFFF)
        | none => ((Config.freeWord k).toNat, (Config.freeWord k).toNat % 2 ^ 24)) →
      exec (.tpFrameSend p) s = .next (settle (v.putPort p { y with
        seq := (y.seq + 1) % 16
        sent := (Time.ns ttx :: y.sent).take 16
        sendCyc := some u.mer.cyc
        begun := some (u.teleBody k p y.seq ttx eh.1 eh.2) }))) ∧
    (s.tpcRuns p = false ∨ (∃ c, x.sendCyc = some c ∧ s.since c < s.telePeriod p) →
      exec (.tpFrameSend p) s = .next (settle s)) ∧
    ((x.begun = none → s.teleRest p = s) ∧
      (∀ l cmd body frame, x.begun = some l → cmd = s.teleBits p → body = l.take 4 ++ leBytes 2 cmd ++ l.drop 6 →
        frame = body ++ leBytes 4 (crc32 body).toNat →
        s.teleRest p = ((s.putPort p { x with begun := none }).p TPC_CMDST_tx [p.val] cmd).emit
          (.tele p (s.g TPC_CFG_iface [p.val]) (s.g TPC_CFG_n [p.val]) (s.teleUnused p)
            (s.g TPC_CFG_iface [p.val] = 0 && s.g TPC_STAT_state [p.val] = 1) frame (bitsMsb frame)))) ∧
    (∀ l (pin : Time) rdi, s.tpcRuns p = false → exec (.tpFrameReceive p l pin rdi) s = .next (settle s)) ∧
    (∀ l (pin : Time) rdi u, s.tpcRuns p = true →
      u = s.p TPC_STAT_rdi [p.val] (b2n (rdi && s.g TPC_CFG_iface [p.val] = 0)) → teleOk l = false →
      (u.g TPC_STAT_state [p.val] = 2 → exec (.tpFrameReceive p l pin rdi) s = .next (settle
        (((u.putPort p { x with fails := x.fails + 1 }).cnt TPC_STAT_crc [p.val]).flagAt TPC 10 (200 + p)))) ∧
      (u.g TPC_STAT_state [p.val] ≠ 2 → exec (.tpFrameReceive p l pin rdi) s = .next (settle u))) ∧
    (∀ l (pin : Time) rdi u, s.tpcRuns p = true → u = ((s.p TPC_STAT_rdi [p.val] (b2n (rdi && s.g TPC_CFG_iface [p.val] = 0))).putPort p
        { x with fails := 0 }).p TPC_STAT_state [p.val] 2 → teleOk l = true →
      (leAt l 3 1 / 16 = s.g TPC_CFG_addr [p.val] →
        exec (.tpFrameReceive p l pin rdi) s = .next (settle (u.flagAt TPC 11 (200 + p)))) ∧
      (leAt l 3 1 / 16 ≠ s.g TPC_CFG_addr [p.val] → exec (.tpFrameReceive p l pin rdi) s = .next (settle
        (u.teleValid p l (pin - s.g TPC_IODLY_rxd [p.val] * oneNs))))) ∧
    (s.tpcRuns p = true → s.g TPC_STAT_state [p.val] = 2 → 3 ≤ x.fails → exec (.lossOfFrame p) s = .next (settle
      (((s.putPort p { x with fails := 0 }).p TPC_STAT_state [p.val] 1).flagAt TPC 9 (200 + p)))) ∧
    (s.tpcRuns p = false ∨ s.g TPC_STAT_state [p.val] ≠ 2 ∨ x.fails < 3 → exec (.lossOfFrame p) s = .next (settle s)) ∧
    (∀ v u, x.timed = false → s.g TPC_CFG_cto [p.val] * oneMs ≤ s.since x.okCyc →
      v = (s.g TPC_CMDST_rx [p.val] &&& s.g TPC_FALL_hold [p.val]) |||
        (s.g TPC_FALL_val [p.val] &&& (65535 - s.g TPC_FALL_hold [p.val])) →
      u = s.putPort p { x with timed := true, prev := none, bits := none } →
      (s.g TPC_CMDST_rx [p.val] = v → exec (.tpCommandTimeout p) s = .next (settle (u.flagAt TPC 12 (200 + p)))) ∧
      (s.g TPC_CMDST_rx [p.val] ≠ v → exec (.tpCommandTimeout p) s = .next (settle
        (((u.p TPC_CMDST_rx [p.val] v).raise (200 + p)).flagAt TPC 12 (200 + p))))) ∧
    (x.timed = true ∨ s.since x.okCyc < s.g TPC_CFG_cto [p.val] * oneMs → exec (.tpCommandTimeout p) s = .next (settle s)) ∧
    (x.los = false → s.tpcRuns p = true → s.g TPC_CFG_iface [p.val] = 0 →
      exec (.tpcLos p true) s = .next (settle ((s.putPort p { x with los := true }).flagAt TPC 8 (200 + p)))) ∧
    (x.los = true ∨ s.tpcRuns p = false ∨ s.g TPC_CFG_iface [p.val] ≠ 0 →
      exec (.tpcLos p true) s = .next (settle (s.putPort p { x with los := true }))) ∧
    (exec (.tpcLos p false) s = .next (settle (s.putPort p { x with los := false })))

/-! ### The host interface -/

/-- Rings: the command at D is taken when its phase is that of D, a wrong phase is ERROR 1 and a failed read ERROR 2, a fence waits for
the earlier commands of its ring, and a ring from which the device may take nothing gives nothing; a command of a tunnel ring goes to its
member, and waits while consumer TUN is at its maximum; NOP completes DONE. A completion goes to a posted slot of its CMPL ring, waits in the
Cistern behind others, stays in the engine while consumer CMPL is at its maximum, each refused once, and is lost and counted without
its ring. A batch of at most 16 descriptors, as many as are posted, is written with its message, a failed write being ERROR 3, after
which the records wait; a ring with nothing ready, without link, disabled or in ERROR writes nothing. An enable starts the ring with
D and H at 0 and the slots that the host gives, and what waits for its class and index moves; a disable leaves its records waiting; a
change of an enabled ring, and an enable of a class and index that another has, is not-now. A doorbell moves H within the ring, its
excess cut and clamped, and is not-now at a ring that is disabled or in ERROR (R554 to R561, R563 to R565, R567, R592). -/
def Obligations.Rings : Prop :=
  ∀ (s : State), s.Runs →
    (∀ (r : Fin 128) rd, s.canTake r = false → exec (.commandTake r rd) s = .next (settle s)) ∧
    (∀ (r : Fin 128) c d i, s.canTake r = true → i = s.g HIF_RING_3_d [r.val] → d = cmdDesc c r false →
      (bitAt (cmdFlags c) 7 ≠ passPhase (s.g HIF_RING_2_k [r.val]) i → exec (.commandTake r (some c)) s =
        .next (settle (((s.p HIF_RING_2_state [r.val] 2).p HIF_RING_2_err [r.val] 1).flag HIF 8))) ∧
      (bitAt (cmdFlags c) 7 = passPhase (s.g HIF_RING_2_k [r.val]) i →
        (d.fence = true → (∃ x ∈ s.hif.openCmds, x.ring = r.val ∧ x.tunnel = false) →
          exec (.commandTake r (some c)) s = .next (settle s)) ∧
        (d.fence = false ∨ (∀ x ∈ s.hif.openCmds, ¬ (x.ring = r.val ∧ x.tunnel = false)) →
          ∀ u, u = s.p HIF_RING_3_d [r.val] ((i + 1) % M17) →
          (s.tunMember r = none → u.tunMember r = none →
            exec (.commandTake r (some c)) s = .next (settle (u.run (cmdOp c) d c.buf)) ∧
            (cmdOp c = 0 → exec (.commandTake r (some c)) s = .next (settle ((u.open_ d).complete d 0 ST_DONE)))) ∧
          (∀ m, s.tunMember r = some m → u.tunMember r = some m →
            (s.tunPaused c.buf = true → exec (.commandTake r (some c)) s = .next (settle (s.noBuf 12))) ∧
            (s.tunPaused c.buf = false → exec (.commandTake r (some c)) s = .next (settle (u.toMember m c d)))))) ∧
      (exec (.commandTake r none) s =
        .next (settle (((s.p HIF_RING_2_state [r.val] 2).p HIF_RING_2_err [r.val] 2).flag HIF 9)))) ∧
    (∀ d : Desc, exec (.nop d) s = .next (settle ((s.open_ d).complete d 0 ST_DONE))) ∧
    (s.hif.comps = [] → exec .completionWrite s = .next (settle s)) ∧
    (∀ c l u, s.hif.comps = c :: l → s.compMove c = some u →
      exec .completionWrite s = .next (settle { u with hif := { u.hif with comps := l } })) ∧
    (∀ c d, s.hif.comps = [c] → s.compMove c = none → s.bufferOnly c = false →
      (c.refused = true → exec .completionWrite s = .next (settle s)) ∧
      (c.refused = false → d = { c with refused := true } → ∀ u, u = s.noBuf 11 →
        exec .completionWrite s = .next (settle { u with hif := { u.hif with comps := [d] } }))) ∧
    (∀ c r, c.d.tunnel = false → s.cls c.d.ring ≠ CLS_TUN → c.quiet = false → r = s.g HIF_RING_2_cring [c.d.ring] →
      (s.ringEn r = false ∨ s.cls r ≠ CLS_CMPL →
        (c.buf = [] → s.compMove c = some ((s.cnt HIF_CMPLLOST).flag HIF 11)) ∧
        (c.buf ≠ [] → s.linkOk = false → s.compMove c = none) ∧
        (c.buf ≠ [] → s.linkOk = true → s.compMove c =
          some (((((s.emit (.hostMem c.addr c.buf)).freeToks c.toks).cnt HIF_CMPLLOST).flag HIF 11)))) ∧
      (s.ringEn r = true → s.cls r = CLS_CMPL →
        ((s.ring r).waiting = [] → 0 < s.posted r → s.compMove c = some (s.ready r c.rdesc c.toks)) ∧
        ((s.ring r).waiting ≠ [] ∨ s.posted r = 0 →
          (s.queue 11 r c.rdesc.bytes = none → s.compMove c = none) ∧
          (∀ u, s.queue 11 r c.rdesc.bytes = some u → s.compMove c = some
            (u.putRing r { u.ring r with waiting := (u.ring r).waiting ++ [(c.rdesc, c.toks ++ [(11, r)])] }).cmplHolds)))) ∧
    (∀ (r : Fin 128) x l, x = s.ring r →
      l = x.ready.take (min 16 (s.ringSize r - (s.g HIF_RING_3_d [r.val] + M17 - x.h) % M17)) →
      (l = [] ∨ s.linkOk = false ∨ s.ringEn r = false ∨ s.g HIF_RING_2_state [r.val] ≠ 1 →
        ∀ failed, exec (.writeBack r failed) s = .next (settle s)) ∧
      (l ≠ [] → s.linkOk = true → s.ringEn r = true → s.g HIF_RING_2_state [r.val] = 1 →
        (exec (.writeBack r true) s =
          .next (settle ((((s.p HIF_RING_2_state [r.val] 2).p HIF_RING_2_err [r.val] 3).flag HIF 9).ringGone r))) ∧
        (∀ u, u = s.each l (fun (s : State) (b : Bound) =>
            let i := s.g HIF_RING_3_d [r.val]
            let x := s.ring r
            let d := s.inSlot r b.1 (nth x.slots 0 (0, 0))
            let t := s.putRing r { x with slots := x.slots.drop 1, ready := x.ready.drop 1 }
            ((((if d.buf.isEmpty then t else t.emit (.hostMem d.addr d.buf)).emit (.desc r i { d with buf := [] })).emit
              (.descEnd r i (passPhase (s.g HIF_RING_2_k [r.val]) i))).p HIF_RING_3_d [r.val] ((i + 1) % M17)).leftRing r b) →
          (u.on HIF_RING_2_irq [r.val] = true → exec (.writeBack r false) s = .next (settle (u.msix (u.g HIF_RING_2_vec [r.val])))) ∧
          (u.on HIF_RING_2_irq [r.val] = false → exec (.writeBack r false) s = .next (settle u))))) ∧
    (∀ (r : Fin 128) v slots w n old u, (w, n) = ringClamp v → old = s.rd (0x110108 + 16 * r.val) →
      u = (s.wr (0x110108 + 16 * r.val) (setBits w 23 20 (bits old 23 20))).clampReg (0x110108 + 16 * r.val) n →
      (old.msb = true → bits w 19 0 ≠ bits old 19 0 → exec (.ringEnable r v slots) s = .next (settle (s.notNow (0x110108 + 16 * r.val)))) ∧
      (w.msb = true → s.ringTaken r w = true → exec (.ringEnable r v slots) s = .next (settle (s.notNow (0x110108 + 16 * r.val)))) ∧
      (w.msb = true → old.msb = false → s.ringTaken r w = false → ∀ t,
        t = ((u.p HIF_RING_2_state [r.val] 1).p HIF_RING_2_err [r.val] 0).p HIF_RING_3_d [r.val] 0 →
        exec (.ringEnable r v slots) s = .next (settle ((t.putRing r { t.ring r with
          h := 0, slots := padSlots (2 ^ bits w 19 15) slots }).pumpRing r))) ∧
      (w.msb = false → old.msb = true → bits w 19 0 = bits old 19 0 →
        exec (.ringEnable r v slots) s = .next (settle ((u.p HIF_RING_2_state [r.val] 0).ringGone r))) ∧
      (w.msb = false → old.msb = false → exec (.ringEnable r v slots) s = .next (settle u)) ∧
      (w.msb = true → old.msb = true → bits w 19 0 = bits old 19 0 → s.ringTaken r w = false →
        exec (.ringEnable r v slots) s = .next (settle u))) ∧
    (∀ (r : Fin 128) v slots x h e b, x = s.ring r → h = bits v 16 0 → e = (h + M17 - x.h) % M17 →
      b = (s.g HIF_RING_3_d [r.val] + M17 - x.h) % M17 →
      (s.ringEn r = false ∨ s.g HIF_RING_2_state [r.val] = 2 ∨ 65536 < e →
        exec (.hifDb r v slots) s = .next (settle (s.notNow (0x114000 + 4 * r.val)))) ∧
      (s.ringEn r = true → s.g HIF_RING_2_state [r.val] ≠ 2 → e ≤ 65536 → toDevice (s.cls r) (s.ringIdx r) = true →
        ((h + M17 - s.g HIF_RING_3_d [r.val]) % M17 ≤ s.ringSize r →
          exec (.hifDb r v slots) s = .next (settle (s.putRing r { x with h := h }))) ∧
        (s.ringSize r < (h + M17 - s.g HIF_RING_3_d [r.val]) % M17 → exec (.hifDb r v slots) s = .next (settle
          ((s.putRing r { x with h := (s.g HIF_RING_3_d [r.val] + s.ringSize r) % M17 }).clampReg (0x114000 + 4 * r.val) 1)))) ∧
      (s.ringEn r = true → s.g HIF_RING_2_state [r.val] ≠ 2 → e ≤ 65536 → toDevice (s.cls r) (s.ringIdx r) = false →
        (e ≤ b → exec (.hifDb r v slots) s = .next (settle
          ((s.putRing r { x with h := (x.h + e) % M17, slots := x.slots ++ padSlots e slots }).pumpRing r))) ∧
        (b < e → exec (.hifDb r v slots) s = .next (settle
          (((s.putRing r { x with h := (x.h + b) % M17, slots := x.slots ++ padSlots b slots }).clampReg
            (0x114000 + 4 * r.val) 1).pumpRing r)))))

/-- The host link: a change of it goes into HIF_LINK, the speed and width of a link that is up in their legal forms (the model's choice,
log 162) and none of one that is down; what waited for the link leaves once it may be used, and the rings move when it comes. A
function level reset takes the commands and completions, with their share of the Cistern, and the registers of HIF, while the records
of its rings wait; PERST_N takes Bus Master Enable and the power state with it (R548 to R550, R575, R642). -/
def Obligations.HostLink : Prop :=
  ∀ (s : State), s.Runs →
    (∀ up bme d3 sp w a b u, a = (if up then min (max sp 1) 3 else 0) →
      b = (if !up then 0 else if w ≤ 1 then 1 else if w ≤ 3 then 2 else 4) →
      u = s.p HIF_LINK [] (b2n d3 * 1024 + b2n bme * 512 + b2n up * 256 + a * 16 + b) →
      (u.linkOk = false → exec (.hostLinkChange up bme d3 sp w) s = .next (settle u)) ∧
      (u.linkOk = true → ∀ t : State, t = (({ u with hif := { u.hif with msixWait := [] } } : State).each u.hif.msixWait fun s v => s.msix v) →
        t.linkOk = true →
        (s.linkOk = true → exec (.hostLinkChange up bme d3 sp w) s = .next (settle t)) ∧
        (s.linkOk = false → exec (.hostLinkChange up bme d3 sp w) s = .next (settle (t.each (List.range 128) State.pumpRing))))) ∧
    (∀ u v w : State, u = s.each ((List.range 128).filter s.ringEn) State.ringGone →
      v = u.freeToks ((u.hif.rings.map fun (x : RingSt) => (x.waiting.map (·.2)).flatten).flatten ++ (u.hif.comps.map (·.toks)).flatten) →
      w = { v with hif := { v.hif with rings := List.replicate 128 emptyRing, openCmds := [], comps := [] } } →
      exec .functionLevelReset s = .next (settle { w with regs := regResetBlk w.regs HIF }) ∧
      exec .perstN s = .next (settle ((({ w with regs := regResetBlk w.regs HIF } : State)).p HIF_LINK [] 0)))

/-! ### The stack -/

/-- Formation: a stack link that gains lock starts it, and one that loses it is counted and starts it too; without a change nothing
happens. It takes the device to FORMING, or to STANDALONE with the stack turned off, and does nothing in DAWN and NIGHT. HELLO packets
leave every 100 µs; one that arrives shows the neighbour, brings a lost position back to the master and a device without its master to
its stack, and otherwise has no further effect. A group with one master, no doubled link and as many devices as its master expects forms,
every other ends FAILED with its code, and without a trained link within fto the device is STANDALONE; a device that is not FORMING is not
touched. The link delay is measured every 1 ms, each request is answered, and the answer gives it; a packet whose CRC fails, or at a link
that is not up, has none of this. CSC_CFG is not-now in NOON and DUSK and while a lock forbids it, and its accepted write runs formation
again (R577, R579 to R582, R594, R596). -/
def Obligations.StackFormation : Prop :=
  ∀ (s : State), s.Runs →
    (∀ (j : Fin 4) lock, nth s.csc.lock j false = lock ∨ s.stackLink j = false →
      exec (.lohelysLinkChange j lock) s = .next (settle s)) ∧
    (∀ (j : Fin 4) l, nth s.csc.lock j false = false → s.stackLink j = true → l = s.csc.lock.set j true →
      exec (.lohelysLinkChange j true) s = .next (settle (({ s with csc := { s.csc with lock := l } } : State).formStart))) ∧
    (∀ (j : Fin 4) l, nth s.csc.lock j false = true → s.stackLink j = true → l = s.csc.lock.set j false →
      exec (.lohelysLinkChange j false) s = .next (settle
        (((({ s with csc := { s.csc with lock := l } } : State).cnt CSC_LERR_lock [j.val]).putLohelys j false).formStart))) ∧
    ((s.inSt [MORNING, NOON, DUSK, SAFE] = false → s.formStart = s) ∧
      (s.inSt [MORNING, NOON, DUSK, SAFE] = true → s.on CSC_CFG_en = false → s.formStart = s.unstacked CS_STANDALONE 0) ∧
      (s.inSt [MORNING, NOON, DUSK, SAFE] = true → s.on CSC_CFG_en = true → ∀ v : State,
        v = ((s.launchEnd.withoutMaster.p CSC_STAT_state [] CS_FORMING).p CSC_STAT_fail [] 0) →
        s.formStart = { v with csc := { v.csc with formAt := s.mer.cyc } })) ∧
    (∀ (j : Fin 4) l, l = s.csc.helloCyc.set j s.mer.cyc →
      (s.stackLink j = true → 100 * oneUs ≤ s.since (nth s.csc.helloCyc j 0) → exec (.helloSend j) s = .next (settle
        (({ s with csc := { s.csc with helloCyc := l } } : State).linkSend PK_HELLO j
          [Config.serial.toNat, b2n (s.on GEN_STATE_master), s.cscState, s.position, j]))) ∧
      (s.stackLink j = false ∨ s.since (nth s.csc.helloCyc j 0) < 100 * oneUs → exec (.helloSend j) s = .next (settle s))) ∧
    (∀ (h : PktHead) serial strap st pos plink ok u, (ok, u) = s.linkIn h →
      (ok = false → exec (.helloPacket h serial strap st pos plink) s = .next (settle u)) ∧
      (ok = true → ∀ v w : State, v = ((((u.p CSC_LINK_ppos [h.link.val] pos).p CSC_LINK_pmst [h.link.val] (b2n strap)).p
          CSC_LINK_plink [h.link.val] plink).putLohelys h.link true) →
        w = (if v.on GEN_STATE_stacked && decide (v.memSerial pos = serial.toNat) then v.heard pos else v) →
        exec (.helloPacket h serial strap st pos plink) s = .next (settle (w.rejoin serial.toNat strap st)))) ∧
    (∀ serial strap st,
      (s.isMaster = true → s.formed = true →
        ((∀ m ∈ s.others, s.memSerial m = serial → bitAt (s.g CSC_STAT_present) m = true) → s.rejoin serial strap st = s) ∧
        (∀ m, s.others.find? (fun m => s.memSerial m = serial && !bitAt (s.g CSC_STAT_present) m) = some m →
          s.rejoin serial strap st = (s.heard m).readmit m)) ∧
      (s.isMaster = false → s.isMember = true → ∀ v : State, v = s.p CSC_STAT_state [] CS_FORMED →
        (s.cscState = CS_DETACHED → strap = true ∨ st = CS_FORMED → s.rejoin serial strap st = ({ v with csc := { v.csc with
          syncCyc := s.mer.cyc, gridCyc := s.mer.cyc, alignCnt := 0, wasAligned := 0, fresh := true } } : State).flag CSC 11) ∧
        (s.cscState = CS_FORMING → st = CS_FORMED → s.rejoin serial strap st = ({ v with csc := { v.csc with
          syncCyc := s.mer.cyc, gridCyc := s.mer.cyc, alignCnt := 0, wasAligned := 0, fresh := true } } : State).flag CSC 11) ∧
        (s.cscState ≠ CS_DETACHED → s.cscState ≠ CS_FORMING → s.rejoin serial strap st = s))) ∧
    (∀ (g : StackGroup),
      (s.cscState ≠ CS_FORMING ∨ s.linksRun = false → exec (.formationEnd g) s = .next (settle s)) ∧
      (s.cscState = CS_FORMING → s.linksRun = true →
        (linkEnds g 0 = [] →
          (s.g CSC_CFG_fto * oneMs ≤ s.since s.csc.formAt → exec (.formationEnd g) s = .next (settle (s.unstacked CS_STANDALONE 0))) ∧
          (s.since s.csc.formAt < s.g CSC_CFG_fto * oneMs → exec (.formationEnd g) s = .next (settle s))) ∧
        (linkEnds g 0 ≠ [] →
          (s.groupMasters g = [] → exec (.formationEnd g) s = .next (settle
            (((s.unstacked CS_FAILED 1).flag CSC 9).cscEvt 2 0 Config.serial.toNat))) ∧
          (2 ≤ (s.groupMasters g).length → exec (.formationEnd g) s = .next (settle
            (((s.unstacked CS_FAILED 2).flag CSC 9).cscEvt 2 0 Config.serial.toNat))) ∧
          (∀ m nexp n, s.groupMasters g = [m] → nexp = (nth (s.groupDevs g) m ⟨0, false, 0⟩).nexp → n = (groupOrder g 0).length →
            (isDoubled g = true → exec (.formationEnd g) s = .next (settle
              (((s.unstacked CS_FAILED 3).flag CSC 9).cscEvt 2 0 Config.serial.toNat))) ∧
            (isDoubled g = false → nexp ≠ 0 → n ≠ nexp → exec (.formationEnd g) s = .next (settle
              (((s.unstacked CS_FAILED 4).flag CSC 9).cscEvt 2 0 Config.serial.toNat))) ∧
            (isDoubled g = false → nexp = 0 ∨ n = nexp → exec (.formationEnd g) s = .next (settle (s.formedAs g)))))) ∧
      (∀ order n pos (t u v w : State), order = groupOrder g (nth (s.groupMasters g) 0 0) → n = order.length → pos = order.idxOf 0 →
        t = s.membersLeave n →
        u = (((t.p CSC_STAT [] (CS_FORMED + 256 * (if n ≤ 1 then 0 else if isRing g 0 then 2 else 1) + 4096 * n + 65536 * 1
          + 2 ^ 24 * (2 ^ n - 1))).p GEN_STATE_stacked [] 1).p GEN_STATE_member [] pos) →
        v = u.each (order.map fun d => (nth (t.groupDevs g) d ⟨0, false, 0⟩).serial).zipIdx (fun s (w, i) =>
          (s.p CSC_MEM_0 [i] w.toNat).p CSC_MEM_1 [i] (w.toNat / 2 ^ 32)) →
        w = { v with csc := { v.csc with
          heard := List.replicate 8 t.mer.cyc
          syncCyc := t.mer.cyc
          gridCyc := t.mer.cyc
          alignCnt := 0
          wasAligned := if t.on GEN_STATE_master then 1 else 0
          fresh := true
          early := []
          routes := order.map (routeTo g)
          stepSeen := t.mer.stepAt } } →
        t.on GEN_STATE_stacked = false ∨ t.position = pos →
        (t.on GEN_STATE_master = true → s.formedAs g = (w.flag CSC 8).cscEvt 1 0 Config.serial.toNat) ∧
        (t.on GEN_STATE_master = false →
          s.formedAs g = ((w.selectSrc 10).flag CSC 8).cscEvt 1 0 Config.serial.toNat))) ∧
    (∀ (j : Fin 4) l, l = s.csc.timeCyc.set j s.mer.cyc →
      (s.stackLink j = true → s.on CSC_LINK_up [j.val] = true → oneMs ≤ s.since (nth s.csc.timeCyc j 0) →
        exec (.linkDelayMeasure j) s = .next (settle (({ s with csc := { s.csc with timeCyc := l } } : State).linkSend
          PK_TIME j [stamp64 s.mer.now]))) ∧
      (s.stackLink j = false ∨ s.on CSC_LINK_up [j.val] = false ∨ s.since (nth s.csc.timeCyc j 0) < oneMs →
        exec (.linkDelayMeasure j) s = .next (settle s))) ∧
    (∀ (h : PktHead) (t1 t2 t3 arr : Time) ok u j, (ok, u) = s.linkIn h → j = h.link.val →
      (ok = false ∨ u.on CSC_LINK_up [j] = false → ∀ l, exec (.timePacket h l arr) s = .next (settle u)) ∧
      (ok = true → u.on CSC_LINK_up [j] = true →
        (exec (.timePacket h [t1] arr) s = .next (settle ((u.hearFrom (u.g CSC_LINK_ppos [j])).linkSend PK_TIME j
          [t1, stamp64 arr, stamp64 u.mer.now]))) ∧
        (∀ d : Int, d = (((stamp64 arr : Int) - t1) - ((t3 : Int) - t2)) / 2 - Config.linkTrim j →
          exec (.timePacket h [t1, t2, t3] arr) s = .next (settle
            ((u.hearFrom (u.g CSC_LINK_ppos [j])).p CSC_LINK_dly [j] (satI 0 (2 ^ 24 - 1) (d / 1024)).toNat))) ∧
        (∀ l, l.length ≠ 1 → l.length ≠ 3 → exec (.timePacket h l arr) s = .next (settle u)))) ∧
    (∀ v : Word, s.inSt [NOON, DUSK] = true → exec (.cscCfg v) s = .next (settle (s.notNow 0x100100))) ∧
    (∀ (v : Word) r w u, findReg 0x100100 = some (r, []) → w = s.depClamp 0x100100 [] (clampStatic r.fields v) →
      u = ((s.wr 0x100100 (storeWord r.fields (s.rd 0x100100) v w)).clampReg 0x100100 (clampTotal 0x100100 r.fields v w)) →
      s.inSt [NOON, DUSK] = false →
      (s.lockRefuses 0x100100 r.fields (s.rd 0x100100) w = true → exec (.cscCfg v) s = .next (settle (s.notNow 0x100100))) ∧
      (s.lockRefuses 0x100100 r.fields (s.rd 0x100100) w = false → exec (.cscCfg v) s = .next (settle
        ((u.each (List.range 4) fun s j =>
          if s.stackLink j then s
          else (({ s with csc := { s.csc with lock := s.csc.lock.set j false } } : State).putLohelys j false)).formStart))))

/-- Packets in a formed stack: the master sends its time each millisecond, and a member corrects its Meridian by a share of the difference
that its servo leaves free (log 71), and by all of it when the packet carries a step; 16 packets within 50 ns align a member; a member
takes the next tracked instant; a publication counts its late arrivals, waits for its frame, and is used when it comes in time and
aligned, exactly at the deadline it is neither; the level of a member's CASC view is the master's forward source. A packet that the
device does not take in, one for the other role, and each of these outside a formed stack have no further effect, and nothing is sent
before its time (R398, R582 to R585, R589, R598, R599). -/
def Obligations.StackPackets : Prop :=
  ∀ (s : State), s.Runs →
    (∀ ms, ms = s.mer.now / oneMs →
      (s.isMaster = true → s.formed = true → s.csc.syncMs ≠ ms → exec .cascadeSyncSend s = .next (settle
        (({ s with csc := { s.csc with syncMs := ms, stepSeen := s.mer.stepAt } } : State).stackSend
          PK_SYNC [s.mer.now, s.g MER_STAT_tq, b2n (decide (s.mer.stepAt ≠ s.csc.stepSeen)), 0]))) ∧
      (s.isMaster = false ∨ s.formed = false ∨ s.csc.syncMs = ms → exec .cascadeSyncSend s = .next (settle s))) ∧
    (∀ (h : PktHead) (sent : Time) (cum tq : Nat) step resp ok u,
      (ok, u) = s.packetIn PK_SYNC h none (syncBody (s.g CSC_LINK_dly [h.link.val]) h sent cum tq step resp) →
      (ok = false ∨ u.formed = false → exec (.syncPacket h sent cum tq step resp) s = .next (settle u)) ∧
      (ok = true → u.formed = true →
        (∀ o, resp = some o →
          (u.isMaster = true →
            exec (.syncPacket h sent cum tq step resp) s = .next (settle (u.p CSC_MEM_2 [h.src.val] (wrap 32 o)))) ∧
          (u.isMaster = false → exec (.syncPacket h sent cum tq step resp) s = .next (settle u))) ∧
        (resp = none → u.isMember = false → exec (.syncPacket h sent cum tq step resp) s = .next (settle u)) ∧
        (resp = none → u.isMember = true → ∀ off o v w k x,
          off = (u.mer.now : Int) - (sent + cum) → o = satI (-(2 ^ 31) + 1) (2 ^ 31 - 1) (off / 1024) →
          v = (u.noteEvent 10).p CSC_TOFS [] (wrap 32 o) →
          w = (((({ v with csc := { v.csc with syncCyc := u.mer.cyc } } : State).putAligned 0 true).setTq tq).alignCount off) →
          (k, x) = w.draw →
          (u.dev = SAFE →
            exec (.syncPacket h sent cum tq step resp) s = .next (settle (w.stackSend PK_SYNC [u.position, wrap 32 o]))) ∧
          (u.dev ≠ SAFE → step = false → ∀ t, t = x.correct (u.phaseOf off k) →
            exec (.syncPacket h sent cum tq step resp) s = .next (settle (t.stackSend PK_SYNC [u.position, wrap 32 o]))) ∧
          (u.dev ≠ SAFE → step = true → ∀ t, t = w.stepBy (-off) →
            exec (.syncPacket h sent cum tq step resp) s = .next (settle (t.stackSend PK_SYNC [u.position, wrap 32 o])))))) ∧
    (s.formed = true → s.isMember = true → s.csc.alignCnt = 16 → bitAt (s.g CSC_STAT_aligned) s.position = false →
      ∀ v : State, v = s.putAligned s.position true →
      (bitAt s.csc.wasAligned s.position = true → exec .alignment s = .next (settle v)) ∧
      (bitAt s.csc.wasAligned s.position = false → exec .alignment s = .next (settle (({ v with csc := { v.csc with
        wasAligned := putBit v.csc.wasAligned s.position true } } : State).flag CSC 15)))) ∧
    (s.formed = false ∨ s.isMember = false ∨ s.csc.alignCnt ≠ 16 ∨ bitAt (s.g CSC_STAT_aligned) s.position = true →
      exec .alignment s = .next (settle s)) ∧
    (∀ (x : PktTime) rate ok u, (ok, u) = s.packetIn PK_GRID x.head none [x.t, rate] →
      (ok = false ∨ u.formed = false ∨ u.isMember = false → exec (.gridPacket x rate) s = .next (settle u)) ∧
      (ok = true → u.formed = true → u.isMember = true → ∀ p last v, p = placeAt x.t rate →
        last = (match u.dch.placed.getLast? with | some q => q.now | none => u.dch.frame.ts) →
        v = { u with csc := { u.csc with gridCyc := u.mer.cyc, fresh := false } } →
        exec (.gridPacket x rate) s = .next (settle { v with dch := { v.dch with
          nextT := some { p with sync := u.csc.fresh || u.dch.nextT.any (·.sync), tstep := u.csc.fresh && u.dch.tstep }
          lost := false
          lastRate := rate
          lastDelta := if last < x.t then x.t - last else u.dch.lastDelta } }))) ∧
    (∀ (h : PktHead) hdr parts rest l ok u m, l = hdr ++ parts ++ rest → (ok, u) = s.packetIn PK_PUB h none (l.map (·.toNat)) →
      m = h.src.val →
      (ok = false ∨ u.formed = false → exec (.pubPacket h hdr parts rest) s = .next (settle u)) ∧
      (ok = true → u.formed = true → ∀ v al, al = bitAt (leAt l 18 1) 3 →
        v = (if al && !bitAt (u.g CSC_STAT_aligned) m then u.becomeAligned m
          else if !al && bitAt (u.g CSC_STAT_aligned) m then u.putAligned m false else u) →
        (deadline (headerTime l) < u.mer.now → exec (.pubPacket h hdr parts rest) s = .next (settle
          ((v.cnt CSC_MEM_3_late [m]).flag CSC 13))) ∧
        (deadline (headerTime l) = u.mer.now → exec (.pubPacket h hdr parts rest) s = .next (settle v)) ∧
        (u.mer.now < deadline (headerTime l) →
          (al = false ∨ m = u.position → exec (.pubPacket h hdr parts rest) s = .next (settle v)) ∧
          (al = true → m ≠ u.position →
            (u.ele.lastTs = some (headerTime l) ∨ (u.tmx.second = true ∧ u.dch.frame.ts = headerTime l) →
              exec (.pubPacket h hdr parts rest) s = .next (settle (v.usePub m l))) ∧
            (u.ele.lastTs ≠ some (headerTime l) → u.tmx.second = false ∨ u.dch.frame.ts ≠ headerTime l →
              exec (.pubPacket h hdr parts rest) s = .next (settle { v with csc := { v.csc with
                early := (v.csc.early ++ [(m, l)]).drop (v.csc.early.length + 1 - 32) } })))))) ∧
    (∀ (h : PktHead) lv ok u m, (ok, u) = s.packetIn PK_LEVEL h none [h.src.val, b2n lv] → m = h.src.val →
      (ok = true → u.isMaster = true → u.formed = true → m ≠ 0 →
        exec (.levelPacket h lv) s = .next (settle (u.setLevel (205 + m) lv))) ∧
      (ok = false ∨ u.isMaster = false ∨ u.formed = false ∨ m = 0 → exec (.levelPacket h lv) s = .next (settle u))) ∧
    (∀ lv, lv = s.cascView →
      (s.formed = true → s.isMember = true → lv ≠ s.csc.levelLast ∨ oneMs ≤ s.since s.csc.levelCyc →
        exec .levelSend s = .next (settle (({ s with csc := { s.csc with levelLast := lv, levelCyc := s.mer.cyc } } : State).stackSend
          PK_LEVEL [s.position, b2n lv]))) ∧
      (s.formed = false ∨ s.isMember = false ∨ (lv = s.csc.levelLast ∧ s.since s.csc.levelCyc < oneMs) →
        exec .levelSend s = .next (settle s)))

/-- The tunnel and the loss of a device: a member runs a tunnelled command as its own, and the master completes it; a packet that the
device does not take in, or for the other role, or of a command that is not open, has no further effect. CSC_WR writes its entries in
order and counts those refused, CSC_RD returns the values it reads; a length out of range is clamped. The master loses a member, and a
member its master, after 1 ms, and not before; a position that is not present is not lost again, and a member that is DETACHED stays
so (R592 to R595, R399). -/
def Obligations.TunnelAndLoss : Prop :=
  ∀ (s : State), s.Runs →
    (∀ (h : PktHead) x ok u, (ok, u) = s.packetIn PK_TUN h (some (tunDest x)) (tunBody x) →
      (ok = false ∨ u.formed = false → exec (.tunPacket h x) s = .next (settle u)) ∧
      (ok = true → u.formed = true →
        (∀ m r rd, x = .command m r rd →
          (u.isMember = true →
            exec (.tunPacket h x) s = .next (settle (u.run (cmdOp rd) (cmdDesc rd r.val true) rd.buf))) ∧
          (u.isMember = false → exec (.tunPacket h x) s = .next (settle u))) ∧
        (∀ op tag st len addr a b rf buf, x = .completion op tag st len addr a b rf buf →
          (∀ d, u.isMaster = true → u.tunOpen h.src.val tag = some d →
            exec (.tunPacket h x) s = .next (settle (u.completeWith ⟨d, op, st, len, addr, a, b, rf, buf, [], false⟩))) ∧
          (u.isMaster = false ∨ u.tunOpen h.src.val tag = none → exec (.tunPacket h x) s = .next (settle u))))) ∧
    (∀ d buf n u k t, n = clampN 1 64 (d.len.toNat / 8) → u = (s.open_ d).clampDesc d 4 (b2n (decide (n * 8 ≠ d.len.toNat))) →
      tunWrites buf n 0 u = (k, t) →
      exec (.cscWr d buf) s = .next (settle (t.completeWith { compOf d 0x0F01 ST_DONE with len := n * 8, b := k }))) ∧
    (∀ d buf n u l t, n = clampN 1 64 (d.len.toNat / 4) → u = (s.open_ d).clampDesc d 4 (b2n (decide (n * 4 ≠ d.len.toNat))) →
      tunReads buf n 0 u = (l, t) →
      exec (.cscRd d buf) s = .next (settle
        (t.completeWith { compOf d 0x0F02 ST_DONE with len := 4 * n, buf := if d.tunnel then l else [] }))) ∧
    (∀ (m : Fin 8) u v,
      u = ((s.p CSC_STAT_present [] (putBit (s.g CSC_STAT_present) m false)).putAligned m false) →
      v = ((u.flag CSC 10).cnt CSC_MEM_3_lost [m.val]).cscEvt 3 m (u.memSerial m) →
      (s.isMaster = true → s.linksRun = true → m.val ≠ 0 → bitAt (s.g CSC_STAT_present) m = true →
        oneMs ≤ s.since (nth s.csc.heard m 0) →
        exec (.memberLost m) s = .next (settle ((v.setLevel (205 + m) false).launchLost m))) ∧
      (s.isMaster = false ∨ s.linksRun = false ∨ m.val = 0 ∨ bitAt (s.g CSC_STAT_present) m = false ∨
          s.since (nth s.csc.heard m 0) < oneMs → exec (.memberLost m) s = .next (settle s))) ∧
    (s.linksRun = true → s.isMember = true → s.cscState ≠ CS_DETACHED → oneMs ≤ s.since (max s.csc.syncCyc s.csc.gridCyc) →
      exec .detach s = .next (settle ((s.withoutMaster.p CSC_STAT_state [] CS_DETACHED).flag CSC 12))) ∧
    (s.linksRun = false ∨ s.isMember = false ∨ s.cscState = CS_DETACHED ∨ s.since (max s.csc.syncCyc s.csc.gridCyc) < oneMs →
      exec .detach s = .next (settle s))

/-! ### Security, supply and start-up -/

/-- The security engine: SEC_ATTEST is a signing command of kind 0 and SEC_SIGN of kind 1; each is NOT_NOW in DAWN and NIGHT and without a
good key, BUSY while another runs, NO_BUFFER at the maximum of SEC, and else waits with its nonce and digest; the signed report goes to
the buffer with its length and frame, once its frame has been taken or while no frames run, and not before; SEC_CERT returns the
certificate, or is NO_BUFFER; an enrolment outside MORNING, with four generations or while an image loads is NOT_NOW, and BUSY while one
commits; one that passes adds a generation, and its commit completes it (R603, R608, R610, R617, R618, R621). -/
def Obligations.SecurityEngine : Prop :=
  ∀ (s : State), s.Runs →
    (∀ d buf, exec (.secAttest d buf) s = .next (settle ((s.open_ d).secReport d OP_ATTEST 0 buf)) ∧
      exec (.secSign d buf) s = .next (settle ((s.open_ d).secReport d OP_SIGN 1 buf))) ∧
    (∀ d buf op kind run, (op = OP_ATTEST ∧ kind = 0 ∧ run = Instr.secAttest d buf) ∨ (op = OP_SIGN ∧ kind = 1 ∧ run = Instr.secSign d buf) →
      (s.inSt [DAWN, NIGHT] = true ∨ s.sec.keyBad = true → exec run s = .next (settle ((s.open_ d).complete d op ST_NOT_NOW))) ∧
      (s.inSt [DAWN, NIGHT] = false → s.sec.keyBad = false →
        (s.sec.sign ≠ none → exec run s = .next (settle ((s.open_ d).complete d op ST_BUSY))) ∧
        (s.sec.sign = none → (s.open_ d).reserve 13 0 (reportLen kind) = none →
          exec run s = .next (settle (((s.open_ d).noBuf 13).complete d op ST_NO_BUFFER))) ∧
        (∀ (u v : State) n b, s.sec.sign = none → n = (padTo 96 buf).take 32 → b = (padTo 96 buf).drop 32 → (s.open_ d).reserve 13 0 (reportLen kind) = some u →
          v = u.clampDesc d 4 (b2n (decide (d.len.toNat < reportLen kind))) →
          exec run s = .next (settle { v with sec := { v.sec with
            sign := some ⟨d, kind, n, b, (s.open_ d).report kind n b, false⟩ } })))) ∧
    (∀ d kind nonce dig rep seq fr sig full u, s.sec.sign = some ⟨d, kind, nonce, dig, (rep, seq), fr⟩ → fr = true ∨ s.afe.run = false →
      sig = (Config.falconSign s.free (tagBytes (if kind = 0 then "FRTATST1" else "FRTHOST1") ++ digest rep)).toList →
      full = rep ++ leBytes 2 1280 ++ List.replicate 6 0 ++ sig →
      u = ((({ s with free := s.free + 1, sec := { s.sec with sign := none } } : State).cnt SEC_OPS_sign).storeLast 13 0 0 full) →
      exec .signingComplete s = .next (settle (u.completeWith
        (({ compOf d (if kind = 0 then OP_ATTEST else OP_SIGN) ST_DONE with
          len := reportLen kind, buf := full, toks := [(13, 0)] } : Comp).seq seq)))) ∧
    (s.sec.sign = none ∨ ((∃ x, s.sec.sign = some x ∧ x.framed = false) ∧ s.afe.run = true) →
      exec .signingComplete s = .next (settle s)) ∧
    (∀ d, s.inSt [DAWN, NIGHT] = true → exec (.secCert d) s = .next (settle ((s.open_ d).complete d OP_CERT ST_NOT_NOW))) ∧
    (∀ d, s.inSt [DAWN, NIGHT] = false →
      ((s.open_ d).queue 13 1 s.sec.cert = none →
        exec (.secCert d) s = .next (settle (((s.open_ d).noBuf 13).complete d OP_CERT ST_NO_BUFFER))) ∧
      (∀ u, (s.open_ d).queue 13 1 s.sec.cert = some u →
        exec (.secCert d) s = .next (settle ((u.clampDesc d 4 (b2n (decide (d.len.toNat < 3136)))).completeWith
          { compOf d OP_CERT ST_DONE with len := 3136, buf := s.sec.cert, toks := [(13, 1)] })))) ∧
    (∀ d buf, s.dev ≠ MORNING ∨ 4 ≤ s.sec.gens.length ∨ (∃ c ∈ s.bcp, c.loading ≠ []) →
      exec (.secEnroll d buf) s = .next (settle ((s.open_ d).complete d OP_ENROLL ST_NOT_NOW))) ∧
    (∀ d buf, s.dev = MORNING → s.sec.gens.length < 4 → (∀ c ∈ s.bcp, c.loading = []) → s.sec.enroll ≠ none →
      exec (.secEnroll d buf) s = .next (settle ((s.open_ d).complete d OP_ENROLL ST_BUSY))) ∧
    (∀ d buf g b v, s.dev = MORNING → s.sec.gens.length < 4 → (∀ c ∈ s.bcp, c.loading = []) → s.sec.enroll = none →
      v = (s.open_ d).clampDesc d 4 (b2n (decide (d.len.toNat ≠ 3088))) → g = s.ownerGen → b = padTo 3088 buf →
      (∀ ok u, ok = signatureOk s.owner.key "FRTOWNR1" (enrolDigest g b) (leAt b 1800 2) (b.drop 1808) → u = v.cnt SEC_OPS_verify →
        g ≠ 0 → exec (.secEnroll d buf) s = .next (settle (if ok = true then { u with sec := { u.sec with
          gens := u.sec.gens ++ [⟨b.take 1793, bitAt (leAt b 1793 1) 0, false⟩], enroll := some d } }
          else u.complete d OP_ENROLL ST_AUTH_FAIL))) ∧
      (g = 0 → exec (.secEnroll d buf) s = .next (settle { v with sec := { v.sec with
          gens := v.sec.gens ++ [⟨b.take 1793, bitAt (leAt b 1793 1) 0, false⟩], enroll := some d } }))) ∧
    (s.sec.enroll = none → exec .enrollCommit s = .next (settle s)) ∧
    (∀ d l x, s.sec.enroll = some d → s.sec.gens = l ++ [x] →
      exec .enrollCommit s = .next (settle ((({ s with sec := { s.sec with
        enroll := none, gens := l ++ [{ x with committed := true }] } } : State).flag SEC 11).complete d OP_ENROLL ST_DONE)))

/-- Start-up and resets: a supply that rises gives the state after the POR release with OTP kept, and changes nothing in a device that is
not in OFF; one that fails leaves the device in OFF. RST_N low is a SYS reset that lasts to its release, and nothing more while it is
held or in OFF but the hold; PWR_RESET acts on its key only and its stored word stays; every SYS reset keeps the POR registers and
records its cause. After the straps and OTP, an image that passes its checks goes on to MORNING, one that fails leaves DAWN waiting for
the host, and outside DAWN nothing is checked; PWR_BOOT supplies one while the device waits, cut and clamped at 8 MiB. A REFCLK that is
absent at step 3 of DAWN enters SAFE, and a later loss is an internal fault of a cause that the spec does not number (log 143; R627, R630,
R632 to R634, R642, R643). -/
def Obligations.StartUp : Prop :=
  ∀ (s : State),
    (s.fresh.regs = State.reset.regs ∧ s.fresh.dev = DAWN ∧ s.fresh.sec.gens = s.sec.gens ∧ s.fresh.sec.cert = s.sec.cert ∧
      s.fresh.trim = s.trim ∧ s.fresh.pwr.off = false) ∧
    (s.pwr.off = true → ∀ u : State, u = s.fresh →
      exec .por s = .next (settle { u with pwr := { u.pwr with held := s.pwr.held } })) ∧
    (s.pwr.off = false → exec .por s = .next (settle s)) ∧
    (∀ u : State, u = s.fresh →
      exec .vsupFail s = .next (settle { u with pwr := { u.pwr with off := true, held := s.pwr.held } })) ∧
    (s.pwr.held = true → exec .rstN s = .next (settle s)) ∧
    (s.pwr.held = false → s.pwr.off = true → exec .rstN s = .next (settle { s with pwr := { s.pwr with held := true } })) ∧
    (∀ u : State, s.pwr.held = false → s.pwr.off = false →
      u = ((({ s.fresh with regs := regResetSys s.regs } : State).p PWR_RSTCAUSE_prev [] s.dev).p PWR_RSTCAUSE_cause [] 1) →
      exec .rstN s = .next (settle { u with pwr := { u.pwr with held := true } })) ∧
    exec .rstNRelease s = .next (settle { s with pwr := { s.pwr with held := false } }) ∧
    (s.Runs → ∀ v t, t = s.wr 0x10120 (s.rd 0x10120) →
      (bits v 15 0 = 0xD15A → exec (.pwrReset v) s = .next (settle
        ((({ t.fresh with regs := regResetSys t.regs } : State).p PWR_RSTCAUSE_prev [] t.dev).p PWR_RSTCAUSE_cause [] 2))) ∧
      (bits v 15 0 ≠ 0xD15A → exec (.pwrReset v) s = .next (settle t))) ∧
    (s.Runs → exec .vsupLow s = .next (settle (s.flag PWR 9))) ∧
    (s.Runs →
      (s.dev = DAWN → s.pwr.otp = false → exec .refclkLoss s = .next (settle (s.enterSafe 3))) ∧
      (s.dev ≠ DAWN ∨ s.pwr.otp = true → exec .refclkLoss s = .next (settle
        (({ s with free := s.free + 1 } : State).internalFault (1 + (Config.freeWord s.free).toNat % 5) MER))) ∧
      (∀ d buf, s.dev ≠ DAWN ∨ s.pwr.waits = false → exec (.pwrBoot d buf) s = .next (settle ((s.open_ d).complete d OP_PWR_BOOT ST_NOT_NOW))) ∧
      (∀ d buf, s.dev = DAWN → s.pwr.waits = true →
        (s.pwr.boot ≠ none → exec (.pwrBoot d buf) s = .next (settle ((s.open_ d).complete d OP_PWR_BOOT ST_BUSY))) ∧
        (∀ u : State, s.pwr.boot = none → u = (s.open_ d).clampDesc d 4 (b2n (decide (8388608 < d.len.toNat))) →
          exec (.pwrBoot d buf) s = .next (settle
            { u with pwr := { u.pwr with boot := some (d, buf.take (min d.len.toNat 8388608)) } }))) ∧
      (∀ t f, t = s.dawnOtp → t.dev ≠ DAWN → exec (.bootImageChecked f) s = .next (settle t)) ∧
      (∀ t : State, t = s.dawnOtp → t.dev = DAWN →
        (∀ f d img (u : State) c v, t.pwr.boot = some (d, img) → u = { t with pwr := { t.pwr with boot := none } } →
          u.bootCheck img img.length = (c, v) →
          exec (.bootImageChecked f) s = .next (settle (if c = 0
            then ((u.bootRecord img 0 v true).complete d OP_PWR_BOOT ST_DONE).dawnExit img
            else (u.bootRecord img c v true).completeWith { compOf d OP_PWR_BOOT ST_AUTH_FAIL with b := c }))) ∧
        (∀ f, t.pwr.boot = none → t.pwr.waits = true → exec (.bootImageChecked f) s = .next (settle t)) ∧
        (t.pwr.boot = none → t.pwr.waits = false →
          (exec (.bootImageChecked none) s = .next (settle (({ t with pwr := { t.pwr with waits := true } } : State).flag PWR 11))) ∧
          (∀ img c v, t.bootCheck img img.length = (c, v) →
            exec (.bootImageChecked (some img)) s = .next (settle (if c = 0 then (t.bootRecord img 0 v false).dawnExit img
              else (t.bootRecord img c v false).bootWait))))))

/-- Device states: PWR_STATE, with a state out of range clamped, is NOT_NOW, without effect, entered at once, or waits for its frame, by
the table of its states, and an accepted one supersedes one that waits; a presented wake source leaves NIGHT, and only there; a device
that went to DUSK by the thermal warning returns 10 s after its end, and not before; a die at 165 °C enters SAFE with cause 4, and
150 °C raises source 225, which falls below it; the measured VCORE and the pace follow their sensors, and in adaptive mode the set
point is the controller's, free within its range (R629, R634 to R641). -/
def Obligations.PowerStates : Prop :=
  ∀ (s : State), s.Runs →
    (∀ d c t, c = bits d.b 2 0 → t = (if c < 2 then 2 else min c 6) →
      ∀ w u : State, w = ((s.open_ d).clampDesc d 24 (b2n (decide (t ≠ c)))).dropWant → u = { w with pwr := { w.pwr with dusk := false } } →
      (s.dev = DAWN ∨ (s.dev = SAFE ∧ t ≠ SAFE) ∨ (s.dev = NIGHT ∧ t ≠ NIGHT ∧ t ≠ MORNING) ∨
          (t = NIGHT ∧ s.dev ≠ NIGHT ∧ s.dev ≠ MORNING) ∨
          (s.dev = MORNING ∧ s.moveNotNow = true ∧ (t = NOON ∨ t = DUSK)) ∨ (s.on TST_JTAG_bscan = true ∧ (t = NOON ∨ t = DUSK)) →
        exec (.pwrState d) s = .next (settle ((s.open_ d).complete d OP_PWR_STATE ST_NOT_NOW))) ∧
      (s.dev ≠ DAWN → s.on TST_JTAG_bscan = false ∨ (t ≠ NOON ∧ t ≠ DUSK) → s.dev = t →
        exec (.pwrState d) s = .next (settle (u.complete d OP_PWR_STATE ST_DONE))) ∧
      (s.dev ≠ DAWN → s.dev ≠ SAFE → s.dev ≠ NIGHT → t = SAFE →
        exec (.pwrState d) s = .next (settle ((u.enterSafe 5).complete d OP_PWR_STATE ST_DONE))) ∧
      (s.dev = MORNING → t = NIGHT → exec (.pwrState d) s = .next (settle (u.enterNight.complete d OP_PWR_STATE ST_DONE))) ∧
      (s.dev = NIGHT → t = MORNING → exec (.pwrState d) s = .next (settle ((u.enter 2).complete d OP_PWR_STATE ST_DONE))) ∧
      (s.on TST_JTAG_bscan = false → (s.dev = MORNING ∧ s.moveNotNow = false ∧ (t = NOON ∨ t = DUSK)) ∨
          (s.dev = NOON ∧ (t = MORNING ∨ t = DUSK)) ∨ (s.dev = DUSK ∧ (t = MORNING ∨ t = NOON)) →
        exec (.pwrState d) s = .next (settle { u with pwr := { u.pwr with want := some (d, t) } }))) ∧
    (s.dev = NIGHT → (∃ n < 256, s.presented n = true ∧ s.on ICU_SRC_wake [n] = true) → exec .wake s = .next (settle s.wakeUp)) ∧
    (s.dev ≠ NIGHT ∨ (∀ n < 256, s.presented n = true → s.on ICU_SRC_wake [n] = false) → exec .wake s = .next (settle s)) ∧
    (s.dev = DUSK → s.pwr.dusk = true → s.icu.level.getLsbD 225 = false → oneSec * 10 ≤ s.since s.pwr.coolAt → ∀ u : State, u = s.goto NOON →
      exec .duskReturn s = .next (settle { u with pwr := { u.pwr with auto := false, dusk := false } })) ∧
    (s.dev ≠ DUSK ∨ s.pwr.dusk = false ∨ s.icu.level.getLsbD 225 = true ∨ s.since s.pwr.coolAt < oneSec * 10 →
      exec .duskReturn s = .next (settle s)) ∧
    (∀ dig ana io vs l u, l = [s.trimTemp 0 dig, s.trimTemp 1 ana, s.trimTemp 2 io] →
      u = ((((s.p PWR_TEMP_dig [] (kelvin (s.trimTemp 0 dig))).p PWR_TEMP_ana [] (kelvin (s.trimTemp 1 ana))).p PWR_TEMP_io []
        (kelvin (s.trimTemp 2 io))).p PWR_VSUP_mv [] (min vs 65535)) →
      ((∀ t ∈ l, t < 150000) → exec (.temperatureMeasure dig ana io vs) s = .next (settle (u.thermal false))) ∧
      ((∃ t ∈ l, 165000 ≤ t) → exec (.temperatureMeasure dig ana io vs) s = .next (settle ((u.thermal true).enterSafe 4))) ∧
      ((∀ t ∈ l, t < 165000) → (∃ t ∈ l, 150000 ≤ t) → exec (.temperatureMeasure dig ana io vs) s = .next (settle (u.thermal true)))) ∧
    (∀ hot (u : State), u = s.setLevel 225 hot →
      (s.icu.level.getLsbD 225 = hot → s.thermal hot = s) ∧
      (s.icu.level.getLsbD 225 = !hot → hot = false ∨ s.dev ≠ NOON ∨ s.on PWR_CFG_tdusk = false →
        s.thermal hot = { u with pwr := { u.pwr with coolAt := s.mer.cyc } })) ∧
    (∀ mv, exec (.vcoreConfirm mv) s = .next (settle (s.p PWR_VSTAT_meas [] (min mv 1023)).vUpdate)) ∧
    (∀ n v u w, v = min n 65535 → u = ((s.p PWR_PACE_last [] v).p PWR_PACE_min [] (min v (s.g PWR_PACE_min))) →
      w = (if v < s.g PWR_CFG_pmin then u.flag PWR 10 else u) →
      (s.on PWR_VCFG_mode = true ∨ s.inSt [MORNING, NOON] = false → exec (.paceMeasure n) s = .next (settle w)) ∧
      (s.on PWR_VCFG_mode = false → s.inSt [MORNING, NOON] = true → exec (.paceMeasure n) s = .next (settle
        (({ w with free := w.free + 1 } : State).p PWR_VSTAT_setp [] (min (max (Config.adaptive w.free) 650) 900)))))

/-! ### Faults and test -/

/-- Faults: an internal fault records its cause and block the first time, counts every time, raises its flag and enters SAFE with
cause 1; the scrubber counts what it corrects, and an error it cannot correct is an internal fault except in the Cistern; a
block that is no stage of the class-S path is reset and recorded when it stalls; TST_OPND gives a slot in TEST mode its operands for the next
frame, a PIOC slot at once, and is NOT_NOW otherwise. TST_MSUB is not-now on a member; accepted, its enable
makes free-run the source and its quality the reported one, and its end gives both back (R646, R650 to R654). -/
def Obligations.FaultContainment : Prop :=
  ∀ (s : State), s.Runs →
    ((∀ io : Bool, exec (.interdieStall io) s = .next (settle (s.internalFault 3 (if io = true then FIO else AFE)))) ∧
      (∀ k : Fin 3, exec (.classSStall k) s = .next (settle (s.internalFault 4 (PHE + k.val)))) ∧
      (∀ blk : Fin 21, blk.val ≠ CIS → exec (.scrub 2 blk) s = .next (settle (s.internalFault 1 blk)))) ∧
    (∀ c b, (∃ io : Bool, c = Instr.interdieStall io ∧ b = (3, if io = true then FIO else AFE)) ∨
        (∃ k : Fin 3, c = Instr.classSStall k ∧ b = (4, PHE + k.val)) ∨
        (∃ blk : Fin 21, blk.val ≠ CIS ∧ c = Instr.scrub 2 blk ∧ b = (1, blk.val)) →
      (s.pwr.faulted = false → ∀ u : State, u = (((s.cnt TST_FLT_count).p TST_FLT_cause [] b.1).p TST_FLT_blk [] b.2) →
        exec c s = .next (settle ((({ u with pwr := { u.pwr with faulted := true } } : State).flag TST 8).enterSafe 1))) ∧
      (s.pwr.faulted = true → exec c s = .next (settle ((s.cnt TST_FLT_count).enterSafe 1)))) ∧
    (∀ mv, s.anyS = true → mv < 700 → ∀ u : State, u = (s.p PWR_VSTAT_meas [] mv).vUpdate → u.pwr.faulted = true →
      exec (.vcoreLow mv) s = .next (settle ((u.cnt TST_FLT_count).enterSafe 1))) ∧
    (∀ mv, s.anyS = true → mv < 700 → ∀ u v : State, u = (s.p PWR_VSTAT_meas [] mv).vUpdate → s.pwr.faulted = false →
      v = ((u.cnt TST_FLT_count).p TST_FLT_cause [] 5).p TST_FLT_blk [] PWR →
      exec (.vcoreLow mv) s = .next (settle ((({ v with pwr := { v.pwr with faulted := true } } : State).flag TST 8).enterSafe 1))) ∧
    (∀ mv, s.anyS = false ∨ 700 ≤ mv → exec (.vcoreLow mv) s = .next (settle s)) ∧
    (∀ blk : Fin 21, exec (.scrub 0 blk) s = .next (settle s) ∧
      exec (.scrub 1 blk) s = .next (settle ((s.cnt TST_ECC_ce).flag TST 9)) ∧
      (blk.val = CIS → exec (.scrub 2 blk) s = .next (settle ((s.cnt TST_ECC_cue).flag TST 10)))) ∧
    (∀ blk : Fin 21, (blk.val ∉ [PHE, ELE, TMX] → exec (.blockStall blk) s = .next (settle
        ((((s.blkReset blk).cnt TST_STALL_count).p TST_STALL_blk [] blk).flag TST 11))) ∧
      (blk.val ∈ [PHE, ELE, TMX] → exec (.blockStall blk) s = .next (settle s))) ∧
    (∀ d buf n, n = d.rf.toNat % 256 →
      (s.inSt [DAWN, NIGHT] = true ∨ (s.slot n).mode ≠ M_TEST →
        exec (.tstOpnd d buf) s = .next (settle ((s.open_ d).complete d 0x0901 ST_NOT_NOW))) ∧
      (∀ k u, s.inSt [DAWN, NIGHT] = false → (s.slot n).mode = M_TEST → k = (s.liveOps (s.slot n) s.dch.frame.words).length →
        u = (s.open_ d).clampDesc d 8 (b2n (decide (leAt buf 4 2 ≠ k))) →
        ∀ v w, v = (List.range k).map (fun i => (BitVec.ofNat 32 (leAt buf (16 + 8 * i) 4), leAt buf (22 + 8 * i) 1)) →
          w = (if (s.slot n).typ = T_PIOC then u.putSlot n { u.slot n with subst := some v } else u) →
          exec (.tstOpnd d buf) s = .next (settle { w with ele := { w.ele with opnds := w.ele.opnds ++ [(n, d, v)] } }))) ∧
    (∀ v : Word, s.isMember = true → exec (.tstMsub v) s = .next (settle (s.notNow 0x140110))) ∧
    (∀ (v : Word) r w, s.isMember = false → findReg 0x140110 = some (r, []) → w = s.depClamp 0x140110 [] (clampStatic r.fields v) →
      exec (.tstMsub v) s = .next (settle
        (((s.wr 0x140110 (storeWord r.fields (s.rd 0x140110) v w)).clampReg 0x140110 (clampTotal 0x140110 r.fields v w)).msubWritten
          (s.rd 0x140110) w))) ∧
    (∀ (old w : Word),
      (w.msb = false → old.msb = false → s.msubWritten old w = s) ∧
      (w.msb = true → old.msb = true →
        (s.g MER_STAT_tq = bits w 1 0 → s.msubWritten old w = s) ∧
        (s.g MER_STAT_tq ≠ bits w 1 0 → s.msubWritten old w = (s.p MER_STAT_tq [] (bits w 1 0)).flag MER 9)) ∧
      (w.msb = true → old.msb = false → ∀ t u : State, t = (s.p MER_STAT_active [] 11).flag MER 8 →
        u = { t with mer := { t.mer with switched := true, lockCnt := 0, outCnt := 0 } } →
        s.msubWritten old w = if u.g MER_STAT_tq = bits w 1 0 then u else (u.p MER_STAT_tq [] (bits w 1 0)).flag MER 9) ∧
      (w.msb = false → old.msb = true → ∀ q t u : State,
        q = (if s.g MER_STAT_tq = TQ_FREE then s else (s.p MER_STAT_tq [] TQ_FREE).flag MER 9) →
        t = (q.p MER_STAT_active [] s.bestSrc).flag MER 8 → u = { t with mer := { t.mer with switched := true, lockCnt := 0, outCnt := 0 } } →
        s.msubWritten old w = u))

/-- The identification register holds the revision digit, 16#4832 in [27:12], 16#2D3 in [11:1] and 1 in [0], and IDCODE selects it; BYPASS and
SAMPLE/PRELOAD load in every state; the other instructions load while bscan is 1, and act as BYPASS while it is 0; those that
select the boundary register leave free values in it (log 89); an EXTEST that takes the PCI Express lanes takes the host link down (R655, R656, R658). -/
def Obligations.TestPort : Prop :=
  (bits idWord 31 28 = Config.revDigit.toNat % 16 ∧ bits idWord 27 12 = 0x4832 ∧ bits idWord 11 1 = 0x2D3 ∧ bits idWord 0 0 = 1 ∧
    (Config.revDigit.toNat = 2 → idWord = 0x248325A7)) ∧
  ∀ (s : State), s.Runs →
    exec .bypass s = .next (settle (s.p TST_JTAG_ir [] 0x1F)) ∧
    (∀ u : State, u = s.p TST_JTAG_ir [] 0x02 → exec .samplePreload s = .next (settle { u with
      free := s.free + 1, pwr := { u.pwr with boundary := Config.scan s.free } })) ∧
    (∀ u : State, u = s.p TST_JTAG_ir [] 0x01 → exec .idcode s = .next (settle { u with pwr := { u.pwr with dr := idWord } })) ∧
    (s.on TST_JTAG_bscan = true →
      exec .fieldClamp s = .next (settle (s.p TST_JTAG_ir [] 0x04)) ∧
      exec .highz s = .next (settle (s.p TST_JTAG_ir [] 0x05)) ∧
      (∀ u : State, u = s.p TST_JTAG_ir [] 0x06 → exec .extestPulse s = .next (settle { u with
        free := s.free + 1, pwr := { u.pwr with boundary := Config.scan s.free } })) ∧
      (∀ u : State, u = s.p TST_JTAG_ir [] 0x07 → exec .extestTrain s = .next (settle { u with
        free := s.free + 1, pwr := { u.pwr with boundary := Config.scan s.free } })) ∧
      (∀ k c, (k, c) ∈ [(0x00, Instr.extest false), (0x06, .extestPulse), (0x07, .extestTrain)] → ∀ u : State, u = s.p TST_JTAG_ir [] k →
        exec c s = .next (settle { u with free := s.free + 1, pwr := { u.pwr with boundary := Config.scan s.free } })) ∧
      (∀ u : State, u = s.p TST_JTAG_ir [] 0x00 → exec (.extest true) s = .next (settle
        (({ u with free := s.free + 1, pwr := { u.pwr with boundary := Config.scan s.free } } : State).p HIF_LINK []
          (b2n (s.on HIF_LINK_d3) * 1024 + b2n (s.on HIF_LINK_bme) * 512))))) ∧
    (s.on TST_JTAG_bscan = false →
      ∀ c ∈ [Instr.fieldClamp, .highz, .extestPulse, .extestTrain, .extest false, .extest true],
        exec c s = .next (settle (s.p TST_JTAG_ir [] 0x1F)))
end

