-- ==== Sys2Proof/Laws/Registers.lean ====
section
/-! SUPPORT. The register file: what is read after a store, and that every store and reset keeps the canonical form; the fields of a word. -/

namespace Sys2Proof.Machine

/-! ### Reading after a store -/

theorem regFind_regDrop_other {o a : Nat} (h : a ≠ o) : (f : RegFile) → regFind (regDrop o f) a = regFind f a
  | [] => rfl
  | (b, w) :: t => by
    by_cases hb : b = o
    · have hne : o ≠ a := fun e => h e.symm
      simp [regDrop, regFind, hb, hne, regFind_regDrop_other h t]
    · simp [regDrop, regFind, hb, regFind_regDrop_other h t]

theorem regFind_regDrop_same (o : Nat) : (f : RegFile) → regFind (regDrop o f) o = resetOf o
  | [] => rfl
  | (b, w) :: t => by
    by_cases hb : b = o <;> simp [regDrop, regFind, hb, regFind_regDrop_same o t]

theorem regFind_regInsert (o : Nat) (v : Word) (a : Nat) (f : RegFile) (hd : ∀ e ∈ f, e.1 ≠ o) :
    regFind (regInsert o v f) a = if o = a then v else regFind f a := by
  induction f with
  | nil => simp [regInsert, regFind]
  | cons e t ih =>
    obtain ⟨b, w⟩ := e
    have hb : b ≠ o := hd (b, w) (by simp)
    have ht := ih fun e he => hd e (by simp [he])
    by_cases hlt : o < b
    · simp [regInsert, regFind, hlt]
    · by_cases hba : b = a
      · subst hba
        simp [regInsert, regFind, hlt, hb.symm]
      · simp [regInsert, regFind, hlt, hba, ht]

theorem regDrop_ne (o : Nat) : (f : RegFile) → ∀ e ∈ regDrop o f, e.1 ≠ o
  | [], _, he => by simp [regDrop] at he
  | (b, w) :: t, e, he => by
    by_cases hb : b = o
    · exact regDrop_ne o t e (by simpa [regDrop, hb] using he)
    · rcases (by simpa [regDrop, hb] using he : e = (b, w) ∨ e ∈ regDrop o t) with rfl | h
      · exact hb
      · exact regDrop_ne o t e h

/-- Reading a register after a store: the stored value at its offset, the value before elsewhere. -/
theorem regFind_regSet (f : RegFile) (o : Nat) (v : Word) (a : Nat) :
    regFind (regSet f o v) a = if o = a then v else regFind f a := by
  unfold regSet
  split
  · next h =>
    split
    · next e => subst e; rw [regFind_regDrop_same, h]
    · next e => exact regFind_regDrop_other (fun x => e x.symm) f
  · rw [regFind_regInsert o v a _ (regDrop_ne o f)]
    split
    · rfl
    · next e => exact regFind_regDrop_other (fun x => e x.symm) f

/-! ### The canonical form -/

/-- A bound below every offset of a file, and the canonical form of its rest. -/
theorem regWf_cons (a : Nat) (w : Word) (t : RegFile) :
    regWf ((a, w) :: t) = true ↔ w ≠ resetOf a ∧ (∀ e ∈ t, a < e.1) ∧ regWf t = true := by
  induction t generalizing a w with
  | nil => simp [regWf]
  | cons e t ih =>
    obtain ⟨b, v⟩ := e
    have hb := ih b v
    constructor
    · intro h
      simp only [regWf, Bool.and_eq_true, bne_iff_ne, decide_eq_true_eq] at h
      obtain ⟨⟨h1, h2⟩, h3⟩ := h
      refine ⟨h1, ?_, h3⟩
      intro e he
      rcases List.mem_cons.mp he with rfl | he
      · exact h2
      · exact Nat.lt_trans h2 ((hb.mp h3).2.1 e he)
    · rintro ⟨h1, h2, h3⟩
      simp only [regWf, Bool.and_eq_true, bne_iff_ne, decide_eq_true_eq]
      exact ⟨⟨h1, h2 (b, v) (by simp)⟩, h3⟩

theorem mem_regDrop {o : Nat} {e : Nat × Word} : (f : RegFile) → e ∈ regDrop o f → e ∈ f
  | [], he => by simp [regDrop] at he
  | (b, w) :: t, he => by
    by_cases hb : b = o
    · exact List.mem_cons_of_mem _ (mem_regDrop t (by simpa [regDrop, hb] using he))
    · rcases (by simpa [regDrop, hb] using he : e = (b, w) ∨ e ∈ regDrop o t) with rfl | h
      · simp
      · exact List.mem_cons_of_mem _ (mem_regDrop t h)

theorem regWf_regDrop (o : Nat) : (f : RegFile) → regWf f = true → regWf (regDrop o f) = true
  | [], _ => rfl
  | (b, w) :: t, h => by
    obtain ⟨h1, h2, h3⟩ := (regWf_cons b w t).mp h
    by_cases hb : b = o
    · simpa [regDrop, hb] using regWf_regDrop o t h3
    · simp only [regDrop, hb, if_false]
      exact (regWf_cons b w _).mpr ⟨h1, fun e he => h2 e (mem_regDrop t he), regWf_regDrop o t h3⟩

theorem mem_regInsert {o : Nat} {v : Word} {e : Nat × Word} : (f : RegFile) → e ∈ regInsert o v f → e = (o, v) ∨ e ∈ f
  | [], he => by simpa [regInsert] using he
  | (b, w) :: t, he => by
    by_cases hlt : o < b
    · simpa [regInsert, hlt] using he
    · rcases (by simpa [regInsert, hlt] using he : e = (b, w) ∨ e ∈ regInsert o v t) with rfl | h
      · simp
      · rcases mem_regInsert t h with h | h
        · exact .inl h
        · exact .inr (List.mem_cons_of_mem _ h)

theorem regWf_regInsert (o : Nat) (v : Word) (hv : v ≠ resetOf o) : (f : RegFile) → (∀ e ∈ f, e.1 ≠ o) → regWf f = true →
    regWf (regInsert o v f) = true
  | [], _, _ => by simp [regInsert, regWf, hv]
  | (b, w) :: t, hd, h => by
    obtain ⟨h1, h2, h3⟩ := (regWf_cons b w t).mp h
    have hb : b ≠ o := hd (b, w) (by simp)
    by_cases hlt : o < b
    · simp only [regInsert, hlt, if_true]
      refine (regWf_cons o v _).mpr ⟨hv, ?_, h⟩
      intro e he
      rcases List.mem_cons.mp he with rfl | he
      · exact hlt
      · exact Nat.lt_trans hlt (h2 e he)
    · simp only [regInsert, hlt, if_false]
      refine (regWf_cons b w _).mpr ⟨h1, ?_, regWf_regInsert o v hv t (fun e he => hd e (by simp [he])) h3⟩
      intro e he
      rcases mem_regInsert t he with rfl | he
      · exact Nat.lt_of_le_of_ne (Nat.le_of_not_lt hlt) hb
      · exact h2 e he

/-- A store keeps the canonical form of the register file. -/
theorem regWf_regSet (f : RegFile) (o : Nat) (v : Word) (h : regWf f = true) : regWf (regSet f o v) = true := by
  unfold regSet
  split
  · exact regWf_regDrop o f h
  · next hv => exact regWf_regInsert o v hv _ (regDrop_ne o f) (regWf_regDrop o f h)

/-- A reset of a part of the registers keeps the canonical form. -/
theorem regWf_filter (p : Nat × Word → Bool) : (f : RegFile) → regWf f = true → regWf (f.filter p) = true
  | [], _ => rfl
  | (b, w) :: t, h => by
    obtain ⟨h1, h2, h3⟩ := (regWf_cons b w t).mp h
    have ht := regWf_filter p t h3
    by_cases hp : p (b, w)
    · simp only [List.filter_cons, hp, if_true]
      exact (regWf_cons b w _).mpr ⟨h1, fun e he => h2 e (List.mem_filter.mp he).1, ht⟩
    · simpa [List.filter_cons, hp] using ht

theorem regWf_regResetBlk (f : RegFile) (blk : Nat) (h : regWf f = true) : regWf (regResetBlk f blk) = true :=
  regWf_filter _ f h

theorem regWf_regResetSys (f : RegFile) (h : regWf f = true) : regWf (regResetSys f) = true := regWf_filter _ f h

/-! ### The registers of a state -/

theorem State.wr_rd (s : State) (o : Nat) (v : Word) (a : Nat) : (s.wr o v).rd a = if o = a then v else s.rd a :=
  regFind_regSet s.regs o v a

theorem State.p_rd (s : State) (f : Fld) (ix : List Nat) (v a : Nat) :
    (s.p f ix v).rd a = if fldOff f ix = a then setBits (s.rd a) f.hi f.lo v else s.rd a := by
  rw [State.p, State.wr_rd]
  split
  · next h => rw [h]
  · rfl

theorem State.cnt_rd (s : State) (f : Fld) (ix : List Nat) (n a : Nat) :
    (s.cnt f ix n).rd a =
      if fldOff f ix = a then setBits (s.rd a) f.hi f.lo (min (s.g f ix + n) (2 ^ (f.hi + 1 - f.lo) - 1)) else s.rd a :=
  State.p_rd s f ix _ a

/-! ### The fields of a word -/

/-- A number with the field of width k from bit lo replaced, as the sum of its three parts. -/
theorem putField_split (w k lo v : Nat) :
    w - w / 2 ^ lo % 2 ^ k * 2 ^ lo + v % 2 ^ k * 2 ^ lo
      = w / 2 ^ (lo + k) * 2 ^ (lo + k) + (v % 2 ^ k * 2 ^ lo + w % 2 ^ lo) := by
  have h1 : w = w / 2 ^ lo * 2 ^ lo + w % 2 ^ lo := by rw [Nat.mul_comm]; exact (Nat.div_add_mod w (2 ^ lo)).symm
  have h2 : w / 2 ^ lo = w / 2 ^ (lo + k) * 2 ^ k + w / 2 ^ lo % 2 ^ k := by
    rw [Nat.pow_add, ← Nat.div_div_eq_div_mul, Nat.mul_comm]
    exact (Nat.div_add_mod _ _).symm
  have h3 : w / 2 ^ lo * 2 ^ lo = w / 2 ^ (lo + k) * 2 ^ (lo + k) + w / 2 ^ lo % 2 ^ k * 2 ^ lo := by
    conv => lhs; rw [h2]
    rw [Nat.add_mul, Nat.mul_assoc, ← Nat.pow_add, Nat.add_comm k lo]
  omega

theorem low_lt (w k lo v : Nat) : v % 2 ^ k * 2 ^ lo + w % 2 ^ lo < 2 ^ (lo + k) := by
  have h1 : w % 2 ^ lo < 2 ^ lo := Nat.mod_lt _ (Nat.two_pow_pos lo)
  have h2 : v % 2 ^ k + 1 ≤ 2 ^ k := Nat.mod_lt _ (Nat.two_pow_pos k)
  have h3 : (v % 2 ^ k + 1) * 2 ^ lo ≤ 2 ^ k * 2 ^ lo := Nat.mul_le_mul_right _ h2
  rw [Nat.pow_add, Nat.mul_comm (2 ^ lo)]
  rw [Nat.add_mul] at h3
  omega

theorem putField_lt (w k lo v : Nat) (hw : w < 2 ^ 32) (h : lo + k ≤ 32) :
    w / 2 ^ (lo + k) * 2 ^ (lo + k) + (v % 2 ^ k * 2 ^ lo + w % 2 ^ lo) < 2 ^ 32 := by
  have h1 := low_lt w k lo v
  have h2 : w / 2 ^ (lo + k) + 1 ≤ 2 ^ (32 - (lo + k)) := by
    apply Nat.div_lt_of_lt_mul
    rw [← Nat.pow_add]
    rwa [show lo + k + (32 - (lo + k)) = 32 by omega]
  have h3 := Nat.mul_le_mul_right (2 ^ (lo + k)) h2
  rw [← Nat.pow_add, show 32 - (lo + k) + (lo + k) = 32 by omega, Nat.add_mul] at h3
  omega

theorem setBits_toNat (w : Word) (hi lo v : Nat) (h1 : lo ≤ hi) (h2 : hi < 32) :
    (setBits w hi lo v).toNat
      = w.toNat / 2 ^ (hi + 1) * 2 ^ (hi + 1) + (v % 2 ^ (hi + 1 - lo) * 2 ^ lo + w.toNat % 2 ^ lo) := by
  have e : lo + (hi + 1 - lo) = hi + 1 := by omega
  unfold setBits
  rw [BitVec.toNat_ofNat, putField_split w.toNat (hi + 1 - lo) lo v, e, Nat.mod_eq_of_lt]
  have := putField_lt w.toNat (hi + 1 - lo) lo v w.isLt (by omega)
  rwa [e] at this

/-- Bit i of a word after a field has been put into it. -/
theorem setBits_testBit (w : Word) (hi lo v i : Nat) (h1 : lo ≤ hi) (h2 : hi < 32) :
    (setBits w hi lo v).toNat.testBit i = if lo ≤ i ∧ i ≤ hi then v.testBit (i - lo) else w.toNat.testBit i := by
  have hl := low_lt w.toNat (hi + 1 - lo) lo v
  rw [show lo + (hi + 1 - lo) = hi + 1 by omega] at hl
  have hB : w.toNat % 2 ^ lo < 2 ^ lo := Nat.mod_lt _ (Nat.two_pow_pos lo)
  rw [setBits_toNat w hi lo v h1 h2, Nat.mul_comm (w.toNat / _), Nat.testBit_two_pow_mul_add _ hl,
    Nat.mul_comm (v % _), Nat.testBit_two_pow_mul_add _ hB]
  by_cases ha : i < hi + 1
  · by_cases hb : i < lo
    · simp [ha, hb, Nat.testBit_mod_two_pow, show ¬ (lo ≤ i ∧ i ≤ hi) by omega]
    · simp [ha, hb, Nat.testBit_mod_two_pow, show lo ≤ i ∧ i ≤ hi by omega, show i - lo < hi + 1 - lo by omega]
  · simp [ha, Nat.testBit_div_two_pow, show ¬ (lo ≤ i ∧ i ≤ hi) by omega, show i - (hi + 1) + (hi + 1) = i by omega]

theorem bits_testBit (w : Word) (hi lo i : Nat) :
    (bits w hi lo).testBit i = (decide (i < hi + 1 - lo) && w.toNat.testBit (i + lo)) := by
  rw [bits, Nat.testBit_mod_two_pow, Nat.testBit_div_two_pow]

/-- A field reads what has been put into it, cut at its width. -/
theorem bits_setBits (w : Word) (hi lo v : Nat) (h1 : lo ≤ hi) (h2 : hi < 32) :
    bits (setBits w hi lo v) hi lo = v % 2 ^ (hi + 1 - lo) := by
  refine Nat.eq_of_testBit_eq fun i => ?_
  rw [bits_testBit, setBits_testBit w hi lo v _ h1 h2, Nat.testBit_mod_two_pow]
  by_cases hi' : i < hi + 1 - lo
  · simp [hi', show lo ≤ i + lo ∧ i + lo ≤ hi by omega]
  · simp [hi']

/-- A field keeps its value when another one is put into the word. -/
theorem bits_setBits_other (w : Word) (hi lo v a b : Nat) (h1 : lo ≤ hi) (h2 : hi < 32) (h : hi < b ∨ a < lo) :
    bits (setBits w hi lo v) a b = bits w a b := by
  refine Nat.eq_of_testBit_eq fun i => ?_
  rw [bits_testBit, bits_testBit, setBits_testBit w hi lo v _ h1 h2]
  by_cases hi' : i < a + 1 - b
  · simp [show ¬ (lo ≤ i + b ∧ i + b ≤ hi) by omega]
  · simp [hi']

end Sys2Proof.Machine
end

