-- ==== Sys2Proof/Laws/State.lean ====
section
/-! SUPPORT. One lemma for each field of the state and each named operation that leaves it alone. -/

namespace Sys2Proof.Machine

/-! ### State.wr -/

@[simp] theorem State.wr_mer (s : State) (o : Nat) (v : Word) : (s.wr o v).mer = s.mer := by cases s; rfl
@[simp] theorem State.wr_sa (s : State) (o : Nat) (v : Word) : (s.wr o v).sa = s.sa := by cases s; rfl
@[simp] theorem State.wr_icu (s : State) (o : Nat) (v : Word) : (s.wr o v).icu = s.icu := by cases s; rfl
@[simp] theorem State.wr_hif (s : State) (o : Nat) (v : Word) : (s.wr o v).hif = s.hif := by cases s; rfl
@[simp] theorem State.wr_cis (s : State) (o : Nat) (v : Word) : (s.wr o v).cis = s.cis := by cases s; rfl
@[simp] theorem State.wr_bcp (s : State) (o : Nat) (v : Word) : (s.wr o v).bcp = s.bcp := by cases s; rfl
@[simp] theorem State.wr_fio (s : State) (o : Nat) (v : Word) : (s.wr o v).fio = s.fio := by cases s; rfl
@[simp] theorem State.wr_afe (s : State) (o : Nat) (v : Word) : (s.wr o v).afe = s.afe := by cases s; rfl
@[simp] theorem State.wr_dch (s : State) (o : Nat) (v : Word) : (s.wr o v).dch = s.dch := by cases s; rfl
@[simp] theorem State.wr_phe (s : State) (o : Nat) (v : Word) : (s.wr o v).phe = s.phe := by cases s; rfl
@[simp] theorem State.wr_sv (s : State) (o : Nat) (v : Word) : (s.wr o v).sv = s.sv := by cases s; rfl
@[simp] theorem State.wr_ele (s : State) (o : Nat) (v : Word) : (s.wr o v).ele = s.ele := by cases s; rfl
@[simp] theorem State.wr_view (s : State) (o : Nat) (v : Word) : (s.wr o v).view = s.view := by cases s; rfl
@[simp] theorem State.wr_tmx (s : State) (o : Nat) (v : Word) : (s.wr o v).tmx = s.tmx := by cases s; rfl
@[simp] theorem State.wr_rcd (s : State) (o : Nat) (v : Word) : (s.wr o v).rcd = s.rcd := by cases s; rfl
@[simp] theorem State.wr_rio (s : State) (o : Nat) (v : Word) : (s.wr o v).rio = s.rio := by cases s; rfl
@[simp] theorem State.wr_sec (s : State) (o : Nat) (v : Word) : (s.wr o v).sec = s.sec := by cases s; rfl
@[simp] theorem State.wr_aux (s : State) (o : Nat) (v : Word) : (s.wr o v).aux = s.aux := by cases s; rfl
@[simp] theorem State.wr_net (s : State) (o : Nat) (v : Word) : (s.wr o v).net = s.net := by cases s; rfl
@[simp] theorem State.wr_tpc (s : State) (o : Nat) (v : Word) : (s.wr o v).tpc = s.tpc := by cases s; rfl
@[simp] theorem State.wr_csc (s : State) (o : Nat) (v : Word) : (s.wr o v).csc = s.csc := by cases s; rfl
@[simp] theorem State.wr_pwr (s : State) (o : Nat) (v : Word) : (s.wr o v).pwr = s.pwr := by cases s; rfl
@[simp] theorem State.wr_trim (s : State) (o : Nat) (v : Word) : (s.wr o v).trim = s.trim := by cases s; rfl
@[simp] theorem State.wr_out (s : State) (o : Nat) (v : Word) : (s.wr o v).out = s.out := by cases s; rfl
@[simp] theorem State.wr_free (s : State) (o : Nat) (v : Word) : (s.wr o v).free = s.free := by cases s; rfl
@[simp] theorem State.wr_pending (s : State) (o : Nat) (v : Word) : (s.wr o v).pending = s.pending := by cases s; rfl

/-! ### State.p -/

@[simp] theorem State.p_mer (s : State) (f : Fld) (ix : List Nat) (v : Nat) : (s.p f ix v).mer = s.mer := by cases s; rfl
@[simp] theorem State.p_sa (s : State) (f : Fld) (ix : List Nat) (v : Nat) : (s.p f ix v).sa = s.sa := by cases s; rfl
@[simp] theorem State.p_icu (s : State) (f : Fld) (ix : List Nat) (v : Nat) : (s.p f ix v).icu = s.icu := by cases s; rfl
@[simp] theorem State.p_hif (s : State) (f : Fld) (ix : List Nat) (v : Nat) : (s.p f ix v).hif = s.hif := by cases s; rfl
@[simp] theorem State.p_cis (s : State) (f : Fld) (ix : List Nat) (v : Nat) : (s.p f ix v).cis = s.cis := by cases s; rfl
@[simp] theorem State.p_bcp (s : State) (f : Fld) (ix : List Nat) (v : Nat) : (s.p f ix v).bcp = s.bcp := by cases s; rfl
@[simp] theorem State.p_fio (s : State) (f : Fld) (ix : List Nat) (v : Nat) : (s.p f ix v).fio = s.fio := by cases s; rfl
@[simp] theorem State.p_afe (s : State) (f : Fld) (ix : List Nat) (v : Nat) : (s.p f ix v).afe = s.afe := by cases s; rfl
@[simp] theorem State.p_dch (s : State) (f : Fld) (ix : List Nat) (v : Nat) : (s.p f ix v).dch = s.dch := by cases s; rfl
@[simp] theorem State.p_phe (s : State) (f : Fld) (ix : List Nat) (v : Nat) : (s.p f ix v).phe = s.phe := by cases s; rfl
@[simp] theorem State.p_sv (s : State) (f : Fld) (ix : List Nat) (v : Nat) : (s.p f ix v).sv = s.sv := by cases s; rfl
@[simp] theorem State.p_ele (s : State) (f : Fld) (ix : List Nat) (v : Nat) : (s.p f ix v).ele = s.ele := by cases s; rfl
@[simp] theorem State.p_view (s : State) (f : Fld) (ix : List Nat) (v : Nat) : (s.p f ix v).view = s.view := by cases s; rfl
@[simp] theorem State.p_tmx (s : State) (f : Fld) (ix : List Nat) (v : Nat) : (s.p f ix v).tmx = s.tmx := by cases s; rfl
@[simp] theorem State.p_rcd (s : State) (f : Fld) (ix : List Nat) (v : Nat) : (s.p f ix v).rcd = s.rcd := by cases s; rfl
@[simp] theorem State.p_rio (s : State) (f : Fld) (ix : List Nat) (v : Nat) : (s.p f ix v).rio = s.rio := by cases s; rfl
@[simp] theorem State.p_sec (s : State) (f : Fld) (ix : List Nat) (v : Nat) : (s.p f ix v).sec = s.sec := by cases s; rfl
@[simp] theorem State.p_aux (s : State) (f : Fld) (ix : List Nat) (v : Nat) : (s.p f ix v).aux = s.aux := by cases s; rfl
@[simp] theorem State.p_net (s : State) (f : Fld) (ix : List Nat) (v : Nat) : (s.p f ix v).net = s.net := by cases s; rfl
@[simp] theorem State.p_tpc (s : State) (f : Fld) (ix : List Nat) (v : Nat) : (s.p f ix v).tpc = s.tpc := by cases s; rfl
@[simp] theorem State.p_csc (s : State) (f : Fld) (ix : List Nat) (v : Nat) : (s.p f ix v).csc = s.csc := by cases s; rfl
@[simp] theorem State.p_pwr (s : State) (f : Fld) (ix : List Nat) (v : Nat) : (s.p f ix v).pwr = s.pwr := by cases s; rfl
@[simp] theorem State.p_trim (s : State) (f : Fld) (ix : List Nat) (v : Nat) : (s.p f ix v).trim = s.trim := by cases s; rfl
@[simp] theorem State.p_out (s : State) (f : Fld) (ix : List Nat) (v : Nat) : (s.p f ix v).out = s.out := by cases s; rfl
@[simp] theorem State.p_free (s : State) (f : Fld) (ix : List Nat) (v : Nat) : (s.p f ix v).free = s.free := by cases s; rfl
@[simp] theorem State.p_pending (s : State) (f : Fld) (ix : List Nat) (v : Nat) : (s.p f ix v).pending = s.pending := by cases s; rfl

/-! ### State.cnt -/

@[simp] theorem State.cnt_mer (s : State) (f : Fld) (ix : List Nat) (n : Nat) : (s.cnt f ix n).mer = s.mer := by cases s; rfl
@[simp] theorem State.cnt_sa (s : State) (f : Fld) (ix : List Nat) (n : Nat) : (s.cnt f ix n).sa = s.sa := by cases s; rfl
@[simp] theorem State.cnt_icu (s : State) (f : Fld) (ix : List Nat) (n : Nat) : (s.cnt f ix n).icu = s.icu := by cases s; rfl
@[simp] theorem State.cnt_hif (s : State) (f : Fld) (ix : List Nat) (n : Nat) : (s.cnt f ix n).hif = s.hif := by cases s; rfl
@[simp] theorem State.cnt_cis (s : State) (f : Fld) (ix : List Nat) (n : Nat) : (s.cnt f ix n).cis = s.cis := by cases s; rfl
@[simp] theorem State.cnt_bcp (s : State) (f : Fld) (ix : List Nat) (n : Nat) : (s.cnt f ix n).bcp = s.bcp := by cases s; rfl
@[simp] theorem State.cnt_fio (s : State) (f : Fld) (ix : List Nat) (n : Nat) : (s.cnt f ix n).fio = s.fio := by cases s; rfl
@[simp] theorem State.cnt_afe (s : State) (f : Fld) (ix : List Nat) (n : Nat) : (s.cnt f ix n).afe = s.afe := by cases s; rfl
@[simp] theorem State.cnt_dch (s : State) (f : Fld) (ix : List Nat) (n : Nat) : (s.cnt f ix n).dch = s.dch := by cases s; rfl
@[simp] theorem State.cnt_phe (s : State) (f : Fld) (ix : List Nat) (n : Nat) : (s.cnt f ix n).phe = s.phe := by cases s; rfl
@[simp] theorem State.cnt_sv (s : State) (f : Fld) (ix : List Nat) (n : Nat) : (s.cnt f ix n).sv = s.sv := by cases s; rfl
@[simp] theorem State.cnt_ele (s : State) (f : Fld) (ix : List Nat) (n : Nat) : (s.cnt f ix n).ele = s.ele := by cases s; rfl
@[simp] theorem State.cnt_view (s : State) (f : Fld) (ix : List Nat) (n : Nat) : (s.cnt f ix n).view = s.view := by cases s; rfl
@[simp] theorem State.cnt_tmx (s : State) (f : Fld) (ix : List Nat) (n : Nat) : (s.cnt f ix n).tmx = s.tmx := by cases s; rfl
@[simp] theorem State.cnt_rcd (s : State) (f : Fld) (ix : List Nat) (n : Nat) : (s.cnt f ix n).rcd = s.rcd := by cases s; rfl
@[simp] theorem State.cnt_rio (s : State) (f : Fld) (ix : List Nat) (n : Nat) : (s.cnt f ix n).rio = s.rio := by cases s; rfl
@[simp] theorem State.cnt_sec (s : State) (f : Fld) (ix : List Nat) (n : Nat) : (s.cnt f ix n).sec = s.sec := by cases s; rfl
@[simp] theorem State.cnt_aux (s : State) (f : Fld) (ix : List Nat) (n : Nat) : (s.cnt f ix n).aux = s.aux := by cases s; rfl
@[simp] theorem State.cnt_net (s : State) (f : Fld) (ix : List Nat) (n : Nat) : (s.cnt f ix n).net = s.net := by cases s; rfl
@[simp] theorem State.cnt_tpc (s : State) (f : Fld) (ix : List Nat) (n : Nat) : (s.cnt f ix n).tpc = s.tpc := by cases s; rfl
@[simp] theorem State.cnt_csc (s : State) (f : Fld) (ix : List Nat) (n : Nat) : (s.cnt f ix n).csc = s.csc := by cases s; rfl
@[simp] theorem State.cnt_pwr (s : State) (f : Fld) (ix : List Nat) (n : Nat) : (s.cnt f ix n).pwr = s.pwr := by cases s; rfl
@[simp] theorem State.cnt_trim (s : State) (f : Fld) (ix : List Nat) (n : Nat) : (s.cnt f ix n).trim = s.trim := by cases s; rfl
@[simp] theorem State.cnt_out (s : State) (f : Fld) (ix : List Nat) (n : Nat) : (s.cnt f ix n).out = s.out := by cases s; rfl
@[simp] theorem State.cnt_free (s : State) (f : Fld) (ix : List Nat) (n : Nat) : (s.cnt f ix n).free = s.free := by cases s; rfl
@[simp] theorem State.cnt_pending (s : State) (f : Fld) (ix : List Nat) (n : Nat) : (s.cnt f ix n).pending = s.pending := by cases s; rfl

/-! ### State.emit -/

@[simp] theorem State.emit_regs (s : State) (e : Emit) : (s.emit e).regs = s.regs := by cases s; rfl
@[simp] theorem State.emit_mer (s : State) (e : Emit) : (s.emit e).mer = s.mer := by cases s; rfl
@[simp] theorem State.emit_sa (s : State) (e : Emit) : (s.emit e).sa = s.sa := by cases s; rfl
@[simp] theorem State.emit_icu (s : State) (e : Emit) : (s.emit e).icu = s.icu := by cases s; rfl
@[simp] theorem State.emit_hif (s : State) (e : Emit) : (s.emit e).hif = s.hif := by cases s; rfl
@[simp] theorem State.emit_cis (s : State) (e : Emit) : (s.emit e).cis = s.cis := by cases s; rfl
@[simp] theorem State.emit_bcp (s : State) (e : Emit) : (s.emit e).bcp = s.bcp := by cases s; rfl
@[simp] theorem State.emit_fio (s : State) (e : Emit) : (s.emit e).fio = s.fio := by cases s; rfl
@[simp] theorem State.emit_afe (s : State) (e : Emit) : (s.emit e).afe = s.afe := by cases s; rfl
@[simp] theorem State.emit_dch (s : State) (e : Emit) : (s.emit e).dch = s.dch := by cases s; rfl
@[simp] theorem State.emit_phe (s : State) (e : Emit) : (s.emit e).phe = s.phe := by cases s; rfl
@[simp] theorem State.emit_sv (s : State) (e : Emit) : (s.emit e).sv = s.sv := by cases s; rfl
@[simp] theorem State.emit_ele (s : State) (e : Emit) : (s.emit e).ele = s.ele := by cases s; rfl
@[simp] theorem State.emit_view (s : State) (e : Emit) : (s.emit e).view = s.view := by cases s; rfl
@[simp] theorem State.emit_tmx (s : State) (e : Emit) : (s.emit e).tmx = s.tmx := by cases s; rfl
@[simp] theorem State.emit_rcd (s : State) (e : Emit) : (s.emit e).rcd = s.rcd := by cases s; rfl
@[simp] theorem State.emit_rio (s : State) (e : Emit) : (s.emit e).rio = s.rio := by cases s; rfl
@[simp] theorem State.emit_sec (s : State) (e : Emit) : (s.emit e).sec = s.sec := by cases s; rfl
@[simp] theorem State.emit_aux (s : State) (e : Emit) : (s.emit e).aux = s.aux := by cases s; rfl
@[simp] theorem State.emit_net (s : State) (e : Emit) : (s.emit e).net = s.net := by cases s; rfl
@[simp] theorem State.emit_tpc (s : State) (e : Emit) : (s.emit e).tpc = s.tpc := by cases s; rfl
@[simp] theorem State.emit_csc (s : State) (e : Emit) : (s.emit e).csc = s.csc := by cases s; rfl
@[simp] theorem State.emit_pwr (s : State) (e : Emit) : (s.emit e).pwr = s.pwr := by cases s; rfl
@[simp] theorem State.emit_trim (s : State) (e : Emit) : (s.emit e).trim = s.trim := by cases s; rfl
@[simp] theorem State.emit_free (s : State) (e : Emit) : (s.emit e).free = s.free := by cases s; rfl
@[simp] theorem State.emit_pending (s : State) (e : Emit) : (s.emit e).pending = s.pending := by cases s; rfl

/-! ### State.transmit -/

@[simp] theorem State.transmit_regs (s : State) (e : Emit) : (s.transmit e).regs = s.regs := by cases s; rfl
@[simp] theorem State.transmit_mer (s : State) (e : Emit) : (s.transmit e).mer = s.mer := by cases s; rfl
@[simp] theorem State.transmit_sa (s : State) (e : Emit) : (s.transmit e).sa = s.sa := by cases s; rfl
@[simp] theorem State.transmit_icu (s : State) (e : Emit) : (s.transmit e).icu = s.icu := by cases s; rfl
@[simp] theorem State.transmit_hif (s : State) (e : Emit) : (s.transmit e).hif = s.hif := by cases s; rfl
@[simp] theorem State.transmit_cis (s : State) (e : Emit) : (s.transmit e).cis = s.cis := by cases s; rfl
@[simp] theorem State.transmit_bcp (s : State) (e : Emit) : (s.transmit e).bcp = s.bcp := by cases s; rfl
@[simp] theorem State.transmit_fio (s : State) (e : Emit) : (s.transmit e).fio = s.fio := by cases s; rfl
@[simp] theorem State.transmit_afe (s : State) (e : Emit) : (s.transmit e).afe = s.afe := by cases s; rfl
@[simp] theorem State.transmit_dch (s : State) (e : Emit) : (s.transmit e).dch = s.dch := by cases s; rfl
@[simp] theorem State.transmit_phe (s : State) (e : Emit) : (s.transmit e).phe = s.phe := by cases s; rfl
@[simp] theorem State.transmit_sv (s : State) (e : Emit) : (s.transmit e).sv = s.sv := by cases s; rfl
@[simp] theorem State.transmit_ele (s : State) (e : Emit) : (s.transmit e).ele = s.ele := by cases s; rfl
@[simp] theorem State.transmit_view (s : State) (e : Emit) : (s.transmit e).view = s.view := by cases s; rfl
@[simp] theorem State.transmit_tmx (s : State) (e : Emit) : (s.transmit e).tmx = s.tmx := by cases s; rfl
@[simp] theorem State.transmit_rcd (s : State) (e : Emit) : (s.transmit e).rcd = s.rcd := by cases s; rfl
@[simp] theorem State.transmit_rio (s : State) (e : Emit) : (s.transmit e).rio = s.rio := by cases s; rfl
@[simp] theorem State.transmit_sec (s : State) (e : Emit) : (s.transmit e).sec = s.sec := by cases s; rfl
@[simp] theorem State.transmit_aux (s : State) (e : Emit) : (s.transmit e).aux = s.aux := by cases s; rfl
@[simp] theorem State.transmit_tpc (s : State) (e : Emit) : (s.transmit e).tpc = s.tpc := by cases s; rfl
@[simp] theorem State.transmit_csc (s : State) (e : Emit) : (s.transmit e).csc = s.csc := by cases s; rfl
@[simp] theorem State.transmit_pwr (s : State) (e : Emit) : (s.transmit e).pwr = s.pwr := by cases s; rfl
@[simp] theorem State.transmit_trim (s : State) (e : Emit) : (s.transmit e).trim = s.trim := by cases s; rfl
@[simp] theorem State.transmit_out (s : State) (e : Emit) : (s.transmit e).out = s.out := by cases s; rfl
@[simp] theorem State.transmit_free (s : State) (e : Emit) : (s.transmit e).free = s.free := by cases s; rfl
@[simp] theorem State.transmit_pending (s : State) (e : Emit) : (s.transmit e).pending = s.pending := by cases s; rfl

/-! ### State.frames -/

@[simp] theorem State.frames_regs (s : State)  : (s.frames).regs = s.regs := by cases s; rfl
@[simp] theorem State.frames_mer (s : State)  : (s.frames).mer = s.mer := by cases s; rfl
@[simp] theorem State.frames_sa (s : State)  : (s.frames).sa = s.sa := by cases s; rfl
@[simp] theorem State.frames_icu (s : State)  : (s.frames).icu = s.icu := by cases s; rfl
@[simp] theorem State.frames_hif (s : State)  : (s.frames).hif = s.hif := by cases s; rfl
@[simp] theorem State.frames_cis (s : State)  : (s.frames).cis = s.cis := by cases s; rfl
@[simp] theorem State.frames_bcp (s : State)  : (s.frames).bcp = s.bcp := by cases s; rfl
@[simp] theorem State.frames_fio (s : State)  : (s.frames).fio = s.fio := by cases s; rfl
@[simp] theorem State.frames_afe (s : State)  : (s.frames).afe = s.afe := by cases s; rfl
@[simp] theorem State.frames_dch (s : State)  : (s.frames).dch = s.dch := by cases s; rfl
@[simp] theorem State.frames_phe (s : State)  : (s.frames).phe = s.phe := by cases s; rfl
@[simp] theorem State.frames_sv (s : State)  : (s.frames).sv = s.sv := by cases s; rfl
@[simp] theorem State.frames_ele (s : State)  : (s.frames).ele = s.ele := by cases s; rfl
@[simp] theorem State.frames_view (s : State)  : (s.frames).view = s.view := by cases s; rfl
@[simp] theorem State.frames_tmx (s : State)  : (s.frames).tmx = s.tmx := by cases s; rfl
@[simp] theorem State.frames_rcd (s : State)  : (s.frames).rcd = s.rcd := by cases s; rfl
@[simp] theorem State.frames_rio (s : State)  : (s.frames).rio = s.rio := by cases s; rfl
@[simp] theorem State.frames_sec (s : State)  : (s.frames).sec = s.sec := by cases s; rfl
@[simp] theorem State.frames_aux (s : State)  : (s.frames).aux = s.aux := by cases s; rfl
@[simp] theorem State.frames_tpc (s : State)  : (s.frames).tpc = s.tpc := by cases s; rfl
@[simp] theorem State.frames_csc (s : State)  : (s.frames).csc = s.csc := by cases s; rfl
@[simp] theorem State.frames_pwr (s : State)  : (s.frames).pwr = s.pwr := by cases s; rfl
@[simp] theorem State.frames_trim (s : State)  : (s.frames).trim = s.trim := by cases s; rfl
@[simp] theorem State.frames_free (s : State)  : (s.frames).free = s.free := by cases s; rfl
@[simp] theorem State.frames_pending (s : State)  : (s.frames).pending = s.pending := by cases s; rfl

/-! ### State.putCpu -/

@[simp] theorem State.putCpu_regs (s : State) (b : Nat) (c : BcpSt) : (s.putCpu b c).regs = s.regs := by cases s; rfl
@[simp] theorem State.putCpu_mer (s : State) (b : Nat) (c : BcpSt) : (s.putCpu b c).mer = s.mer := by cases s; rfl
@[simp] theorem State.putCpu_sa (s : State) (b : Nat) (c : BcpSt) : (s.putCpu b c).sa = s.sa := by cases s; rfl
@[simp] theorem State.putCpu_icu (s : State) (b : Nat) (c : BcpSt) : (s.putCpu b c).icu = s.icu := by cases s; rfl
@[simp] theorem State.putCpu_hif (s : State) (b : Nat) (c : BcpSt) : (s.putCpu b c).hif = s.hif := by cases s; rfl
@[simp] theorem State.putCpu_cis (s : State) (b : Nat) (c : BcpSt) : (s.putCpu b c).cis = s.cis := by cases s; rfl
@[simp] theorem State.putCpu_fio (s : State) (b : Nat) (c : BcpSt) : (s.putCpu b c).fio = s.fio := by cases s; rfl
@[simp] theorem State.putCpu_afe (s : State) (b : Nat) (c : BcpSt) : (s.putCpu b c).afe = s.afe := by cases s; rfl
@[simp] theorem State.putCpu_dch (s : State) (b : Nat) (c : BcpSt) : (s.putCpu b c).dch = s.dch := by cases s; rfl
@[simp] theorem State.putCpu_phe (s : State) (b : Nat) (c : BcpSt) : (s.putCpu b c).phe = s.phe := by cases s; rfl
@[simp] theorem State.putCpu_sv (s : State) (b : Nat) (c : BcpSt) : (s.putCpu b c).sv = s.sv := by cases s; rfl
@[simp] theorem State.putCpu_ele (s : State) (b : Nat) (c : BcpSt) : (s.putCpu b c).ele = s.ele := by cases s; rfl
@[simp] theorem State.putCpu_view (s : State) (b : Nat) (c : BcpSt) : (s.putCpu b c).view = s.view := by cases s; rfl
@[simp] theorem State.putCpu_tmx (s : State) (b : Nat) (c : BcpSt) : (s.putCpu b c).tmx = s.tmx := by cases s; rfl
@[simp] theorem State.putCpu_rcd (s : State) (b : Nat) (c : BcpSt) : (s.putCpu b c).rcd = s.rcd := by cases s; rfl
@[simp] theorem State.putCpu_rio (s : State) (b : Nat) (c : BcpSt) : (s.putCpu b c).rio = s.rio := by cases s; rfl
@[simp] theorem State.putCpu_sec (s : State) (b : Nat) (c : BcpSt) : (s.putCpu b c).sec = s.sec := by cases s; rfl
@[simp] theorem State.putCpu_aux (s : State) (b : Nat) (c : BcpSt) : (s.putCpu b c).aux = s.aux := by cases s; rfl
@[simp] theorem State.putCpu_net (s : State) (b : Nat) (c : BcpSt) : (s.putCpu b c).net = s.net := by cases s; rfl
@[simp] theorem State.putCpu_tpc (s : State) (b : Nat) (c : BcpSt) : (s.putCpu b c).tpc = s.tpc := by cases s; rfl
@[simp] theorem State.putCpu_csc (s : State) (b : Nat) (c : BcpSt) : (s.putCpu b c).csc = s.csc := by cases s; rfl
@[simp] theorem State.putCpu_pwr (s : State) (b : Nat) (c : BcpSt) : (s.putCpu b c).pwr = s.pwr := by cases s; rfl
@[simp] theorem State.putCpu_trim (s : State) (b : Nat) (c : BcpSt) : (s.putCpu b c).trim = s.trim := by cases s; rfl
@[simp] theorem State.putCpu_out (s : State) (b : Nat) (c : BcpSt) : (s.putCpu b c).out = s.out := by cases s; rfl
@[simp] theorem State.putCpu_free (s : State) (b : Nat) (c : BcpSt) : (s.putCpu b c).free = s.free := by cases s; rfl
@[simp] theorem State.putCpu_pending (s : State) (b : Nat) (c : BcpSt) : (s.putCpu b c).pending = s.pending := by cases s; rfl

/-! ### State.putRing -/

@[simp] theorem State.putRing_regs (s : State) (r : Nat) (x : RingSt) : (s.putRing r x).regs = s.regs := by cases s; rfl
@[simp] theorem State.putRing_mer (s : State) (r : Nat) (x : RingSt) : (s.putRing r x).mer = s.mer := by cases s; rfl
@[simp] theorem State.putRing_sa (s : State) (r : Nat) (x : RingSt) : (s.putRing r x).sa = s.sa := by cases s; rfl
@[simp] theorem State.putRing_icu (s : State) (r : Nat) (x : RingSt) : (s.putRing r x).icu = s.icu := by cases s; rfl
@[simp] theorem State.putRing_cis (s : State) (r : Nat) (x : RingSt) : (s.putRing r x).cis = s.cis := by cases s; rfl
@[simp] theorem State.putRing_bcp (s : State) (r : Nat) (x : RingSt) : (s.putRing r x).bcp = s.bcp := by cases s; rfl
@[simp] theorem State.putRing_fio (s : State) (r : Nat) (x : RingSt) : (s.putRing r x).fio = s.fio := by cases s; rfl
@[simp] theorem State.putRing_afe (s : State) (r : Nat) (x : RingSt) : (s.putRing r x).afe = s.afe := by cases s; rfl
@[simp] theorem State.putRing_dch (s : State) (r : Nat) (x : RingSt) : (s.putRing r x).dch = s.dch := by cases s; rfl
@[simp] theorem State.putRing_phe (s : State) (r : Nat) (x : RingSt) : (s.putRing r x).phe = s.phe := by cases s; rfl
@[simp] theorem State.putRing_sv (s : State) (r : Nat) (x : RingSt) : (s.putRing r x).sv = s.sv := by cases s; rfl
@[simp] theorem State.putRing_ele (s : State) (r : Nat) (x : RingSt) : (s.putRing r x).ele = s.ele := by cases s; rfl
@[simp] theorem State.putRing_view (s : State) (r : Nat) (x : RingSt) : (s.putRing r x).view = s.view := by cases s; rfl
@[simp] theorem State.putRing_tmx (s : State) (r : Nat) (x : RingSt) : (s.putRing r x).tmx = s.tmx := by cases s; rfl
@[simp] theorem State.putRing_rcd (s : State) (r : Nat) (x : RingSt) : (s.putRing r x).rcd = s.rcd := by cases s; rfl
@[simp] theorem State.putRing_rio (s : State) (r : Nat) (x : RingSt) : (s.putRing r x).rio = s.rio := by cases s; rfl
@[simp] theorem State.putRing_sec (s : State) (r : Nat) (x : RingSt) : (s.putRing r x).sec = s.sec := by cases s; rfl
@[simp] theorem State.putRing_aux (s : State) (r : Nat) (x : RingSt) : (s.putRing r x).aux = s.aux := by cases s; rfl
@[simp] theorem State.putRing_net (s : State) (r : Nat) (x : RingSt) : (s.putRing r x).net = s.net := by cases s; rfl
@[simp] theorem State.putRing_tpc (s : State) (r : Nat) (x : RingSt) : (s.putRing r x).tpc = s.tpc := by cases s; rfl
@[simp] theorem State.putRing_csc (s : State) (r : Nat) (x : RingSt) : (s.putRing r x).csc = s.csc := by cases s; rfl
@[simp] theorem State.putRing_pwr (s : State) (r : Nat) (x : RingSt) : (s.putRing r x).pwr = s.pwr := by cases s; rfl
@[simp] theorem State.putRing_trim (s : State) (r : Nat) (x : RingSt) : (s.putRing r x).trim = s.trim := by cases s; rfl
@[simp] theorem State.putRing_out (s : State) (r : Nat) (x : RingSt) : (s.putRing r x).out = s.out := by cases s; rfl
@[simp] theorem State.putRing_free (s : State) (r : Nat) (x : RingSt) : (s.putRing r x).free = s.free := by cases s; rfl
@[simp] theorem State.putRing_pending (s : State) (r : Nat) (x : RingSt) : (s.putRing r x).pending = s.pending := by cases s; rfl

/-! ### State.open_ -/

@[simp] theorem State.open__regs (s : State) (d : Desc) : (s.open_ d).regs = s.regs := by cases s; rfl
@[simp] theorem State.open__mer (s : State) (d : Desc) : (s.open_ d).mer = s.mer := by cases s; rfl
@[simp] theorem State.open__sa (s : State) (d : Desc) : (s.open_ d).sa = s.sa := by cases s; rfl
@[simp] theorem State.open__icu (s : State) (d : Desc) : (s.open_ d).icu = s.icu := by cases s; rfl
@[simp] theorem State.open__cis (s : State) (d : Desc) : (s.open_ d).cis = s.cis := by cases s; rfl
@[simp] theorem State.open__bcp (s : State) (d : Desc) : (s.open_ d).bcp = s.bcp := by cases s; rfl
@[simp] theorem State.open__fio (s : State) (d : Desc) : (s.open_ d).fio = s.fio := by cases s; rfl
@[simp] theorem State.open__afe (s : State) (d : Desc) : (s.open_ d).afe = s.afe := by cases s; rfl
@[simp] theorem State.open__dch (s : State) (d : Desc) : (s.open_ d).dch = s.dch := by cases s; rfl
@[simp] theorem State.open__phe (s : State) (d : Desc) : (s.open_ d).phe = s.phe := by cases s; rfl
@[simp] theorem State.open__sv (s : State) (d : Desc) : (s.open_ d).sv = s.sv := by cases s; rfl
@[simp] theorem State.open__ele (s : State) (d : Desc) : (s.open_ d).ele = s.ele := by cases s; rfl
@[simp] theorem State.open__view (s : State) (d : Desc) : (s.open_ d).view = s.view := by cases s; rfl
@[simp] theorem State.open__tmx (s : State) (d : Desc) : (s.open_ d).tmx = s.tmx := by cases s; rfl
@[simp] theorem State.open__rcd (s : State) (d : Desc) : (s.open_ d).rcd = s.rcd := by cases s; rfl
@[simp] theorem State.open__rio (s : State) (d : Desc) : (s.open_ d).rio = s.rio := by cases s; rfl
@[simp] theorem State.open__sec (s : State) (d : Desc) : (s.open_ d).sec = s.sec := by cases s; rfl
@[simp] theorem State.open__aux (s : State) (d : Desc) : (s.open_ d).aux = s.aux := by cases s; rfl
@[simp] theorem State.open__net (s : State) (d : Desc) : (s.open_ d).net = s.net := by cases s; rfl
@[simp] theorem State.open__tpc (s : State) (d : Desc) : (s.open_ d).tpc = s.tpc := by cases s; rfl
@[simp] theorem State.open__csc (s : State) (d : Desc) : (s.open_ d).csc = s.csc := by cases s; rfl
@[simp] theorem State.open__pwr (s : State) (d : Desc) : (s.open_ d).pwr = s.pwr := by cases s; rfl
@[simp] theorem State.open__trim (s : State) (d : Desc) : (s.open_ d).trim = s.trim := by cases s; rfl
@[simp] theorem State.open__out (s : State) (d : Desc) : (s.open_ d).out = s.out := by cases s; rfl
@[simp] theorem State.open__free (s : State) (d : Desc) : (s.open_ d).free = s.free := by cases s; rfl
@[simp] theorem State.open__pending (s : State) (d : Desc) : (s.open_ d).pending = s.pending := by cases s; rfl

/-! ### State.sts -/

@[simp] theorem State.sts_mer (s : State) (blk bit : Nat) : (s.sts blk bit).mer = s.mer := by cases s; rfl
@[simp] theorem State.sts_sa (s : State) (blk bit : Nat) : (s.sts blk bit).sa = s.sa := by cases s; rfl
@[simp] theorem State.sts_icu (s : State) (blk bit : Nat) : (s.sts blk bit).icu = s.icu := by cases s; rfl
@[simp] theorem State.sts_hif (s : State) (blk bit : Nat) : (s.sts blk bit).hif = s.hif := by cases s; rfl
@[simp] theorem State.sts_cis (s : State) (blk bit : Nat) : (s.sts blk bit).cis = s.cis := by cases s; rfl
@[simp] theorem State.sts_bcp (s : State) (blk bit : Nat) : (s.sts blk bit).bcp = s.bcp := by cases s; rfl
@[simp] theorem State.sts_fio (s : State) (blk bit : Nat) : (s.sts blk bit).fio = s.fio := by cases s; rfl
@[simp] theorem State.sts_afe (s : State) (blk bit : Nat) : (s.sts blk bit).afe = s.afe := by cases s; rfl
@[simp] theorem State.sts_dch (s : State) (blk bit : Nat) : (s.sts blk bit).dch = s.dch := by cases s; rfl
@[simp] theorem State.sts_phe (s : State) (blk bit : Nat) : (s.sts blk bit).phe = s.phe := by cases s; rfl
@[simp] theorem State.sts_sv (s : State) (blk bit : Nat) : (s.sts blk bit).sv = s.sv := by cases s; rfl
@[simp] theorem State.sts_ele (s : State) (blk bit : Nat) : (s.sts blk bit).ele = s.ele := by cases s; rfl
@[simp] theorem State.sts_view (s : State) (blk bit : Nat) : (s.sts blk bit).view = s.view := by cases s; rfl
@[simp] theorem State.sts_tmx (s : State) (blk bit : Nat) : (s.sts blk bit).tmx = s.tmx := by cases s; rfl
@[simp] theorem State.sts_rcd (s : State) (blk bit : Nat) : (s.sts blk bit).rcd = s.rcd := by cases s; rfl
@[simp] theorem State.sts_rio (s : State) (blk bit : Nat) : (s.sts blk bit).rio = s.rio := by cases s; rfl
@[simp] theorem State.sts_sec (s : State) (blk bit : Nat) : (s.sts blk bit).sec = s.sec := by cases s; rfl
@[simp] theorem State.sts_aux (s : State) (blk bit : Nat) : (s.sts blk bit).aux = s.aux := by cases s; rfl
@[simp] theorem State.sts_net (s : State) (blk bit : Nat) : (s.sts blk bit).net = s.net := by cases s; rfl
@[simp] theorem State.sts_tpc (s : State) (blk bit : Nat) : (s.sts blk bit).tpc = s.tpc := by cases s; rfl
@[simp] theorem State.sts_csc (s : State) (blk bit : Nat) : (s.sts blk bit).csc = s.csc := by cases s; rfl
@[simp] theorem State.sts_pwr (s : State) (blk bit : Nat) : (s.sts blk bit).pwr = s.pwr := by cases s; rfl
@[simp] theorem State.sts_trim (s : State) (blk bit : Nat) : (s.sts blk bit).trim = s.trim := by cases s; rfl
@[simp] theorem State.sts_out (s : State) (blk bit : Nat) : (s.sts blk bit).out = s.out := by cases s; rfl
@[simp] theorem State.sts_free (s : State) (blk bit : Nat) : (s.sts blk bit).free = s.free := by cases s; rfl
@[simp] theorem State.sts_pending (s : State) (blk bit : Nat) : (s.sts blk bit).pending = s.pending := by cases s; rfl

/-! ### State.notNow -/

@[simp] theorem State.notNow_mer (s : State) (off : Nat) : (s.notNow off).mer = s.mer := by cases s; rfl
@[simp] theorem State.notNow_sa (s : State) (off : Nat) : (s.notNow off).sa = s.sa := by cases s; rfl
@[simp] theorem State.notNow_icu (s : State) (off : Nat) : (s.notNow off).icu = s.icu := by cases s; rfl
@[simp] theorem State.notNow_hif (s : State) (off : Nat) : (s.notNow off).hif = s.hif := by cases s; rfl
@[simp] theorem State.notNow_cis (s : State) (off : Nat) : (s.notNow off).cis = s.cis := by cases s; rfl
@[simp] theorem State.notNow_bcp (s : State) (off : Nat) : (s.notNow off).bcp = s.bcp := by cases s; rfl
@[simp] theorem State.notNow_fio (s : State) (off : Nat) : (s.notNow off).fio = s.fio := by cases s; rfl
@[simp] theorem State.notNow_afe (s : State) (off : Nat) : (s.notNow off).afe = s.afe := by cases s; rfl
@[simp] theorem State.notNow_dch (s : State) (off : Nat) : (s.notNow off).dch = s.dch := by cases s; rfl
@[simp] theorem State.notNow_phe (s : State) (off : Nat) : (s.notNow off).phe = s.phe := by cases s; rfl
@[simp] theorem State.notNow_sv (s : State) (off : Nat) : (s.notNow off).sv = s.sv := by cases s; rfl
@[simp] theorem State.notNow_ele (s : State) (off : Nat) : (s.notNow off).ele = s.ele := by cases s; rfl
@[simp] theorem State.notNow_view (s : State) (off : Nat) : (s.notNow off).view = s.view := by cases s; rfl
@[simp] theorem State.notNow_tmx (s : State) (off : Nat) : (s.notNow off).tmx = s.tmx := by cases s; rfl
@[simp] theorem State.notNow_rcd (s : State) (off : Nat) : (s.notNow off).rcd = s.rcd := by cases s; rfl
@[simp] theorem State.notNow_rio (s : State) (off : Nat) : (s.notNow off).rio = s.rio := by cases s; rfl
@[simp] theorem State.notNow_sec (s : State) (off : Nat) : (s.notNow off).sec = s.sec := by cases s; rfl
@[simp] theorem State.notNow_aux (s : State) (off : Nat) : (s.notNow off).aux = s.aux := by cases s; rfl
@[simp] theorem State.notNow_net (s : State) (off : Nat) : (s.notNow off).net = s.net := by cases s; rfl
@[simp] theorem State.notNow_tpc (s : State) (off : Nat) : (s.notNow off).tpc = s.tpc := by cases s; rfl
@[simp] theorem State.notNow_csc (s : State) (off : Nat) : (s.notNow off).csc = s.csc := by cases s; rfl
@[simp] theorem State.notNow_pwr (s : State) (off : Nat) : (s.notNow off).pwr = s.pwr := by cases s; rfl
@[simp] theorem State.notNow_trim (s : State) (off : Nat) : (s.notNow off).trim = s.trim := by cases s; rfl
@[simp] theorem State.notNow_out (s : State) (off : Nat) : (s.notNow off).out = s.out := by cases s; rfl
@[simp] theorem State.notNow_free (s : State) (off : Nat) : (s.notNow off).free = s.free := by cases s; rfl
@[simp] theorem State.notNow_pending (s : State) (off : Nat) : (s.notNow off).pending = s.pending := by cases s; rfl

/-! ### State.clampReg -/

@[simp] theorem State.clampReg_mer (s : State) (o n : Nat) : (s.clampReg o n).mer = s.mer := by
  unfold State.clampReg; split <;> simp
@[simp] theorem State.clampReg_sa (s : State) (o n : Nat) : (s.clampReg o n).sa = s.sa := by
  unfold State.clampReg; split <;> simp
@[simp] theorem State.clampReg_icu (s : State) (o n : Nat) : (s.clampReg o n).icu = s.icu := by
  unfold State.clampReg; split <;> simp
@[simp] theorem State.clampReg_hif (s : State) (o n : Nat) : (s.clampReg o n).hif = s.hif := by
  unfold State.clampReg; split <;> simp
@[simp] theorem State.clampReg_cis (s : State) (o n : Nat) : (s.clampReg o n).cis = s.cis := by
  unfold State.clampReg; split <;> simp
@[simp] theorem State.clampReg_bcp (s : State) (o n : Nat) : (s.clampReg o n).bcp = s.bcp := by
  unfold State.clampReg; split <;> simp
@[simp] theorem State.clampReg_fio (s : State) (o n : Nat) : (s.clampReg o n).fio = s.fio := by
  unfold State.clampReg; split <;> simp
@[simp] theorem State.clampReg_afe (s : State) (o n : Nat) : (s.clampReg o n).afe = s.afe := by
  unfold State.clampReg; split <;> simp
@[simp] theorem State.clampReg_dch (s : State) (o n : Nat) : (s.clampReg o n).dch = s.dch := by
  unfold State.clampReg; split <;> simp
@[simp] theorem State.clampReg_phe (s : State) (o n : Nat) : (s.clampReg o n).phe = s.phe := by
  unfold State.clampReg; split <;> simp
@[simp] theorem State.clampReg_sv (s : State) (o n : Nat) : (s.clampReg o n).sv = s.sv := by
  unfold State.clampReg; split <;> simp
@[simp] theorem State.clampReg_ele (s : State) (o n : Nat) : (s.clampReg o n).ele = s.ele := by
  unfold State.clampReg; split <;> simp
@[simp] theorem State.clampReg_view (s : State) (o n : Nat) : (s.clampReg o n).view = s.view := by
  unfold State.clampReg; split <;> simp
@[simp] theorem State.clampReg_tmx (s : State) (o n : Nat) : (s.clampReg o n).tmx = s.tmx := by
  unfold State.clampReg; split <;> simp
@[simp] theorem State.clampReg_rcd (s : State) (o n : Nat) : (s.clampReg o n).rcd = s.rcd := by
  unfold State.clampReg; split <;> simp
@[simp] theorem State.clampReg_rio (s : State) (o n : Nat) : (s.clampReg o n).rio = s.rio := by
  unfold State.clampReg; split <;> simp
@[simp] theorem State.clampReg_sec (s : State) (o n : Nat) : (s.clampReg o n).sec = s.sec := by
  unfold State.clampReg; split <;> simp
@[simp] theorem State.clampReg_aux (s : State) (o n : Nat) : (s.clampReg o n).aux = s.aux := by
  unfold State.clampReg; split <;> simp
@[simp] theorem State.clampReg_net (s : State) (o n : Nat) : (s.clampReg o n).net = s.net := by
  unfold State.clampReg; split <;> simp
@[simp] theorem State.clampReg_tpc (s : State) (o n : Nat) : (s.clampReg o n).tpc = s.tpc := by
  unfold State.clampReg; split <;> simp
@[simp] theorem State.clampReg_csc (s : State) (o n : Nat) : (s.clampReg o n).csc = s.csc := by
  unfold State.clampReg; split <;> simp
@[simp] theorem State.clampReg_pwr (s : State) (o n : Nat) : (s.clampReg o n).pwr = s.pwr := by
  unfold State.clampReg; split <;> simp
@[simp] theorem State.clampReg_trim (s : State) (o n : Nat) : (s.clampReg o n).trim = s.trim := by
  unfold State.clampReg; split <;> simp
@[simp] theorem State.clampReg_out (s : State) (o n : Nat) : (s.clampReg o n).out = s.out := by
  unfold State.clampReg; split <;> simp
@[simp] theorem State.clampReg_free (s : State) (o n : Nat) : (s.clampReg o n).free = s.free := by
  unfold State.clampReg; split <;> simp
@[simp] theorem State.clampReg_pending (s : State) (o n : Nat) : (s.clampReg o n).pending = s.pending := by
  unfold State.clampReg; split <;> simp

/-! ### State.clampDesc -/

@[simp] theorem State.clampDesc_mer (s : State) (d : Desc) (n k : Nat) : (s.clampDesc d n k).mer = s.mer := by
  unfold State.clampDesc; split <;> simp
@[simp] theorem State.clampDesc_sa (s : State) (d : Desc) (n k : Nat) : (s.clampDesc d n k).sa = s.sa := by
  unfold State.clampDesc; split <;> simp
@[simp] theorem State.clampDesc_icu (s : State) (d : Desc) (n k : Nat) : (s.clampDesc d n k).icu = s.icu := by
  unfold State.clampDesc; split <;> simp
@[simp] theorem State.clampDesc_hif (s : State) (d : Desc) (n k : Nat) : (s.clampDesc d n k).hif = s.hif := by
  unfold State.clampDesc; split <;> simp
@[simp] theorem State.clampDesc_cis (s : State) (d : Desc) (n k : Nat) : (s.clampDesc d n k).cis = s.cis := by
  unfold State.clampDesc; split <;> simp
@[simp] theorem State.clampDesc_bcp (s : State) (d : Desc) (n k : Nat) : (s.clampDesc d n k).bcp = s.bcp := by
  unfold State.clampDesc; split <;> simp
@[simp] theorem State.clampDesc_fio (s : State) (d : Desc) (n k : Nat) : (s.clampDesc d n k).fio = s.fio := by
  unfold State.clampDesc; split <;> simp
@[simp] theorem State.clampDesc_afe (s : State) (d : Desc) (n k : Nat) : (s.clampDesc d n k).afe = s.afe := by
  unfold State.clampDesc; split <;> simp
@[simp] theorem State.clampDesc_dch (s : State) (d : Desc) (n k : Nat) : (s.clampDesc d n k).dch = s.dch := by
  unfold State.clampDesc; split <;> simp
@[simp] theorem State.clampDesc_phe (s : State) (d : Desc) (n k : Nat) : (s.clampDesc d n k).phe = s.phe := by
  unfold State.clampDesc; split <;> simp
@[simp] theorem State.clampDesc_sv (s : State) (d : Desc) (n k : Nat) : (s.clampDesc d n k).sv = s.sv := by
  unfold State.clampDesc; split <;> simp
@[simp] theorem State.clampDesc_ele (s : State) (d : Desc) (n k : Nat) : (s.clampDesc d n k).ele = s.ele := by
  unfold State.clampDesc; split <;> simp
@[simp] theorem State.clampDesc_view (s : State) (d : Desc) (n k : Nat) : (s.clampDesc d n k).view = s.view := by
  unfold State.clampDesc; split <;> simp
@[simp] theorem State.clampDesc_tmx (s : State) (d : Desc) (n k : Nat) : (s.clampDesc d n k).tmx = s.tmx := by
  unfold State.clampDesc; split <;> simp
@[simp] theorem State.clampDesc_rcd (s : State) (d : Desc) (n k : Nat) : (s.clampDesc d n k).rcd = s.rcd := by
  unfold State.clampDesc; split <;> simp
@[simp] theorem State.clampDesc_rio (s : State) (d : Desc) (n k : Nat) : (s.clampDesc d n k).rio = s.rio := by
  unfold State.clampDesc; split <;> simp
@[simp] theorem State.clampDesc_sec (s : State) (d : Desc) (n k : Nat) : (s.clampDesc d n k).sec = s.sec := by
  unfold State.clampDesc; split <;> simp
@[simp] theorem State.clampDesc_aux (s : State) (d : Desc) (n k : Nat) : (s.clampDesc d n k).aux = s.aux := by
  unfold State.clampDesc; split <;> simp
@[simp] theorem State.clampDesc_net (s : State) (d : Desc) (n k : Nat) : (s.clampDesc d n k).net = s.net := by
  unfold State.clampDesc; split <;> simp
@[simp] theorem State.clampDesc_tpc (s : State) (d : Desc) (n k : Nat) : (s.clampDesc d n k).tpc = s.tpc := by
  unfold State.clampDesc; split <;> simp
@[simp] theorem State.clampDesc_csc (s : State) (d : Desc) (n k : Nat) : (s.clampDesc d n k).csc = s.csc := by
  unfold State.clampDesc; split <;> simp
@[simp] theorem State.clampDesc_pwr (s : State) (d : Desc) (n k : Nat) : (s.clampDesc d n k).pwr = s.pwr := by
  unfold State.clampDesc; split <;> simp
@[simp] theorem State.clampDesc_trim (s : State) (d : Desc) (n k : Nat) : (s.clampDesc d n k).trim = s.trim := by
  unfold State.clampDesc; split <;> simp
@[simp] theorem State.clampDesc_out (s : State) (d : Desc) (n k : Nat) : (s.clampDesc d n k).out = s.out := by
  unfold State.clampDesc; split <;> simp
@[simp] theorem State.clampDesc_free (s : State) (d : Desc) (n k : Nat) : (s.clampDesc d n k).free = s.free := by
  unfold State.clampDesc; split <;> simp
@[simp] theorem State.clampDesc_pending (s : State) (d : Desc) (n k : Nat) : (s.clampDesc d n k).pending = s.pending := by
  unfold State.clampDesc; split <;> simp

/-! ### State.completeWith, where the completion delivers no record of the Cistern -/

@[simp] theorem compOf_toks (d : Desc) (op st : Nat) : (compOf d op st).toks = [] := rfl
@[simp] theorem Comp.secNs_toks (c : Comp) (a b : Nat) : (c.secNs a b).toks = c.toks := rfl
@[simp] theorem Comp.at_toks (c : Comp) (t : Time) : (c.at t).toks = c.toks := rfl

@[simp] theorem State.completeWith_regs (s : State) (c : Comp) (h : c.toks = []) : (s.completeWith c).regs = s.regs := by
  unfold State.completeWith; rw [h]; split <;> rfl
@[simp] theorem State.completeWith_mer (s : State) (c : Comp) (h : c.toks = []) : (s.completeWith c).mer = s.mer := by
  unfold State.completeWith; rw [h]; split <;> rfl
@[simp] theorem State.completeWith_sa (s : State) (c : Comp) (h : c.toks = []) : (s.completeWith c).sa = s.sa := by
  unfold State.completeWith; rw [h]; split <;> rfl
@[simp] theorem State.completeWith_icu (s : State) (c : Comp) (h : c.toks = []) : (s.completeWith c).icu = s.icu := by
  unfold State.completeWith; rw [h]; split <;> rfl
@[simp] theorem State.completeWith_cis (s : State) (c : Comp) (h : c.toks = []) : (s.completeWith c).cis = s.cis := by
  unfold State.completeWith; rw [h]; split <;> rfl
@[simp] theorem State.completeWith_bcp (s : State) (c : Comp) (h : c.toks = []) : (s.completeWith c).bcp = s.bcp := by
  unfold State.completeWith; rw [h]; split <;> rfl
@[simp] theorem State.completeWith_fio (s : State) (c : Comp) (h : c.toks = []) : (s.completeWith c).fio = s.fio := by
  unfold State.completeWith; rw [h]; split <;> rfl
@[simp] theorem State.completeWith_afe (s : State) (c : Comp) (h : c.toks = []) : (s.completeWith c).afe = s.afe := by
  unfold State.completeWith; rw [h]; split <;> rfl
@[simp] theorem State.completeWith_dch (s : State) (c : Comp) (h : c.toks = []) : (s.completeWith c).dch = s.dch := by
  unfold State.completeWith; rw [h]; split <;> rfl
@[simp] theorem State.completeWith_phe (s : State) (c : Comp) (h : c.toks = []) : (s.completeWith c).phe = s.phe := by
  unfold State.completeWith; rw [h]; split <;> rfl
@[simp] theorem State.completeWith_sv (s : State) (c : Comp) (h : c.toks = []) : (s.completeWith c).sv = s.sv := by
  unfold State.completeWith; rw [h]; split <;> rfl
@[simp] theorem State.completeWith_ele (s : State) (c : Comp) (h : c.toks = []) : (s.completeWith c).ele = s.ele := by
  unfold State.completeWith; rw [h]; split <;> rfl
@[simp] theorem State.completeWith_view (s : State) (c : Comp) (h : c.toks = []) : (s.completeWith c).view = s.view := by
  unfold State.completeWith; rw [h]; split <;> rfl
@[simp] theorem State.completeWith_tmx (s : State) (c : Comp) (h : c.toks = []) : (s.completeWith c).tmx = s.tmx := by
  unfold State.completeWith; rw [h]; split <;> rfl
@[simp] theorem State.completeWith_rcd (s : State) (c : Comp) (h : c.toks = []) : (s.completeWith c).rcd = s.rcd := by
  unfold State.completeWith; rw [h]; split <;> rfl
@[simp] theorem State.completeWith_rio (s : State) (c : Comp) (h : c.toks = []) : (s.completeWith c).rio = s.rio := by
  unfold State.completeWith; rw [h]; split <;> rfl
@[simp] theorem State.completeWith_sec (s : State) (c : Comp) (h : c.toks = []) : (s.completeWith c).sec = s.sec := by
  unfold State.completeWith; rw [h]; split <;> rfl
@[simp] theorem State.completeWith_aux (s : State) (c : Comp) (h : c.toks = []) : (s.completeWith c).aux = s.aux := by
  unfold State.completeWith; rw [h]; split <;> rfl
@[simp] theorem State.completeWith_net (s : State) (c : Comp) (h : c.toks = []) : (s.completeWith c).net = s.net := by
  unfold State.completeWith; rw [h]; split <;> rfl
@[simp] theorem State.completeWith_tpc (s : State) (c : Comp) (h : c.toks = []) : (s.completeWith c).tpc = s.tpc := by
  unfold State.completeWith; rw [h]; split <;> rfl
@[simp] theorem State.completeWith_csc (s : State) (c : Comp) (h : c.toks = []) : (s.completeWith c).csc = s.csc := by
  unfold State.completeWith; rw [h]; split <;> rfl
@[simp] theorem State.completeWith_pwr (s : State) (c : Comp) (h : c.toks = []) : (s.completeWith c).pwr = s.pwr := by
  unfold State.completeWith; rw [h]; split <;> rfl
@[simp] theorem State.completeWith_trim (s : State) (c : Comp) (h : c.toks = []) : (s.completeWith c).trim = s.trim := by
  unfold State.completeWith; rw [h]; split <;> rfl
@[simp] theorem State.completeWith_out (s : State) (c : Comp) (h : c.toks = []) : (s.completeWith c).out = s.out := by
  unfold State.completeWith; rw [h]; split <;> rfl
@[simp] theorem State.completeWith_free (s : State) (c : Comp) (h : c.toks = []) : (s.completeWith c).free = s.free := by
  unfold State.completeWith; rw [h]; split <;> rfl
@[simp] theorem State.completeWith_pending (s : State) (c : Comp) (h : c.toks = []) : (s.completeWith c).pending = s.pending := by
  unfold State.completeWith; rw [h]; split <;> rfl

/-! ### State.complete -/

@[simp] theorem State.complete_regs (s : State) (d : Desc) (a b : Nat) : (s.complete d a b).regs = s.regs := s.completeWith_regs _ rfl
@[simp] theorem State.complete_mer (s : State) (d : Desc) (a b : Nat) : (s.complete d a b).mer = s.mer := s.completeWith_mer _ rfl
@[simp] theorem State.complete_sa (s : State) (d : Desc) (a b : Nat) : (s.complete d a b).sa = s.sa := s.completeWith_sa _ rfl
@[simp] theorem State.complete_icu (s : State) (d : Desc) (a b : Nat) : (s.complete d a b).icu = s.icu := s.completeWith_icu _ rfl
@[simp] theorem State.complete_cis (s : State) (d : Desc) (a b : Nat) : (s.complete d a b).cis = s.cis := s.completeWith_cis _ rfl
@[simp] theorem State.complete_bcp (s : State) (d : Desc) (a b : Nat) : (s.complete d a b).bcp = s.bcp := s.completeWith_bcp _ rfl
@[simp] theorem State.complete_fio (s : State) (d : Desc) (a b : Nat) : (s.complete d a b).fio = s.fio := s.completeWith_fio _ rfl
@[simp] theorem State.complete_afe (s : State) (d : Desc) (a b : Nat) : (s.complete d a b).afe = s.afe := s.completeWith_afe _ rfl
@[simp] theorem State.complete_dch (s : State) (d : Desc) (a b : Nat) : (s.complete d a b).dch = s.dch := s.completeWith_dch _ rfl
@[simp] theorem State.complete_phe (s : State) (d : Desc) (a b : Nat) : (s.complete d a b).phe = s.phe := s.completeWith_phe _ rfl
@[simp] theorem State.complete_sv (s : State) (d : Desc) (a b : Nat) : (s.complete d a b).sv = s.sv := s.completeWith_sv _ rfl
@[simp] theorem State.complete_ele (s : State) (d : Desc) (a b : Nat) : (s.complete d a b).ele = s.ele := s.completeWith_ele _ rfl
@[simp] theorem State.complete_view (s : State) (d : Desc) (a b : Nat) : (s.complete d a b).view = s.view := s.completeWith_view _ rfl
@[simp] theorem State.complete_tmx (s : State) (d : Desc) (a b : Nat) : (s.complete d a b).tmx = s.tmx := s.completeWith_tmx _ rfl
@[simp] theorem State.complete_rcd (s : State) (d : Desc) (a b : Nat) : (s.complete d a b).rcd = s.rcd := s.completeWith_rcd _ rfl
@[simp] theorem State.complete_rio (s : State) (d : Desc) (a b : Nat) : (s.complete d a b).rio = s.rio := s.completeWith_rio _ rfl
@[simp] theorem State.complete_sec (s : State) (d : Desc) (a b : Nat) : (s.complete d a b).sec = s.sec := s.completeWith_sec _ rfl
@[simp] theorem State.complete_aux (s : State) (d : Desc) (a b : Nat) : (s.complete d a b).aux = s.aux := s.completeWith_aux _ rfl
@[simp] theorem State.complete_net (s : State) (d : Desc) (a b : Nat) : (s.complete d a b).net = s.net := s.completeWith_net _ rfl
@[simp] theorem State.complete_tpc (s : State) (d : Desc) (a b : Nat) : (s.complete d a b).tpc = s.tpc := s.completeWith_tpc _ rfl
@[simp] theorem State.complete_csc (s : State) (d : Desc) (a b : Nat) : (s.complete d a b).csc = s.csc := s.completeWith_csc _ rfl
@[simp] theorem State.complete_pwr (s : State) (d : Desc) (a b : Nat) : (s.complete d a b).pwr = s.pwr := s.completeWith_pwr _ rfl
@[simp] theorem State.complete_trim (s : State) (d : Desc) (a b : Nat) : (s.complete d a b).trim = s.trim := s.completeWith_trim _ rfl
@[simp] theorem State.complete_out (s : State) (d : Desc) (a b : Nat) : (s.complete d a b).out = s.out := s.completeWith_out _ rfl
@[simp] theorem State.complete_free (s : State) (d : Desc) (a b : Nat) : (s.complete d a b).free = s.free := s.completeWith_free _ rfl
@[simp] theorem State.complete_pending (s : State) (d : Desc) (a b : Nat) : (s.complete d a b).pending = s.pending := s.completeWith_pending _ rfl

/-! ### State.msix -/

@[simp] theorem State.msix_mer (s : State) (v : Nat) : (s.msix v).mer = s.mer := by
  unfold State.msix; split
  · simp
  · split <;> simp
@[simp] theorem State.msix_sa (s : State) (v : Nat) : (s.msix v).sa = s.sa := by
  unfold State.msix; split
  · simp
  · split <;> simp
@[simp] theorem State.msix_icu (s : State) (v : Nat) : (s.msix v).icu = s.icu := by
  unfold State.msix; split
  · simp
  · split <;> simp
@[simp] theorem State.msix_cis (s : State) (v : Nat) : (s.msix v).cis = s.cis := by
  unfold State.msix; split
  · simp
  · split <;> simp
@[simp] theorem State.msix_bcp (s : State) (v : Nat) : (s.msix v).bcp = s.bcp := by
  unfold State.msix; split
  · simp
  · split <;> simp
@[simp] theorem State.msix_fio (s : State) (v : Nat) : (s.msix v).fio = s.fio := by
  unfold State.msix; split
  · simp
  · split <;> simp
@[simp] theorem State.msix_afe (s : State) (v : Nat) : (s.msix v).afe = s.afe := by
  unfold State.msix; split
  · simp
  · split <;> simp
@[simp] theorem State.msix_dch (s : State) (v : Nat) : (s.msix v).dch = s.dch := by
  unfold State.msix; split
  · simp
  · split <;> simp
@[simp] theorem State.msix_phe (s : State) (v : Nat) : (s.msix v).phe = s.phe := by
  unfold State.msix; split
  · simp
  · split <;> simp
@[simp] theorem State.msix_sv (s : State) (v : Nat) : (s.msix v).sv = s.sv := by
  unfold State.msix; split
  · simp
  · split <;> simp
@[simp] theorem State.msix_ele (s : State) (v : Nat) : (s.msix v).ele = s.ele := by
  unfold State.msix; split
  · simp
  · split <;> simp
@[simp] theorem State.msix_view (s : State) (v : Nat) : (s.msix v).view = s.view := by
  unfold State.msix; split
  · simp
  · split <;> simp
@[simp] theorem State.msix_tmx (s : State) (v : Nat) : (s.msix v).tmx = s.tmx := by
  unfold State.msix; split
  · simp
  · split <;> simp
@[simp] theorem State.msix_rcd (s : State) (v : Nat) : (s.msix v).rcd = s.rcd := by
  unfold State.msix; split
  · simp
  · split <;> simp
@[simp] theorem State.msix_rio (s : State) (v : Nat) : (s.msix v).rio = s.rio := by
  unfold State.msix; split
  · simp
  · split <;> simp
@[simp] theorem State.msix_sec (s : State) (v : Nat) : (s.msix v).sec = s.sec := by
  unfold State.msix; split
  · simp
  · split <;> simp
@[simp] theorem State.msix_aux (s : State) (v : Nat) : (s.msix v).aux = s.aux := by
  unfold State.msix; split
  · simp
  · split <;> simp
@[simp] theorem State.msix_net (s : State) (v : Nat) : (s.msix v).net = s.net := by
  unfold State.msix; split
  · simp
  · split <;> simp
@[simp] theorem State.msix_tpc (s : State) (v : Nat) : (s.msix v).tpc = s.tpc := by
  unfold State.msix; split
  · simp
  · split <;> simp
@[simp] theorem State.msix_csc (s : State) (v : Nat) : (s.msix v).csc = s.csc := by
  unfold State.msix; split
  · simp
  · split <;> simp
@[simp] theorem State.msix_pwr (s : State) (v : Nat) : (s.msix v).pwr = s.pwr := by
  unfold State.msix; split
  · simp
  · split <;> simp
@[simp] theorem State.msix_trim (s : State) (v : Nat) : (s.msix v).trim = s.trim := by
  unfold State.msix; split
  · simp
  · split <;> simp
@[simp] theorem State.msix_free (s : State) (v : Nat) : (s.msix v).free = s.free := by
  unfold State.msix; split
  · simp
  · split <;> simp
@[simp] theorem State.msix_pending (s : State) (v : Nat) : (s.msix v).pending = s.pending := by
  unfold State.msix; split
  · simp
  · split <;> simp

/-! ### State.present -/

@[simp] theorem State.present_mer (s : State) (n : Nat) : (s.present n).mer = s.mer := by
  unfold State.present; simp only []; repeat' split
  all_goals simp
@[simp] theorem State.present_sa (s : State) (n : Nat) : (s.present n).sa = s.sa := by
  unfold State.present; simp only []; repeat' split
  all_goals simp
@[simp] theorem State.present_icu (s : State) (n : Nat) : (s.present n).icu = s.icu := by
  unfold State.present; simp only []; repeat' split
  all_goals simp
@[simp] theorem State.present_cis (s : State) (n : Nat) : (s.present n).cis = s.cis := by
  unfold State.present; simp only []; repeat' split
  all_goals simp
@[simp] theorem State.present_fio (s : State) (n : Nat) : (s.present n).fio = s.fio := by
  unfold State.present; simp only []; repeat' split
  all_goals simp
@[simp] theorem State.present_afe (s : State) (n : Nat) : (s.present n).afe = s.afe := by
  unfold State.present; simp only []; repeat' split
  all_goals simp
@[simp] theorem State.present_dch (s : State) (n : Nat) : (s.present n).dch = s.dch := by
  unfold State.present; simp only []; repeat' split
  all_goals simp
@[simp] theorem State.present_phe (s : State) (n : Nat) : (s.present n).phe = s.phe := by
  unfold State.present; simp only []; repeat' split
  all_goals simp
@[simp] theorem State.present_sv (s : State) (n : Nat) : (s.present n).sv = s.sv := by
  unfold State.present; simp only []; repeat' split
  all_goals simp
@[simp] theorem State.present_ele (s : State) (n : Nat) : (s.present n).ele = s.ele := by
  unfold State.present; simp only []; repeat' split
  all_goals simp
@[simp] theorem State.present_view (s : State) (n : Nat) : (s.present n).view = s.view := by
  unfold State.present; simp only []; repeat' split
  all_goals simp
@[simp] theorem State.present_tmx (s : State) (n : Nat) : (s.present n).tmx = s.tmx := by
  unfold State.present; simp only []; repeat' split
  all_goals simp
@[simp] theorem State.present_rcd (s : State) (n : Nat) : (s.present n).rcd = s.rcd := by
  unfold State.present; simp only []; repeat' split
  all_goals simp
@[simp] theorem State.present_rio (s : State) (n : Nat) : (s.present n).rio = s.rio := by
  unfold State.present; simp only []; repeat' split
  all_goals simp
@[simp] theorem State.present_sec (s : State) (n : Nat) : (s.present n).sec = s.sec := by
  unfold State.present; simp only []; repeat' split
  all_goals simp
@[simp] theorem State.present_aux (s : State) (n : Nat) : (s.present n).aux = s.aux := by
  unfold State.present; simp only []; repeat' split
  all_goals simp
@[simp] theorem State.present_net (s : State) (n : Nat) : (s.present n).net = s.net := by
  unfold State.present; simp only []; repeat' split
  all_goals simp
@[simp] theorem State.present_tpc (s : State) (n : Nat) : (s.present n).tpc = s.tpc := by
  unfold State.present; simp only []; repeat' split
  all_goals simp
@[simp] theorem State.present_csc (s : State) (n : Nat) : (s.present n).csc = s.csc := by
  unfold State.present; simp only []; repeat' split
  all_goals simp
@[simp] theorem State.present_pwr (s : State) (n : Nat) : (s.present n).pwr = s.pwr := by
  unfold State.present; simp only []; repeat' split
  all_goals simp
@[simp] theorem State.present_trim (s : State) (n : Nat) : (s.present n).trim = s.trim := by
  unfold State.present; simp only []; repeat' split
  all_goals simp
@[simp] theorem State.present_free (s : State) (n : Nat) : (s.present n).free = s.free := by
  unfold State.present; simp only []; repeat' split
  all_goals simp
@[simp] theorem State.present_pending (s : State) (n : Nat) : (s.present n).pending = s.pending := by
  unfold State.present; simp only []; repeat' split
  all_goals simp

/-! ### State.icuTo -/

@[simp] theorem State.icuTo_mer (s : State) (n : Nat) (i : IcuSt) : (s.icuTo n i).mer = s.mer := by
  unfold State.icuTo; simp only []; split <;> simp
@[simp] theorem State.icuTo_sa (s : State) (n : Nat) (i : IcuSt) : (s.icuTo n i).sa = s.sa := by
  unfold State.icuTo; simp only []; split <;> simp
@[simp] theorem State.icuTo_cis (s : State) (n : Nat) (i : IcuSt) : (s.icuTo n i).cis = s.cis := by
  unfold State.icuTo; simp only []; split <;> simp
@[simp] theorem State.icuTo_fio (s : State) (n : Nat) (i : IcuSt) : (s.icuTo n i).fio = s.fio := by
  unfold State.icuTo; simp only []; split <;> simp
@[simp] theorem State.icuTo_afe (s : State) (n : Nat) (i : IcuSt) : (s.icuTo n i).afe = s.afe := by
  unfold State.icuTo; simp only []; split <;> simp
@[simp] theorem State.icuTo_dch (s : State) (n : Nat) (i : IcuSt) : (s.icuTo n i).dch = s.dch := by
  unfold State.icuTo; simp only []; split <;> simp
@[simp] theorem State.icuTo_phe (s : State) (n : Nat) (i : IcuSt) : (s.icuTo n i).phe = s.phe := by
  unfold State.icuTo; simp only []; split <;> simp
@[simp] theorem State.icuTo_sv (s : State) (n : Nat) (i : IcuSt) : (s.icuTo n i).sv = s.sv := by
  unfold State.icuTo; simp only []; split <;> simp
@[simp] theorem State.icuTo_ele (s : State) (n : Nat) (i : IcuSt) : (s.icuTo n i).ele = s.ele := by
  unfold State.icuTo; simp only []; split <;> simp
@[simp] theorem State.icuTo_view (s : State) (n : Nat) (i : IcuSt) : (s.icuTo n i).view = s.view := by
  unfold State.icuTo; simp only []; split <;> simp
@[simp] theorem State.icuTo_tmx (s : State) (n : Nat) (i : IcuSt) : (s.icuTo n i).tmx = s.tmx := by
  unfold State.icuTo; simp only []; split <;> simp
@[simp] theorem State.icuTo_rcd (s : State) (n : Nat) (i : IcuSt) : (s.icuTo n i).rcd = s.rcd := by
  unfold State.icuTo; simp only []; split <;> simp
@[simp] theorem State.icuTo_rio (s : State) (n : Nat) (i : IcuSt) : (s.icuTo n i).rio = s.rio := by
  unfold State.icuTo; simp only []; split <;> simp
@[simp] theorem State.icuTo_sec (s : State) (n : Nat) (i : IcuSt) : (s.icuTo n i).sec = s.sec := by
  unfold State.icuTo; simp only []; split <;> simp
@[simp] theorem State.icuTo_aux (s : State) (n : Nat) (i : IcuSt) : (s.icuTo n i).aux = s.aux := by
  unfold State.icuTo; simp only []; split <;> simp
@[simp] theorem State.icuTo_net (s : State) (n : Nat) (i : IcuSt) : (s.icuTo n i).net = s.net := by
  unfold State.icuTo; simp only []; split <;> simp
@[simp] theorem State.icuTo_tpc (s : State) (n : Nat) (i : IcuSt) : (s.icuTo n i).tpc = s.tpc := by
  unfold State.icuTo; simp only []; split <;> simp
@[simp] theorem State.icuTo_csc (s : State) (n : Nat) (i : IcuSt) : (s.icuTo n i).csc = s.csc := by
  unfold State.icuTo; simp only []; split <;> simp
@[simp] theorem State.icuTo_pwr (s : State) (n : Nat) (i : IcuSt) : (s.icuTo n i).pwr = s.pwr := by
  unfold State.icuTo; simp only []; split <;> simp
@[simp] theorem State.icuTo_trim (s : State) (n : Nat) (i : IcuSt) : (s.icuTo n i).trim = s.trim := by
  unfold State.icuTo; simp only []; split <;> simp
@[simp] theorem State.icuTo_free (s : State) (n : Nat) (i : IcuSt) : (s.icuTo n i).free = s.free := by
  unfold State.icuTo; simp only []; split <;> simp
@[simp] theorem State.icuTo_pending (s : State) (n : Nat) (i : IcuSt) : (s.icuTo n i).pending = s.pending := by
  unfold State.icuTo; simp only []; split <;> simp

/-! ### State.raise -/

@[simp] theorem State.raise_mer (s : State) (n : Nat) : (s.raise n).mer = s.mer := by
  unfold State.raise; simp
@[simp] theorem State.raise_sa (s : State) (n : Nat) : (s.raise n).sa = s.sa := by
  unfold State.raise; simp
@[simp] theorem State.raise_cis (s : State) (n : Nat) : (s.raise n).cis = s.cis := by
  unfold State.raise; simp
@[simp] theorem State.raise_fio (s : State) (n : Nat) : (s.raise n).fio = s.fio := by
  unfold State.raise; simp
@[simp] theorem State.raise_afe (s : State) (n : Nat) : (s.raise n).afe = s.afe := by
  unfold State.raise; simp
@[simp] theorem State.raise_dch (s : State) (n : Nat) : (s.raise n).dch = s.dch := by
  unfold State.raise; simp
@[simp] theorem State.raise_phe (s : State) (n : Nat) : (s.raise n).phe = s.phe := by
  unfold State.raise; simp
@[simp] theorem State.raise_sv (s : State) (n : Nat) : (s.raise n).sv = s.sv := by
  unfold State.raise; simp
@[simp] theorem State.raise_ele (s : State) (n : Nat) : (s.raise n).ele = s.ele := by
  unfold State.raise; simp
@[simp] theorem State.raise_view (s : State) (n : Nat) : (s.raise n).view = s.view := by
  unfold State.raise; simp
@[simp] theorem State.raise_tmx (s : State) (n : Nat) : (s.raise n).tmx = s.tmx := by
  unfold State.raise; simp
@[simp] theorem State.raise_rcd (s : State) (n : Nat) : (s.raise n).rcd = s.rcd := by
  unfold State.raise; simp
@[simp] theorem State.raise_rio (s : State) (n : Nat) : (s.raise n).rio = s.rio := by
  unfold State.raise; simp
@[simp] theorem State.raise_sec (s : State) (n : Nat) : (s.raise n).sec = s.sec := by
  unfold State.raise; simp
@[simp] theorem State.raise_aux (s : State) (n : Nat) : (s.raise n).aux = s.aux := by
  unfold State.raise; simp
@[simp] theorem State.raise_net (s : State) (n : Nat) : (s.raise n).net = s.net := by
  unfold State.raise; simp
@[simp] theorem State.raise_tpc (s : State) (n : Nat) : (s.raise n).tpc = s.tpc := by
  unfold State.raise; simp
@[simp] theorem State.raise_csc (s : State) (n : Nat) : (s.raise n).csc = s.csc := by
  unfold State.raise; simp
@[simp] theorem State.raise_pwr (s : State) (n : Nat) : (s.raise n).pwr = s.pwr := by
  unfold State.raise; simp
@[simp] theorem State.raise_trim (s : State) (n : Nat) : (s.raise n).trim = s.trim := by
  unfold State.raise; simp
@[simp] theorem State.raise_free (s : State) (n : Nat) : (s.raise n).free = s.free := by
  unfold State.raise; simp
@[simp] theorem State.raise_pending (s : State) (n : Nat) : (s.raise n).pending = s.pending := by
  unfold State.raise; simp

/-! ### State.setLevel -/

@[simp] theorem State.setLevel_mer (s : State) (n : Nat) (lv : Bool) : (s.setLevel n lv).mer = s.mer := by
  unfold State.setLevel; simp only []; split <;> simp
@[simp] theorem State.setLevel_sa (s : State) (n : Nat) (lv : Bool) : (s.setLevel n lv).sa = s.sa := by
  unfold State.setLevel; simp only []; split <;> simp
@[simp] theorem State.setLevel_cis (s : State) (n : Nat) (lv : Bool) : (s.setLevel n lv).cis = s.cis := by
  unfold State.setLevel; simp only []; split <;> simp
@[simp] theorem State.setLevel_fio (s : State) (n : Nat) (lv : Bool) : (s.setLevel n lv).fio = s.fio := by
  unfold State.setLevel; simp only []; split <;> simp
@[simp] theorem State.setLevel_afe (s : State) (n : Nat) (lv : Bool) : (s.setLevel n lv).afe = s.afe := by
  unfold State.setLevel; simp only []; split <;> simp
@[simp] theorem State.setLevel_dch (s : State) (n : Nat) (lv : Bool) : (s.setLevel n lv).dch = s.dch := by
  unfold State.setLevel; simp only []; split <;> simp
@[simp] theorem State.setLevel_phe (s : State) (n : Nat) (lv : Bool) : (s.setLevel n lv).phe = s.phe := by
  unfold State.setLevel; simp only []; split <;> simp
@[simp] theorem State.setLevel_sv (s : State) (n : Nat) (lv : Bool) : (s.setLevel n lv).sv = s.sv := by
  unfold State.setLevel; simp only []; split <;> simp
@[simp] theorem State.setLevel_ele (s : State) (n : Nat) (lv : Bool) : (s.setLevel n lv).ele = s.ele := by
  unfold State.setLevel; simp only []; split <;> simp
@[simp] theorem State.setLevel_view (s : State) (n : Nat) (lv : Bool) : (s.setLevel n lv).view = s.view := by
  unfold State.setLevel; simp only []; split <;> simp
@[simp] theorem State.setLevel_tmx (s : State) (n : Nat) (lv : Bool) : (s.setLevel n lv).tmx = s.tmx := by
  unfold State.setLevel; simp only []; split <;> simp
@[simp] theorem State.setLevel_rcd (s : State) (n : Nat) (lv : Bool) : (s.setLevel n lv).rcd = s.rcd := by
  unfold State.setLevel; simp only []; split <;> simp
@[simp] theorem State.setLevel_rio (s : State) (n : Nat) (lv : Bool) : (s.setLevel n lv).rio = s.rio := by
  unfold State.setLevel; simp only []; split <;> simp
@[simp] theorem State.setLevel_sec (s : State) (n : Nat) (lv : Bool) : (s.setLevel n lv).sec = s.sec := by
  unfold State.setLevel; simp only []; split <;> simp
@[simp] theorem State.setLevel_aux (s : State) (n : Nat) (lv : Bool) : (s.setLevel n lv).aux = s.aux := by
  unfold State.setLevel; simp only []; split <;> simp
@[simp] theorem State.setLevel_net (s : State) (n : Nat) (lv : Bool) : (s.setLevel n lv).net = s.net := by
  unfold State.setLevel; simp only []; split <;> simp
@[simp] theorem State.setLevel_tpc (s : State) (n : Nat) (lv : Bool) : (s.setLevel n lv).tpc = s.tpc := by
  unfold State.setLevel; simp only []; split <;> simp
@[simp] theorem State.setLevel_csc (s : State) (n : Nat) (lv : Bool) : (s.setLevel n lv).csc = s.csc := by
  unfold State.setLevel; simp only []; split <;> simp
@[simp] theorem State.setLevel_pwr (s : State) (n : Nat) (lv : Bool) : (s.setLevel n lv).pwr = s.pwr := by
  unfold State.setLevel; simp only []; split <;> simp
@[simp] theorem State.setLevel_trim (s : State) (n : Nat) (lv : Bool) : (s.setLevel n lv).trim = s.trim := by
  unfold State.setLevel; simp only []; split <;> simp
@[simp] theorem State.setLevel_free (s : State) (n : Nat) (lv : Bool) : (s.setLevel n lv).free = s.free := by
  unfold State.setLevel; simp only []; split <;> simp
@[simp] theorem State.setLevel_pending (s : State) (n : Nat) (lv : Bool) : (s.setLevel n lv).pending = s.pending := by
  unfold State.setLevel; simp only []; split <;> simp

/-! ### State.flag -/

@[simp] theorem State.flag_mer (s : State) (blk bit : Nat) : (s.flag blk bit).mer = s.mer := by
  unfold State.flag; split <;> simp
@[simp] theorem State.flag_sa (s : State) (blk bit : Nat) : (s.flag blk bit).sa = s.sa := by
  unfold State.flag; split <;> simp
@[simp] theorem State.flag_cis (s : State) (blk bit : Nat) : (s.flag blk bit).cis = s.cis := by
  unfold State.flag; split <;> simp
@[simp] theorem State.flag_fio (s : State) (blk bit : Nat) : (s.flag blk bit).fio = s.fio := by
  unfold State.flag; split <;> simp
@[simp] theorem State.flag_afe (s : State) (blk bit : Nat) : (s.flag blk bit).afe = s.afe := by
  unfold State.flag; split <;> simp
@[simp] theorem State.flag_dch (s : State) (blk bit : Nat) : (s.flag blk bit).dch = s.dch := by
  unfold State.flag; split <;> simp
@[simp] theorem State.flag_phe (s : State) (blk bit : Nat) : (s.flag blk bit).phe = s.phe := by
  unfold State.flag; split <;> simp
@[simp] theorem State.flag_sv (s : State) (blk bit : Nat) : (s.flag blk bit).sv = s.sv := by
  unfold State.flag; split <;> simp
@[simp] theorem State.flag_ele (s : State) (blk bit : Nat) : (s.flag blk bit).ele = s.ele := by
  unfold State.flag; split <;> simp
@[simp] theorem State.flag_view (s : State) (blk bit : Nat) : (s.flag blk bit).view = s.view := by
  unfold State.flag; split <;> simp
@[simp] theorem State.flag_tmx (s : State) (blk bit : Nat) : (s.flag blk bit).tmx = s.tmx := by
  unfold State.flag; split <;> simp
@[simp] theorem State.flag_rcd (s : State) (blk bit : Nat) : (s.flag blk bit).rcd = s.rcd := by
  unfold State.flag; split <;> simp
@[simp] theorem State.flag_rio (s : State) (blk bit : Nat) : (s.flag blk bit).rio = s.rio := by
  unfold State.flag; split <;> simp
@[simp] theorem State.flag_sec (s : State) (blk bit : Nat) : (s.flag blk bit).sec = s.sec := by
  unfold State.flag; split <;> simp
@[simp] theorem State.flag_aux (s : State) (blk bit : Nat) : (s.flag blk bit).aux = s.aux := by
  unfold State.flag; split <;> simp
@[simp] theorem State.flag_net (s : State) (blk bit : Nat) : (s.flag blk bit).net = s.net := by
  unfold State.flag; split <;> simp
@[simp] theorem State.flag_tpc (s : State) (blk bit : Nat) : (s.flag blk bit).tpc = s.tpc := by
  unfold State.flag; split <;> simp
@[simp] theorem State.flag_csc (s : State) (blk bit : Nat) : (s.flag blk bit).csc = s.csc := by
  unfold State.flag; split <;> simp
@[simp] theorem State.flag_pwr (s : State) (blk bit : Nat) : (s.flag blk bit).pwr = s.pwr := by
  unfold State.flag; split <;> simp
@[simp] theorem State.flag_trim (s : State) (blk bit : Nat) : (s.flag blk bit).trim = s.trim := by
  unfold State.flag; split <;> simp
@[simp] theorem State.flag_free (s : State) (blk bit : Nat) : (s.flag blk bit).free = s.free := by
  unfold State.flag; split <;> simp
@[simp] theorem State.flag_pending (s : State) (blk bit : Nat) : (s.flag blk bit).pending = s.pending := by
  unfold State.flag; split <;> simp

/-! ### State.flagAt -/

@[simp] theorem State.flagAt_mer (s : State) (blk bit src : Nat) : (s.flagAt blk bit src).mer = s.mer := by
  unfold State.flagAt; simp
@[simp] theorem State.flagAt_sa (s : State) (blk bit src : Nat) : (s.flagAt blk bit src).sa = s.sa := by
  unfold State.flagAt; simp
@[simp] theorem State.flagAt_cis (s : State) (blk bit src : Nat) : (s.flagAt blk bit src).cis = s.cis := by
  unfold State.flagAt; simp
@[simp] theorem State.flagAt_fio (s : State) (blk bit src : Nat) : (s.flagAt blk bit src).fio = s.fio := by
  unfold State.flagAt; simp
@[simp] theorem State.flagAt_afe (s : State) (blk bit src : Nat) : (s.flagAt blk bit src).afe = s.afe := by
  unfold State.flagAt; simp
@[simp] theorem State.flagAt_dch (s : State) (blk bit src : Nat) : (s.flagAt blk bit src).dch = s.dch := by
  unfold State.flagAt; simp
@[simp] theorem State.flagAt_phe (s : State) (blk bit src : Nat) : (s.flagAt blk bit src).phe = s.phe := by
  unfold State.flagAt; simp
@[simp] theorem State.flagAt_sv (s : State) (blk bit src : Nat) : (s.flagAt blk bit src).sv = s.sv := by
  unfold State.flagAt; simp
@[simp] theorem State.flagAt_ele (s : State) (blk bit src : Nat) : (s.flagAt blk bit src).ele = s.ele := by
  unfold State.flagAt; simp
@[simp] theorem State.flagAt_view (s : State) (blk bit src : Nat) : (s.flagAt blk bit src).view = s.view := by
  unfold State.flagAt; simp
@[simp] theorem State.flagAt_tmx (s : State) (blk bit src : Nat) : (s.flagAt blk bit src).tmx = s.tmx := by
  unfold State.flagAt; simp
@[simp] theorem State.flagAt_rcd (s : State) (blk bit src : Nat) : (s.flagAt blk bit src).rcd = s.rcd := by
  unfold State.flagAt; simp
@[simp] theorem State.flagAt_rio (s : State) (blk bit src : Nat) : (s.flagAt blk bit src).rio = s.rio := by
  unfold State.flagAt; simp
@[simp] theorem State.flagAt_sec (s : State) (blk bit src : Nat) : (s.flagAt blk bit src).sec = s.sec := by
  unfold State.flagAt; simp
@[simp] theorem State.flagAt_aux (s : State) (blk bit src : Nat) : (s.flagAt blk bit src).aux = s.aux := by
  unfold State.flagAt; simp
@[simp] theorem State.flagAt_net (s : State) (blk bit src : Nat) : (s.flagAt blk bit src).net = s.net := by
  unfold State.flagAt; simp
@[simp] theorem State.flagAt_tpc (s : State) (blk bit src : Nat) : (s.flagAt blk bit src).tpc = s.tpc := by
  unfold State.flagAt; simp
@[simp] theorem State.flagAt_csc (s : State) (blk bit src : Nat) : (s.flagAt blk bit src).csc = s.csc := by
  unfold State.flagAt; simp
@[simp] theorem State.flagAt_pwr (s : State) (blk bit src : Nat) : (s.flagAt blk bit src).pwr = s.pwr := by
  unfold State.flagAt; simp
@[simp] theorem State.flagAt_trim (s : State) (blk bit src : Nat) : (s.flagAt blk bit src).trim = s.trim := by
  unfold State.flagAt; simp
@[simp] theorem State.flagAt_free (s : State) (blk bit src : Nat) : (s.flagAt blk bit src).free = s.free := by
  unfold State.flagAt; simp
@[simp] theorem State.flagAt_pending (s : State) (blk bit src : Nat) : (s.flagAt blk bit src).pending = s.pending := by
  unfold State.flagAt; simp

end Sys2Proof.Machine
end

