-- ==== Sys2Proof/Laws/Step.lean ====
section
/-! SUPPORT. The shape of every step: nothing, or an effect and then the settling that follows every one. -/

namespace Sys2Proof.Machine

/-- A change applied to each of a list keeps what each application keeps. -/
theorem State.each_keeps {α : Type} {P : State → Prop} (f : State → α → State) (h : ∀ s x, P s → P (f s x))
    (l : List α) (s : State) (hs : P s) : P (s.each l f) := by
  unfold State.each
  induction l generalizing s with
  | nil => exact hs
  | cons x t ih => exact ih _ (h s x hs)

/-- A value that each application of a change leaves as it is. -/
theorem State.each_same {α β : Type} (p : State → β) (f : State → α → State) (h : ∀ s x, p (f s x) = p s)
    (l : List α) (s : State) : p (s.each l f) = p s :=
  State.each_keeps (P := fun t => p t = p s) f (fun t x ht => (h t x).trans ht) l s rfl

theorem done_settled {s u t : State} (h : done s u = .next t) : t = s ∨ ∃ v, t = settle v := by
  simp only [done, Host.Outcome.next.injEq] at h
  split at h
  · exact Or.inl h.symm
  · exact Or.inr ⟨u, h.symm⟩

/-- A command or event that answers a next state either changes nothing or settles. -/
theorem exec_settled {i : Instr} {s t : State} (h : exec i s = .next t) : t = s ∨ ∃ v, t = settle v := by
  cases i <;> first
    | exact done_settled h
    | exact Or.inr ⟨_, (Host.Outcome.next.inj h).symm⟩

end Sys2Proof.Machine
end

