-- ==== Sys2Proof/Laws/Chains.lean ====
section
/-! SUPPORT. What the feed of the decimation chains leaves of the analogue front end: the next output instant of CIC1. -/

namespace Sys2Proof.Machine

/-- The overload of a modulator is a flag of AFE_OVL with its counter and notice. -/
theorem State.overload_afe (s : State) (m : Nat) : (s.overload m).afe = s.afe := by
  have set_ (f : Fld) (b : Nat) : (((s.p f [] (putBit (s.g f) b true)).cnt AFE_OVLCNT_count [m]).flag AFE 8).afe = s.afe :=
    (State.flag_afe _ _ _).trans rfl
  unfold State.overload
  simp only []
  split
  · split
    · exact set_ _ _
    · rfl
  · split <;> exact set_ _ _

theorem State.putChan_next (s : State) (n : Nat) (c : ChanSt) : (s.putChan n c).afe.next = s.afe.next := rfl

theorem State.wbPoint_next (s : State) (n c : Nat) : (s.wbPoint n c).2.afe.next = s.afe.next := by
  simp only [State.wbPoint, State.putChan_next]
  exact congrArg AfeSt.next (State.p_afe _ _ _ _)

theorem State.wbPoints_next (c : Nat) : ∀ (l : List Nat) (s : State), (s.wbPoints c l).2.afe.next = s.afe.next
  | [], _ => rfl
  | n :: l, s => (State.wbPoints_next c l (s.wbPoint n c).2).trans (s.wbPoint_next n c)

theorem State.setTap_afe (s : State) (t ts : Nat) (ws : List Word) : (s.setTap t ts ws).afe = s.afe := rfl

/-- The feed with its lists of channels and modulators as arguments. -/
def State.feedOver (s : State) (codes : List (List (Int × Bool))) (l k : List Nat) : State :=
  let c := s.afe.next
  let cic2 := decide (c % 128 = 32)
  let cut := k.map fun m => cutCodes (s.chan (chanOf m)).tr (c + 15) (nth codes m [])
  let marked (m : Nat) : List (Int × Bool) := (nth codes m []).take 16
  let mods := k.map fun m =>
    { modStep (s.mod_ m) (nth cut m []) cic2 with ovl := (marked m).getLast?.any (·.2) }
  let due := if cic2 && (c - 288) % 256 = 128 && 1952 ≤ c then some (c - 1952) else none
  let s1 := { s with afe := { s.afe with mods := mods, next := c + 16, mainDue := due } }
  let hit := k.flatMap fun m => List.replicate (s.overloads m (marked m)) m
  let s2 := s1.each hit State.overload
  let (ws, s3) := s2.wbPoints c l
  let old := nth s.dch.taps 0 []
  let out (n : Nat) : Bool := s.cutAt n (c + 30) ≤ c
  let s4 := s3.setTap 0 c (l.map fun n => if out n then nth ws n 0 else nth old n 0)
  if l.any fun n => out n && (nth ws n 0).getLsbD 1 then s4.flag DCH 9 else s4

theorem State.wbFeed_eq (s : State) (codes : List (List (Int × Bool))) : s.wbFeed codes = s.feedOver codes (List.range 16) (List.range 40) := rfl

theorem State.feedOver_next (s : State) (codes : List (List (Int × Bool))) (l k : List Nat) : (s.feedOver codes l k).afe.next = s.afe.next + 16 := by
  have clip (b : Bool) (t : State) : (if b = true then t.flag DCH 9 else t).afe = t.afe := by
    cases b
    · rfl
    · simp only [if_true, State.flag_afe]
  simp only [State.feedOver, clip, State.setTap_afe, State.wbPoints_next]
  rw [State.each_same (fun s => s.afe) State.overload State.overload_afe]

/-- Each feed moves the output instant of CIC1 on by 16 periods (R124). -/
theorem State.wbFeed_next (s : State) (codes : List (List (Int × Bool))) : (s.wbFeed codes).afe.next = s.afe.next + 16 := by
  rw [State.wbFeed_eq]
  exact State.feedOver_next s codes _ _

end Sys2Proof.Machine
end

