-- ==== Sys2Proof/Laws/Exec.lean ====
section
/-! SUPPORT. What exec does with each command and event while the device runs: its effect, then what follows every one. -/

namespace Sys2Proof.Machine

/-- A device that runs takes the effect, and settles. -/
theorem done_runs {s : State} (t : State) (h : s.Runs) : done s t = .next (settle t) := by
  simp [done, h.1, h.2]

theorem exec_registerWrite (a : HostAddr) (be : BitVec 4) (v : Word) {s : State} (hr : s.Runs) :
    exec (.registerWrite a be v) s = .next (settle (hostStore a be v s)) := done_runs _ hr
theorem exec_rcRead (a : HostAddr) {s : State} (hr : s.Runs) :
    exec (.rcRead a) s = .next (settle (hostLoad a s)) := done_runs _ hr
theorem exec_lock (blk : Fin 21) {s : State} (hr : s.Runs) :
    exec (.lock blk) s = .next (settle (s.ctrlWrite blk.val 2)) := done_runs _ hr
theorem exec_softReset (blk : Fin 21) {s : State} (hr : s.Runs) :
    exec (.softReset blk) s = .next (settle (s.ctrlWrite blk.val 1)) := done_runs _ hr
theorem exec_ptpSyncReceive (h : RxHead) (domain : Nat) (sender : BitVec 64) (m : PtpSync) (corr : Int) (residence : Nat) {s : State} (hr : s.Runs) :
    exec (.ptpSyncReceive h domain sender m corr residence) s = .next (settle (ptpSyncReceive h domain sender m corr residence s)) := done_runs _ hr
theorem exec_irigbFrame (f : IrigFrame) (edge : Time) {s : State} (hr : s.Runs) :
    exec (.irigbFrame f edge) s = .next (settle (irigbFrame f edge s)) := done_runs _ hr
theorem exec_ppsInEdge (t : Time) {s : State} (hr : s.Runs) :
    exec (.ppsInEdge t) s = .next (settle (ppsInEdge t s)) := done_runs _ hr
theorem exec_sourceLost (c : Fin 11) {s : State} (hr : s.Runs) :
    exec (.sourceLost c) s = .next (settle (sourceLost c.val s)) := done_runs _ hr
theorem exec_sourceQualify (c : Fin 11) {s : State} (hr : s.Runs) :
    exec (.sourceQualify c) s = .next (settle (sourceQualify c.val s)) := done_runs _ hr
theorem exec_waitToRestore (c : Fin 12) {s : State} (hr : s.Runs) :
    exec (.waitToRestore c) s = .next (settle (waitToRestore c.val s)) := done_runs _ hr
theorem exec_tqEvaluate {s : State} (hr : s.Runs) :
    exec (.tqEvaluate) s = .next (settle (tqEvaluate s)) := done_runs _ hr
theorem exec_tqLock {s : State} (hr : s.Runs) :
    exec (.tqLock) s = .next (settle (tqLock s)) := done_runs _ hr
theorem exec_holdoverLimit {s : State} (hr : s.Runs) :
    exec (.holdoverLimit) s = .next (settle (holdoverLimit s)) := done_runs _ hr
theorem exec_hostCorrectionTimeout {s : State} (hr : s.Runs) :
    exec (.hostCorrectionTimeout) s = .next (settle (hostCorrectionTimeout s)) := done_runs _ hr
theorem exec_merHfreq (v : Word) {s : State} (hr : s.Runs) :
    exec (.merHfreq v) s = .next (settle (s.hostWrite HOST 0x20120 v [])) := done_runs _ hr
theorem exec_merHphase (v : Word) {s : State} (hr : s.Runs) :
    exec (.merHphase v) s = .next (settle (s.hostWrite HOST 0x20124 v [])) := done_runs _ hr
theorem exec_slewSpent {s : State} (hr : s.Runs) :
    exec (.slewSpent) s = .next (settle (slewSpent s)) := done_runs _ hr
theorem exec_merTsetHi (v : Word) {s : State} (hr : s.Runs) :
    exec (.merTsetHi v) s = .next (settle (s.hostWrite HOST 0x20144 v [])) := done_runs _ hr
theorem exec_merNowSlo {s : State} (hr : s.Runs) :
    exec (.merNowSlo) s = .next (settle (rcRead 0x20130 s)) := done_runs _ hr
theorem exec_ppsOutRise {s : State} (hr : s.Runs) :
    exec (.ppsOutRise) s = .next (settle (ppsOutRise s)) := done_runs _ hr
theorem exec_ppsOutFall {s : State} (hr : s.Runs) :
    exec (.ppsOutFall) s = .next (settle (ppsOutFall s)) := done_runs _ hr
theorem exec_irigbOutFrame {s : State} (hr : s.Runs) :
    exec (.irigbOutFrame) s = .next (settle (irigbOutFrame s)) := done_runs _ hr
theorem exec_trigInEdge (n : Fin 2) (rising : Bool) (t : Time) {s : State} (hr : s.Runs) :
    exec (.trigInEdge n rising t) s = .next (settle (trigInEdge n.val rising t s)) := done_runs _ hr
theorem exec_tdcRearm (c : Fin 20) {s : State} (hr : s.Runs) :
    exec (.tdcRearm c) s = .next (settle (tdcRearm c.val s)) := done_runs _ hr
theorem exec_saArm (d : Desc) {s : State} (hr : s.Runs) :
    exec (.saArm d) s = .next (settle (saArm d (s.open_ d))) := done_runs _ hr
theorem exec_saCancel (d : Desc) {s : State} (hr : s.Runs) :
    exec (.saCancel d) s = .next (settle (saCancel d (s.open_ d))) := done_runs _ hr
theorem exec_actionExecute (i : Fin 64) {s : State} (hr : s.Runs) :
    exec (.actionExecute i) s = .next (settle (actionExecute i.val s)) := done_runs _ hr
theorem exec_outPulseEnd (o : Fin 16) {s : State} (hr : s.Runs) :
    exec (.outPulseEnd o) s = .next (settle (outPulseEnd o.val s)) := done_runs _ hr
theorem exec_launchPacket (slot : Fin 64) (p : PktTime) (action : Nat) (arg : Word) {s : State} (hr : s.Runs) :
    exec (.launchPacket slot p action arg) s = .next (settle (launchPacket slot.val p action arg s)) := done_runs _ hr
theorem exec_launchresPacket (h : PktHead) (slot : Fin 64) (st : Nat) {s : State} (hr : s.Runs) :
    exec (.launchresPacket h slot st) s = .next (settle (launchresPacket h slot.val st s)) := done_runs _ hr
theorem exec_nextWholeSecondLabel {s : State} (hr : s.Runs) :
    exec (.nextWholeSecondLabel) s = .next (settle (nextWholeSecondLabel s)) := done_runs _ hr
theorem exec_weirFire (n : Fin 16) (pol : Bool) (t : Time) {s : State} (hr : s.Runs) :
    exec (.weirFire n pol t) s = .next (settle (weirFire n.val pol t s)) := done_runs _ hr
theorem exec_weirRearm (n : Fin 16) {s : State} (hr : s.Runs) :
    exec (.weirRearm n) s = .next (settle (weirRearm n.val s)) := done_runs _ hr
theorem exec_weirSettle (n : Fin 16) {s : State} (hr : s.Runs) :
    exec (.weirSettle n) s = .next (settle (weirSettle n.val s)) := done_runs _ hr
theorem exec_afeWtsRead (n : Fin 16) {s : State} (hr : s.Runs) :
    exec (.afeWtsRead n) s = .next (settle (rcRead (0x30400 + 16 * n.val) s)) := done_runs _ hr
theorem exec_injectionWindow {s : State} (hr : s.Runs) :
    exec (.injectionWindow) s = .next (settle (injectionWindow s)) := done_runs _ hr
theorem exec_wbSample (codes : List (List (Int × Bool))) {s : State} (hr : s.Runs) :
    exec (.wbSample codes) s = .next (settle (wbSample codes s)) := done_runs _ hr
theorem exec_mainPointSample {s : State} (hr : s.Runs) :
    exec (.mainPointSample) s = .next (settle (mainPointSample s)) := done_runs _ hr
theorem exec_fixedTapOutput (t : Fin 3) (avail : Time) (ackNs : Nat) {s : State} (hr : s.Runs) :
    exec (.fixedTapOutput t avail ackNs) s = .next (settle (fixedTapOutput t.val avail ackNs s)) := done_runs _ hr
theorem exec_trackedInstant {s : State} (hr : s.Runs) :
    exec (.trackedInstant) s = .next (settle (trackedInstant s)) := done_runs _ hr
theorem exec_decimatorReset {s : State} (hr : s.Runs) :
    exec (.decimatorReset) s = .next (settle (decimatorReset s)) := done_runs _ hr
theorem exec_channelReset (n : Fin 24) {s : State} (hr : s.Runs) :
    exec (.channelReset n) s = .next (settle (channelReset n.val s)) := done_runs _ hr
theorem exec_pipelineReset (p : Fin 24) {s : State} (hr : s.Runs) :
    exec (.pipelineReset p) s = .next (settle (pipelineReset p.val s)) := done_runs _ hr
theorem exec_syncPinPulse (rising : Bool) (edge : Time) (width : Nat) {s : State} (hr : s.Runs) :
    exec (.syncPinPulse rising edge width) s = .next (settle (syncPinPulse rising edge width s)) := done_runs _ hr
theorem exec_dchSync (d : Desc) {s : State} (hr : s.Runs) :
    exec (.dchSync d) s = .next (settle (dchSync d (s.open_ d))) := done_runs _ hr
theorem exec_dchSynccfgCmd (v : Word) {s : State} (hr : s.Runs) :
    exec (.dchSynccfgCmd v) s = .next (settle (s.hostWrite HOST 0x40110 v [])) := done_runs _ hr
theorem exec_dchSwap (d : Desc) {s : State} (hr : s.Runs) :
    exec (.dchSwap d) s = .next (settle (dchSwap d (s.open_ d))) := done_runs _ hr
theorem exec_dchBdef (v : Word) {s : State} (hr : s.Runs) :
    exec (.dchBdef v) s = .next (settle (s.hostWrite HOST 0x40520 v [])) := done_runs _ hr
theorem exec_dchTrkfreq (v : Word) {s : State} (hr : s.Runs) :
    exec (.dchTrkfreq v) s = .next (settle (s.hostWrite HOST 0x40104 v [])) := done_runs _ hr
theorem exec_trackingHostTimeout {s : State} (hr : s.Runs) :
    exec (.trackingHostTimeout) s = .next (settle (trackingHostTimeout s)) := done_runs _ hr
theorem exec_frame (t0 : Time) (eleNs ackNs : Nat) {s : State} (hr : s.Runs) :
    exec (.frame t0 eleNs ackNs) s = .next (settle (frame t0 eleNs ackNs s)) := done_runs _ hr
theorem exec_pheRfeed (d : Desc) (buf : List Byte) {s : State} (hr : s.Runs) :
    exec (.pheRfeed d buf) s = .next (settle (pheRfeed d buf (s.open_ d))) := done_runs _ hr
theorem exec_pheHfreq (g : Fin 8) (v : Word) {s : State} (hr : s.Runs) :
    exec (.pheHfreq g v) s = .next (settle (s.hostWrite HOST (0x501A0 + 4 * g.val) v [])) := done_runs _ hr
theorem exec_pheHostTimeout (g : Fin 8) {s : State} (hr : s.Runs) :
    exec (.pheHostTimeout g) s = .next (settle (pheHostTimeout g.val s)) := done_runs _ hr
theorem exec_remoteFeedTimeout (r : Fin 8) {s : State} (hr : s.Runs) :
    exec (.remoteFeedTimeout r) s = .next (settle (remoteFeedTimeout r.val s)) := done_runs _ hr
theorem exec_eleSetw (d : Desc) (buf : List Byte) {s : State} (hr : s.Runs) :
    exec (.eleSetw d buf) s = .next (settle (eleSetw d buf (s.open_ d))) := done_runs _ hr
theorem exec_eleResult (d : Desc) {s : State} (hr : s.Runs) :
    exec (.eleResult d) s = .next (settle (eleResult d (s.open_ d))) := done_runs _ hr
theorem exec_eleCfg (n : Fin 256) (v : Word) {s : State} (hr : s.Runs) :
    exec (.eleCfg n v) s = .next (settle (s.hostWrite HOST (0x60100 + 4 * n.val) v [])) := done_runs _ hr
theorem exec_hostResultAgeExpiry (n : Fin 256) {s : State} (hr : s.Runs) :
    exec (.hostResultAgeExpiry n) s = .next (settle (hostResultAgeExpiry n.val s)) := done_runs _ hr
theorem exec_elementTimerExpiry (n : Fin 256) {s : State} (hr : s.Runs) :
    exec (.elementTimerExpiry n) s = .next (settle (elementTimerExpiry n.val s)) := done_runs _ hr
theorem exec_holdLimitExpiry (n : Fin 256) {s : State} (hr : s.Runs) :
    exec (.holdLimitExpiry n) s = .next (settle (holdLimitExpiry n.val s)) := done_runs _ hr
theorem exec_cascadeClassSPass (t : PassTimes) {s : State} (hr : s.Runs) :
    exec (.cascadeClassSPass t) s = .next (settle (cascadeClassSPass t s)) := done_runs _ hr
theorem exec_cascadeDeadline (t : PassTimes) {s : State} (hr : s.Runs) :
    exec (.cascadeDeadline t) s = .next (settle (cascadeDeadline t s)) := done_runs _ hr
theorem exec_slackMissLimit {s : State} (hr : s.Runs) :
    exec (.slackMissLimit) s = .next (settle (slackMissLimit s)) := done_runs _ hr
theorem exec_sealLimitExpiry (r : Fin 64) {s : State} (hr : s.Runs) :
    exec (.sealLimitExpiry r) s = .next (settle (sealLimitExpiry r.val s)) := done_runs _ hr
theorem exec_minPulseEnd (r : Fin 64) {s : State} (hr : s.Runs) :
    exec (.minPulseEnd r) s = .next (settle (minPulseEnd r.val s)) := done_runs _ hr
theorem exec_tmxCommit (v : Word) {s : State} (hr : s.Runs) :
    exec (.tmxCommit v) s = .next (settle (s.hostWrite HOST 0x70700 v [])) := done_runs _ hr
theorem exec_tmxRowEn (r : Fin 64) (v : Word) {s : State} (hr : s.Runs) :
    exec (.tmxRowEn r v) s = .next (settle (s.hostWrite HOST (0x70100 + 4 * r.val) v [])) := done_runs _ hr
theorem exec_tmxRowen (d : Desc) {s : State} (hr : s.Runs) :
    exec (.tmxRowen d) s = .next (settle (tmxRowen d (s.open_ d))) := done_runs _ hr
theorem exec_tcsOnCheck (o : Fin 16) (sensed : Bool) {s : State} (hr : s.Runs) :
    exec (.tcsOnCheck o sensed) s = .next (settle (tcsOnCheck o.val sensed s)) := done_runs _ hr
theorem exec_icuTake (src : BitVec 8) {s : State} (hr : s.Runs) :
    exec (.icuTake src) s = .next (settle (s.hostWrite HOST 0x90110 (src.setWidth 32) [])) := done_runs _ hr
theorem exec_icuDone (src : BitVec 8) {s : State} (hr : s.Runs) :
    exec (.icuDone src) s = .next (settle (s.hostWrite HOST 0x90114 (src.setWidth 32) [])) := done_runs _ hr
theorem exec_icuSwset (j : Fin 5) (v : Word) {s : State} (hr : s.Runs) :
    exec (.icuSwset j v) s = .next (settle (s.hostWrite HOST (0x90120 + 4 * j.val) v [])) := done_runs _ hr
theorem exec_icuRaw (k : Fin 8) (v : Word) {s : State} (hr : s.Runs) :
    exec (.icuRaw k v) s = .next (settle (s.hostWrite HOST (0x90140 + 4 * k.val) v [])) := done_runs _ hr
theorem exec_icuEn (k : Fin 8) (v : Word) {s : State} (hr : s.Runs) :
    exec (.icuEn k v) s = .next (settle (s.hostWrite HOST (0x90160 + 4 * k.val) v [])) := done_runs _ hr
theorem exec_icuSrc (n : Fin 256) (v : Word) {s : State} (hr : s.Runs) :
    exec (.icuSrc n v) s = .next (settle (s.hostWrite HOST (0x90400 + 4 * n.val) v [])) := done_runs _ hr
theorem exec_icuMode (v : Word) {s : State} (hr : s.Runs) :
    exec (.icuMode v) s = .next (settle (s.hostWrite HOST 0x90100 v [])) := done_runs _ hr
theorem exec_levelChange (n : Fin 256) (lv : Bool) {s : State} (hr : s.Runs) :
    exec (.levelChange n lv) s = .next (settle (levelChange n.val lv s)) := done_runs _ hr
theorem exec_msixVectorUnmask (vec : Fin 64) {s : State} (hr : s.Runs) :
    exec (.msixVectorUnmask vec) s = .next (settle (s.hostWrite HOST (0x11800C + 16 * vec.val) 0 [])) := done_runs _ hr
theorem exec_recStart (d : Desc) {s : State} (hr : s.Runs) :
    exec (.recStart d) s = .next (settle (recStart d (s.open_ d))) := done_runs _ hr
theorem exec_recStop (d : Desc) {s : State} (hr : s.Runs) :
    exec (.recStop d) s = .next (settle (recStop d (s.open_ d))) := done_runs _ hr
theorem exec_recTrig (d : Desc) {s : State} (hr : s.Runs) :
    exec (.recTrig d) s = .next (settle (recTrig d (s.open_ d))) := done_runs _ hr
theorem exec_recFlref (d : Desc) {s : State} (hr : s.Runs) :
    exec (.recFlref d) s = .next (settle (recFlref d (s.open_ d))) := done_runs _ hr
theorem exec_recordFlush (k : Fin 4) {s : State} (hr : s.Runs) :
    exec (.recordFlush k) s = .next (settle (recordFlush k.val s)) := done_runs _ hr
theorem exec_wavefrontCaptureEnd {s : State} (hr : s.Runs) :
    exec (.wavefrontCaptureEnd) s = .next (settle (wavefrontCaptureEnd s)) := done_runs _ hr
theorem exec_faultLocationTimeout {s : State} (hr : s.Runs) :
    exec (.faultLocationTimeout) s = .next (settle (faultLocationTimeout s)) := done_runs _ hr
theorem exec_trigPacket (h : PktHead) (t : Time) (method : Nat) (test : Bool) (code idx : Nat) {s : State} (hr : s.Runs) :
    exec (.trigPacket h t method test code idx) s = .next (settle (trigPacket h t method test code idx s)) := done_runs _ hr
theorem exec_diSample (us : Nat) (samples : BitVec 32) {s : State} (hr : s.Runs) :
    exec (.diSample us samples) s = .next (settle (diSample us samples s)) := done_runs _ hr
theorem exec_diFilterTick (i : Fin 32) {s : State} (hr : s.Runs) :
    exec (.diFilterTick i) s = .next (settle (diFilterTick i.val s)) := done_runs _ hr
theorem exec_diDecision (i : Fin 32) {s : State} (hr : s.Runs) :
    exec (.diDecision i) s = .next (settle (diDecision i.val s)) := done_runs _ hr
theorem exec_fioOreq (d : Desc) {s : State} (hr : s.Runs) :
    exec (.fioOreq d) s = .next (settle (fioOreq d (s.open_ d))) := done_runs _ hr
theorem exec_fioReq (v : Word) {s : State} (hr : s.Runs) :
    exec (.fioReq v) s = .next (settle (s.hostWrite HOST 0xC0480 v [])) := done_runs _ hr
theorem exec_fioHostTimeout {s : State} (hr : s.Runs) :
    exec (.fioHostTimeout) s = .next (settle (fioHostTimeout s)) := done_runs _ hr
theorem exec_fioTpulse (d : Desc) {s : State} (hr : s.Runs) :
    exec (.fioTpulse d) s = .next (settle (fioTpulse d (s.open_ d))) := done_runs _ hr
theorem exec_testPulseStart (o : Fin 16) {s : State} (hr : s.Runs) :
    exec (.testPulseStart o) s = .next (settle (testPulseStart o.val s)) := done_runs _ hr
theorem exec_testPulseEnd (o : Fin 16) (crossed : Bool) {s : State} (hr : s.Runs) :
    exec (.testPulseEnd o crossed) s = .next (settle (testPulseEnd o.val crossed s)) := done_runs _ hr
theorem exec_logicSilentExpiry {s : State} (hr : s.Runs) :
    exec (.logicSilentExpiry) s = .next (settle (logicSilentExpiry s)) := done_runs _ hr
theorem exec_refreshRepeat {s : State} (hr : s.Runs) :
    exec (.refreshRepeat) s = .next (settle (refreshRepeat s)) := done_runs _ hr
theorem exec_overcurrent (o : Fin 16) {s : State} (hr : s.Runs) :
    exec (.overcurrent o) s = .next (settle (overcurrent o.val s)) := done_runs _ hr
theorem exec_thermalShutdown (o : Fin 16) {s : State} (hr : s.Runs) :
    exec (.thermalShutdown o) s = .next (settle (thermalShutdown o.val s)) := done_runs _ hr
theorem exec_thermalResume (o : Fin 16) {s : State} (hr : s.Runs) :
    exec (.thermalResume o) s = .next (settle (thermalResume o.val s)) := done_runs _ hr
theorem exec_extdrv (o : Fin 16) {s : State} (hr : s.Runs) :
    exec (.extdrv o) s = .next (settle (extdrv o.val s)) := done_runs _ hr
theorem exec_extdrvClear (o : Fin 16) {s : State} (hr : s.Runs) :
    exec (.extdrvClear o) s = .next (settle (extdrvClear o.val s)) := done_runs _ hr
theorem exec_fioFltlat (k : Fin 4) (v : Word) {s : State} (hr : s.Runs) :
    exec (.fioFltlat k v) s = .next (settle (s.hostWrite HOST (0xC04A0 + 4 * k.val) v [])) := done_runs _ hr
theorem exec_fioDitsRead (i : Fin 32) {s : State} (hr : s.Runs) :
    exec (.fioDitsRead i) s = .next (settle (rcRead (0xC0200 + 16 * i.val) s)) := done_runs _ hr
theorem exec_pollSend (l : Fin 8) (i : Fin 16) {s : State} (hr : s.Runs) :
    exec (.pollSend l i) s = .next (settle (pollSend l.val i.val s)) := done_runs _ hr
theorem exec_respReceive (l : Fin 8) (r : List Byte) (after : Nat) {s : State} (hr : s.Runs) :
    exec (.respReceive l r after) s = .next (settle (respReceive l.val r after s)) := done_runs _ hr
theorem exec_pollSlotEnd (l : Fin 8) {s : State} (hr : s.Runs) :
    exec (.pollSlotEnd l) s = .next (settle (pollSlotEnd l.val s)) := done_runs _ hr
theorem exec_stationDropOut (l : Fin 8) (i : Fin 16) {s : State} (hr : s.Runs) :
    exec (.stationDropOut l i) s = .next (settle (stationDropOut l.val i.val s)) := done_runs _ hr
theorem exec_rioOut (d : Desc) (buf : List Byte) {s : State} (hr : s.Runs) :
    exec (.rioOut d buf) s = .next (settle (rioOut d buf (s.open_ d))) := done_runs _ hr
theorem exec_rioHostTimeout (l : Fin 8) (i : Fin 16) {s : State} (hr : s.Runs) :
    exec (.rioHostTimeout l i) s = .next (settle (rioHostTimeout l.val i.val s)) := done_runs _ hr
theorem exec_auxConv (d : Desc) {s : State} (hr : s.Runs) :
    exec (.auxConv d) s = .next (settle (auxConv d (s.open_ d))) := done_runs _ hr
theorem exec_auxRun (a : Fin 2) (v : Word) {s : State} (hr : s.Runs) :
    exec (.auxRun a v) s = .next (settle (s.hostWrite HOST (0xB0100 + 4 * a.val) v [])) := done_runs _ hr
theorem exec_auxIntegrationStart (a : Fin 2) {s : State} (hr : s.Runs) :
    exec (.auxIntegrationStart a) s = .next (settle (auxIntegrationStart a.val s)) := done_runs _ hr
theorem exec_auxResult (a : Fin 2) (raw : Int) {s : State} (hr : s.Runs) :
    exec (.auxResult a raw) s = .next (settle (auxResult a.val raw s)) := done_runs _ hr
theorem exec_auxBusyEnd (a : Fin 2) {s : State} (hr : s.Runs) :
    exec (.auxBusyEnd a) s = .next (settle (auxBusyEnd a.val s)) := done_runs _ hr
theorem exec_ptmrEvent (u : Fin 8) {s : State} (hr : s.Runs) :
    exec (.ptmrEvent u) s = .next (settle (ptmrEvent u.val s)) := done_runs _ hr
theorem exec_ptmrHighEnd (u : Fin 8) {s : State} (hr : s.Runs) :
    exec (.ptmrHighEnd u) s = .next (settle (ptmrHighEnd u.val s)) := done_runs _ hr
theorem exec_ptmrOneshotStart (u : Fin 8) {s : State} (hr : s.Runs) :
    exec (.ptmrOneshotStart u) s = .next (settle (ptmrOneshotStart u.val s)) := done_runs _ hr
theorem exec_ptmrPulse (d : Desc) {s : State} (hr : s.Runs) :
    exec (.ptmrPulse d) s = .next (settle (ptmrPulse d (s.open_ d))) := done_runs _ hr
theorem exec_outputLeavesLimit (o : Fin 16) {s : State} (hr : s.Runs) :
    exec (.outputLeavesLimit o) s = .next (settle (outputLeavesLimit o.val s)) := done_runs _ hr
theorem exec_timeTaskRelease (b : Fin 4) (t : Fin 16) {s : State} (hr : s.Runs) :
    exec (.timeTaskRelease b t) s = .next (settle (timeTaskRelease b.val t.val s)) := done_runs _ hr
theorem exec_koverReached (b : Fin 4) {s : State} (hr : s.Runs) :
    exec (.koverReached b) s = .next (settle (koverReached b.val s)) := done_runs _ hr
theorem exec_watchdogExpiry (b : Fin 4) {s : State} (hr : s.Runs) :
    exec (.watchdogExpiry b) s = .next (settle (watchdogExpiry b.val s)) := done_runs _ hr
theorem exec_switchPoint (b : Fin 4) {s : State} (hr : s.Runs) :
    exec (.switchPoint b) s = .next (settle (switchPoint b.val s)) := done_runs _ hr
theorem exec_switchTimeout (b : Fin 4) {s : State} (hr : s.Runs) :
    exec (.switchTimeout b) s = .next (settle (switchTimeout b.val s)) := done_runs _ hr
theorem exec_bcpLoadChecked (b : Fin 4) {s : State} (hr : s.Runs) :
    exec (.bcpLoadChecked b) s = .next (settle (bcpLoadChecked b.val s)) := done_runs _ hr
theorem exec_bcpImask (b : Fin 4) (v : Word) {s : State} (hr : s.Runs) :
    exec (.bcpImask b v) s = .next (settle (s.hostWrite HOST (0x80130 + 4 * b.val) v [])) := done_runs _ hr
theorem exec_bcpStart (d : Desc) {s : State} (hr : s.Runs) :
    exec (.bcpStart d) s = .next (settle (bcpStart d (s.open_ d))) := done_runs _ hr
theorem exec_bcpStop (d : Desc) {s : State} (hr : s.Runs) :
    exec (.bcpStop d) s = .next (settle (bcpStop d (s.open_ d))) := done_runs _ hr
theorem exec_bcpLoad (d : Desc) (buf : List Byte) {s : State} (hr : s.Runs) :
    exec (.bcpLoad d buf) s = .next (settle (bcpLoad d buf (s.open_ d))) := done_runs _ hr
theorem exec_bcpSwitch (d : Desc) {s : State} (hr : s.Runs) :
    exec (.bcpSwitch d) s = .next (settle (bcpSwitch d (s.open_ d))) := done_runs _ hr
theorem exec_bcpMap (d : Desc) (buf : List Byte) {s : State} (hr : s.Runs) :
    exec (.bcpMap d buf) s = .next (settle (bcpMap d buf (s.open_ d))) := done_runs _ hr
theorem exec_bcpForce (d : Desc) {s : State} (hr : s.Runs) :
    exec (.bcpForce d) s = .next (settle (bcpForce d (s.open_ d))) := done_runs _ hr
theorem exec_bcpUnforce (d : Desc) {s : State} (hr : s.Runs) :
    exec (.bcpUnforce d) s = .next (settle (bcpUnforce d (s.open_ d))) := done_runs _ hr
theorem exec_bcpTout (d : Desc) (buf : List Byte) {s : State} (hr : s.Runs) :
    exec (.bcpTout d buf) s = .next (settle (bcpTout d buf (s.open_ d))) := done_runs _ hr
theorem exec_fbcNop (b : Fin 4) {s : State} (hr : s.Runs) :
    exec (.fbcNop b) s = .next (settle (fbcNop b.val s)) := done_runs _ hr
theorem exec_ldi (b : Fin 4) {s : State} (hr : s.Runs) :
    exec (.ldi b) s = .next (settle (ldi b.val s)) := done_runs _ hr
theorem exec_ldc (b : Fin 4) {s : State} (hr : s.Runs) :
    exec (.ldc b) s = .next (settle (ldc b.val s)) := done_runs _ hr
theorem exec_dup (b : Fin 4) {s : State} (hr : s.Runs) :
    exec (.dup b) s = .next (settle (dup b.val s)) := done_runs _ hr
theorem exec_drop (b : Fin 4) {s : State} (hr : s.Runs) :
    exec (.drop b) s = .next (settle (drop b.val s)) := done_runs _ hr
theorem exec_swap (b : Fin 4) {s : State} (hr : s.Runs) :
    exec (.swap b) s = .next (settle (swap b.val s)) := done_runs _ hr
theorem exec_fbcOver (b : Fin 4) {s : State} (hr : s.Runs) :
    exec (.fbcOver b) s = .next (settle (fbcOver b.val s)) := done_runs _ hr
theorem exec_rot (b : Fin 4) {s : State} (hr : s.Runs) :
    exec (.rot b) s = .next (settle (rot b.val s)) := done_runs _ hr
theorem exec_ldl (b : Fin 4) {s : State} (hr : s.Runs) :
    exec (.ldl b) s = .next (settle (ldl b.val s)) := done_runs _ hr
theorem exec_stl (b : Fin 4) {s : State} (hr : s.Runs) :
    exec (.stl b) s = .next (settle (stl b.val s)) := done_runs _ hr
theorem exec_ldg (b : Fin 4) {s : State} (hr : s.Runs) :
    exec (.ldg b) s = .next (settle (ldg b.val s)) := done_runs _ hr
theorem exec_stg (b : Fin 4) {s : State} (hr : s.Runs) :
    exec (.stg b) s = .next (settle (stg b.val s)) := done_runs _ hr
theorem exec_ldx (b : Fin 4) {s : State} (hr : s.Runs) :
    exec (.ldx b) s = .next (settle (ldx b.val s)) := done_runs _ hr
theorem exec_stx (b : Fin 4) {s : State} (hr : s.Runs) :
    exec (.stx b) s = .next (settle (stx b.val s)) := done_runs _ hr
theorem exec_lea (b : Fin 4) {s : State} (hr : s.Runs) :
    exec (.lea b) s = .next (settle (lea b.val s)) := done_runs _ hr
theorem exec_qget (b : Fin 4) {s : State} (hr : s.Runs) :
    exec (.qget b) s = .next (settle (qget b.val s)) := done_runs _ hr
theorem exec_qset (b : Fin 4) {s : State} (hr : s.Runs) :
    exec (.qset b) s = .next (settle (qset b.val s)) := done_runs _ hr
theorem exec_add (b : Fin 4) {s : State} (hr : s.Runs) :
    exec (.add b) s = .next (settle (fbcAdd b.val s)) := done_runs _ hr
theorem exec_sub (b : Fin 4) {s : State} (hr : s.Runs) :
    exec (.sub b) s = .next (settle (fbcSub b.val s)) := done_runs _ hr
theorem exec_mul (b : Fin 4) {s : State} (hr : s.Runs) :
    exec (.mul b) s = .next (settle (fbcMul b.val s)) := done_runs _ hr
theorem exec_div (b : Fin 4) {s : State} (hr : s.Runs) :
    exec (.div b) s = .next (settle (fbcDiv b.val s)) := done_runs _ hr
theorem exec_mod (b : Fin 4) {s : State} (hr : s.Runs) :
    exec (.mod b) s = .next (settle (fbcMod b.val s)) := done_runs _ hr
theorem exec_neg (b : Fin 4) {s : State} (hr : s.Runs) :
    exec (.neg b) s = .next (settle (fbcNeg b.val s)) := done_runs _ hr
theorem exec_abs (b : Fin 4) {s : State} (hr : s.Runs) :
    exec (.abs b) s = .next (settle (fbcAbs b.val s)) := done_runs _ hr
theorem exec_min (b : Fin 4) {s : State} (hr : s.Runs) :
    exec (.min b) s = .next (settle (fbcMin b.val s)) := done_runs _ hr
theorem exec_max (b : Fin 4) {s : State} (hr : s.Runs) :
    exec (.max b) s = .next (settle (fbcMax b.val s)) := done_runs _ hr
theorem exec_limit (b : Fin 4) {s : State} (hr : s.Runs) :
    exec (.limit b) s = .next (settle (limit b.val s)) := done_runs _ hr
theorem exec_cvt (b : Fin 4) {s : State} (hr : s.Runs) :
    exec (.cvt b) s = .next (settle (cvt b.val s)) := done_runs _ hr
theorem exec_math (b : Fin 4) {s : State} (hr : s.Runs) :
    exec (.math b) s = .next (settle (math b.val s)) := done_runs _ hr
theorem exec_cmp (b : Fin 4) {s : State} (hr : s.Runs) :
    exec (.cmp b) s = .next (settle (cmp b.val s)) := done_runs _ hr
theorem exec_sel (b : Fin 4) {s : State} (hr : s.Runs) :
    exec (.sel b) s = .next (settle (sel b.val s)) := done_runs _ hr
theorem exec_and (b : Fin 4) {s : State} (hr : s.Runs) :
    exec (.and b) s = .next (settle (fbcAnd b.val s)) := done_runs _ hr
theorem exec_or (b : Fin 4) {s : State} (hr : s.Runs) :
    exec (.or b) s = .next (settle (fbcOr b.val s)) := done_runs _ hr
theorem exec_xor (b : Fin 4) {s : State} (hr : s.Runs) :
    exec (.xor b) s = .next (settle (fbcXor b.val s)) := done_runs _ hr
theorem exec_not (b : Fin 4) {s : State} (hr : s.Runs) :
    exec (.not b) s = .next (settle (fbcNot b.val s)) := done_runs _ hr
theorem exec_shl (b : Fin 4) {s : State} (hr : s.Runs) :
    exec (.shl b) s = .next (settle (shl b.val s)) := done_runs _ hr
theorem exec_shr (b : Fin 4) {s : State} (hr : s.Runs) :
    exec (.shr b) s = .next (settle (shr b.val s)) := done_runs _ hr
theorem exec_jmp (b : Fin 4) {s : State} (hr : s.Runs) :
    exec (.jmp b) s = .next (settle (jmp b.val s)) := done_runs _ hr
theorem exec_jz (b : Fin 4) {s : State} (hr : s.Runs) :
    exec (.jz b) s = .next (settle (jz b.val s)) := done_runs _ hr
theorem exec_jnz (b : Fin 4) {s : State} (hr : s.Runs) :
    exec (.jnz b) s = .next (settle (jnz b.val s)) := done_runs _ hr
theorem exec_call (b : Fin 4) {s : State} (hr : s.Runs) :
    exec (.call b) s = .next (settle (call b.val s)) := done_runs _ hr
theorem exec_ret (b : Fin 4) {s : State} (hr : s.Runs) :
    exec (.ret b) s = .next (settle (ret b.val s)) := done_runs _ hr
theorem exec_callx (b : Fin 4) {s : State} (hr : s.Runs) :
    exec (.callx b) s = .next (settle (callx b.val s)) := done_runs _ hr
theorem exec_tend (b : Fin 4) {s : State} (hr : s.Runs) :
    exec (.tend b) s = .next (settle (tend b.val s)) := done_runs _ hr
theorem exec_aflag (b : Fin 4) {s : State} (hr : s.Runs) :
    exec (.aflag b) s = .next (settle (aflag b.val s)) := done_runs _ hr
theorem exec_now (b : Fin 4) {s : State} (hr : s.Runs) :
    exec (.now b) s = .next (settle (now b.val s)) := done_runs _ hr
theorem exec_ton (b : Fin 4) {s : State} (hr : s.Runs) :
    exec (.ton b) s = .next (settle (ton b.val s)) := done_runs _ hr
theorem exec_tof (b : Fin 4) {s : State} (hr : s.Runs) :
    exec (.tof b) s = .next (settle (tof b.val s)) := done_runs _ hr
theorem exec_tp (b : Fin 4) {s : State} (hr : s.Runs) :
    exec (.tp b) s = .next (settle (tp b.val s)) := done_runs _ hr
theorem exec_rTrig (b : Fin 4) {s : State} (hr : s.Runs) :
    exec (.rTrig b) s = .next (settle (rTrig b.val s)) := done_runs _ hr
theorem exec_fTrig (b : Fin 4) {s : State} (hr : s.Runs) :
    exec (.fTrig b) s = .next (settle (fTrig b.val s)) := done_runs _ hr
theorem exec_ctu (b : Fin 4) {s : State} (hr : s.Runs) :
    exec (.ctu b) s = .next (settle (ctu b.val s)) := done_runs _ hr
theorem exec_ctd (b : Fin 4) {s : State} (hr : s.Runs) :
    exec (.ctd b) s = .next (settle (ctd b.val s)) := done_runs _ hr
theorem exec_sr (b : Fin 4) {s : State} (hr : s.Runs) :
    exec (.sr b) s = .next (settle (sr b.val s)) := done_runs _ hr
theorem exec_rs (b : Fin 4) {s : State} (hr : s.Runs) :
    exec (.rs b) s = .next (settle (rs b.val s)) := done_runs _ hr
theorem exec_eleread (b : Fin 4) {s : State} (hr : s.Runs) :
    exec (.eleread b) s = .next (settle (eleread b.val s)) := done_runs _ hr
theorem exec_qread (b : Fin 4) {s : State} (hr : s.Runs) :
    exec (.qread b) s = .next (settle (qread b.val s)) := done_runs _ hr
theorem exec_rowen (b : Fin 4) {s : State} (hr : s.Runs) :
    exec (.rowen b) s = .next (settle (rowen b.val s)) := done_runs _ hr
theorem exec_saarm (b : Fin 4) {s : State} (hr : s.Runs) :
    exec (.saarm b) s = .next (settle (saarm b.val s)) := done_runs _ hr
theorem exec_sacancel (b : Fin 4) {s : State} (hr : s.Runs) :
    exec (.sacancel b) s = .next (settle (sacancel b.val s)) := done_runs _ hr
theorem exec_saread (b : Fin 4) {s : State} (hr : s.Runs) :
    exec (.saread b) s = .next (settle (saread b.val s)) := done_runs _ hr
theorem exec_recmark (b : Fin 4) {s : State} (hr : s.Runs) :
    exec (.recmark b) s = .next (settle (recmark b.val s)) := done_runs _ hr
theorem exec_ethLinkChange (p : Fin 8) (up : Bool) {s : State} (hr : s.Runs) :
    exec (.ethLinkChange p up) s = .next (settle (ethLinkChange p.val up s)) := done_runs _ hr
theorem exec_rxFrame (h : RxHead) {s : State} (hr : s.Runs) :
    exec (.rxFrame h) s = .next (settle (rxFrame h s)) := done_runs _ hr
theorem exec_ptpMessageReceive (h : RxHead) (domain : Nat) (m : PtpMsg) {s : State} (hr : s.Runs) :
    exec (.ptpMessageReceive h domain m) s = .next (settle (ptpMessageReceive h domain m s)) := done_runs _ hr
theorem exec_ptpSyncSend (p : Fin 8) {s : State} (hr : s.Runs) :
    exec (.ptpSyncSend p) s = .next (settle (ptpSyncSend p.val s)) := done_runs _ hr
theorem exec_ptpAnnounceSend (p : Fin 8) {s : State} (hr : s.Runs) :
    exec (.ptpAnnounceSend p) s = .next (settle (ptpAnnounceSend p.val s)) := done_runs _ hr
theorem exec_pdelayReqSend (p : Fin 8) {s : State} (hr : s.Runs) :
    exec (.pdelayReqSend p) s = .next (settle (pdelayReqSend p.val s)) := done_runs _ hr
theorem exec_prpSupervisionSend (k : Fin 4) {s : State} (hr : s.Runs) :
    exec (.prpSupervisionSend k) s = .next (settle (prpSupervisionSend k.val s)) := done_runs _ hr
theorem exec_duplicateForget (k : Fin 4) {s : State} (hr : s.Runs) :
    exec (.duplicateForget k) s = .next (settle (duplicateForget k.val s)) := done_runs _ hr
theorem exec_svFrameReceive (h : RxHead) (f : SvIn) {s : State} (hr : s.Runs) :
    exec (.svFrameReceive h f) s = .next (settle (svFrameReceive h f s)) := done_runs _ hr
theorem exec_svSubscriptionLost (k : Fin 64) {s : State} (hr : s.Runs) :
    exec (.svSubscriptionLost k) s = .next (settle (svSubscriptionLost k.val s)) := done_runs _ hr
theorem exec_gooseFrameReceive (h : RxHead) (f : GooseIn) {s : State} (hr : s.Runs) :
    exec (.gooseFrameReceive h f) s = .next (settle (gooseFrameReceive h f s)) := done_runs _ hr
theorem exec_gooseTalExpiry (k : Fin 256) {s : State} (hr : s.Runs) :
    exec (.gooseTalExpiry k) s = .next (settle (gooseTalExpiry k.val s)) := done_runs _ hr
theorem exec_gooseRepeat (j : Fin 64) {s : State} (hr : s.Runs) :
    exec (.gooseRepeat j) s = .next (settle (gooseRepeat j.val s)) := done_runs _ hr
theorem exec_netGval (j : Fin 8) (v : Word) {s : State} (hr : s.Runs) :
    exec (.netGval j v) s = .next (settle (s.hostWrite HOST (0xE0280 + 4 * j.val) v [])) := done_runs _ hr
theorem exec_netTx (d : Desc) (buf : List Byte) {s : State} (hr : s.Runs) :
    exec (.netTx d buf) s = .next (settle (netTx d buf (s.open_ d))) := done_runs _ hr
theorem exec_netSvsub (d : Desc) (buf : List Byte) {s : State} (hr : s.Runs) :
    exec (.netSvsub d buf) s = .next (settle (netSvsub d buf (s.open_ d))) := done_runs _ hr
theorem exec_netSvpub (d : Desc) (buf : List Byte) {s : State} (hr : s.Runs) :
    exec (.netSvpub d buf) s = .next (settle (netSvpub d buf (s.open_ d))) := done_runs _ hr
theorem exec_netGsub (d : Desc) (buf : List Byte) {s : State} (hr : s.Runs) :
    exec (.netGsub d buf) s = .next (settle (netGsub d buf (s.open_ d))) := done_runs _ hr
theorem exec_netGpub (d : Desc) (buf : List Byte) {s : State} (hr : s.Runs) :
    exec (.netGpub d buf) s = .next (settle (netGpub d buf (s.open_ d))) := done_runs _ hr
theorem exec_netKey (d : Desc) (buf : List Byte) {s : State} (hr : s.Runs) :
    exec (.netKey d buf) s = .next (settle (netKey d buf (s.open_ d))) := done_runs _ hr
theorem exec_tpFrameSend (p : Fin 4) {s : State} (hr : s.Runs) :
    exec (.tpFrameSend p) s = .next (settle (tpFrameSend p.val s)) := done_runs _ hr
theorem exec_tpFrameReceive (p : Fin 4) (l : List Byte) (pin : Time) (rdi : Bool) {s : State} (hr : s.Runs) :
    exec (.tpFrameReceive p l pin rdi) s = .next (settle (tpFrameReceive p.val l pin rdi s)) := done_runs _ hr
theorem exec_lossOfFrame (p : Fin 4) {s : State} (hr : s.Runs) :
    exec (.lossOfFrame p) s = .next (settle (lossOfFrame p.val s)) := done_runs _ hr
theorem exec_tpCommandTimeout (p : Fin 4) {s : State} (hr : s.Runs) :
    exec (.tpCommandTimeout p) s = .next (settle (tpCommandTimeout p.val s)) := done_runs _ hr
theorem exec_tpcLos (p : Fin 4) (lost : Bool) {s : State} (hr : s.Runs) :
    exec (.tpcLos p lost) s = .next (settle (tpcLos p.val lost s)) := done_runs _ hr
theorem exec_commandTake (r : Fin 128) (rd : Option CmdRead) {s : State} (hr : s.Runs) :
    exec (.commandTake r rd) s = .next (settle (commandTake r.val rd s)) := done_runs _ hr
theorem exec_completionWrite {s : State} (hr : s.Runs) :
    exec (.completionWrite) s = .next (settle (completionWrite s)) := done_runs _ hr
theorem exec_writeBack (r : Fin 128) (failed : Bool) {s : State} (hr : s.Runs) :
    exec (.writeBack r failed) s = .next (settle (writeBack r.val failed s)) := done_runs _ hr
theorem exec_ringEnable (r : Fin 128) (v : Word) (slots : List (Nat × Nat)) {s : State} (hr : s.Runs) :
    exec (.ringEnable r v slots) s = .next (settle (s.hostWrite HOST (0x110108 + 16 * r.val) v slots)) := done_runs _ hr
theorem exec_hifDb (r : Fin 128) (v : Word) (slots : List (Nat × Nat)) {s : State} (hr : s.Runs) :
    exec (.hifDb r v slots) s = .next (settle (s.hostWrite HOST (0x114000 + 4 * r.val) v slots)) := done_runs _ hr
theorem exec_nop (d : Desc) {s : State} (hr : s.Runs) :
    exec (.nop d) s = .next (settle (nop d (s.open_ d))) := done_runs _ hr
theorem exec_functionLevelReset {s : State} (hr : s.Runs) :
    exec (.functionLevelReset) s = .next (settle (functionLevelReset s)) := done_runs _ hr
theorem exec_perstN {s : State} (hr : s.Runs) :
    exec (.perstN) s = .next (settle (perstN s)) := done_runs _ hr
theorem exec_hostLinkChange (up bme d3 : Bool) (speed width : Nat) {s : State} (hr : s.Runs) :
    exec (.hostLinkChange up bme d3 speed width) s = .next (settle (hostLinkChange up bme d3 speed width s)) := done_runs _ hr
theorem exec_lohelysLinkChange (j : Fin 4) (lock : Bool) {s : State} (hr : s.Runs) :
    exec (.lohelysLinkChange j lock) s = .next (settle (lohelysLinkChange j.val lock s)) := done_runs _ hr
theorem exec_helloSend (j : Fin 4) {s : State} (hr : s.Runs) :
    exec (.helloSend j) s = .next (settle (helloSend j.val s)) := done_runs _ hr
theorem exec_helloPacket (h : PktHead) (serial : BitVec 64) (strap : Bool) (st pos plink : Nat) {s : State} (hr : s.Runs) :
    exec (.helloPacket h serial strap st pos plink) s = .next (settle (helloPacket h serial strap st pos plink s)) := done_runs _ hr
theorem exec_formationEnd (g : StackGroup) {s : State} (hr : s.Runs) :
    exec (.formationEnd g) s = .next (settle (formationEnd g s)) := done_runs _ hr
theorem exec_linkDelayMeasure (j : Fin 4) {s : State} (hr : s.Runs) :
    exec (.linkDelayMeasure j) s = .next (settle (linkDelayMeasure j.val s)) := done_runs _ hr
theorem exec_timePacket (h : PktHead) (stamps : List Time) (arr : Time) {s : State} (hr : s.Runs) :
    exec (.timePacket h stamps arr) s = .next (settle (timePacket h stamps arr s)) := done_runs _ hr
theorem exec_cascadeSyncSend {s : State} (hr : s.Runs) :
    exec (.cascadeSyncSend) s = .next (settle (cascadeSyncSend s)) := done_runs _ hr
theorem exec_syncPacket (h : PktHead) (sent : Time) (cum tq : Nat) (step : Bool) (response : Option Int) {s : State} (hr : s.Runs) :
    exec (.syncPacket h sent cum tq step response) s = .next (settle (syncPacket h sent cum tq step response s)) := done_runs _ hr
theorem exec_alignment {s : State} (hr : s.Runs) :
    exec (.alignment) s = .next (settle (alignment s)) := done_runs _ hr
theorem exec_gridPacket (p : PktTime) (rate : Nat) {s : State} (hr : s.Runs) :
    exec (.gridPacket p rate) s = .next (settle (gridPacket p rate s)) := done_runs _ hr
theorem exec_pubPacket (h : PktHead) (hdr parts rest : List Byte) {s : State} (hr : s.Runs) :
    exec (.pubPacket h hdr parts rest) s = .next (settle (pubPacket h hdr parts rest s)) := done_runs _ hr
theorem exec_levelPacket (h : PktHead) (lv : Bool) {s : State} (hr : s.Runs) :
    exec (.levelPacket h lv) s = .next (settle (levelPacket h lv s)) := done_runs _ hr
theorem exec_levelSend {s : State} (hr : s.Runs) :
    exec (.levelSend) s = .next (settle (levelSend s)) := done_runs _ hr
theorem exec_tunPacket (h : PktHead) (x : TunMsg) {s : State} (hr : s.Runs) :
    exec (.tunPacket h x) s = .next (settle (tunPacket h x s)) := done_runs _ hr
theorem exec_cscWr (d : Desc) (buf : List Byte) {s : State} (hr : s.Runs) :
    exec (.cscWr d buf) s = .next (settle (cscWr d buf (s.open_ d))) := done_runs _ hr
theorem exec_cscRd (d : Desc) (buf : List Byte) {s : State} (hr : s.Runs) :
    exec (.cscRd d buf) s = .next (settle (cscRd d buf (s.open_ d))) := done_runs _ hr
theorem exec_cscCfg (v : Word) {s : State} (hr : s.Runs) :
    exec (.cscCfg v) s = .next (settle (s.hostWrite HOST 0x100100 v [])) := done_runs _ hr
theorem exec_memberLost (m : Fin 8) {s : State} (hr : s.Runs) :
    exec (.memberLost m) s = .next (settle (memberLost m.val s)) := done_runs _ hr
theorem exec_detach {s : State} (hr : s.Runs) :
    exec (.detach) s = .next (settle (detach s)) := done_runs _ hr
theorem exec_announceReceiptTimeout (p : Fin 8) {s : State} (hr : s.Runs) :
    exec (.announceReceiptTimeout p) s = .next (settle (announceReceiptTimeout p.val s)) := done_runs _ hr
theorem exec_secAttest (d : Desc) (buf : List Byte) {s : State} (hr : s.Runs) :
    exec (.secAttest d buf) s = .next (settle (secAttest d buf (s.open_ d))) := done_runs _ hr
theorem exec_secSign (d : Desc) (buf : List Byte) {s : State} (hr : s.Runs) :
    exec (.secSign d buf) s = .next (settle (secSign d buf (s.open_ d))) := done_runs _ hr
theorem exec_secCert (d : Desc) {s : State} (hr : s.Runs) :
    exec (.secCert d) s = .next (settle (secCert d (s.open_ d))) := done_runs _ hr
theorem exec_secEnroll (d : Desc) (buf : List Byte) {s : State} (hr : s.Runs) :
    exec (.secEnroll d buf) s = .next (settle (secEnroll d buf (s.open_ d))) := done_runs _ hr
theorem exec_signingComplete {s : State} (hr : s.Runs) :
    exec (.signingComplete) s = .next (settle (signingComplete s)) := done_runs _ hr
theorem exec_enrollCommit {s : State} (hr : s.Runs) :
    exec (.enrollCommit) s = .next (settle (enrollCommit s)) := done_runs _ hr
theorem exec_bootImageChecked (flash : Option (List Byte)) {s : State} (hr : s.Runs) :
    exec (.bootImageChecked flash) s = .next (settle (bootImageChecked flash s)) := done_runs _ hr
theorem exec_pwrBoot (d : Desc) (buf : List Byte) {s : State} (hr : s.Runs) :
    exec (.pwrBoot d buf) s = .next (settle (pwrBoot d buf (s.open_ d))) := done_runs _ hr
theorem exec_pwrState (d : Desc) {s : State} (hr : s.Runs) :
    exec (.pwrState d) s = .next (settle (pwrState d (s.open_ d))) := done_runs _ hr
theorem exec_vsupLow {s : State} (hr : s.Runs) :
    exec (.vsupLow) s = .next (settle (vsupLow s)) := done_runs _ hr
theorem exec_pwrReset (v : Word) {s : State} (hr : s.Runs) :
    exec (.pwrReset v) s = .next (settle (s.hostWrite HOST 0x10120 v [])) := done_runs _ hr
theorem exec_refclkLoss {s : State} (hr : s.Runs) :
    exec (.refclkLoss) s = .next (settle (refclkLoss s)) := done_runs _ hr
theorem exec_vcoreConfirm (mv : Nat) {s : State} (hr : s.Runs) :
    exec (.vcoreConfirm mv) s = .next (settle (vcoreConfirm mv s)) := done_runs _ hr
theorem exec_wake {s : State} (hr : s.Runs) :
    exec (.wake) s = .next (settle (wake s)) := done_runs _ hr
theorem exec_temperatureMeasure (dig ana io : Int) (vsup : Nat) {s : State} (hr : s.Runs) :
    exec (.temperatureMeasure dig ana io vsup) s = .next (settle (temperatureMeasure dig ana io vsup s)) := done_runs _ hr
theorem exec_duskReturn {s : State} (hr : s.Runs) :
    exec (.duskReturn) s = .next (settle (duskReturn s)) := done_runs _ hr
theorem exec_paceMeasure (n : Nat) {s : State} (hr : s.Runs) :
    exec (.paceMeasure n) s = .next (settle (paceMeasure n s)) := done_runs _ hr
theorem exec_tstOpnd (d : Desc) (buf : List Byte) {s : State} (hr : s.Runs) :
    exec (.tstOpnd d buf) s = .next (settle (tstOpnd d buf (s.open_ d))) := done_runs _ hr
theorem exec_tstMsub (v : Word) {s : State} (hr : s.Runs) :
    exec (.tstMsub v) s = .next (settle (s.hostWrite HOST 0x140110 v [])) := done_runs _ hr
theorem exec_scrub (err : Fin 3) (blk : Fin 21) {s : State} (hr : s.Runs) :
    exec (.scrub err blk) s = .next (settle (scrub err.val blk.val s)) := done_runs _ hr
theorem exec_interdieStall (io : Bool) {s : State} (hr : s.Runs) :
    exec (.interdieStall io) s = .next (settle (interdieStall io s)) := done_runs _ hr
theorem exec_classSStall (stage : Fin 3) {s : State} (hr : s.Runs) :
    exec (.classSStall stage) s = .next (settle (classSStall stage.val s)) := done_runs _ hr
theorem exec_vcoreLow (mv : Nat) {s : State} (hr : s.Runs) :
    exec (.vcoreLow mv) s = .next (settle (vcoreLow mv s)) := done_runs _ hr
theorem exec_blockStall (blk : Fin 21) {s : State} (hr : s.Runs) :
    exec (.blockStall blk) s = .next (settle (blockStall blk.val s)) := done_runs _ hr
theorem exec_extest (lanes : Bool) {s : State} (hr : s.Runs) :
    exec (.extest lanes) s = .next (settle (extest lanes s)) := done_runs _ hr
theorem exec_idcode {s : State} (hr : s.Runs) :
    exec (.idcode) s = .next (settle (idcode s)) := done_runs _ hr
theorem exec_samplePreload {s : State} (hr : s.Runs) :
    exec (.samplePreload) s = .next (settle (samplePreload s)) := done_runs _ hr
theorem exec_fieldClamp {s : State} (hr : s.Runs) :
    exec (.fieldClamp) s = .next (settle (fieldClamp s)) := done_runs _ hr
theorem exec_highz {s : State} (hr : s.Runs) :
    exec (.highz) s = .next (settle (highz s)) := done_runs _ hr
theorem exec_extestPulse {s : State} (hr : s.Runs) :
    exec (.extestPulse) s = .next (settle (extestPulse s)) := done_runs _ hr
theorem exec_extestTrain {s : State} (hr : s.Runs) :
    exec (.extestTrain) s = .next (settle (extestTrain s)) := done_runs _ hr
theorem exec_bypass {s : State} (hr : s.Runs) :
    exec (.bypass) s = .next (settle (bypass s)) := done_runs _ hr

end Sys2Proof.Machine
end

