-- ==== Sys2Proof/Laws/HostWrite.lean ====
section
/-! SUPPORT. What a host write of each register with a handler of its own does. -/

namespace Sys2Proof.Machine

/-- The register found at an offset has this base and this index. -/
def regIs (off base : Nat) (ix : List Nat) : Bool := match findReg off with
  | some (r, l) => r.base == base && l == ix
  | none => false

theorem regIs_find {off base : Nat} {ix : List Nat} (h : regIs off base ix = true) :
    ∃ r, findReg off = some (r, ix) ∧ r.base = base := by
  unfold regIs at h
  split at h
  · next r l e =>
    simp only [Bool.and_eq_true, beq_iff_eq] at h
    exact ⟨r, by rw [e, h.2], h.1⟩
  · cases h

theorem hostWrite_dchBdef (s : State) (p : Nat) (v : Word) (l : List (Nat × Nat)) :
    s.hostWrite p 0x40520 v l = dchBdef v s := by
  obtain ⟨r, e, hb⟩ := regIs_find (show regIs 0x40520 0x40520 [] = true by decide)
  simp only [State.hostWrite, e, hb] <;> rfl

theorem hostWrite_bcpImask (s : State) (p : Nat) (i : Fin 4) (v : Word) (l : List (Nat × Nat)) :
    s.hostWrite p (0x80130 + 4 * i.val) v l = bcpImask i v s := by
  obtain ⟨r, e, hb⟩ := regIs_find ((show ∀ i : Fin 4, regIs (0x80130 + 4 * i.val) 0x80130 [i.val] = true by decide) i)
  simp only [State.hostWrite, e, hb] <;> rfl

theorem hostWrite_icuMode (s : State) (p : Nat) (v : Word) (l : List (Nat × Nat)) :
    s.hostWrite p 0x90100 v l = icuMode v s := by
  obtain ⟨r, e, hb⟩ := regIs_find (show regIs 0x90100 0x90100 [] = true by decide)
  simp only [State.hostWrite, e, hb] <;> rfl

theorem hostWrite_icuTake (s : State) (p : Nat) (v : Word) (l : List (Nat × Nat)) :
    s.hostWrite p 0x90110 v l = icuTakeBy p (bits v 7 0) s := by
  obtain ⟨r, e, hb⟩ := regIs_find (show regIs 0x90110 0x90110 [] = true by decide)
  simp only [State.hostWrite, e, hb] <;> rfl

theorem hostWrite_icuDone (s : State) (p : Nat) (v : Word) (l : List (Nat × Nat)) :
    s.hostWrite p 0x90114 v l = icuDoneBy p (bits v 7 0) s := by
  obtain ⟨r, e, hb⟩ := regIs_find (show regIs 0x90114 0x90114 [] = true by decide)
  simp only [State.hostWrite, e, hb] <;> rfl

theorem hostWrite_icuSwset (s : State) (p : Nat) (i : Fin 5) (v : Word) (l : List (Nat × Nat)) :
    s.hostWrite p (0x90120 + 4 * i.val) v l = icuSwset i v s := by
  obtain ⟨r, e, hb⟩ := regIs_find ((show ∀ i : Fin 5, regIs (0x90120 + 4 * i.val) 0x90120 [i.val] = true by decide) i)
  simp only [State.hostWrite, e, hb] <;> rfl

theorem hostWrite_icuRaw (s : State) (p : Nat) (i : Fin 8) (v : Word) (l : List (Nat × Nat)) :
    s.hostWrite p (0x90140 + 4 * i.val) v l = icuRaw i v s := by
  obtain ⟨r, e, hb⟩ := regIs_find ((show ∀ i : Fin 8, regIs (0x90140 + 4 * i.val) 0x90140 [i.val] = true by decide) i)
  simp only [State.hostWrite, e, hb] <;> rfl

theorem hostWrite_icuEn (s : State) (p : Nat) (i : Fin 8) (v : Word) (l : List (Nat × Nat)) :
    s.hostWrite p (0x90160 + 4 * i.val) v l = icuEn i v s := by
  obtain ⟨r, e, hb⟩ := regIs_find ((show ∀ i : Fin 8, regIs (0x90160 + 4 * i.val) 0x90160 [i.val] = true by decide) i)
  simp only [State.hostWrite, e, hb] <;> rfl

set_option maxRecDepth 4000 in
theorem hostWrite_icuSrc (s : State) (p : Nat) (i : Fin 256) (v : Word) (l : List (Nat × Nat)) :
    s.hostWrite p (0x90400 + 4 * i.val) v l = icuSrc i v s := by
  obtain ⟨r, e, hb⟩ := regIs_find ((show ∀ i : Fin 256, regIs (0x90400 + 4 * i.val) 0x90400 [i.val] = true by decide) i)
  simp only [State.hostWrite, e, hb] <;> rfl

theorem hostWrite_auxRun (s : State) (p : Nat) (i : Fin 2) (v : Word) (l : List (Nat × Nat)) :
    s.hostWrite p (0xB0100 + 4 * i.val) v l = auxRun i v s := by
  obtain ⟨r, e, hb⟩ := regIs_find ((show ∀ i : Fin 2, regIs (0xB0100 + 4 * i.val) 0xB0100 [i.val] = true by decide) i)
  simp only [State.hostWrite, e, hb] <;> rfl

theorem hostWrite_fioReq (s : State) (p : Nat) (v : Word) (l : List (Nat × Nat)) :
    s.hostWrite p 0xC0480 v l = fioReq v s := by
  obtain ⟨r, e, hb⟩ := regIs_find (show regIs 0xC0480 0xC0480 [] = true by decide)
  simp only [State.hostWrite, e, hb] <;> rfl

theorem hostWrite_fioFltlat (s : State) (p : Nat) (i : Fin 4) (v : Word) (l : List (Nat × Nat)) :
    s.hostWrite p (0xC04A0 + 4 * i.val) v l = fioFltlat i v s := by
  obtain ⟨r, e, hb⟩ := regIs_find ((show ∀ i : Fin 4, regIs (0xC04A0 + 4 * i.val) 0xC04A0 [i.val] = true by decide) i)
  simp only [State.hostWrite, e, hb] <;> rfl

theorem hostWrite_netGval (s : State) (p : Nat) (i : Fin 8) (v : Word) (l : List (Nat × Nat)) :
    s.hostWrite p (0xE0280 + 4 * i.val) v l = netGval i v s := by
  obtain ⟨r, e, hb⟩ := regIs_find ((show ∀ i : Fin 8, regIs (0xE0280 + 4 * i.val) 0xE0280 [i.val] = true by decide) i)
  simp only [State.hostWrite, e, hb] <;> rfl

theorem hostWrite_ringEnable (s : State) (p : Nat) (i : Fin 128) (v : Word) (l : List (Nat × Nat)) :
    s.hostWrite p (0x110108 + 16 * i.val) v l = ringEnable i v l s := by
  obtain ⟨r, e, hb⟩ := regIs_find ((show ∀ i : Fin 128, regIs (0x110108 + 16 * i.val) 0x110108 [i.val] = true by decide) i)
  simp only [State.hostWrite, e, hb] <;> rfl

theorem hostWrite_hifDb (s : State) (p : Nat) (i : Fin 128) (v : Word) (l : List (Nat × Nat)) :
    s.hostWrite p (0x114000 + 4 * i.val) v l = hifDb i v l s := by
  obtain ⟨r, e, hb⟩ := regIs_find ((show ∀ i : Fin 128, regIs (0x114000 + 4 * i.val) 0x114000 [i.val] = true by decide) i)
  simp only [State.hostWrite, e, hb] <;> rfl

theorem hostWrite_msixUnmask (s : State) (p : Nat) (i : Fin 64) (l : List (Nat × Nat)) :
    s.hostWrite p (0x11800C + 16 * i.val) 0 l = msixVectorUnmask i s := by
  obtain ⟨r, e, hb⟩ := regIs_find ((show ∀ i : Fin 64, regIs (0x11800C + 16 * i.val) 0x11800C [i.val] = true by decide) i)
  simp only [State.hostWrite, e, hb] <;> rfl

/-- A write of     else:X_CTRL of block b. -/
theorem hostWrite_ctrl (s : State) (p : Nat) (b : Fin 21) (v : Word) (l : List (Nat × Nat)) :
    s.hostWrite p (0x10000 * b.val + 4) v l = s.ctrlWrite b v := by
  obtain ⟨r, e, hb⟩ := regIs_find ((show ∀ b : Fin 21, regIs (0x10000 * b.val + 4) 4 [b.val] = true by decide) b)
  simp only [State.hostWrite, e, hb] <;> rfl

end Sys2Proof.Machine
end

