-- ==== Sys2Proof/Laws/Memory.lean ====
section
/-! SUPPORT. The laws of the byte memory: what a store changes, and that every store keeps the canonical form. -/

namespace Sys2Proof.Machine

/-! ### Read after write -/

theorem memGet_memDrop (m : Mem) (a b : Nat) : memGet (memDrop a m) b = if b = a then 0 else memGet m b := by
  induction m with
  | nil => simp [memDrop, memGet]
  | cons x t ih =>
    obtain ⟨c, w⟩ := x
    by_cases h1 : c = a
    · subst h1
      by_cases h2 : b = c
      · subst h2; simpa [memDrop] using ih
      · simp [memDrop, memGet, ih, h2, Ne.symm h2]
    · by_cases h2 : c = b
      · subst h2; simp [memDrop, memGet, h1]
      · simp [memDrop, memGet, h1, h2, ih]

theorem memDrop_free (m : Mem) (a : Nat) : ∀ x ∈ memDrop a m, x.1 ≠ a := by
  induction m with
  | nil => simp [memDrop]
  | cons x t ih =>
    obtain ⟨c, w⟩ := x
    by_cases h : c = a
    · simpa [memDrop, h] using ih
    · simp only [memDrop, h, if_false, List.mem_cons]
      rintro y (rfl | hy)
      · exact h
      · exact ih y hy

theorem memGet_memInsert (m : Mem) (a b : Nat) (v : Byte) (h : ∀ x ∈ m, x.1 ≠ a) :
    memGet (memInsert a v m) b = if b = a then v else memGet m b := by
  induction m with
  | nil =>
    by_cases h2 : b = a
    · simp [memInsert, memGet, h2]
    · simp [memInsert, memGet, h2, Ne.symm h2]
  | cons x t ih =>
    obtain ⟨c, w⟩ := x
    have hc : c ≠ a := h _ (List.mem_cons_self ..)
    have ht := ih fun y hy => h y (List.mem_cons_of_mem _ hy)
    by_cases h1 : a < c
    · by_cases h2 : b = a
      · simp [memInsert, memGet, h1, h2]
      · simp [memInsert, memGet, h1, h2, Ne.symm h2]
    · simp only [memInsert, h1, if_false, memGet]
      by_cases h3 : c = b
      · simp [h3, show b ≠ a from h3 ▸ hc]
      · simp [h3, ht]

/-- A store changes one byte. -/
@[simp] theorem memGet_memSet (m : Mem) (a b : Nat) (v : Byte) :
    memGet (memSet m a v) b = if b = a then v else memGet m b := by
  unfold memSet
  split
  · next h => subst h; exact memGet_memDrop m a b
  · rw [memGet_memInsert _ _ _ _ (memDrop_free m a), memGet_memDrop]
    split <;> rfl

/-- A store of several bytes leaves every address below and above them as it was. -/
theorem memGet_memWrite_out (l : List Byte) (m : Mem) (a b : Nat) (h : b < a ∨ a + l.length ≤ b) :
    memGet (memWrite m a l) b = memGet m b := by
  induction l generalizing m a with
  | nil => rfl
  | cons x t ih =>
    simp only [memWrite, List.length_cons] at h ⊢
    rw [ih _ _ (by omega), memGet_memSet, if_neg (by omega)]

/-- Byte i of what was stored. -/
theorem memGet_memWrite_in (l : List Byte) (m : Mem) (a i : Nat) (h : i < l.length) :
    memGet (memWrite m a l) (a + i) = l[i] := by
  induction l generalizing m a i with
  | nil => simp at h
  | cons x t ih =>
    simp only [memWrite]
    cases i with
    | zero => rw [memGet_memWrite_out _ _ _ _ (by omega)]; simp
    | succ n =>
      have := ih (memSet m a x) (a + 1) n (by simpa using h)
      rw [show a + (n + 1) = a + 1 + n from by omega, this]; simp

/-- A read of as many bytes returns what was stored. -/
theorem memRead_memWrite (l : List Byte) (m : Mem) (a : Nat) : memRead (memWrite m a l) a l.length = l := by
  have go : ∀ (k : Mem) (n b : Nat) (r : List Byte), (∀ i, (h : i < r.length) → memGet k (b + i) = r[i]) → r.length = n →
      memRead k b n = r := by
    intro k n
    induction n with
    | zero => intro b r _ hl; simp [memRead, List.eq_nil_of_length_eq_zero hl]
    | succ n ih =>
      intro b r hr hl
      cases r with
      | nil => simp at hl
      | cons y ys =>
        have h0 := hr 0 (by simp)
        simp only [Nat.add_zero, List.getElem_cons_zero] at h0
        simp only [memRead, h0]
        congr 1
        refine ih (b + 1) ys (fun i hi => ?_) (by simpa using hl)
        have := hr (i + 1) (by simpa using hi)
        rw [show b + 1 + i = b + (i + 1) from by omega, this]; simp
  exact go _ _ _ _ (fun i hi => memGet_memWrite_in l m a i hi) rfl

/-! ### The canonical form -/

/-- Every address listed lies above a bound. -/
def memAbove (a : Nat) : Mem → Bool
  | [] => true
  | (b, _) :: t => decide (a < b) && memAbove a t

theorem memAbove_mono {a b : Nat} (h : a ≤ b) (m : Mem) (hm : memAbove b m = true) : memAbove a m = true := by
  induction m with
  | nil => rfl
  | cons x t ih =>
    simp only [memAbove, Bool.and_eq_true, decide_eq_true_eq] at hm ⊢
    exact ⟨by omega, ih hm.2⟩

theorem memWf_cons (b : Nat) (w : Byte) (t : Mem) : memWf ((b, w) :: t) = (w != 0 && memAbove b t && memWf t) := by
  induction t generalizing b w with
  | nil => simp [memWf, memAbove]
  | cons h t ih =>
    obtain ⟨c, x⟩ := h
    have hc := ih c x
    simp only [memWf, memAbove] at hc ⊢
    rw [hc]
    rcases Bool.eq_false_or_eq_true (memAbove c t) with h1 | h1
    · by_cases h2 : b < c
      · simp [h1, h2, memAbove_mono (Nat.le_of_lt h2) t h1]
      · simp [h2]
    · simp [h1]

theorem memAbove_memDrop (m : Mem) (a b : Nat) (h : memAbove b m = true) : memAbove b (memDrop a m) = true := by
  induction m with
  | nil => rfl
  | cons x t ih =>
    obtain ⟨c, w⟩ := x
    simp only [memAbove, Bool.and_eq_true, decide_eq_true_eq] at h
    by_cases h1 : c = a
    · simpa [memDrop, h1] using ih h.2
    · simp [memDrop, h1, memAbove, h.1, ih h.2]

theorem memWf_memDrop (m : Mem) (a : Nat) (h : memWf m = true) : memWf (memDrop a m) = true := by
  induction m with
  | nil => rfl
  | cons x t ih =>
    obtain ⟨c, w⟩ := x
    rw [memWf_cons, Bool.and_eq_true, Bool.and_eq_true] at h
    by_cases h1 : c = a
    · simpa [memDrop, h1] using ih h.2
    · simpa [memDrop, h1, memWf_cons, memAbove_memDrop t a c h.1.2, ih h.2] using h.1.1

theorem memAbove_memInsert (m : Mem) (a b : Nat) (v : Byte) (hb : b < a) (h : memAbove b m = true) :
    memAbove b (memInsert a v m) = true := by
  induction m with
  | nil => simp [memInsert, memAbove, hb]
  | cons x t ih =>
    obtain ⟨c, w⟩ := x
    have hx := h
    simp only [memAbove, Bool.and_eq_true, decide_eq_true_eq] at h
    by_cases h1 : a < c
    · simp only [memInsert, h1, if_true, memAbove, hb, h.1, h.2, decide_true, Bool.and_self]
    · simp [memInsert, h1, memAbove, h.1, ih h.2]

theorem memWf_memInsert (m : Mem) (a : Nat) (v : Byte) (hv : v ≠ 0) (hf : ∀ x ∈ m, x.1 ≠ a) (h : memWf m = true) :
    memWf (memInsert a v m) = true := by
  induction m with
  | nil => simpa [memInsert, memWf] using hv
  | cons x t ih =>
    obtain ⟨c, w⟩ := x
    have hc : c ≠ a := hf _ (List.mem_cons_self ..)
    have h0 := h
    rw [memWf_cons, Bool.and_eq_true, Bool.and_eq_true] at h
    by_cases h1 : a < c
    · rw [memInsert, if_pos h1, memWf_cons, h0]
      simpa [memAbove, h1, memAbove_mono (Nat.le_of_lt h1) t h.1.2] using hv
    · rw [memInsert, if_neg h1, memWf_cons, ih (fun y hy => hf y (List.mem_cons_of_mem _ hy)) h.2,
        memAbove_memInsert t a c v (by omega) h.1.2, h.1.1]
      rfl

/-- A store keeps the canonical form. -/
theorem memWf_memSet (m : Mem) (a : Nat) (v : Byte) (h : memWf m = true) : memWf (memSet m a v) = true := by
  unfold memSet
  split
  · exact memWf_memDrop m a h
  · next hv => exact memWf_memInsert _ _ _ hv (memDrop_free m a) (memWf_memDrop m a h)

/-- A store of several bytes keeps the canonical form. -/
theorem memWf_memWrite (l : List Byte) (m : Mem) (a : Nat) (h : memWf m = true) : memWf (memWrite m a l) = true := by
  induction l generalizing m a with
  | nil => exact h
  | cons x t ih => exact ih _ _ (memWf_memSet m a x h)

/-- A record stored in the Cistern keeps its memory's canonical form. -/
theorem State.storeStream_memWf (l : List Byte) (s : State) (c p : Nat) (h : memWf s.cis.mem = true) :
    memWf (s.storeStream c p l).cis.mem = true := by
  induction l generalizing s p with
  | nil => exact h
  | cons x t ih => exact ih _ _ (memWf_memSet _ _ _ h)

theorem reset_memWf : memWf State.reset.cis.mem = true := rfl

end Sys2Proof.Machine
end

