-- ==== Sys2Proof/Laws/Notice.lean ====
section
/-! SUPPORT. What the notices change: flags, sources, messages, refused writes and clamps. -/

namespace Sys2Proof.Machine

/-- A number with a bit put. -/
theorem putBit_testBit (v i j : Nat) (b : Bool) : (putBit v i b).testBit j = if i = j then b else v.testBit j := by
  obtain ⟨q, r, hr, rfl⟩ : ∃ q r, r < 2 ^ i ∧ v = 2 ^ i * q + r :=
    ⟨v / 2 ^ i, v % 2 ^ i, Nat.mod_lt _ (Nat.two_pow_pos i), (Nat.div_add_mod v (2 ^ i)).symm⟩
  have at_ (x k : Nat) : (2 ^ i * x + r).testBit k = if k < i then r.testBit k else x.testBit (k - i) :=
    Nat.testBit_two_pow_mul_add x hr k
  have hi (x : Nat) : (2 ^ i * x + r).testBit i = decide (x % 2 = 1) := by simp [at_, Nat.testBit_zero]
  have key (x : Nat) (h : x / 2 = q / 2) : (2 ^ i * x + r).testBit j =
      if i = j then decide (x % 2 = 1) else (2 ^ i * q + r).testBit j := by
    by_cases h2 : i = j
    · subst h2; rw [hi, if_pos rfl]
    · rw [if_neg h2, at_, at_]
      by_cases h1 : j < i
      · rw [if_pos h1, if_pos h1]
      · obtain ⟨k, rfl⟩ : ∃ k, j = i + (k + 1) := ⟨j - i - 1, by omega⟩
        rw [if_neg h1, if_neg h1, show i + (k + 1) - i = k + 1 from by omega, Nat.testBit_succ, Nat.testBit_succ, h]
  unfold putBit
  rw [hi]
  by_cases h : q % 2 = 1
  · cases b
    · obtain ⟨x, rfl⟩ : ∃ x, q = x + 1 := ⟨q - 1, by omega⟩
      have : 2 ^ i * (x + 1) + r - 2 ^ i = 2 ^ i * x + r := by rw [Nat.mul_succ]; omega
      simp only [h, decide_true, if_true, Bool.false_eq_true, if_false, this]
      rw [key x (by omega)]
      simp [show x % 2 = 0 by omega]
    · simp only [h, decide_true, if_true]
      rw [key q rfl]; simp [h]
  · cases b
    · simp only [h, decide_false, Bool.false_eq_true, if_false]
      rw [key q rfl]; simp [h]
    · have : 2 ^ i * q + r + 2 ^ i = 2 ^ i * (q + 1) + r := by rw [Nat.mul_succ]; omega
      simp only [h, decide_false, Bool.false_eq_true, if_false, if_true, this]
      rw [key (q + 1) (by omega)]
      simp [show (q + 1) % 2 = 1 by omega]

/-- A message changes no register but the pending-bit array. -/
theorem State.msix_rd (s : State) (vec a : Nat) (h : a ≠ fldOff MSIX_pba [vec / 32]) : (s.msix vec).rd a = s.rd a := by
  unfold State.msix
  split
  · simp [State.p_rd, Ne.symm h]
  · split <;> rfl

/-- A source that becomes presented changes no register but the pending-bit array. -/
theorem State.present_rd (s : State) (n a : Nat) (h : ∀ k, a ≠ fldOff MSIX_pba [k]) : (s.present n).rd a = s.rd a := by
  simp only [State.present]
  split
  · exact State.msix_rd _ _ _ (h _)
  · split
    · split <;> rfl
    · rfl

theorem State.icuTo_rd (s : State) (n a : Nat) (i : IcuSt) (h : ∀ k, a ≠ fldOff MSIX_pba [k]) :
    (s.icuTo n i).rd a = s.rd a := by
  simp only [State.icuTo]
  split
  · exact State.present_rd _ _ _ h
  · rfl

/-- An edge counts in ICU_CNT. -/
theorem State.raise_rd (s : State) (n a : Nat) (h : ∀ k, a ≠ fldOff MSIX_pba [k]) (hc : a ≠ fldOff ICU_CNT_count [n]) :
    (s.raise n).rd a = s.rd a := by
  simp only [State.raise]
  rw [State.icuTo_rd _ _ _ _ h, State.cnt_rd, if_neg (Ne.symm hc)]

/-- A flag set by hardware changes XXX_STS and its counter only. -/
theorem State.sts_rd (s : State) (blk bit a : Nat) (h : a ≠ fldOff BLK_STS [blk]) (hc : a ≠ fldOff BLK_FLAGCNT_count [blk, bit]) :
    (s.sts blk bit).rd a = s.rd a := by
  simp only [State.sts]
  rw [State.cnt_rd, if_neg (Ne.symm hc), State.p_rd, if_neg (Ne.symm h)]

/-- A flag with its source changes XXX_STS, its counter, the count of the source and the pending-bit array only. -/
theorem State.flag_rd (s : State) (blk bit a : Nat) (h : a ≠ fldOff BLK_STS [blk]) (hc : a ≠ fldOff BLK_FLAGCNT_count [blk, bit])
    (hp : ∀ k, a ≠ fldOff MSIX_pba [k]) (hn : ∀ n, a ≠ fldOff ICU_CNT_count [n]) : (s.flag blk bit).rd a = s.rd a := by
  simp only [State.flag]
  split
  · rw [State.raise_rd _ _ _ hp (hn _), State.sts_rd _ _ _ _ h hc]
  · exact State.sts_rd _ _ _ _ h hc

/-- A refused write changes XXX_STS, its counter and XXX_NNLAST only. -/
theorem State.notNow_rd (s : State) (off a : Nat) (h : a ≠ fldOff BLK_STS [off / 0x10000])
    (hc : a ≠ fldOff BLK_FLAGCNT_count [off / 0x10000, 0]) (hl : a ≠ fldOff BLK_NNLAST_offset [off / 0x10000]) :
    (s.notNow off).rd a = s.rd a := by
  simp only [State.notNow]
  rw [State.p_rd, if_neg (Ne.symm hl), State.sts_rd _ _ _ _ h hc]

/-- Clamps change the count of clamps and the place of the last one only. -/
theorem State.clampReg_rd (s : State) (off n a : Nat) (h : a ≠ 0x120) (hl : a ≠ 0x124) : (s.clampReg off n).rd a = s.rd a := by
  unfold State.clampReg
  split
  · rfl
  · rw [State.wr_rd, if_neg (Ne.symm hl), State.cnt_rd, if_neg]
    simpa [fldOff] using Ne.symm h

end Sys2Proof.Machine
end

