-- ==== Sys2Proof/Laws/PerInstr.lean ====
section
/-! SUPPORT. The family Descriptor: every command of a ring comes from one of the 128 rings, shown constructor by constructor. -/

namespace Sys2Proof

/-- The descriptor that a command of a ring carries; a register write, a packet or an event carries none. -/
def Instr.desc? (i : Instr) : Option Desc := match i with
  | .saArm d => some d
  | .saCancel d => some d
  | .dchSync d => some d
  | .dchSwap d => some d
  | .pheRfeed d _ => some d
  | .eleSetw d _ => some d
  | .eleResult d => some d
  | .tmxRowen d => some d
  | .bcpStart d => some d
  | .bcpStop d => some d
  | .bcpLoad d _ => some d
  | .bcpSwitch d => some d
  | .bcpMap d _ => some d
  | .bcpForce d => some d
  | .bcpUnforce d => some d
  | .bcpTout d _ => some d
  | .recStart d => some d
  | .recStop d => some d
  | .recTrig d => some d
  | .recFlref d => some d
  | .fioOreq d => some d
  | .fioTpulse d => some d
  | .rioOut d _ => some d
  | .auxConv d => some d
  | .ptmrPulse d => some d
  | .netTx d _ => some d
  | .netSvsub d _ => some d
  | .netSvpub d _ => some d
  | .netGsub d _ => some d
  | .netGpub d _ => some d
  | .netKey d _ => some d
  | .nop d => some d
  | .cscWr d _ => some d
  | .cscRd d _ => some d
  | .secAttest d _ => some d
  | .secSign d _ => some d
  | .secCert d => some d
  | .secEnroll d _ => some d
  | .pwrBoot d _ => some d
  | .pwrState d => some d
  | .tstOpnd d _ => some d
  | _ => none

namespace Laws.Descriptor

/-- A well-formed command that carries a descriptor comes from one of the 128 rings (R552). -/
def Statement (i : Instr) : Prop := i.wellFormed = true → ∀ d, i.desc? = some d → d.ring < 128

/-- A row that carries no descriptor. -/
theorem none_ {i : Instr} (h : i.desc? = none) : Statement i := by intro _ d hd; rw [h] at hd; cases hd

/-- A row that is well formed only with a descriptor of a ring. -/
theorem some_ {i : Instr} {d : Desc} (h : i.desc? = some d) (hw : i.wellFormed = true → descOk d = true) : Statement i := by
  intro w e he; rw [h] at he; cases he; simpa [descOk] using hw w

theorem registerWrite (a : HostAddr) (be : BitVec 4) (v : Word) : Statement (.registerWrite a be v) := none_ rfl
theorem rcRead (a : HostAddr) : Statement (.rcRead a) := none_ rfl
theorem lock (blk : Fin 21) : Statement (.lock blk) := none_ rfl
theorem softReset (blk : Fin 21) : Statement (.softReset blk) := none_ rfl
theorem ptpSyncReceive (h : RxHead) (domain : Nat) (sender : BitVec 64) (m : PtpSync) (corr : Int) (residence : Nat) : Statement (.ptpSyncReceive h domain sender m corr residence) := none_ rfl
theorem irigbFrame (f : IrigFrame) (edge : Time) : Statement (.irigbFrame f edge) := none_ rfl
theorem ppsInEdge (t : Time) : Statement (.ppsInEdge t) := none_ rfl
theorem sourceLost (c : Fin 11) : Statement (.sourceLost c) := none_ rfl
theorem sourceQualify (c : Fin 11) : Statement (.sourceQualify c) := none_ rfl
theorem waitToRestore (c : Fin 12) : Statement (.waitToRestore c) := none_ rfl
theorem tqEvaluate : Statement (.tqEvaluate) := none_ rfl
theorem tqLock : Statement (.tqLock) := none_ rfl
theorem holdoverLimit : Statement (.holdoverLimit) := none_ rfl
theorem hostCorrectionTimeout : Statement (.hostCorrectionTimeout) := none_ rfl
theorem merHfreq (v : Word) : Statement (.merHfreq v) := none_ rfl
theorem merHphase (v : Word) : Statement (.merHphase v) := none_ rfl
theorem slewSpent : Statement (.slewSpent) := none_ rfl
theorem merTsetHi (v : Word) : Statement (.merTsetHi v) := none_ rfl
theorem merNowSlo : Statement (.merNowSlo) := none_ rfl
theorem ppsOutRise : Statement (.ppsOutRise) := none_ rfl
theorem ppsOutFall : Statement (.ppsOutFall) := none_ rfl
theorem irigbOutFrame : Statement (.irigbOutFrame) := none_ rfl
theorem trigInEdge (n : Fin 2) (rising : Bool) (t : Time) : Statement (.trigInEdge n rising t) := none_ rfl
theorem tdcRearm (c : Fin 20) : Statement (.tdcRearm c) := none_ rfl
theorem saArm (d : Desc) : Statement (.saArm d) := some_ rfl fun h => h
theorem saCancel (d : Desc) : Statement (.saCancel d) := some_ rfl fun h => h
theorem actionExecute (i : Fin 64) : Statement (.actionExecute i) := none_ rfl
theorem outPulseEnd (o : Fin 16) : Statement (.outPulseEnd o) := none_ rfl
theorem launchPacket (slot : Fin 64) (p : PktTime) (action : Nat) (arg : Word) : Statement (.launchPacket slot p action arg) := none_ rfl
theorem launchresPacket (h : PktHead) (slot : Fin 64) (st : Nat) : Statement (.launchresPacket h slot st) := none_ rfl
theorem weirFire (n : Fin 16) (pol : Bool) (t : Time) : Statement (.weirFire n pol t) := none_ rfl
theorem weirRearm (n : Fin 16) : Statement (.weirRearm n) := none_ rfl
theorem weirSettle (n : Fin 16) : Statement (.weirSettle n) := none_ rfl
theorem afeWtsRead (n : Fin 16) : Statement (.afeWtsRead n) := none_ rfl
theorem injectionWindow : Statement (.injectionWindow) := none_ rfl
theorem wbSample (codes : List (List (Int × Bool))) : Statement (.wbSample codes) := none_ rfl
theorem mainPointSample : Statement (.mainPointSample) := none_ rfl
theorem fixedTapOutput (t : Fin 3) (avail : Time) (ackNs : Nat) : Statement (.fixedTapOutput t avail ackNs) := none_ rfl
theorem trackedInstant : Statement (.trackedInstant) := none_ rfl
theorem decimatorReset : Statement (.decimatorReset) := none_ rfl
theorem channelReset (n : Fin 24) : Statement (.channelReset n) := none_ rfl
theorem pipelineReset (p : Fin 24) : Statement (.pipelineReset p) := none_ rfl
theorem syncPinPulse (rising : Bool) (edge : Time) (width : Nat) : Statement (.syncPinPulse rising edge width) := none_ rfl
theorem dchSync (d : Desc) : Statement (.dchSync d) := some_ rfl fun h => h
theorem dchSynccfgCmd (v : Word) : Statement (.dchSynccfgCmd v) := none_ rfl
theorem dchSwap (d : Desc) : Statement (.dchSwap d) := some_ rfl fun h => h
theorem dchBdef (v : Word) : Statement (.dchBdef v) := none_ rfl
theorem dchTrkfreq (v : Word) : Statement (.dchTrkfreq v) := none_ rfl
theorem trackingHostTimeout : Statement (.trackingHostTimeout) := none_ rfl
theorem frame (t0 : Time) (eleNs ackNs : Nat) : Statement (.frame t0 eleNs ackNs) := none_ rfl
theorem pheRfeed (d : Desc) (buf : List Byte) : Statement (.pheRfeed d buf) := some_ rfl fun h => h
theorem pheHfreq (g : Fin 8) (v : Word) : Statement (.pheHfreq g v) := none_ rfl
theorem pheHostTimeout (g : Fin 8) : Statement (.pheHostTimeout g) := none_ rfl
theorem remoteFeedTimeout (r : Fin 8) : Statement (.remoteFeedTimeout r) := none_ rfl
theorem eleSetw (d : Desc) (buf : List Byte) : Statement (.eleSetw d buf) := some_ rfl fun h => h
theorem eleResult (d : Desc) : Statement (.eleResult d) := some_ rfl fun h => h
theorem eleCfg (n : Fin 256) (v : Word) : Statement (.eleCfg n v) := none_ rfl
theorem hostResultAgeExpiry (n : Fin 256) : Statement (.hostResultAgeExpiry n) := none_ rfl
theorem elementTimerExpiry (n : Fin 256) : Statement (.elementTimerExpiry n) := none_ rfl
theorem holdLimitExpiry (n : Fin 256) : Statement (.holdLimitExpiry n) := none_ rfl
theorem cascadeClassSPass (t : PassTimes) : Statement (.cascadeClassSPass t) := none_ rfl
theorem cascadeDeadline (t : PassTimes) : Statement (.cascadeDeadline t) := none_ rfl
theorem slackMissLimit : Statement (.slackMissLimit) := none_ rfl
theorem sealLimitExpiry (r : Fin 64) : Statement (.sealLimitExpiry r) := none_ rfl
theorem minPulseEnd (r : Fin 64) : Statement (.minPulseEnd r) := none_ rfl
theorem tmxCommit (v : Word) : Statement (.tmxCommit v) := none_ rfl
theorem tmxRowEn (r : Fin 64) (v : Word) : Statement (.tmxRowEn r v) := none_ rfl
theorem tmxRowen (d : Desc) : Statement (.tmxRowen d) := some_ rfl fun h => h
theorem tcsOnCheck (o : Fin 16) (sensed : Bool) : Statement (.tcsOnCheck o sensed) := none_ rfl
theorem timeTaskRelease (b : Fin 4) (t : Fin 16) : Statement (.timeTaskRelease b t) := none_ rfl
theorem koverReached (b : Fin 4) : Statement (.koverReached b) := none_ rfl
theorem watchdogExpiry (b : Fin 4) : Statement (.watchdogExpiry b) := none_ rfl
theorem switchPoint (b : Fin 4) : Statement (.switchPoint b) := none_ rfl
theorem switchTimeout (b : Fin 4) : Statement (.switchTimeout b) := none_ rfl
theorem bcpLoadChecked (b : Fin 4) : Statement (.bcpLoadChecked b) := none_ rfl
theorem bcpImask (b : Fin 4) (v : Word) : Statement (.bcpImask b v) := none_ rfl
theorem bcpStart (d : Desc) : Statement (.bcpStart d) := some_ rfl fun h => h
theorem bcpStop (d : Desc) : Statement (.bcpStop d) := some_ rfl fun h => h
theorem bcpLoad (d : Desc) (buf : List Byte) : Statement (.bcpLoad d buf) := some_ rfl fun h => h
theorem bcpSwitch (d : Desc) : Statement (.bcpSwitch d) := some_ rfl fun h => h
theorem bcpMap (d : Desc) (buf : List Byte) : Statement (.bcpMap d buf) := some_ rfl fun h => h
theorem bcpForce (d : Desc) : Statement (.bcpForce d) := some_ rfl fun h => h
theorem bcpUnforce (d : Desc) : Statement (.bcpUnforce d) := some_ rfl fun h => h
theorem bcpTout (d : Desc) (buf : List Byte) : Statement (.bcpTout d buf) := some_ rfl fun h => h
theorem fbcNop (b : Fin 4) : Statement (.fbcNop b) := none_ rfl
theorem ldi (b : Fin 4) : Statement (.ldi b) := none_ rfl
theorem ldc (b : Fin 4) : Statement (.ldc b) := none_ rfl
theorem dup (b : Fin 4) : Statement (.dup b) := none_ rfl
theorem drop (b : Fin 4) : Statement (.drop b) := none_ rfl
theorem swap (b : Fin 4) : Statement (.swap b) := none_ rfl
theorem fbcOver (b : Fin 4) : Statement (.fbcOver b) := none_ rfl
theorem rot (b : Fin 4) : Statement (.rot b) := none_ rfl
theorem ldl (b : Fin 4) : Statement (.ldl b) := none_ rfl
theorem stl (b : Fin 4) : Statement (.stl b) := none_ rfl
theorem ldg (b : Fin 4) : Statement (.ldg b) := none_ rfl
theorem stg (b : Fin 4) : Statement (.stg b) := none_ rfl
theorem ldx (b : Fin 4) : Statement (.ldx b) := none_ rfl
theorem stx (b : Fin 4) : Statement (.stx b) := none_ rfl
theorem lea (b : Fin 4) : Statement (.lea b) := none_ rfl
theorem qget (b : Fin 4) : Statement (.qget b) := none_ rfl
theorem qset (b : Fin 4) : Statement (.qset b) := none_ rfl
theorem add (b : Fin 4) : Statement (.add b) := none_ rfl
theorem sub (b : Fin 4) : Statement (.sub b) := none_ rfl
theorem mul (b : Fin 4) : Statement (.mul b) := none_ rfl
theorem div (b : Fin 4) : Statement (.div b) := none_ rfl
theorem mod (b : Fin 4) : Statement (.mod b) := none_ rfl
theorem neg (b : Fin 4) : Statement (.neg b) := none_ rfl
theorem abs (b : Fin 4) : Statement (.abs b) := none_ rfl
theorem min (b : Fin 4) : Statement (.min b) := none_ rfl
theorem max (b : Fin 4) : Statement (.max b) := none_ rfl
theorem limit (b : Fin 4) : Statement (.limit b) := none_ rfl
theorem cvt (b : Fin 4) : Statement (.cvt b) := none_ rfl
theorem math (b : Fin 4) : Statement (.math b) := none_ rfl
theorem cmp (b : Fin 4) : Statement (.cmp b) := none_ rfl
theorem sel (b : Fin 4) : Statement (.sel b) := none_ rfl
theorem and (b : Fin 4) : Statement (.and b) := none_ rfl
theorem or (b : Fin 4) : Statement (.or b) := none_ rfl
theorem xor (b : Fin 4) : Statement (.xor b) := none_ rfl
theorem not (b : Fin 4) : Statement (.not b) := none_ rfl
theorem shl (b : Fin 4) : Statement (.shl b) := none_ rfl
theorem shr (b : Fin 4) : Statement (.shr b) := none_ rfl
theorem jmp (b : Fin 4) : Statement (.jmp b) := none_ rfl
theorem jz (b : Fin 4) : Statement (.jz b) := none_ rfl
theorem jnz (b : Fin 4) : Statement (.jnz b) := none_ rfl
theorem call (b : Fin 4) : Statement (.call b) := none_ rfl
theorem ret (b : Fin 4) : Statement (.ret b) := none_ rfl
theorem callx (b : Fin 4) : Statement (.callx b) := none_ rfl
theorem tend (b : Fin 4) : Statement (.tend b) := none_ rfl
theorem aflag (b : Fin 4) : Statement (.aflag b) := none_ rfl
theorem now (b : Fin 4) : Statement (.now b) := none_ rfl
theorem ton (b : Fin 4) : Statement (.ton b) := none_ rfl
theorem tof (b : Fin 4) : Statement (.tof b) := none_ rfl
theorem tp (b : Fin 4) : Statement (.tp b) := none_ rfl
theorem rTrig (b : Fin 4) : Statement (.rTrig b) := none_ rfl
theorem fTrig (b : Fin 4) : Statement (.fTrig b) := none_ rfl
theorem ctu (b : Fin 4) : Statement (.ctu b) := none_ rfl
theorem ctd (b : Fin 4) : Statement (.ctd b) := none_ rfl
theorem sr (b : Fin 4) : Statement (.sr b) := none_ rfl
theorem rs (b : Fin 4) : Statement (.rs b) := none_ rfl
theorem eleread (b : Fin 4) : Statement (.eleread b) := none_ rfl
theorem qread (b : Fin 4) : Statement (.qread b) := none_ rfl
theorem rowen (b : Fin 4) : Statement (.rowen b) := none_ rfl
theorem saarm (b : Fin 4) : Statement (.saarm b) := none_ rfl
theorem sacancel (b : Fin 4) : Statement (.sacancel b) := none_ rfl
theorem saread (b : Fin 4) : Statement (.saread b) := none_ rfl
theorem recmark (b : Fin 4) : Statement (.recmark b) := none_ rfl
theorem icuTake (src : BitVec 8) : Statement (.icuTake src) := none_ rfl
theorem icuDone (src : BitVec 8) : Statement (.icuDone src) := none_ rfl
theorem icuSwset (j : Fin 5) (v : Word) : Statement (.icuSwset j v) := none_ rfl
theorem icuRaw (k : Fin 8) (v : Word) : Statement (.icuRaw k v) := none_ rfl
theorem icuEn (k : Fin 8) (v : Word) : Statement (.icuEn k v) := none_ rfl
theorem icuSrc (n : Fin 256) (v : Word) : Statement (.icuSrc n v) := none_ rfl
theorem icuMode (v : Word) : Statement (.icuMode v) := none_ rfl
theorem levelChange (n : Fin 256) (lv : Bool) : Statement (.levelChange n lv) := none_ rfl
theorem msixVectorUnmask (vec : Fin 64) : Statement (.msixVectorUnmask vec) := none_ rfl
theorem recStart (d : Desc) : Statement (.recStart d) := some_ rfl fun h => h
theorem recStop (d : Desc) : Statement (.recStop d) := some_ rfl fun h => h
theorem recTrig (d : Desc) : Statement (.recTrig d) := some_ rfl fun h => h
theorem recFlref (d : Desc) : Statement (.recFlref d) := some_ rfl fun h => h
theorem recordFlush (k : Fin 4) : Statement (.recordFlush k) := none_ rfl
theorem wavefrontCaptureEnd : Statement (.wavefrontCaptureEnd) := none_ rfl
theorem faultLocationTimeout : Statement (.faultLocationTimeout) := none_ rfl
theorem trigPacket (h : PktHead) (t : Time) (method : Nat) (test : Bool) (code idx : Nat) : Statement (.trigPacket h t method test code idx) := none_ rfl
theorem diSample (us : Nat) (samples : BitVec 32) : Statement (.diSample us samples) := none_ rfl
theorem diFilterTick (i : Fin 32) : Statement (.diFilterTick i) := none_ rfl
theorem diDecision (i : Fin 32) : Statement (.diDecision i) := none_ rfl
theorem fioOreq (d : Desc) : Statement (.fioOreq d) := some_ rfl fun h => h
theorem fioReq (v : Word) : Statement (.fioReq v) := none_ rfl
theorem fioHostTimeout : Statement (.fioHostTimeout) := none_ rfl
theorem fioTpulse (d : Desc) : Statement (.fioTpulse d) := some_ rfl fun h => h
theorem testPulseStart (o : Fin 16) : Statement (.testPulseStart o) := none_ rfl
theorem testPulseEnd (o : Fin 16) (crossed : Bool) : Statement (.testPulseEnd o crossed) := none_ rfl
theorem logicSilentExpiry : Statement (.logicSilentExpiry) := none_ rfl
theorem refreshRepeat : Statement (.refreshRepeat) := none_ rfl
theorem overcurrent (o : Fin 16) : Statement (.overcurrent o) := none_ rfl
theorem thermalShutdown (o : Fin 16) : Statement (.thermalShutdown o) := none_ rfl
theorem thermalResume (o : Fin 16) : Statement (.thermalResume o) := none_ rfl
theorem extdrv (o : Fin 16) : Statement (.extdrv o) := none_ rfl
theorem extdrvClear (o : Fin 16) : Statement (.extdrvClear o) := none_ rfl
theorem fioFltlat (k : Fin 4) (v : Word) : Statement (.fioFltlat k v) := none_ rfl
theorem fioDitsRead (i : Fin 32) : Statement (.fioDitsRead i) := none_ rfl
theorem pollSend (l : Fin 8) (i : Fin 16) : Statement (.pollSend l i) := none_ rfl
theorem respReceive (l : Fin 8) (r : List Byte) (after : Nat) : Statement (.respReceive l r after) := none_ rfl
theorem pollSlotEnd (l : Fin 8) : Statement (.pollSlotEnd l) := none_ rfl
theorem stationDropOut (l : Fin 8) (i : Fin 16) : Statement (.stationDropOut l i) := none_ rfl
theorem rioOut (d : Desc) (buf : List Byte) : Statement (.rioOut d buf) := some_ rfl fun h => h
theorem rioHostTimeout (l : Fin 8) (i : Fin 16) : Statement (.rioHostTimeout l i) := none_ rfl
theorem auxConv (d : Desc) : Statement (.auxConv d) := some_ rfl fun h => h
theorem auxRun (a : Fin 2) (v : Word) : Statement (.auxRun a v) := none_ rfl
theorem auxIntegrationStart (a : Fin 2) : Statement (.auxIntegrationStart a) := none_ rfl
theorem auxResult (a : Fin 2) (raw : Int) : Statement (.auxResult a raw) := none_ rfl
theorem auxBusyEnd (a : Fin 2) : Statement (.auxBusyEnd a) := none_ rfl
theorem ptmrEvent (u : Fin 8) : Statement (.ptmrEvent u) := none_ rfl
theorem ptmrHighEnd (u : Fin 8) : Statement (.ptmrHighEnd u) := none_ rfl
theorem ptmrOneshotStart (u : Fin 8) : Statement (.ptmrOneshotStart u) := none_ rfl
theorem ptmrPulse (d : Desc) : Statement (.ptmrPulse d) := some_ rfl fun h => h
theorem ethLinkChange (p : Fin 8) (up : Bool) : Statement (.ethLinkChange p up) := none_ rfl
theorem rxFrame (h : RxHead) : Statement (.rxFrame h) := none_ rfl
theorem ptpMessageReceive (h : RxHead) (domain : Nat) (m : PtpMsg) : Statement (.ptpMessageReceive h domain m) := none_ rfl
theorem ptpSyncSend (p : Fin 8) : Statement (.ptpSyncSend p) := none_ rfl
theorem ptpAnnounceSend (p : Fin 8) : Statement (.ptpAnnounceSend p) := none_ rfl
theorem pdelayReqSend (p : Fin 8) : Statement (.pdelayReqSend p) := none_ rfl
theorem prpSupervisionSend (k : Fin 4) : Statement (.prpSupervisionSend k) := none_ rfl
theorem duplicateForget (k : Fin 4) : Statement (.duplicateForget k) := none_ rfl
theorem svFrameReceive (h : RxHead) (f : SvIn) : Statement (.svFrameReceive h f) := none_ rfl
theorem svSubscriptionLost (k : Fin 64) : Statement (.svSubscriptionLost k) := none_ rfl
theorem gooseFrameReceive (h : RxHead) (f : GooseIn) : Statement (.gooseFrameReceive h f) := none_ rfl
theorem gooseTalExpiry (k : Fin 256) : Statement (.gooseTalExpiry k) := none_ rfl
theorem gooseRepeat (j : Fin 64) : Statement (.gooseRepeat j) := none_ rfl
theorem netGval (j : Fin 8) (v : Word) : Statement (.netGval j v) := none_ rfl
theorem netTx (d : Desc) (buf : List Byte) : Statement (.netTx d buf) := some_ rfl fun h => h
theorem netSvsub (d : Desc) (buf : List Byte) : Statement (.netSvsub d buf) := some_ rfl fun h => h
theorem netSvpub (d : Desc) (buf : List Byte) : Statement (.netSvpub d buf) := some_ rfl fun h => h
theorem netGsub (d : Desc) (buf : List Byte) : Statement (.netGsub d buf) := some_ rfl fun h => h
theorem netGpub (d : Desc) (buf : List Byte) : Statement (.netGpub d buf) := some_ rfl fun h => h
theorem netKey (d : Desc) (buf : List Byte) : Statement (.netKey d buf) := some_ rfl fun h => h
theorem tpFrameSend (p : Fin 4) : Statement (.tpFrameSend p) := none_ rfl
theorem tpFrameReceive (p : Fin 4) (l : List Byte) (pin : Time) (rdi : Bool) : Statement (.tpFrameReceive p l pin rdi) := none_ rfl
theorem lossOfFrame (p : Fin 4) : Statement (.lossOfFrame p) := none_ rfl
theorem tpCommandTimeout (p : Fin 4) : Statement (.tpCommandTimeout p) := none_ rfl
theorem tpcLos (p : Fin 4) (lost : Bool) : Statement (.tpcLos p lost) := none_ rfl
theorem commandTake (r : Fin 128) (rd : Option CmdRead) : Statement (.commandTake r rd) := none_ rfl
theorem completionWrite : Statement (.completionWrite) := none_ rfl
theorem writeBack (r : Fin 128) (failed : Bool) : Statement (.writeBack r failed) := none_ rfl
theorem ringEnable (r : Fin 128) (v : Word) (slots : List (Nat × Nat)) : Statement (.ringEnable r v slots) := none_ rfl
theorem hifDb (r : Fin 128) (v : Word) (slots : List (Nat × Nat)) : Statement (.hifDb r v slots) := none_ rfl
theorem nop (d : Desc) : Statement (.nop d) := some_ rfl fun h => h
theorem functionLevelReset : Statement (.functionLevelReset) := none_ rfl
theorem perstN : Statement (.perstN) := none_ rfl
theorem hostLinkChange (up bme d3 : Bool) (speed width : Nat) : Statement (.hostLinkChange up bme d3 speed width) := none_ rfl
theorem lohelysLinkChange (j : Fin 4) (lock : Bool) : Statement (.lohelysLinkChange j lock) := none_ rfl
theorem helloSend (j : Fin 4) : Statement (.helloSend j) := none_ rfl
theorem helloPacket (h : PktHead) (serial : BitVec 64) (strap : Bool) (st pos plink : Nat) : Statement (.helloPacket h serial strap st pos plink) := none_ rfl
theorem formationEnd (g : StackGroup) : Statement (.formationEnd g) := none_ rfl
theorem linkDelayMeasure (j : Fin 4) : Statement (.linkDelayMeasure j) := none_ rfl
theorem timePacket (h : PktHead) (stamps : List Time) (arr : Time) : Statement (.timePacket h stamps arr) := none_ rfl
theorem cascadeSyncSend : Statement (.cascadeSyncSend) := none_ rfl
theorem syncPacket (h : PktHead) (sent : Time) (cum tq : Nat) (step : Bool) (response : Option Int) : Statement (.syncPacket h sent cum tq step response) := none_ rfl
theorem alignment : Statement (.alignment) := none_ rfl
theorem gridPacket (p : PktTime) (rate : Nat) : Statement (.gridPacket p rate) := none_ rfl
theorem pubPacket (h : PktHead) (hdr parts rest : List Byte) : Statement (.pubPacket h hdr parts rest) := none_ rfl
theorem levelPacket (h : PktHead) (lv : Bool) : Statement (.levelPacket h lv) := none_ rfl
theorem levelSend : Statement (.levelSend) := none_ rfl
theorem tunPacket (h : PktHead) (x : TunMsg) : Statement (.tunPacket h x) := none_ rfl
theorem cscWr (d : Desc) (buf : List Byte) : Statement (.cscWr d buf) := some_ rfl fun h => h
theorem cscRd (d : Desc) (buf : List Byte) : Statement (.cscRd d buf) := some_ rfl fun h => h
theorem cscCfg (v : Word) : Statement (.cscCfg v) := none_ rfl
theorem memberLost (m : Fin 8) : Statement (.memberLost m) := none_ rfl
theorem detach : Statement (.detach) := none_ rfl
theorem secAttest (d : Desc) (buf : List Byte) : Statement (.secAttest d buf) := some_ rfl fun h => h
theorem secSign (d : Desc) (buf : List Byte) : Statement (.secSign d buf) := some_ rfl fun h => h
theorem secCert (d : Desc) : Statement (.secCert d) := some_ rfl fun h => h
theorem secEnroll (d : Desc) (buf : List Byte) : Statement (.secEnroll d buf) := some_ rfl fun h => h
theorem signingComplete : Statement (.signingComplete) := none_ rfl
theorem enrollCommit : Statement (.enrollCommit) := none_ rfl
theorem por : Statement (.por) := none_ rfl
theorem bootImageChecked (flash : Option (List Byte)) : Statement (.bootImageChecked flash) := none_ rfl
theorem pwrBoot (d : Desc) (buf : List Byte) : Statement (.pwrBoot d buf) := some_ rfl fun h => h
theorem pwrState (d : Desc) : Statement (.pwrState d) := some_ rfl fun h => h
theorem vsupLow : Statement (.vsupLow) := none_ rfl
theorem vsupFail : Statement (.vsupFail) := none_ rfl
theorem rstN : Statement (.rstN) := none_ rfl
theorem pwrReset (v : Word) : Statement (.pwrReset v) := none_ rfl
theorem refclkLoss : Statement (.refclkLoss) := none_ rfl
theorem vcoreConfirm (mv : Nat) : Statement (.vcoreConfirm mv) := none_ rfl
theorem wake : Statement (.wake) := none_ rfl
theorem temperatureMeasure (dig ana io : Int) (vsup : Nat) : Statement (.temperatureMeasure dig ana io vsup) := none_ rfl
theorem duskReturn : Statement (.duskReturn) := none_ rfl
theorem paceMeasure (n : Nat) : Statement (.paceMeasure n) := none_ rfl
theorem tstOpnd (d : Desc) (buf : List Byte) : Statement (.tstOpnd d buf) := some_ rfl fun h => h
theorem tstMsub (v : Word) : Statement (.tstMsub v) := none_ rfl
theorem scrub (err : Fin 3) (blk : Fin 21) : Statement (.scrub err blk) := none_ rfl
theorem interdieStall (io : Bool) : Statement (.interdieStall io) := none_ rfl
theorem classSStall (stage : Fin 3) : Statement (.classSStall stage) := none_ rfl
theorem vcoreLow (mv : Nat) : Statement (.vcoreLow mv) := none_ rfl
theorem blockStall (blk : Fin 21) : Statement (.blockStall blk) := none_ rfl
theorem extest (lanes : Bool) : Statement (.extest lanes) := none_ rfl
theorem idcode : Statement (.idcode) := none_ rfl
theorem samplePreload : Statement (.samplePreload) := none_ rfl
theorem fieldClamp : Statement (.fieldClamp) := none_ rfl
theorem highz : Statement (.highz) := none_ rfl
theorem extestPulse : Statement (.extestPulse) := none_ rfl
theorem extestTrain : Statement (.extestTrain) := none_ rfl
theorem bypass : Statement (.bypass) := none_ rfl
theorem nextWholeSecondLabel : Statement (.nextWholeSecondLabel) := none_ rfl
theorem rstNRelease : Statement (.rstNRelease) := none_ rfl
theorem outputLeavesLimit (o : Fin 16) : Statement (.outputLeavesLimit o) := none_ rfl
theorem announceReceiptTimeout (p : Fin 8) : Statement (.announceReceiptTimeout p) := none_ rfl

end Laws.Descriptor

end Sys2Proof
end

