-- ==== Sys2Proof/Tests/Slice0.lean ====
section
/-! SUPPORT. The author's tests: operands that the check refuses, and for every statement states and operands that meet the
hypotheses of its clauses together. -/

namespace Sys2Proof.Tests

set_option Elab.async false

open Sys2Proof Sys2Proof.Machine

/-! ### Ill-formed operands -/

/-- A descriptor of ring 3 with its fields. -/
def cmd (rf : BitVec 16) (len : Word := 0) (b : Word := 0) (addr : BitVec 64 := 0) (a : BitVec 64 := 0) : Desc :=
  ⟨3, false, 5, false, false, len, addr, a, b, rf⟩

def head (bytes : List Byte) : RxHead := ⟨2, bytes, true, none, oneSec⟩

def frameOf_ (n : Nat) : List Byte := List.replicate n 1

/-- A packet of position src at link 0, whose CRC is right. -/
def pk (src : Fin 8) : PktHead := ⟨0, true, src, 0, 7, 0⟩

theorem test_wf_offset : (Instr.rcRead (.bar0 0x10102)).wellFormed = false ∧ (Instr.rcRead (.bar0 0x1000000)).wellFormed = false ∧
    (Instr.registerWrite (.bar0 0x20101) 15 0).wellFormed = false ∧ (Instr.rcRead (.bar0 0x10100)).wellFormed = true := by decide
theorem test_wf_ring : (Instr.nop { cmd 0 with ring := 128 }).wellFormed = false ∧ (Instr.nop (cmd 0)).wellFormed = true := by decide
theorem test_wf_irig : (Instr.irigbFrame ⟨true, 61, 0, 0, 1, none⟩ 0).wellFormed = false ∧
    (Instr.irigbFrame ⟨true, 0, 60, 0, 1, none⟩ 0).wellFormed = false ∧ (Instr.irigbFrame ⟨true, 0, 0, 0, 0, none⟩ 0).wellFormed = false ∧
    (Instr.irigbFrame ⟨true, 0, 0, 0, 1, some 100⟩ 0).wellFormed = false ∧
    (Instr.irigbFrame ⟨true, 60, 59, 23, 366, some 99⟩ 0).wellFormed = true := by decide
theorem test_wf_codes : (Instr.wbSample (List.replicate 39 (List.replicate 16 (0, false)))).wellFormed = false ∧
    (Instr.wbSample (List.replicate 40 (List.replicate 15 (0, false)))).wellFormed = false ∧
    (Instr.wbSample (List.replicate 40 (List.replicate 16 (0, false)))).wellFormed = true := by decide
theorem test_wf_head : (Instr.rxFrame (head (List.replicate 13 0))).wellFormed = false ∧
    (Instr.rxFrame (head (List.replicate 14 0))).wellFormed = true := by decide
theorem test_wf_slots : slotsOk (List.replicate 4 (0, 0)) = true ∧ (List.replicate 65537 ((0 : Nat), (0 : Nat))).length = 65537 :=
  ⟨by decide, List.length_replicate⟩
theorem test_wf_many_slots : (Instr.hifDb 0 0 (List.replicate 65537 (0, 0))).wellFormed = false := by
  show decide ((List.replicate 65537 ((0 : Nat), (0 : Nat))).length ≤ 65536) = false
  rw [List.length_replicate]; decide
theorem test_wf_read : (Instr.commandTake 0 (some ⟨List.replicate 31 0, []⟩)).wellFormed = false ∧
    (Instr.commandTake 0 (some ⟨List.replicate 32 0, []⟩)).wellFormed = true ∧ (Instr.commandTake 0 none).wellFormed = true := by decide
theorem test_wf_tunnel : (Instr.tunPacket (pk 1) (.command 0 0 ⟨[], []⟩)).wellFormed = false ∧
    (Instr.tunPacket (pk 1) (.completion 0 65536 0 0 0 0 0 0 [])).wellFormed = false ∧
    (Instr.tunPacket (pk 1) (.completion 0 0 256 0 0 0 0 0 [])).wellFormed = false := by decide
theorem test_wf_ranges : (Instr.launchPacket 0 ⟨pk 0, 0⟩ 9 0).wellFormed = false ∧ (Instr.launchresPacket (pk 0) 0 256).wellFormed = false ∧
    (Instr.trigPacket (pk 0) 0 8 false 0 0).wellFormed = false ∧ (Instr.respReceive 0 (List.replicate 257 0) 0).wellFormed = false ∧
    (Instr.hostLinkChange true true false 16 0).wellFormed = false ∧ (Instr.helloPacket (pk 0) 0 false 6 0 0).wellFormed = false ∧
    (Instr.helloPacket (pk 0) 0 false 5 8 0).wellFormed = false ∧ (Instr.timePacket (pk 0) [0, 0] 0).wellFormed = false ∧
    (Instr.syncPacket (pk 0) 0 0 4 false none).wellFormed = false ∧ (Instr.temperatureMeasure 0 0 0 65536).wellFormed = false ∧
    (Instr.formationEnd ⟨List.replicate 8 ⟨1, false, 0⟩, []⟩).wellFormed = false ∧
    (Instr.formationEnd ⟨[], [⟨0, 0, 1, 0⟩]⟩).wellFormed = false := by decide +kernel

/-! ### States -/

/-- A state with fields of registers set. -/
def sets (s : State) (l : List (Fld × List Nat × Nat)) : State := l.foldl (fun s x => s.p x.1 x.2.1 x.2.2) s

/-- The device in a state, its modulators running, long after reset. -/
def at_ (dev : Nat) (l : List (Fld × List Nat × Nat)) : State :=
  let s := sets State.reset ((GEN_STATE_state, [], dev) :: l)
  { s with afe := { s.afe with run := true }, mer := { s.mer with cyc := 10 ^ 15, now := 10 ^ 9 * oneSec } }

/-- The device in MORNING. -/
def mor (l : List (Fld × List Nat × Nat)) : State := at_ MORNING l

/-- A stack of two devices is formed, and links 0 and 1 are stack links. -/
def stk (l : List (Fld × List Nat × Nat)) : State :=
  let s := mor ([(GEN_STATE_stacked, [], 1), (CSC_CFG_en, [], 1), (CSC_CFG_lmask, [], 3), (CSC_STAT_state, [], CS_FORMED),
    (CSC_STAT_count, [], 2), (CSC_STAT_present, [], 3)] ++ l)
  { s with csc := { s.csc with lock := [true, true, false, false], heard := List.replicate 8 (10 ^ 15) } }
def stkMaster (l : List (Fld × List Nat × Nat)) : State := stk ((GEN_STATE_master, [], 1) :: l)
def stkMember (l : List (Fld × List Nat × Nat)) : State := stk ((GEN_STATE_member, [], 1) :: l)

/-- The device in OFF. -/
def dark : State := { State.reset with pwr := { State.reset.pwr with off := true } }

theorem at_runs (d : Nat) (l : List (Fld × List Nat × Nat)) : (at_ d l).Runs := by
  have h : ∀ (l : List (Fld × List Nat × Nat)) (s : State), (sets s l).pwr = s.pwr := by
    intro l
    induction l with
    | nil => intro s; rfl
    | cons x t ih => intro s; exact ih (s.p x.1 x.2.1 x.2.2)
  constructor
  · show (sets State.reset _).pwr.off = false
    rw [h]; rfl
  · show (sets State.reset _).pwr.held = false
    rw [h]; rfl

/-! ### The block -/

theorem witness_StepRunsFront : { dark with pending := [.por, .vsupLow] }.pending = .por :: [.vsupLow] := rfl
theorem witness_StepIdles : State.reset.pending = [] ∧ State.reset.Runs ∧ dark.pending = [] ∧ ¬ dark.Runs :=
  ⟨rfl, ⟨rfl, rfl⟩, rfl, fun h => nomatch h.1⟩
theorem witness_UnpoweredHolds : ¬ dark.Runs ∧ Instr.rxFrame (head []) ≠ .por ∧ Instr.rxFrame (head []) ≠ .vsupFail ∧
    Instr.rxFrame (head []) ≠ .rstN ∧ Instr.rxFrame (head []) ≠ .rstNRelease := ⟨(fun h => nomatch h.1), by decide, by decide, by decide, by decide⟩
theorem witness_DriveShownKept : dark.DriveShown ∧ step { dark with pending := [.vsupLow] } = .next dark :=
  ⟨⟨by decide, by decide, by decide⟩, rfl⟩
theorem witness_VcoreFloorKept : dark.VcoreFloor ∧ step { dark with pending := [.rstN] } = .next (settle (rstN dark)) :=
  ⟨⟨by decide, by decide⟩, rfl⟩
theorem witness_VcoreFloor_premises : (at_ NOON [(TMX_ROW_en, [0], 1), (PWR_VSTAT_ok720, [], 1)]).on PWR_VSTAT_ok720 = true := by decide

/-! ### Registers -/

/-- Whether a write of v at an offset is refused, where the offset has a register that has no rule of its own for the whole word. -/
def refused_ (s : State) (off : Nat) (v : Word) : Option Bool :=
  ((findReg off).filter fun r => !wholeWord.contains r.1.base).map fun (r, ix) =>
    let w := s.depClamp r.base ix (clampStatic r.fields (maskReserved r.base ix v))
    s.lockRefuses off r.fields (s.rd off) w || s.refuses off r.base ix (s.rd off) w

theorem witness_RegisterAccess : (mor []).Runs ∧ refused_ (mor []) 0x140110 0xFFFFFFFF = some false ∧
    refused_ (stkMember []) 0x140110 0 = some true ∧ findReg 0xFF0000 = none ∧ findReg 0x10102 = none ∧ (0 : BitVec 4) ≠ 0xF ∧ (7 : BitVec 4) ≠ 0xF :=
  ⟨at_runs _ _, by decide⟩
theorem witness_LockAndSoftReset : (mor []).Runs ∧ (mor [(BLK_CTRL_lock, [ELE], 1)]).on BLK_CTRL_lock [ELE] = true ∧
    bits 0x0F00#32 12 8 ≠ (mor [(BLK_CTRL_lock, [ELE], 1)]).g ELE_CFG_type [255] ∧ bits 0x0F00#32 12 8 ≤ 15 ∧
    [PWR, MER, AFE, DCH, PHE, ELE, TMX, BCP, FIO, RIO, NET, TPC, CSC].contains CSC = true ∧ (at_ NOON []).dev = NOON ∧ (at_ DUSK []).dev = DUSK ∧
    (mor []).dev ≠ NOON ∧ (mor []).dev ≠ DUSK ∧ (∀ c ∈ (mor []).cis.cons, c.bufs = []) ∧
    (∃ c ∈ ((mor []).putCons 23 { (mor []).cons 23 with bufs := [(0, 4095)] }).cis.cons, c.bufs ≠ []) ∧
    [PWR, MER, AFE, DCH, PHE, ELE, TMX, BCP, FIO, RIO, NET, TPC, CSC].contains CIS = false :=
  ⟨at_runs _ _, by decide⟩

/-! ### Meridian -/

def announced_ : PtpData := ⟨128, 6, 0x21, 0, 128, 7, 0, 7, 1, 0x20, 37, true, none⟩
/-- Port 2 is up, in the SLAVE state, with a qualified master of clock 7. -/
def slave : State :=
  let s := mor [(NET_PORT_en, [2], 1), (NET_PORT_link, [2], 1), (NET_PTP_role, [2], 2), (NET_PTP_state, [2], PS_SLAVE)]
  s.putPtp 2 { emptyPtp with foreign := [⟨announced_, 2, 10 ^ 15⟩] }
def tdcOff (n : Nat) : State :=
  { mor [] with mer := { (mor []).mer with tdc := (mor []).mer.tdc.set n (false, 10 ^ 9 * oneSec - 40 * oneNs) } }

/-- The port without PTP. -/
def noPtp : State := mor [(NET_PORT_en, [2], 1), (NET_PORT_link, [2], 1)]

theorem witness_ServoEvents : (mor []).Runs ∧ slave.Runs ∧
    (slave.rxCheck (head (frameOf_ 60))).1 = true ∧ (slave.rxCheck (head (frameOf_ 60))).2.1 = false ∧ slave.pairMode 1 ≠ 2 ∧
    slave.g NET_PTP_role [2] ≠ 0 ∧ slave.g NET_PTPCFG_domain ≠ 255 ∧ slave.g NET_PTP_state [2] = PS_SLAVE ∧
    (slave.portBest 2).any (fun m => decide (m.sender = 7)) = true ∧
    (noPtp.rxCheck (head (frameOf_ 60))).1 = true ∧ (noPtp.rxCheck (head (frameOf_ 60))).2.1 = false ∧ noPtp.g NET_PTP_role [2] = 0 ∧
    ((mor []).rxCheck (head (frameOf_ 60))).1 = false ∧ ((mor []).rxCheck (head (frameOf_ 60))).2.1 = false ∧
    (nth (mor []).mer.tdc 19 (true, 0)).1 = true ∧ (nth (mor []).mer.tdc 18 (true, 0)).1 = true ∧
    (nth (tdcOff 18).mer.tdc 18 (true, 0)).1 = false := ⟨at_runs _ _, at_runs _ _, by decide⟩

/-- Source 8 qualified and listed first, with two frames missed; n is in use. -/
def lost (n : Nat) : State :=
  let s := mor [(MER_STAT_qualmask, [], 2 ^ 8 + 2 ^ 11), (MER_STAT_active, [], n), (MER_SRC_pri0, [], 8), (MER_SRC_revert, [], 1)]
  { s with mer := { s.mer with irigBad := 2 } }
/-- A member of a stack that is no longer formed, with source n qualified and lost. -/
def lostMember (n : Nat) : State :=
  let s := stkMember [(CSC_STAT_state, [], CS_DETACHED), (MER_STAT_qualmask, [], 2 ^ n), (MER_STAT_tq, [], TQ_LOCKED)]
  { s with mer := { s.mer with irigBad := 2 } }
/-- No source is selected, and source 8 has been valid since the beginning. -/
def none_ : State := (mor [(MER_STAT_active, [], 12)]).putSrcSt 8 ⟨some (10 ^ 15), some 0, 0⟩
def ready : State :=
  let s := mor [(MER_STAT_active, [], 11)]
  (s.putSrcSt 8 ⟨some (10 ^ 15), some 0, 0⟩)

theorem witness_SourceSelection : (mor []).Runs ∧ (lost 8).isMember = false ∧
    (lost 11).qualified 8 = true ∧ (lost 11).srcIsLost 8 = true ∧ (lost 11).g MER_STAT_active ≠ 8 ∧
    (mor []).qualified 8 = false ∧ (mor []).srcIsLost 8 = true ∧ ready.srcIsLost 8 = false ∧
    (lostMember 10).qualified 10 = true ∧ (lostMember 10).srcIsLost 10 = true ∧ (lostMember 10).isMember = true ∧
    (lostMember 10).g MER_STAT_tq = TQ_LOCKED ∧ (lostMember 8).qualified 8 = true ∧ (lostMember 8).srcIsLost 8 = true ∧
    (none_.srcSt 8).since = some 0 ∧ none_.qualified 8 = false ∧ none_.g MER_QUAL_qual * oneSec ≤ none_.since 0 ∧
    none_.srcIsLost 8 = false ∧ none_.g MER_STAT_active = 12 ∧ none_.isMember = false ∧ ((mor []).srcSt 8).since = none ∧
    (mor [(MER_SRC_revert, [], 0)]).on MER_SRC_revert = false ∧
    (lost 8).qualified 8 = true ∧ (lost 8).srcIsLost 8 = true ∧ (lost 8).g MER_STAT_active = 8 ∧
    (ready.srcSt 8).since = some 0 ∧ ready.qualified 8 = false ∧ ready.g MER_QUAL_qual * oneSec ≤ ready.since 0 ∧ ready.srcIsLost 8 = false ∧
    ready.g MER_STAT_active ≠ 12 ∧
    (lost 11).on MER_SRC_revert = true ∧ (lost 11).srcList.contains 8 = true ∧ (lost 11).srcRank 8 < (lost 11).srcRank 11 ∧
    (lost 11).bestSrc = 8 ∧ (lost 11).g MER_QUAL_wtr * oneSec ≤ (lost 11).since ((lost 11).srcSt 8).qualAt := ⟨at_runs _ _, by decide⟩

def tqOf (tq src : Nat) (l : List (Fld × List Nat × Nat)) : State := mor ([(MER_STAT_tq, [], tq), (MER_STAT_active, [], src)] ++ l)
def locking : State :=
  let s := tqOf TQ_FREE 10 []
  { s with mer := { s.mer with lockCnt := s.g MER_SERVO_lockcnt } }
def hostMode : State := mor [(MER_SRC_mode, [], 1)]

theorem witness_TimeQuality : (mor []).Runs ∧ locking.isMember = false ∧ locking.on TST_MSUB_en = false ∧
    locking.g MER_STAT_tq ≠ TQ_LOCKED ∧ locking.g MER_SERVO_lockcnt ≤ locking.mer.lockCnt ∧ locking.g MER_STAT_active ≤ 10 ∧ locking.dev ≠ SAFE ∧
    (tqOf TQ_LOCKED 11 []).g MER_STAT_tq = TQ_LOCKED ∧ 11 ≤ (tqOf TQ_LOCKED 11 []).g MER_STAT_active ∧
    (∀ c ∈ (tqOf TQ_LOCKED 11 []).srcList, c ≠ 11 → (tqOf TQ_LOCKED 11 []).qualified c = false) ∧
    (tqOf TQ_HOLDOVER 11 []).g MER_STAT_tq = TQ_HOLDOVER ∧ (tqOf TQ_HOLDOVER 11 []).g MER_STAT_active = 11 ∧
    (tqOf TQ_HOLDOVER 11 []).g MER_HOLD_limit * oneSec ≤ (tqOf TQ_HOLDOVER 11 []).since (tqOf TQ_HOLDOVER 11 []).mer.holdAt ∧
    hostMode.g MER_SRC_mode = 1 ∧ hostMode.mer.hctoDone = false ∧ hostMode.g MER_HOLD_hcto * oneSec ≤ hostMode.since hostMode.mer.hctoAt ∧
    hostMode.g MER_STAT_tq ≠ TQ_LOCKED ∧ (tqOf TQ_LOCKED 11 [(MER_SRC_mode, [], 1)]).g MER_STAT_tq = TQ_LOCKED ∧
    (tqOf TQ_LOCKED 11 [(MER_SRC_mode, [], 1)]).g MER_SRC_mode = 1 ∧ (tqOf TQ_HOLDOVER 10 [(GEN_STATE_stacked, [], 1)]).isMember = true ∧
    (tqOf TQ_HOLDOVER 10 [(GEN_STATE_stacked, [], 1)]).g MER_STAT_tq = TQ_HOLDOVER ∧
    (mor []).g MER_STAT_tq ≠ TQ_HOLDOVER ∧ (tqOf TQ_HOLDOVER 11 []).g MER_STAT_tq ≠ TQ_FREE ∧ (mor []).g MER_SRC_mode = 0 ∧
    (mor []).dev ≠ SAFE ∧ (mor []).on TST_MSUB_en = false ∧ (mor []).mer.lockCnt < (mor []).g MER_SERVO_lockcnt ∧
    (tqOf TQ_FREE 11 []).g MER_STAT_tq = TQ_FREE ∧ (tqOf TQ_HOLDOVER 11 []).follows = false ∧ (stkMember []).follows = true ∧
    hostMode.isMember = false := ⟨at_runs _ _, by decide⟩

def slewDone : State := { mor [] with mer := { (mor []).mer with slewing := true, slew := 0, tset := some (5, 10 ^ 9) } }

theorem witness_Corrections : (mor []).Runs ∧ (mor []).g MER_SRC_mode = 0 ∧ hostMode.g MER_SRC_mode = 1 ∧ hostMode.dev ≠ SAFE ∧
    -200000000 ≤ sgn 32 (0xF4143E00#32).toNat ∧ sgn 32 (0x0BEBC200#32).toNat ≤ 200000000 ∧ hostMode.g MER_STAT_tq ≠ TQ_LOCKED ∧
    sgn 32 (1#32).toNat ≠ 0 ∧ (sgn 32 (1#32).toNat * 1024).natAbs ≤ hostMode.g MER_STEP_stepthr * oneUs ∧
    slewDone.mer.slewing = true ∧ slewDone.mer.slew = 0 ∧ slewDone.dev = MORNING ∧ slewDone.mer.tset = some (5, 10 ^ 9) ∧
    5 < Time.sec slewDone.mer.now ∧ slewDone.dev ≠ SAFE ∧ hostMode.isMember = false ∧
    (stkMember [(MER_SRC_mode, [], 1)]).isMember = true ∧ (stkMember [(MER_SRC_mode, [], 1)]).g MER_SRC_mode = 1 ∧
    (sgn 32 (0xFFFFFFFF#32).toNat * 1024).natAbs ≤ hostMode.g MER_STEP_stepthr * oneUs ∧ (mor []).mer.slewing = false ∧
    (at_ SAFE []).dev = SAFE ∧ (at_ DUSK []).dev = DUSK ∧ (at_ NOON []).dev = NOON ∧ (at_ NOON []).on MER_SERVO_stepnoon = false ∧
    (at_ NOON [(MER_SERVO_stepnoon, [], 1)]).on MER_SERVO_stepnoon = true ∧ (mor []).mer.tset = none := ⟨at_runs _ _, by decide⟩

def ports : State :=
  let s := mor [(MER_PORT_ppsen, [], 1), (MER_PORT_irigen, [], 1), (MER_PORT_ppsw, [], 1)]
  { s with mer := { s.mer with pps := true } }

theorem witness_TimePorts : ports.Runs ∧ ports.on MER_PORT_ppsen = true ∧
    ports.mer.ppsSec < ((ports.mer.now : Int) - ports.dly 2).toNat / oneSec ∧ ports.mer.pps = true ∧
    ports.mer.ppsAt + ports.g MER_PORT_ppsw * oneMs ≤ ports.mer.now ∧ ports.on MER_PORT_irigen = true ∧
    ports.mer.irigSec < ((ports.mer.now : Int) - ports.dly 3).toNat / oneSec ∧
    (nth ports.mer.tdc 17 (true, 0)).1 = true ∧ (nth (tdcOff 17).mer.tdc 17 (true, 0)).1 = false ∧
    (mor [(MER_PORT_ppsen, [], 0)]).on MER_PORT_ppsen = false ∧ (mor [(MER_PORT_irigen, [], 0)]).on MER_PORT_irigen = false ∧
    nth (tdcOff 17).mer.tdc 17 (true, 0) = (false, 10 ^ 9 * oneSec - 40 * oneNs) ∧
    10 ^ 9 * oneSec - 40 * oneNs + 40 * oneNs ≤ (tdcOff 17).mer.now := ⟨at_runs _ _, by decide⟩

/-! ### Scheduled actions -/

/-- Slot 0 in a state of the table of slots, armed by the host for an action. -/
def slotIn (st own : Nat) (x : SaSlot) (l : List (Fld × List Nat × Nat)) : State :=
  (mor ([(MER_SASTATE, [0], st), (MER_SAOWN, [0], own)] ++ l)).putSa 0 x
def anArm (action : Nat) (t : Time) : SaSlot := ⟨.host (cmd 0), t, action, 5, true, 0, 0, 0, none, false, 0, false, 0⟩
/-- SA_ARM of slot 0: OUT_SET of output 3 at 5 s. -/
def armCmd : Desc := cmd 0 0 3 5 0
def slots (st own : Nat) : List (Fld × List Nat × Nat) := [(MER_SASTATE, [0], st), (MER_SAOWN, [0], own)]
def member : State := stkMember (slots SA_FREE 5)
def master : State := (stkMaster (slots SA_ARMED 0)).putSa 0 (anArm 0 5)
/-- A master whose slot 0 the cascade may use. -/
def launchable : State := stkMaster (slots SA_FREE 5)
/-- A switch of BCP 1 waits. -/
def switching (s : State) : State := s.onCpu 1 fun c => { c with switch := some ⟨none, none, 0, 0, false⟩ }
/-- The inactive bank of BCP 1 is verified. -/
def imaged (s : State) : State := s.onCpu 1 fun c => { c with banks := c.banks.map fun k => { k with verified := true } }
/-- Slot 63 armed for an action whose time has come. -/
def armed63 (a : Nat) (t : Time) : State :=
  (mor [(MER_SASTATE, [3], 2 ^ 30)]).putSa 63 (anArm a t)
def pulsing : State := { mor [] with fio := { (mor []).fio with pulseEnd := (mor []).fio.pulseEnd.set 15 (some (10 ^ 15)) } }

theorem witness_ScheduledActions : (mor []).Runs ∧
    armFields armCmd = (⟨0, 0, 3, 5 * oneSec, false⟩, false, [(16, 0), (24, 0), (29, 0)]) ∧
    (mor []).armNotNow 0 ⟨0, 0, 3, 5 * oneSec, false⟩ = false ∧ (mor []).saHeld 0 = false ∧
    (at_ SAFE []).armNotNow 0 (armFields armCmd).1 = true ∧
    (slotIn SA_ARMED 0 (anArm 0 5) []).saOwner 0 = 0 ∧ (slotIn SA_ARMED 0 (anArm 0 5) []).saHeld 0 = true ∧
    ((slotIn SA_ARMED 0 (anArm 0 5) []).cpu 1).switch = none ∧
    (∀ a ∈ [0, 1], (slotIn SA_ARMED 0 (anArm a 5) []).saFirst 0 = true ∧ (slotIn SA_ARMED 0 (anArm a 5) []).saState 0 = SA_ARMED ∧
      ((slotIn SA_ARMED 0 (anArm a 5) []).sas 0).own = none ∧ ((slotIn SA_ARMED 0 (anArm a 5) []).sas 0).action = a ∧
      5 + 20 * oneNs < (slotIn SA_ARMED 0 (anArm a 5) []).mer.now) ∧
    (slotIn SA_ARMED 0 (anArm 0 5) []).armNotNow 0 ⟨0, 0, 3, 5, false⟩ = false ∧
    (switching (slotIn SA_ARMED 0 (anArm 5 5) [])).saHeld 0 = true ∧
    (slotIn SA_ARMED 5 (anArm 0 5) []).saOwner 0 = 5 ∧ (slotIn SA_ARMED 1 (anArm 0 5) []).saOwner 0 = 1 ∧
    (slotIn SA_FREE 0 emptySa []).saHeld 0 = false ∧
    (∀ a ∈ [2, 3, 4, 5, 6, 7, 8], (armed63 a 5).saFirst 63 = true ∧ (armed63 a 5).saState 63 = SA_ARMED ∧
      ((armed63 a 5).sas 63).own = none ∧ ((armed63 a 5).sas 63).action = a) ∧
    ((armed63 2 (10 ^ 9 * oneSec)).sas 63).time ≤ (armed63 2 (10 ^ 9 * oneSec)).mer.now ∧
    (mor []).mer.now < ((armed63 2 (10 ^ 9 * oneSec + 1)).sas 63).time ∧
    (imaged (armed63 5 5)).switchOk 1 = true ∧ ((imaged (armed63 5 5)).cpu 1).switch = none ∧
    (armed63 5 5).switchOk 1 = false ∧ ((switching (armed63 5 5)).cpu 1).switch ≠ none ∧
    nth pulsing.fio.pulseEnd 15 none = some (10 ^ 15) ∧ 10 ^ 15 ≤ pulsing.mer.cyc ∧ nth (mor []).fio.pulseEnd 15 none = none :=
  ⟨at_runs _ _, by decide⟩

/-- A member whose slot 0 is a slot of the host. -/
def deaf : State := stkMember (slots SA_FREE 0)
def launch_ (s : State) (h : PktHead) : Bool × State := s.packetIn PK_LAUNCH h none [0, 5, 0, 0, 3]
def launchRes (s : State) (h : PktHead) (st : Nat) : Bool × State := s.packetIn PK_LAUNCHRES h none [h.src.val, 0, st]

theorem witness_StackLaunch : (mor []).Runs ∧
    armFields (cmd 0x1000 0 3 5 0) = (⟨0, 0, 3, 5 * oneSec, true⟩, false, [(16, 0), (24, 0), (29, 0)]) ∧
    launchable.armNotNow 0 ⟨0, 0, 3, 5 * oneSec, true⟩ = false ∧ launchable.isMaster = true ∧ launchable.saHeld 0 = false ∧
    (launch_ member (pk 0)).1 = true ∧ (launch_ member (pk 0)).2.follows = true ∧
    (launch_ member (pk 0)).2.armNotNow 5 ⟨0, min 0 8, 3, 5, false⟩ = false ∧ (launch_ member (pk 0)).2.saHeld 0 = false ∧
    (launch_ deaf (pk 0)).1 = true ∧ (launch_ deaf (pk 0)).2.follows = true ∧
    (launch_ deaf (pk 0)).2.armNotNow 5 ⟨0, min 0 8, 3, 5, false⟩ = true ∧
    (launch_ member { pk 0 with crcOk := false }).1 = false ∧ (launch_ launchable (pk 1)).2.follows = false ∧
    (∀ st ∈ [ST_NOT_NOW, ST_LATE, ST_DONE], (launchRes master (pk 1) st).1 = true ∧ (launchRes master (pk 1) st).2.isMaster = true ∧
      (launchRes master (pk 1) st).2.saHeld 0 = true ∧ ((launchRes master (pk 1) st).2.sas 0).stack = true) ∧
    (launchRes master { pk 1 with crcOk := false } 0).1 = false ∧ (launchRes member (pk 0) 0).2.isMaster = false ∧
    (launchRes launchable (pk 1) 0).2.saHeld 0 = false := ⟨at_runs _ _, by decide⟩

/-! ### The front end, the chains, frames, phasors and elements -/

/-- The stamper of weir 2 is ready, and the weir as given. -/
def weirIn (w : WeirSt) : State :=
  let s := mor [(AFE_WCFG_en, [2], 1)]
  { s with afe := { s.afe with weirs := s.afe.weirs.set 2 w } }
def injecting : State :=
  { mor [] with afe := { (mor []).afe with inj := ⟨some (16, 3), 0, 0, 0, 0, 0, some (16, 1440, 0, 5)⟩ } }

theorem witness_WeirsAndInjection : (mor []).Runs ∧
    (weirIn ⟨true, none, 0, false, 7⟩).afe.run = true ∧ (weirIn ⟨true, none, 0, false, 7⟩).on AFE_WCFG_en [2] = true ∧
    (nth (weirIn ⟨true, none, 0, false, 7⟩).mer.tdc 2 (true, 0)).1 = true ∧
    ((weirIn ⟨false, none, 0, false, 7⟩).weir 2).armed = false ∧
    ((weirIn ⟨true, none, 0, false, 7⟩).weir 2).settling = none ∧ ((weirIn ⟨true, none, 0, false, 7⟩).weir 2).armed = true ∧
    (mor []).on AFE_WCFG_en [2] = false ∧ ((weirIn ⟨true, some 0, 0, false, 7⟩).weir 2).settling ≠ none ∧ (mor []).afe.inj.full = none ∧
    ((weirIn ⟨true, some 0, 0, false, 7⟩).weir 2).settling = some 0 ∧ 10 * oneUs ≤ (weirIn ⟨true, some 0, 0, false, 7⟩).since 0 ∧
    injecting.afe.inj.full = some (16, 1440, 0, 5) := ⟨at_runs _ _, by decide⟩

/-- A MAIN point is ready; the units have nothing to do. -/
def mainReady : State := { mor [] with afe := { (mor []).afe with mainDue := some 256 } }
/-- Every unit has an output to give. -/
def unitsReady : State := { mor [] with dch := { (mor []).dch with mainAt := some (10 ^ 6) } }
def instantIn (l : List (Fld × List Nat × Nat)) (own : Bool) : State :=
  let s := mor l
  { s with dch := { s.dch with nextT := some (placeAt 5 1), lost := own } }

theorem witness_SampleChains : (mor []).Runs ∧ (mor []).afe.run = true ∧ (mor []).afe.mainDue = none ∧ (mor []).resetFirst = false ∧
    mainReady.afe.mainDue = some 256 ∧ (∀ p ∈ List.range 24, mainReady.pipeDue 256 p = false) ∧
    (∀ t ∈ [0, 1, 2], mainReady.unitReady t = false) ∧ (∀ t ∈ [0, 1, 2], unitsReady.unitReady t = true) ∧
    (instantIn [(GEN_STATE_stacked, [], 1)] false).dch.nextT = some (placeAt 5 1) ∧
    (placeAt 5 1).now ≤ (instantIn [(GEN_STATE_stacked, [], 1)] false).mer.now ∧ dark.afe.run = false ∧
    (mor []).unitReady 0 = false ∧ (mor []).dch.nextT = none ∧
    ((instantIn [(GEN_STATE_stacked, [], 1)] false).tracked (placeAt 5 1)).1 = none ∧
    (((instantIn [] true).tracked (placeAt 5 1)).1.map (·.t)).isSome = true := ⟨at_runs _ _, by decide⟩

def syncReset (l : List (Time × Nat × Option Desc)) : State := { mor [] with dch := { (mor []).dch with resets := l } }
def chanDue : State := { mor [] with afe := { (mor []).afe with chans := (mor []).afe.chans.set 3 ⟨0, 0, 0, 0, [(20, .mode 1)], 0⟩ } }
def pipeDue_ : State :=
  let s := mor [(DCH_CH_run, [3], 1)]
  { s with afe := { s.afe with mainDue := some 256 }, dch := { s.dch with
    pipes := s.dch.pipes.set 3 ⟨[], [], 0, [(256, 0x80000004)], true, 3, false, false, [], []⟩ } }

theorem witness_ChainResets : (mor []).Runs ∧ (mor [(DCH_SYNCCFG_pinen, [], 1)]).on DCH_SYNCCFG_pinen = true ∧
    true = !(mor [(DCH_SYNCCFG_pinen, [], 1)]).on DCH_SYNCCFG_pinpol ∧ (mor []).on DCH_SYNCCFG_pinen = false ∧
    (mor []).resetDue = none ∧ ((mor []).chan 3).due = [] ∧ (mor []).afe.mainDue = none ∧ pipeDue_.frameReady = false ∧
    (mor []).inSt [DAWN, NIGHT, SAFE] = false ∧ (at_ SAFE []).inSt [DAWN, NIGHT, SAFE] = true ∧ (0x100#32).getLsbD 8 = true ∧
    (syncReset [(5, 1, some (cmd 0)), (9, 0, none)]).resetDue = some 5 ∧ (syncReset [(5, 1, some (cmd 0)), (9, 0, none)]).chainsBusy = false ∧
    modAt 5 < (syncReset [(5, 1, some (cmd 0)), (9, 0, none)]).reach ∧
    (syncReset [(5, 1, some (cmd 0)), (9, 0, none)]).chanBefore (modAt 5) = false ∧
    (chanDue.chan 3).due = [(20, .mode 1)] ∧ chanDue.afe.run = true ∧ chanDue.chainsBusy = false ∧ 20 < chanDue.reach ∧
    chanDue.resetDue = none ∧
    pipeDue_.afe.mainDue = some 256 ∧ ((pipeDue_.pipe 3).takeDue 256).2.getLast? = some 256 ∧
    (∀ t ∈ [0, 1, 2], pipeDue_.unitReady t = false) := ⟨at_runs _ _, by decide⟩

/-- Pipeline 23 does not run. -/
def slowPipe : State := { mor [] with dch := { (mor []).dch with pipes := (mor []).dch.pipes.set 23 { (mor []).pipe 23 with run := false } } }

theorem witness_BanksAndTracking : (mor []).Runs ∧ (mor []).inSt [DAWN, NIGHT, SAFE] = false ∧
    (mor []).runsNow 23 = true ∧ (mor []).scsNow 23 2 = false ∧ (at_ NIGHT []).inSt [DAWN, NIGHT, SAFE] = true ∧
    (slowPipe.runsNow 23 = false) ∧ bitAt (23 + 32 * 2 + 256) 8 = true ∧ (mor []).g DCH_TRK_src ≠ 1 ∧ (mor []).dg DCH_TRK_src ≠ 1 ∧ (23 + 32 * 2) % 32 = 23 ∧ (23 + 32 * 2) / 32 % 4 = 2 ∧
    bitAt (23 + 32 * 2) 8 = false ∧
    (∀ x ∈ bdefBanks 0x2, (mor []).bankInUse x.1 x.2 = false) ∧ (∃ x ∈ bdefBanks 0x3, (mor []).bankInUse x.1 x.2 = true) ∧
    (mor [(DCH_TRK_src, [], 1)]).g DCH_TRK_src = 1 ∧ (mor [(DCH_TRK_src, [], 1)]).dg DCH_TRK_src = 1 ∧
    (mor [(DCH_TRK_src, [], 1)]).dch.hostDone = false ∧
    (mor [(DCH_TRK_src, [], 1)]).dg DCH_TRK_hto * oneMs ≤ (mor [(DCH_TRK_src, [], 1)]).since 0 := ⟨at_runs _ _, by decide⟩

/-- A frame whose samples are there. -/
def frameIn (l : List (Fld × List Nat × Nat)) : State :=
  let s := mor l
  { s with dch := { s.dch with placed := [placeAt 0 1], preAt := some 4096 } }
/-- A formed stack, with a member at position 1 and a row that uses a cascade operand. -/
def formedIn (second : Bool) (rest : List (Fld × List Nat × Nat)) : State :=
  let s := stkMaster rest
  { s with tmx := { s.tmx with second := second, pubs := [] } }

/-- A member whose master has published. -/
def waiting : State :=
  let s := formedIn true []
  { s with tmx := { s.tmx with pubs := [(1, 0)] } }
def waiters (s : State) : State := { s with ele := { s.ele with wait := [255] } }
/-- What the frame comes to before its second pass, as FrameOrder names it, and whether no slot waits. -/
def frameOps (s : State) : State × Bool :=
  let u := (({ s with rcd := { s.rcd with tele := s.teleRx } }.formFrame.frameStates).netBoundary.recDistances).phasorUpdate.eleFrame
  (((((if u.ele.wait.isEmpty then u.eleDone 0 else u).passOne 0 0).takeReport.takeEarly).sendPub), u.ele.wait.isEmpty)

theorem witness_FrameOrder : (mor []).Runs ∧ (frameIn []).frameReady = true ∧ (frameIn []).tmx.second = false ∧
    (frameIn []).inSt [MORNING, NOON, DUSK, SAFE] = true ∧
    waiting.tmx.second = true ∧ waiting.pubsIn = true ∧
    waiting.holdMissing.ele.wait = [] ∧ (waiters waiting).holdMissing.ele.wait ≠ [] ∧ (waiters waiting).pubsIn = true ∧
    (mor []).frameReady = false ∧ (mor []).tmx.second = false ∧ (mor []).on GEN_STATE_stacked = false ∧
    (∀ b ∈ [true, false], (formedIn b []).on GEN_STATE_stacked = true ∧ deadline (formedIn b []).dch.frame.ts ≤ (formedIn b []).mer.now ∧
      (if (formedIn b []).pubsIn || (formedIn b []).tmx.missed then formedIn b []
        else ({ formedIn b [] with tmx := { (formedIn b []).tmx with missed := true } } : State).flag TMX 13).holdMissing.tmx.second = b) :=
  ⟨at_runs _ _, by decide +kernel⟩

def feedIn : State := mor [(PHE_RGRP_en, [7], 1), (PHE_RGRP_src, [7], 3), (PHE_RSTAT_stale, [7], 0)]
def hostFreq : State := mor [(PHE_GCFG_fsrc, [7], 1)]

theorem witness_PhasorFeeds : (mor []).Runs ∧ feedIn.inSt [DAWN, NIGHT] = false ∧ feedIn.on PHE_RGRP_en [7] = true ∧
    feedIn.g PHE_RGRP_src [7] = 3 ∧ (at_ NIGHT []).inSt [DAWN, NIGHT] = true ∧ (mor []).on PHE_RGRP_en [7] = false ∧
    (mor []).g PHE_RGRP_src [7] ≠ 3 ∧ hostFreq.on PHE_GCFG_fsrc [7] = true ∧ (hostFreq.grp 7).hostDone = false ∧
    hostFreq.g PHE_GFCFG_hto [7] * oneMs ≤ hostFreq.since (hostFreq.grp 7).hostCyc ∧
    (mor []).on PHE_GCFG_fsrc [7] = false ∧ (at_ MORNING [(PHE_RSTAT_stale, [7], 1)]).on PHE_RSTAT_stale [7] = true ∧
    feedIn.on PHE_RSTAT_stale [7] = false ∧ (feedIn.grp 15).age = none := ⟨at_runs _ _, by decide⟩

def slotIs (n : Nat) (x : ElSlot) : State :=
  { mor [] with ele := { (mor []).ele with slots := (mor []).ele.slots.set n x } }
def hostSlot : ElSlot := { ElSlot.reset with cfg := 0xA1090002, res := some (65530, 0x0F) }
/-- A PTUV slot that has started and whose timer has run. -/
def timedSlot : ElSlot := { ElSlot.reset with cfg := 0xA1090701, out := ⟨true, false, false, false, 0, 1, 0⟩, mem := { ElSlot.reset.mem with g := 1 } }
def heldSlot : ElSlot := { ElSlot.reset with cfg := 0xA1090701, vst := 1, held := 1 }

/-- A PIOC slot that holds at its newest sample. -/
def heldPioc : ElSlot := { ElSlot.reset with cfg := 0xA1090001 + 256 * T_PIOC, view := [(5, ElSlot.reset.out, 1, 0)], held := 1 }
/-- The setting write of ELE_SETW for one value of slot 255, at its setting i. -/
def setw (s : State) (d : Desc) (i : Nat) (v : Word) : State :=
  let r := settingWrite (s.g ELE_CFG_type [255]) i (s.settings 255) [v]
  ((s.open_ d).putSettings 255 r.1).each r.2 fun t k => if i ≤ k && k < i + 1 then t.clampDesc d 8 1 else t.clampReg (0x64000 + 64 * 255 + 4 * k) 1
/-- Slot 255 is a PDIF slot. -/
def pdif : State := mor [(ELE_CFG_type, [255], T_PDIF)]

theorem witness_ElementSlots : (mor []).Runs ∧ (mor []).inSt [DAWN, NIGHT] = false ∧
    (settingWrite ((mor []).g ELE_CFG_type [5]) 15 ((mor []).settings 5) [BitVec.ofNat 32 (leAt [0, 0, 0, 0] 0 4)]).2 = [] ∧
    ((slotIs 255 hostSlot).slot 255).mode = M_HOST ∧ (at_ NIGHT []).inSt [DAWN, NIGHT] = true ∧ ((mor []).slot 255).mode ≠ M_HOST ∧
    (mor [(ELE_CFG_type, [255], 7)]).on BLK_CTRL_lock [ELE] = false ∧ (mor [(ELE_CFG_type, [255], 7)]).g ELE_CFG_type [255] ≠ 0 ∧
    ((slotIs 255 hostSlot).slot 255).res = some (65530, 0x0F) ∧ ((slotIs 255 hostSlot).slot 255).stale = false ∧
    2 < resultAge (slotIs 255 hostSlot).dch.frame.seq 65530 ∧
    ((slotIs 255 timedSlot).slot 255).mode = M_HW ∧ ((slotIs 255 timedSlot).slot 255).vst = 0 ∧
    ((slotIs 255 timedSlot).slot 255).timerDue = true ∧ ((slotIs 255 timedSlot).slot 255).out.oper = false ∧
    ((slotIs 255 timedSlot).slot 255).typ ≠ T_RBRF ∧
    min (cmd 0x1FF).len.toNat 64 / 4 = 0 ∧ bitAt (cmd 0x1FF).rf.toNat 8 = true ∧ bitAt (cmd 0xFF).rf.toNat 8 = false ∧
    (setw (mor []) (cmd 0x1FF 4) 0 0).roleOf 255 = ((mor []).open_ (cmd 0x1FF 4)).roleOf 255 ∧
    (setw pdif (cmd 0x1FF 4 4) 4 0x40000000).roleOf 255 ≠ (pdif.open_ (cmd 0x1FF 4 4)).roleOf 255 ∧
    ((mor []).slot 255).res = none ∧ ((mor []).slot 255).timerDue = false ∧ ((mor []).slot 255).held ≤ ((mor []).slot 255).val 3 ∧
    ((slotIs 255 heldPioc).slot 255).typ = T_PIOC ∧ ((slotIs 255 heldPioc).slot 255).view = [(5, ElSlot.reset.out, 1, 0)] ∧
    ((slotIs 255 heldPioc).slot 255).val 3 < ((slotIs 255 heldPioc).slot 255).held ∧ ((slotIs 255 heldSlot).slot 255).typ ≠ T_PIOC ∧
    ((slotIs 255 heldSlot).slot 255).vst = 1 ∧ ((slotIs 255 heldSlot).slot 255).val 3 < ((slotIs 255 heldSlot).slot 255).held := ⟨at_runs _ _, by decide +kernel⟩

/-! ### The Sluice and the interrupts -/

def rowIs (r : Nat) (x : RowSt) (l : List (Fld × List Nat × Nat)) : State :=
  let s := mor l
  { s with tmx := { s.tmx with rows := s.tmx.rows.set r x } }
def classS : RowSt := { RowSt.reset with cls := true }
def lowCore : State := rowIs 63 classS [(PWR_VSTAT_meas, [], 719)]

theorem witness_RowEnables : (mor []).Runs ∧ (mor []).on BLK_CTRL_lock [TMX] = false ∧
    (0x80000000#32).msb = true ∧ (0x80000000#32).getLsbD 8 = false ∧ ((mor []).row 63).cls = false ∧ (mor []).on TMX_ROW_en [63] = false ∧
    (0x80000100#32).msb = true ∧ (0x80000100#32).getLsbD 8 = true ∧ lowCore.on BLK_CTRL_lock [TMX] = false ∧ (lowCore.row 63).cls = true ∧
    lowCore.on TMX_ROW_en [63] = false ∧ lowCore.g PWR_VSTAT_meas < 720 ∧
    (0x100#32).msb = false ∧ (0x100#32).getLsbD 8 = (lowCore.row 63).cls ∧
    (cmd 0 0 0 (2 ^ 63)).addr.toNat = 2 ^ 63 ∧ (cmd 0 0 0 (2 ^ 63)).a.getLsbD 63 = false ∧
    bits 0x3F#32 5 0 = 63 ∧ (mor []).rowIsS 63 = false ∧ lowCore.rowIsS 63 = true := ⟨at_runs _ _, by decide +kernel⟩

/-- A row of class S that drives, with a seal, since the time tc. -/
def sealing (sl : Bool) (cfg : Word) (tc tnow : Time) : State :=
  rowIs 63 { classS with drive := true, sealOn := sl, sealCfg := cfg, tc := tc, tnow := tnow } []
def supervised (on : Time) : State :=
  let s := mor [(TMX_TCS_onchk, [15], 1)]
  { s with tmx := { s.tmx with onAt := s.tmx.onAt.set 15 (some on) } }
def missing (f : Bool) (last : Nat) (misses : Nat) : State :=
  let s := at_ NOON [(TMX_PSLACK_last, [], last)]
  { s with tmx := { s.tmx with misses := misses }, pwr := { s.pwr with faulted := f } }

theorem witness_SluiceEvents : (mor []).Runs ∧
    (∀ x ∈ [sealing true 0xFF0A 5 (5 + 25500 * oneMs), sealing true 0x01FF 5 (5 + 100 * oneMs)], (x.row 63).cls = true ∧
      (x.row 63).act = false ∧ (x.row 63).drive = true ∧ (x.row 63).sealOn = true ∧ 0 < bits (x.row 63).sealCfg 15 8 * 100 * oneMs ∧
      (x.row 63).tc + bits (x.row 63).sealCfg 15 8 * 100 * oneMs = (x.row 63).tnow) ∧
    5 + bits (0xFF0A#32) 7 0 * 5 * oneMs ≤ ((sealing true 0xFF0A 5 (5 + 25500 * oneMs)).row 63).tnow ∧
    ((sealing true 0x01FF 5 (5 + 100 * oneMs)).row 63).tnow < 5 + bits (0x01FF#32) 7 0 * 5 * oneMs ∧
    ((sealing false 0xFF0A 5 (5 + 50 * oneMs)).row 63).sealOn = false ∧
    ((sealing false 0xFF0A 5 (5 + 50 * oneMs)).row 63).tnow = 5 + bits (0xFF0A#32) 7 0 * 5 * oneMs ∧
    nth (supervised 0).tmx.onAt 15 none = some 0 ∧ (supervised 0).on TMX_TCS_onchk [15] = true ∧ 0 + 5 * oneMs ≤ (supervised 0).mer.now ∧
    bitAt ((supervised 0).g TMX_TCSST_on) 15 = false ∧ ((mor []).row 63).cls = false ∧ nth (mor []).tmx.onAt 15 none = none ∧
    (mor []).inSt [NOON, DUSK] = false ∧ (missing false 0 0).tmx.misses < (missing false 0 0).g TST_FCFG_nmiss ∧
    0 ≤ sgn 16 ((missing false 0 0).g TMX_PSLACK_last) ∧
    (∀ f ∈ [true, false], (missing f 0xFFFF 0).inSt [NOON, DUSK] = true ∧ sgn 16 ((missing f 0xFFFF 0).g TMX_PSLACK_last) < 0 ∧
      (missing f 0 99).g TST_FCFG_nmiss ≤ (missing f 0 99).tmx.misses ∧ (missing f 0 99).pwr.faulted = f) := ⟨at_runs _ _, by decide +kernel⟩

def irqIn (n : Nat) (pend act : Bool) (who : List (Nat × Nat)) (l : List (Fld × List Nat × Nat)) : State :=
  let s := mor l
  { s with icu := { s.icu with pending := putSrc 0 n pend, active := putSrc 0 n act, taker := who } }

theorem witness_TakeAndDone : (mor []).Runs ∧ (irqIn 255 true false [] []).srcPend 255 = true ∧ (irqIn 255 true false [] []).srcAct 255 = false ∧
    (irqIn 255 true false [] []).srcTgt 255 = HOST ∧ (mor []).srcPend 0 = false ∧ (irqIn 255 true true [] []).srcAct 255 = true ∧
    (irqIn 255 true false [] [(ICU_SRC_tgt, [255], 6)]).srcTgt 255 ≠ HOST ∧
    (irqIn 255 false true [(255, HOST)] []).srcAct 255 = true ∧ (255, HOST) ∈ (irqIn 255 false true [(255, HOST)] []).icu.taker ∧
    (mor []).srcAct 255 = false ∧ (255, HOST) ∉ (irqIn 255 false true [(255, 0)] []).icu.taker := ⟨at_runs _ _, by decide +kernel⟩

def retargeted (n : Nat) (act pend : Bool) : State := irqIn n pend act [] [(ICU_EN, [n / 32], 2 ^ (n % 32))]

theorem witness_InterruptControl : (mor []).Runs ∧ (3 : Fin 5).val < 4 ∧
    (retargeted 255 true false).srcTgt 255 ≠ 0 ∧ (retargeted 255 true false).srcAct 255 = true ∧
    (retargeted 255 false true).srcAct 255 = false ∧ (retargeted 255 false true).on ICU_MODE_compat = false ∧
    (((retargeted 255 false true).p ICU_SRC_tgt [255] 0).presented 255 = true) ∧
    (((retargeted 255 false false).p ICU_SRC_tgt [255] 0).presented 255 = false) ∧
    (mor []).srcTgt 255 = HOST ∧ bits 0#32 0 0 = (mor []).g ICU_MODE_compat ∧ bits 1#32 0 0 ≠ (mor []).g ICU_MODE_compat ∧
    (irqIn 255 true true [] []).icu.active ≠ 0 ∧ isLevel 255 = false ∧
    (1#32).getLsbD 0 = true ∧ (mor []).g ICU_MODE_compat = 0 ∧ (∀ b ∈ (mor []).bcp, b.state ≠ 2) ∧ (mor []).icu.active = 0 ∧
    (212 : Nat) ≠ 222 ∧ isLevel 212 = true ∧ (mor []).icu.level.getLsbD 212 = !true ∧
    bitAt ((mor [(MSIX_pba, [1], 2 ^ 31)]).g MSIX_pba [1]) 31 = true ∧ bitAt ((mor []).g MSIX_pba [1]) 31 = false :=
  ⟨at_runs _ _, by decide +kernel⟩

/-! ### The recorder and the field -/

/-- Stream 3 of the recorder in a state, with an open buffer since reset. -/
def streamIn (st : Nat) (l : List (Fld × List Nat × Nat)) : State :=
  let s := mor ([(REC_STAT_state, [3], st)] ++ l)
  s.putStr 3 { s.str 3 with cur := some ⟨65536, [], 0⟩ }

def trig_ (s : State) (h : PktHead) : Bool × State := s.packetIn PK_TRIG h none [1, 5, 0, 0, 0, 0]
/-- What a buffer holds. -/
def young : State := let s := streamIn RS_RUN []; s.putStr 3 { s.str 3 with cur := some ⟨65536, [], 10 ^ 15⟩ }

theorem witness_RecordStreams : (mor []).Runs ∧ (mor []).recActive 3 = false ∧ (mor []).inSt [DAWN, NIGHT] = false ∧
    (mor []).on REC_CFG_mode [3] = false ∧
    (mor [(REC_CFG_mode, [3], 1)]).on REC_CFG_mode [3] = true ∧
    ((mor [(REC_CFG_mode, [3], 1)]).g REC_LEN_pre [3] * (mor [(REC_CFG_mode, [3], 1)]).setLen 3 + 2047) / 2048 ≤
      (mor [(REC_CFG_mode, [3], 1), (CIS_Q_max, [3], 255)]).g CIS_Q_max [3] ∧
    (mor [(REC_CFG_mode, [3], 1), (REC_LEN_pre, [3], 65535), (CIS_Q_max, [3], 1)]).g CIS_Q_max [3] <
      ((mor [(REC_CFG_mode, [3], 1), (REC_LEN_pre, [3], 65535), (CIS_Q_max, [3], 1)]).g REC_LEN_pre [3] *
        (mor [(REC_CFG_mode, [3], 1), (REC_LEN_pre, [3], 65535), (CIS_Q_max, [3], 1)]).setLen 3 + 2047) / 2048 ∧
    (streamIn RS_RUN []).recActive 3 = true ∧ (at_ NIGHT []).inSt [DAWN, NIGHT] = true ∧
    (trig_ (stkMaster []) (pk 1)).1 = true ∧ (trig_ (stkMaster []) (pk 1)).2.formed = true ∧
    (trig_ (mor []) (pk 1)).2.formed = false ∧ (trig_ (stkMaster []) { pk 1 with crcOk := false }).1 = false ∧
    (young.str 3).cur = some ⟨65536, [], 10 ^ 15⟩ ∧ young.since (10 ^ 15) < young.g REC_CFG_flush [3] * 100 * oneUs ∧
    ((mor []).str 3).cur = none ∧ (cmd 0 0 0 (2 ^ 48)).addr.toNat % 2 ^ 48 = 0 ∧
    ((streamIn RS_RUN []).str 3).cur = some ⟨65536, [], 0⟩ ∧
    (streamIn RS_RUN []).g REC_CFG_flush [3] * 100 * oneUs ≤ (streamIn RS_RUN []).since 0 := ⟨at_runs _ _, by decide +kernel⟩

def captured : State :=
  { mor [] with rcd := { (mor []).rcd with
    cap := some ⟨500, [], none, [0]⟩, wb := (List.range 111).reverse.map (fun n => (500 + n, [])) ++ (List.range 37).map fun n => (499 - n, []) } }
def waiting5 : State := { mor [] with rcd := { (mor []).rcd with cap := some ⟨500, [], none, [0]⟩ } }
def arrived : State := { mor [] with rcd := { (mor []).rcd with arrivals := [(0, true)] } }

theorem witness_FaultLocation : (mor []).Runs ∧ (mor []).inSt [DAWN, NIGHT] = false ∧
    isNaN f32 (0x49742400#32).toNat = false ∧ isInf f32 (0x49742400#32).toNat = false ∧ 0 ≤ ofF32 (0x49742400#32).toNat ∧
    ofF32 (0x49742400#32).toNat = 1000000 ∧ isNaN f32 (0x7FC00000#32).toNat = true ∧
    isNaN f32 (0x80000001#32).toNat = false ∧ ofF32 (0xBF800000#32).toNat < 0 ∧ isInf f32 (0xBF800000#32).toNat = false ∧
    1000000 < ofF32 (0x49742401#32).toNat ∧ isNaN f32 (0x49742401#32).toNat = false ∧ isInf f32 (0x49742401#32).toNat = false ∧
    (at_ NIGHT []).inSt [DAWN, NIGHT] = true ∧ waiting5.rcd.cap = some ⟨500, [], none, [0]⟩ ∧
    ((waiting5.window 500).filter fun e => decide (500 ≤ e.1)).length < 111 ∧ (mor []).rcd.cap = none ∧
    arrived.rcd.arrivals = [(0, true)] ∧ 0 + arrived.g REC_FLCFG_tmax * oneUs < arrived.mer.now ∧
    captured.rcd.cap = some ⟨500, [], none, [0]⟩ ∧ (captured.window 500).length = 148 ∧
    111 ≤ ((captured.window 500).filter fun e => decide (500 ≤ e.1)).length := ⟨at_runs _ _, by decide +kernel⟩

def inputsRaw : State := { mor [] with fio := { (mor []).fio with di := List.replicate 32 ⟨0, true, 0, false, 0, 0, none⟩ } }
/-- Input 31 near an end of its filter. -/
def inputIn (cnt : Nat) (due : Option (Time × Bool × Nat)) (l : List (Fld × List Nat × Nat)) : State :=
  let s := (mor ([(FIO_DICFG_lim, [31], 3)] ++ l)).putDi 31 ⟨cnt, true, 0, false, 0, 0, due⟩
  { s with fio := { s.fio with sampleUs := 7000000 } }

theorem witness_DigitalInputs : State.reset.Runs ∧ (mor []).Runs ∧ State.reset.dev = DAWN ∧ inputsRaw.dev ≠ DAWN ∧
    (∀ i ∈ List.range 32, (inputsRaw.diSt i).started = true ∧ inputsRaw.on FIO_DICFG_raw [i] = false) ∧
    ((inputIn 2 none []).diSt 31).started = true ∧ ((inputIn 2 none []).diSt 31).due = none ∧
    (inputIn 2 none []).fio.sampleUs % 1000000 % 10 ^ (inputIn 2 none []).g FIO_DICFG_tick [31] = 0 ∧
    ((inputIn 2 none []).diSt 31).tickAt ≠ (inputIn 2 none []).fio.sampleUs * oneUs ∧ (inputIn 2 none []).g FIO_DICFG_lim [31] = 3 ∧
    bitAt ((inputIn 2 none [(FIO_DIRAW, [], 2 ^ 31)]).g FIO_DIRAW) 31 = true ∧ min (min 2 3 + 1) 3 = 3 ∧
    bitAt ((inputIn 2 none []).g FIO_DISTATE) 31 = false ∧
    bitAt ((inputIn 1 none [(FIO_DISTATE, [], 2 ^ 31)]).g FIO_DISTATE) 31 = true ∧
    bitAt ((inputIn 1 none [(FIO_DISTATE, [], 2 ^ 31)]).g FIO_DIRAW) 31 = false ∧ min 1 3 - 1 = 0 ∧
    ¬ (min (min 1 3 + 1) 3 = 3) ∧ bitAt ((inputIn 1 none [(FIO_DIRAW, [], 2 ^ 31)]).g FIO_DIRAW) 31 = true ∧
    ((mor []).diSt 31).due = none ∧ ((inputIn 0 (some (5, true, 30)) []).diSt 31).due ≠ none ∧
    ((inputIn 0 (some (5, true, 30)) []).diSt 31).due = some (5, true, 30) := ⟨⟨rfl, rfl⟩, at_runs _ _, by decide +kernel⟩

theorem witness_OutputRequests : (mor []).Runs ∧ (mor []).inSt [DAWN, NIGHT] = false ∧ (at_ NIGHT []).inSt [DAWN, NIGHT] = true ∧
    (mor []).hostOwns 15 = true ∧
    (mor [(FIO_WDCFG_hwd, [], 1)]).on FIO_WDCFG_hwd = true ∧ (mor []).fio.hostDone = false ∧
    (mor [(FIO_WDCFG_hwd, [], 1)]).g FIO_WDCFG_t * oneMs ≤ (mor [(FIO_WDCFG_hwd, [], 1)]).since 0 ∧
    (mor []).inSt [MORNING, NOON, DUSK, SAFE] = true ∧ 500 * oneUs ≤ (mor []).since (mor []).fio.wordCyc ∧
    (({ mor [] with fio := { (mor []).fio with hold := false } } : State).dieSafe = false) ∧
    (mor []).on FIO_WDCFG_hwd = false ∧ (at_ NIGHT []).inSt [MORNING, NOON, DUSK, SAFE] = false ∧
    (mor []).g FIO_WDCFG_t * oneMs * 85 ≤ (mor []).since (mor []).fio.refCyc * 100 := ⟨at_runs _ _, by decide +kernel⟩

def hotSwitch (o : Nat) (l : List (Fld × List Nat × Nat)) : State :=
  { mor l with fio := { (mor l).fio with hot := BitVec.ofNat 16 (2 ^ o) } }

theorem witness_OutputFaults : (mor []).Runs ∧ bitAt ((mor []).g FIO_OUTST_low) 15 = false ∧
    (hotSwitch 15 [(FIO_FLTST_tsd, [], 2 ^ 15)]).fio.hot.getLsbD 15 = true ∧
    bitAt ((hotSwitch 15 [(FIO_FLTST_tsd, [], 2 ^ 15)]).g FIO_FLTST_tsd) 15 = true ∧
    bitAt ((mor [(FIO_EXTST_ovc_or_ext, [], 2 ^ 15)]).g FIO_EXTST_ovc_or_ext) 15 = true ∧ bitAt ((mor [(FIO_OUTST_low, [], 2 ^ 15)]).g FIO_OUTST_low) 15 = true ∧
    bitAt ((mor []).g FIO_FLTST_ovc_or_ext) 15 = false ∧ (mor []).fio.hot.getLsbD 15 = false ∧ bitAt (mor []).cmdWord 15 = false ∧
    bitAt ((mor []).g FIO_EXTST_ovc_or_ext) 15 = false ∧ (mor []).pulse ((mor []).lead 15) = none ∧
    2 * oneMs ≤ (mor []).since (nth (mor []).fio.offCyc 15 0) ∧ (3 : Fin 4).val ≠ 1 ∧ (mor []).fio.hot = 0 ∧
    (hotSwitch 15 [(FIO_FLTLAT_lat, [1], 0xC000)]).g FIO_FLTLAT_lat [1] &&& bits 0x8000#32 15 0 = 2 ^ 15 ∧
    (hotSwitch 15 [(FIO_FLTLAT_lat, [1], 0xC000)]).fio.hot.getLsbD 15 = true := ⟨at_runs _ _, by decide +kernel⟩

/-- Output 15 tested in mode 2 (a pulse on), every second; the I/O die is in service. -/
def tested (l : List (Fld × List Nat × Nat)) (now : Time) : State :=
  let s := at_ NOON ([(FIO_TPCFG_mode, [15], 2), (FIO_TPCFG_per, [15], 1)] ++ l)
  { s with mer := { s.mer with now := now }, fio := { s.fio with hold := false } }
def pulsed : State := (tested [] (9 * oneSec)).putPulse 15 (some ⟨0, 2⟩)

theorem witness_TestPulses : (mor []).Runs ∧ (tested [] (15 * oneMs)).pulsesRun = true ∧
    (tested [] (15 * oneMs)).g FIO_TPCFG_per [15] = 1 ∧ (tested [] (15 * oneMs)).g FIO_TPCFG_mode [15] ≠ 0 ∧
    (tested [] (15 * oneMs)).oddPair 15 = false ∧
    (tested [] (15 * oneMs)).mer.now / oneUs % (1000 * 1) = 1000 * 15 % (1000 * 1) ∧
    (tested [] (15 * oneMs)).pulseSkips 15 = false ∧ (tested [(FIO_FLTST_ovc_or_ext, [], 2 ^ 15)] (15 * oneMs)).pulseSkips 15 = true ∧
    bits (cmd 0 0 0x8000).b 15 0 ≠ 0 ∧ (mor []).pulsesRun = false ∧
    (bitsOf 16 (bits (cmd 0 0 0x8000).b 15 0)).filter (fun o => !(tested [] (15 * oneMs)).pulseSkips o) = [15] ∧
    bitsOf 16 (bits (cmd 0).b 15 0) = [] ∧ (mor []).pulse 15 = none ∧
    pulsed.pulse 15 = some ⟨0, 2⟩ ∧ 0 + pulsed.g FIO_TPCFG_len [15] * oneUs ≤ pulsed.mer.now := ⟨at_runs _ _, by decide +kernel⟩

/-! ### Remote I/O, converters and pulse timers -/

/-- Station 15 of link 7, enabled, with its owner and no bytes. -/
def station (own : Nat) (x : StaSt) : StaSt := { x with cfg := BitVec.ofNat 32 (2 ^ 31 + own * 2 ^ 28) }
def linkIn (own : Nat) (run : Bool) (cyc : Option Time) (slot : Option (Nat × Nat × Time)) (ans : Option Bool)
    (l : List (Fld × List Nat × Nat)) : State :=
  let s := mor l
  s.putLink 7 ⟨run, false, 0, cyc, 0, [], slot, ans, (List.replicate 16 emptySta).set 15 (station own emptySta)⟩
def up_ (miss : Nat) : List (Fld × List Nat × Nat) := [(RIO_SST_state, [7, 15], S_UP), (RIO_SST_miss, [7, 15], miss)]
/-- A RESP of station 15 in poll 2 without input bytes. -/
def aResp : List Byte := [0xF2, 0x2F, 0, 1] ++ leBytes 2 (crc16 [0xF2, 0x2F, 0, 1]).toNat

theorem witness_RemoteStations : (mor []).Runs ∧ ((mor []).link 7).running = false ∧ ((mor []).link 7).slot = none ∧
    ((linkIn 0 true (some 0) (some (15, 2, 9)) none []).link 7).slot ≠ none ∧
    ((linkIn 0 true (some 0) (some (15, 2, 9)) none []).link 7).answer = none ∧
    respOk 15 3 ((linkIn 0 true (some 0) (some (15, 2, 9)) none []).sta 7 15).ni aResp = false ∧
    ((linkIn 0 true (some 0) (some (15, 2, 9)) (some true) []).link 7).answer = some true ∧
    ((linkIn 0 true (some 0) (some (15, 2, 9)) (some true) []).putLink 7
      { (linkIn 0 true (some 0) (some (15, 2, 9)) (some true) []).link 7 with slot := none, answer := none }).dropDue 7 15 = false ∧
    (mor []).dropDue 7 15 = false ∧ (mor []).staState 7 15 = S_IDLE ∧ ((mor []).sta 7 15).en = false ∧
    ((linkIn 0 true (some 0) none none []).sta 7 15).en = true ∧ ((linkIn 0 true (some 0) none none []).sta 7 15).own = 0 ∧
    ((linkIn 0 true (some 0) none none []).link 7).running = true ∧ (linkIn 0 true (some 0) none none []).inSt [DAWN, NIGHT] = false ∧
    ((linkIn 0 true (some 0) none none []).link 7).slot = none ∧ ((linkIn 0 true (some 0) none none []).link 7).cycAt = some 0 ∧
    ((linkIn 0 true (some 0) none none []).toPoll 7).head? = some 15 ∧
    0 + halfUs ((linkIn 0 true (some 0) none none []).slotOff 7 15) ≤ (linkIn 0 true (some 0) none none []).mer.now ∧
    ((linkIn 0 true none none none []).link 7).stopping = false ∧
    (linkIn 0 true none none none []).cycleDue 7 = some (10 ^ 9 * oneSec) ∧
    ((((linkIn 0 true none none none [(RIO_ST_en, [7, 15], 1)]).cycleStart 7 (10 ^ 9 * oneSec)).toPoll 7).head? = some 15) ∧
    (((linkIn 0 true none none none []).cycleStart 7 (10 ^ 9 * oneSec)).inSt [DAWN, NIGHT] = false) ∧
    ((((linkIn 0 true none none none []).cycleStart 7 (10 ^ 9 * oneSec)).link 7).cycAt = some (10 ^ 9 * oneSec)) ∧
    10 ^ 9 * oneSec + halfUs (((linkIn 0 true none none none [(RIO_ST_en, [7, 15], 1)]).cycleStart 7 (10 ^ 9 * oneSec)).slotOff 7 15) ≤
      10 ^ 9 * oneSec ∧
    ((linkIn 0 true (some 0) (some (15, 2, 9)) none []).link 7).slot = some (15, 2, 9) ∧ respCrcBad aResp = false ∧
    respOk 15 2 ((linkIn 0 true (some 0) (some (15, 2, 9)) none []).sta 7 15).ni aResp = true ∧
    (linkIn 0 true (some 0) (some (15, 2, 9)) none (up_ 0)).staState 7 15 = S_UP ∧ respCrcBad [1, 2, 3, 4, 5, 6] = true ∧
    9 ≤ (linkIn 0 true (some 0) (some (15, 2, 9)) none []).mer.now ∧ ((linkIn 0 true (some 0) (some (15, 2, 9)) none []).link 7).stopping = false ∧
    (linkIn 0 true (some 0) none none (up_ 0)).dropDue 7 15 = false ∧
    ((linkIn 0 true (some 0) none none (up_ 255)).cnt RIO_SST_miss [7, 15]).dropDue 7 15 = true ∧
    ((linkIn 0 true (some 0) none none (up_ 255)).sta 7 15).own = 0 ∧ ((linkIn 4 true (some 0) none none (up_ 255)).sta 7 15).own = 3 + 1 ∧
    (linkIn 0 true (some 0) none none (up_ 0)).staState 7 15 ≠ S_IDLE ∧ (127 : Nat) % 128 = 16 * 7 + 15 ∧
    ((linkIn 0 true (some 0) none none []).sta 7 15).hostDone = false ∧
    (linkIn 0 true (some 0) none none []).g RIO_HCFG_hto * oneMs ≤ (linkIn 0 true (some 0) none none []).since 0 := ⟨at_runs _ _, by decide +kernel⟩

def convIn (x : ConvSt) (l : List (Fld × List Nat × Nat)) : State := (mor l).putConv 1 x
def converting : ConvSt := ⟨[], some ⟨5, 5 + 20000 * oneUs, 20000, 3, false, true⟩, 0, 65535⟩
def sized : List (Fld × List Nat × Nat) := [(CIS_Q_max, [7], 8), (CIS_Q_res, [7], 8)]

theorem witness_Converters : (mor []).Runs ∧ (mor []).coupled = false ∧ (at_ NIGHT []).inSt [DAWN, NIGHT] = true ∧
    (∃ a ∈ bitsOf 2 2, (mor []).on AUX_CFG_run [a] = false) ∧ (mor []).inSt [DAWN, NIGHT] = false ∧
    (∀ a ∈ bitsOf 2 2, (mor [(AUX_CFG_run, [1], 1)]).on AUX_CFG_run [a] = true) ∧ (mor [(AUX_CFG_run, [1], 1)]).coupled = false ∧
    (∃ a ∈ bitsOf 2 2, (mor [(AUX_CFG_run, [1], 1), (AUX_STAT_busy, [1], 1)]).auxBusy a = true) ∧
    (∀ a ∈ bitsOf 2 2, (mor [(AUX_CFG_run, [1], 1)]).auxBusy a = false) ∧
    bits 0x80030000#32 18 16 ≤ 3 ∧ (0x80030000#32).getLsbD 31 = true ∧ (mor []).on AUX_CFG_run [1] = false ∧
    ((mor sized).auxAlloc 1 ((mor sized).g AUX_BUF_nbuf [1])).isSome = true ∧
    (mor [(CIS_Q_max, [7], 0)]).auxAlloc 1 ((mor [(CIS_Q_max, [7], 0)]).g AUX_BUF_nbuf [1]) = none ∧
    (0x00030000#32).getLsbD 31 = false ∧ (mor [(AUX_CFG_run, [1], 1)]).on AUX_CFG_run [1] = true ∧
    ((mor []).conv 1).starts = [] ∧ (mor []).auxBusy 1 = false ∧ ((mor []).conv 1).run = none ∧
    ((convIn ⟨[(5, false)], none, 0, 0⟩ [(AUX_STAT_busy, [1], 1)]).conv 1).starts = [(5, false)] ∧
    (convIn ⟨[(5, false)], none, 0, 0⟩ [(AUX_STAT_busy, [1], 1)]).auxBusy 1 = true ∧
    (convIn ⟨[(5, true)], none, 0, 0⟩ []).auxBusy 1 = false ∧ (convIn ⟨[(5, true)], none, 0, 0⟩ []).coupled = false ∧
    ((convIn ⟨[(5, true)], none, 0, 0⟩ []).conv 1).starts = [(5, true)] ∧ modTime 5 ≤ (convIn ⟨[(5, true)], none, 0, 0⟩ []).mer.now ∧
    ((convIn converting []).conv 1).run = some ⟨5, 5 + 20000 * oneUs, 20000, 3, false, true⟩ ∧
    5 + 20000 * oneUs ≤ (convIn converting []).mer.now ∧
    (mor [(AUX_STAT_busy, [1], 1)]).auxBusy 1 = true ∧ ((mor []).conv 1).busyTo ≤ (mor []).mer.now := ⟨at_runs _ _, by decide +kernel⟩

def unitIs (x : UnitSt) : State := (mor []).putUnit 7 x

theorem witness_PulseTimers : (mor []).Runs ∧ ((unitIs ⟨1, 1000, 0, 10, 0, none, none⟩).unit 7).mode = 1 ∧
    (mor []).inSt [DAWN, NIGHT] = false ∧
    ((unitIs ⟨1, 1000, 0, 10, 0, none, none⟩).unit 7).next ≤ (unitIs ⟨1, 1000, 0, 10, 0, none, none⟩).mer.now / oneUs ∧
    (unitIs ⟨1, 1000, 0, 10, 0, none, none⟩).mer.stepAt ≤ ((unitIs ⟨1, 1000, 0, 10, 0, none, none⟩).unit 7).next * oneUs ∧
    ((unitIs ⟨2, 1000, 0, 10, 0, some 5, some (0, true, true, cmd 0)⟩).unit 7).hiEnd = some 5 ∧
    5 ≤ (unitIs ⟨2, 1000, 0, 10, 0, some 5, some (0, true, true, cmd 0)⟩).mer.now ∧
    (((unitIs ⟨2, 1000, 0, 10, 0, some 5, some (0, true, true, cmd 0)⟩).pwmLow 7 5).unit 7).shot = some (0, true, true, cmd 0) ∧
    (((unitIs ⟨1, 1000, 0, 10, 0, some 5, none⟩).pwmLow 7 5).unit 7).shot = none ∧
    ((unitIs ⟨2, 1000, 0, 10, 0, none, some (7, true, false, cmd 0)⟩).unit 7).shot = some (7, true, false, cmd 0) ∧
    (unitIs ⟨2, 1000, 0, 10, 0, none, some (7, true, false, cmd 0)⟩).mer.stepAt ≤ 7 * oneUs ∧
    7 * oneUs ≤ (unitIs ⟨2, 1000, 0, 10, 0, none, some (7, true, false, cmd 0)⟩).mer.now ∧
    ((mor []).unit 7).mode ≠ 1 ∧ ((mor []).unit 7).hiEnd = none ∧ ((mor []).unit 7).shot = none ∧
    ((unitIs ⟨2, 1000, 0, 10, 0, none, some (7, true, false, cmd 0)⟩).unit 7).mode = 2 ∧
    ((unitIs ⟨2, 1000, 0, 10, 0, none, some (7, true, false, cmd 0)⟩).unit 7).shot ≠ none ∧
    Time.of 5 0 < (mor []).mer.now ∧ (cmd 0 0 7).b.toNat % 8 = 7 ∧ ((unitIs ⟨2, 1000, 0, 10, 0, none, none⟩).unit 7).mode = 2 ∧
    ((unitIs ⟨2, 1000, 0, 10, 0, none, none⟩).unit 7).shot = none ∧ (unitIs ⟨2, 1000, 0, 10, 0, none, none⟩).mer.now ≤ Time.of (10 ^ 9) 1 ∧
    (at_ NIGHT []).inSt [DAWN, NIGHT] = true ∧ ((unitIs ⟨1, 1000, 0, 10, 0, none, none⟩).unit 7).mode ≠ 2 := ⟨at_runs _ _, by decide +kernel⟩

/-! ### The block-code processors -/

def op_ (op arg : Nat) : Word := BitVec.ofNat 32 (op * 2 ^ 24 + arg)
/-- An image of one code word, one constant, one type of 4 bytes and one variable of it at offset 8 with key 7. -/
def image (w : Word) : List Byte :=
  List.replicate 28 0 ++ leBytes 4 256 ++ List.replicate 8 0 ++ leBytes 4 108 ++ leBytes 4 24 ++ leBytes 4 132 ++ leBytes 4 24 ++
  List.replicate 16 0 ++ leBytes 4 96 ++ leBytes 4 4 ++ leBytes 4 100 ++ leBytes 4 8 ++ List.replicate 8 0 ++
  leBytes 4 w.toNat ++ leBytes 8 5 ++
  [2, 0, 0, 0] ++ leBytes 4 4 ++ List.replicate 16 0 ++
  leBytes 8 7 ++ leBytes 4 8 ++ leBytes 2 0 ++ leBytes 2 0xFFFF ++ leBytes 4 1 ++ leBytes 4 0xFFFFFFFF
def anInst (task : Nat) (st : List Cell) (calls : List (Nat × Nat)) : Inst :=
  ⟨task, 0, 0, 0, none, false, 0, true, [], st, calls, 0, 0, false, [], [], 0⟩
def cpu_ (state : Nat) (img : List Byte) (mem : Mem) (insts : List Inst) : BcpSt :=
  { BcpSt.reset with state := state, banks := [⟨img, mem, true, none, 0⟩, emptyBank], insts := insts }
/-- BCP 3 runs, with the word next and a stack. -/
def codeIn (w : Word) (st : List Cell) (calls : List (Nat × Nat)) (mem : Mem) (l : List (Fld × List Nat × Nat)) : State :=
  (mor l).putCpu 3 (cpu_ 2 (image w) mem [anInst 15 st calls])
def runs_ (w : Word) (st : List Cell) : Bool := (codeIn w st [] [] []).fbcNow 3 (opOf w) = some (anInst 15 st [], w)
def cells (n : Nat) : List Cell := List.replicate n (1, 0)

theorem test_executes (w : Word) (st : List Cell) (h : runs_ w st = true) : (codeIn w st [] [] []).Executes 3 (opOf w) (anInst 15 st []) w :=
  ⟨of_decide_eq_true h, rfl⟩

def ops0 : List Word := [op_ 0x00 0, op_ 0x01 0x800000, op_ 0x02 0, op_ 0x47 0, op_ 0x48 0]
def ops1 : List Word := [op_ 0x03 0, op_ 0x04 0, op_ 0x18 0]
def ops2 : List Word := [op_ 0x05 0, op_ 0x06 0, op_ 0x19 0]
/-- The first instruction of an instance is next. -/
def starting (w : Word) : State := (mor []).putCpu 3 (cpu_ 2 (image w) [] [{ anInst 15 [] [] with started := false }])

theorem witness_StackInstructions : (mor []).Runs ∧
    ops0.all (runs_ · (cells 63)) = true ∧ (cells 63).length < 64 ∧ runs_ (op_ 0x01 5) (cells 64) = true ∧ 64 ≤ (cells 64).length ∧
    runs_ (op_ 0x04 0) [] = true ∧
    ops1.all (runs_ · ((1, 0) :: cells 61)) = true ∧ (cells 61).length < 62 ∧
    ops2.all (runs_ · ((1, 0) :: (1, 0) :: cells 60)) = true ∧ (cells 60).length < 61 ∧
    (mor []).fbcNow 3 0x00 = none ∧ (starting (op_ 0x00 0)).fbcNow 3 0x00 ≠ none ∧
    runs_ (op_ 0x07 0) ((1, 0) :: (1, 0) :: (1, 0) :: cells 60) = true := ⟨at_runs _ _, by decide +kernel⟩

/-- A DINT access at offset 8, one with quality, and one at an offset that is not aligned. -/
def acc (op q off : Nat) : Word := op_ op (q * 2 ^ 23 + 2 * 2 ^ 20 + off)
def forced : State :=
  (mor []).putCpu 3 { cpu_ 2 (image (acc 0x13 0 8)) [] [anInst 15 [(1, 0)] []] with forces := [⟨7, 2, 5, 0⟩] }
theorem witness_LoadsAndStores : (mor []).Runs ∧
    [acc 0x10 0 8, acc 0x12 1 8].all (runs_ · (cells 63)) = true ∧ (cells 63).length < 64 ∧
    (∀ q ∈ [true, false], accOk 256 2 q 8 = true ∧ accOk 256 2 q 252 = !q ∧ accOk 256 2 q 9 = false ∧ accOk 256 2 q (-4) = false) ∧
    regionSize (image (acc 0x10 0 8)) = 256 ∧ formM (acc 0x10 0 8) = 2 ∧ formQ (acc 0x10 0 8) = false ∧ formQ (acc 0x12 1 8) = true ∧
    formOff (acc 0x10 0 8) = 8 ∧ (anInst 15 [] []).addr 8 = 8 ∧ ((codeIn (acc 0x10 0 8) [] [] [] []).cpu 3).forcedAt 8 5 = none ∧
    runs_ (acc 0x14 0 0) ((8, 0) :: cells 63) = true ∧ cellInt 8 = 8 ∧
    [acc 0x10 0 9, acc 0x13 0 9].all (runs_ · ((1, 0) :: cells 60)) = true ∧
    [acc 0x11 0 8, acc 0x13 0 8].all (runs_ · [(1, 0)]) = true ∧ runs_ (acc 0x15 0 0) [(1, 0), (8, 0)] = true ∧
    (forced.cpu 3).forcedAt 8 4 ≠ none ∧ forced.fbcNow 3 0x13 = some (anInst 15 [(1, 0)] [], acc 0x13 0 8) ∧
    runs_ (acc 0x16 0 8) (cells 63) = true := ⟨at_runs _ _, by decide +kernel⟩

/-- An operation on a type. -/
def typed (op t arg : Nat) : Word := op_ op (t * 2 ^ 20 + arg)
theorem witness_Arithmetic : (mor []).Runs ∧ isReal 2 = false ∧ isReal 5 = true ∧
    (∀ op ∈ [0x20, 0x21, 0x22, 0x23, 0x24, 0x27, 0x28], formT (typed op 2 0) = 2 ∧ runs_ (typed op 2 0) ((1, 0) :: (1, 0) :: cells 62) = true) ∧
    runs_ (typed 0x23 2 0) ((0, 0) :: (1, 0) :: cells 62) = true ∧ cellInt 1 ≠ 0 ∧ cellInt 0 = 0 ∧ 0 < cellInt 1 ∧
    (∀ op ∈ [0x20, 0x22, 0x23], formT (typed op 5 0) = 5 ∧ runs_ (typed op 5 0) ((1, 0) :: (1, 0) :: cells 62) = true) ∧
    (∀ op ∈ [0x25, 0x26, 0x2A], runs_ (typed op 2 0) ((1, 0) :: cells 63) = true) ∧ runs_ (typed 0x2B 5 9) ((1, 0) :: cells 63) = true ∧
    bits (typed 0x2B 5 9) 3 0 ≠ 10 ∧ (cells 63).length < 64 ∧
    runs_ (typed 0x29 2 0) ((1, 0) :: (1, 0) :: (1, 0) :: cells 61) = true := ⟨at_runs _ _, by decide +kernel⟩

/-- The block of a CALLX is not listed, or its parameter block begins below the region. -/
def calling (k : Nat) (a : Int) : Word × List Cell := (op_ 0x45 k, [(BitVec.ofInt 64 a, 0)])
theorem witness_LogicAndControl : (mor []).Runs ∧
    (∀ op ∈ [0x38, 0x39, 0x3A, 0x30], runs_ (typed op 2 0) ((1, 0) :: (1, 0) :: cells 62) = true) ∧
    [(0 : BitVec 64), 1].all (fun g => runs_ (typed 0x31 2 0) ((g, 0) :: (1, 0) :: (1, 0) :: cells 61)) = true ∧
    runs_ (typed 0x3B TB 0) ((1, 0) :: cells 63) = true ∧ formT (typed 0x3B TB 0) = TB ∧ runs_ (typed 0x3B 2 0) ((1, 0) :: cells 63) = true ∧
    runs_ (typed 0x3C 2 63) ((1, 0) :: cells 63) = true ∧ intWidth 2 ≤ bits (typed 0x3C 2 63) 5 0 ∧
    (∀ op ∈ [0x3C, 0x3D], runs_ (typed op 2 31) ((1, 0) :: cells 63) = true ∧ bits (typed op 2 31) 5 0 < intWidth 2) ∧
    [(0 : BitVec 64), 1].all (fun g => [0x41, 0x42].all fun op => runs_ (op_ op 0xFFFFFF) ((g, 0) :: cells 63)) = true ∧
    runs_ (op_ 0x43 0) ((8, 0) :: cells 63) = true ∧
    runs_ (calling 9 0).1 (calling 9 0).2 = true ∧ blockSize 9 = none ∧
    runs_ (calling 5 249).1 (calling 5 249).2 = true ∧ blockSize 5 = some 8 ∧ bits (calling 5 249).1 23 0 = 5 ∧
    inRegion ((codeIn (calling 5 249).1 [] [] [] []).cpu 3) (cellInt (BitVec.ofInt 64 249)) 8 = false ∧
    inRegion ((codeIn (calling 5 249).1 [] [] [] []).cpu 3) (cellInt (BitVec.ofInt 64 248)) 8 = true ∧
    runs_ (op_ 0x40 0xFFFFFE) (cells 64) = true ∧
    (codeIn (op_ 0x44 0) [] [(3, 8)] [] []).fbcNow 3 0x44 = some (anInst 15 [] [(3, 8)], op_ 0x44 0) ∧
    runs_ (op_ 0x44 0) [] = true ∧ runs_ (op_ 0x46 0) [] = true := ⟨at_runs _ _, by decide +kernel⟩

theorem witness_StandardBlocks : (mor []).Runs ∧ ∀ k ∈ List.range 9,
    ∃ n ∈ [3, 8, 48], runs_ (calling k (256 - n)).1 (calling k (256 - n)).2 = true ∧ bits (calling k (256 - n)).1 23 0 = k ∧
      blockSize k = some n.toNat ∧
      inRegion ((codeIn (calling k (256 - n)).1 [] [] [] []).cpu 3) (cellInt (BitVec.ofInt 64 (256 - n))) n.toNat = true :=
  ⟨at_runs _ _, by decide +kernel⟩

/-- BCP 3 calls block k on parameters at 16: a 16-bit number at 18 and another at 20. -/
def blockIn (k a b : Nat) (l : List (Fld × List Nat × Nat)) : State :=
  codeIn (op_ 0x45 k) [(16, 0)] [] (memWrite [] 18 (leBytes 2 a ++ leBytes 2 b)) l
def after (s : State) : State := s.stepped 3 (anInst 15 [(16, 0)] []) [] false
def heldSa (own : Nat) : List (Fld × List Nat × Nat) := [(MER_SASTATE, [3], SA_ARMED * 4 ^ 15), (MER_SAOWN, [7], own * 16 ^ 7)]

/-- Row 63 in the control of BCP 3. -/
def inControl (s : State) : State := s.putRow 63 { s.row 63 with ctl := 4 }

theorem witness_DeviceBlocks : (mor []).Runs ∧
    (∀ k ∈ [16, 17, 18, 19, 20, 21, 22], (blockIn k 63 1 []).fbcNow 3 0x45 = some (anInst 15 [(16, 0)] [], op_ 0x45 k) ∧
      bits (op_ 0x45 k) 23 0 = k ∧ (blockSize k).all (inRegion ((blockIn k 63 1 []).cpu 3) (cellInt 16)) = true ∧ (blockSize k).isSome = true) ∧
    (after (blockIn 16 255 0 [])).pint 3 (16 + 2) = 255 ∧ 255 < (after (blockIn 16 256 0 [])).pint 3 (16 + 2) ∧
    (after (blockIn 16 0xFFFF 0 [])).pint 3 (16 + 2) < 0 ∧
    (after (blockIn 17 1023 1 [])).pint 3 (16 + 2) = 1023 ∧ (after (blockIn 17 1023 1 [])).pint 3 (16 + 4) = 1 ∧
    (after (blockIn 18 63 0 [(TMX_ROW_ctl, [63], 4)])).g TMX_ROW_ctl [63] = 3 + 1 ∧ (after (blockIn 18 63 0 [])).pint 3 (16 + 2) = 63 ∧
    ((inControl (after (blockIn 18 63 0 []))).row 63).ctl = 3 + 1 ∧ ((after (blockIn 18 63 0 [])).row 63).ctl ≠ 3 + 1 ∧
    (after (blockIn 18 63 0 [])).current 3 ≠ none ∧ (after (blockIn 18 63 0 [])).g TMX_ROW_ctl [63] ≠ 3 + 1 ∧
    (after (blockIn 19 63 8 [(MER_SAOWN, [7], 4 * 16 ^ 7)])).armNotNow 4 ⟨63, 8, 0, 2 ^ 62 * oneNs, false⟩ = false ∧
    (after (blockIn 19 63 8 [])).saHeld 63 = false ∧ (mor []).mer.now ≤ 2 ^ 62 * oneNs ∧
    (after (blockIn 20 63 0 (heldSa 4))).saOwner 63 = 3 + 1 ∧ (after (blockIn 20 63 0 (heldSa 4))).saHeld 63 = true ∧
    (after (blockIn 20 63 0 (heldSa 0))).saOwner 63 ≠ 3 + 1 ∧
    (∃ k ∈ bitsOf 4 8, (after (blockIn 22 8 0 [(REC_STAT_state, [3], RS_RUN)])).recActive k = true) ∧
    (after (blockIn 22 8 0 [])).pint 3 (16 + 2) = 8 := ⟨at_runs _ _, by decide +kernel⟩

/-- BCP 3 in a state, with instances. -/
def cpuIn (st : Nat) (insts : List Inst) (sw : Option Switch) (l : List (Fld × List Nat × Nat)) : State :=
  (mor l).putCpu 3 { cpu_ st (image 0) [] insts with switch := sw }
def timeTask : List (Fld × List Nat × Nat) := [(BCP_TASK_0_kind, [3, 15], K_TIME), (BCP_TASK_1, [3, 15], 1000)]
def noCount : List (Fld × List Nat × Nat) := [(BCP_CFG_kover, [3], 5), (BCP_TSTAT_0_consec, [3, 15], 5)]
def aSwitch (h : Bool) : Switch := ⟨none, none, 0, 0, h⟩

theorem witness_TaskControl : (mor []).Runs ∧ (cpuIn 2 [] none timeTask).bcpRuns 3 = true ∧
    (cpuIn 2 [] none timeTask).timeDue 3 15 = true ∧ (mor []).bcpRuns 3 = false ∧ ((mor []).cpu 3).switch = none ∧
    (mor []).on BCP_IMASK_mask [3] = false ∧ (aSwitch true).holding = true ∧
    (cpuIn 2 [] none timeTask).taskKind 3 15 = K_TIME ∧ nth ((cpuIn 2 [] none timeTask).cpu 3).nextRel 15 0 ≤ 10 ^ 9 * oneSec / oneUs ∧
    ((cpuIn 2 [] none timeTask).cpu 3).busy 15 = false ∧ ((cpuIn 2 [anInst 15 [] []] none timeTask).cpu 3).busy 15 = true ∧
    (cpuIn 2 [] none noCount).g BCP_CFG_kover [3] = 5 ∧ 5 ≤ (cpuIn 2 [] none noCount).g BCP_TSTAT_0_consec [3, 15] ∧
    (∀ u ∈ List.range 15, (cpuIn 2 [] none noCount).g BCP_TSTAT_0_consec [3, u] < 5) ∧
    ((cpuIn 2 [anInst 15 [] []] none []).cpu 3).insts = [anInst 15 [] []] ∧
    (cpuIn 2 [anInst 15 [] []] none [(BCP_TASK_3, [3, 15], 10)]).g BCP_TASK_3 [3, 15] ≠ 0 ∧
    (cpuIn 2 [anInst 15 [] []] none [(BCP_TASK_3, [3, 15], 10)]).g BCP_TASK_3 [3, 15] * oneUs < (cpuIn 2 [] none []).since 0 ∧
    ((cpuIn 2 [] (some (aSwitch true)) []).cpu 3).switch = some (aSwitch true) ∧ ((cpuIn 2 [] (some (aSwitch true)) []).cpu 3).insts = [] ∧
    (aSwitch false).holding = false ∧ (cpuIn 2 [] none []).g BCP_CFG_swto [3] * oneMs ≤ (cpuIn 2 [] none []).since 0 ∧
    (0#32).getLsbD 0 = false ∧ (1#32).getLsbD 0 = true ∧ (mor [(BCP_IMASK_mask, [3], 1)]).on BCP_IMASK_mask [3] = true :=
  ⟨at_runs _ _, by decide +kernel⟩

/-- BCP 3 with a verified inactive bank, and a load that waits. -/
def banked : State :=
  (mor []).putCpu 3 { cpu_ 1 [] [] [] with active := 1, loading := [(cmd 3, image 0)] }

theorem witness_BcpLifecycle : (mor []).Runs ∧ (cmd 3).rf.toNat % 4 = 3 ∧ banked.inSt [DAWN, NIGHT, SAFE] = false ∧ banked.inSt [DAWN, NIGHT] = false ∧
    (banked.cpu 3).state ≠ B_EMPTY ∧ (banked.cpu 3).state ≠ B_RUNNING ∧ (at_ SAFE []).inSt [DAWN, NIGHT, SAFE] = true ∧
    ((mor []).cpu 3).state = B_EMPTY ∧ ((cpuIn 2 [] none []).cpu 3).state = B_RUNNING ∧ ((cpuIn 3 [] none []).cpu 3).state ≠ B_STOPPED ∧
    (at_ NIGHT []).inSt [DAWN, NIGHT] = true ∧ (banked.cpu 3).state = B_STOPPED ∧ (banked.cpu 3).switch = none ∧
    (cmd 3 524288).len.toNat ≤ 524288 ∧ ((cpuIn 2 [] (some (aSwitch true)) []).cpu 3).switch ≠ none ∧
    ((mor []).cpu 3).loading = [] ∧ (cpuIn 2 [anInst 15 [] []] none []).inSt [DAWN, NIGHT] = false ∧
    ((cpuIn 2 [anInst 15 [] []] none []).cpu 3).switch = none ∧
    (banked.cpu 3).loading = [(cmd 3, image 0)] ∧ banked.switchOk 3 = true ∧ (mor []).switchOk 3 = false ∧
    ((banked.cpu 3).bank (1 - (banked.cpu 3).active)).verified = true ∧ (cmd 3 20).len.toNat = 20 * 1 ∧
    (∀ e ∈ (List.range 1).map (fun i => ((List.replicate 20 (2 : Byte)).drop (20 * i)).take 20), leAt e 16 1 ≤ 2) ∧
    (((mor []).cpu 3).bank (1 - ((mor []).cpu 3).active)).verified = false := ⟨at_runs _ _, by decide +kernel⟩

def hosted : State := cpuIn 2 [{ anInst 15 [] [] with host := true, relCount := 65535 }] none []

theorem witness_ForceAndHostOutput : (mor []).Runs ∧ (findKey (hosted.cpu 3).img 7).isSome = true ∧ hosted.inSt [DAWN, NIGHT] = false ∧
    ((findKey (hosted.cpu 3).img 7).all fun v => !v.isFb) = true ∧ ((hosted.cpu 3).forces.filter (·.key ≠ 7)).length < 256 ∧
    findKey (hosted.cpu 3).img 8 = none ∧ (cmd 0x103).rf.getLsbD 8 = true ∧ (cmd 3).rf.getLsbD 8 = false ∧
    (∀ i ∈ (hosted.cpu 3).insts, i.host = true → i.task ≠ 14) ∧
    (hosted.cpu 3).insts.find? (fun i => i.host && i.task = 15) = some { anInst 15 [] [] with host := true, relCount := 65535 } ∧
    65535 % 65536 = (65535 : Nat) ∧ 65536 % 65536 ≠ (65535 : Nat) := ⟨at_runs _ _, by decide +kernel⟩

/-! ### The network and the teleprotection ports -/

/-- Port 2 and what else. -/
def portIn (l : List (Fld × List Nat × Nat)) : State := mor ([(NET_PORT_en, [2], 1), (NET_PORT_link, [2], 1)] ++ l)
/-- A frame of 60 bytes of a type. -/
def typedFrame (a b : Byte) : RxHead := head (List.replicate 12 0 ++ [a, b] ++ List.replicate 46 0)

theorem witness_NetPorts : (portIn []).Runs ∧ (portIn []).on NET_PORT_link [2] = (true && (portIn []).on NET_PORT_en [2] && (portIn []).netRuns) ∧
    (portIn []).on NET_PORT_link [2] = !(false && (portIn []).on NET_PORT_en [2] && (portIn []).netRuns) ∧
    (portIn []).portUp 2 = true ∧ ({ head [] with fcsOk := false } : RxHead).fcsOk = false ∧
    ((portIn []).rxAccept (head (frameOf_ 60))).1 = true ∧ (portIn []).pairMode 1 = 0 ∧ etherType (typedFrame 8 0).bytes ≠ 0x88FB ∧
    ((portIn [(NET_PAIR_mode, [1], 1)]).rxAccept (typedFrame 0x88 0xFB)).1 = true ∧ (portIn [(NET_PAIR_mode, [1], 1)]).pairMode 1 ≠ 0 ∧
    etherType (typedFrame 0x88 0xFB).bytes = 0x88FB ∧ (portIn [(NET_PAIR_mode, [1], 1)]).portUp (2 * 1) = true ∧
    2 * oneSec ≤ (portIn []).since (nth (portIn []).net.supCyc 1 0) ∧ (mor []).portUp 2 = false ∧ ((portIn []).rxAccept (head [])).1 = false ∧
    (head (frameOf_ 60)).tag = none ∧ (mor []).pairMode 1 = 0 ∧ (cmd 4 1523).len.toNat = 1522 + 1 ∧
    ((at_ MORNING [(CIS_Q_res, [10], 0), (CIS_Q_max, [10], 0), (NET_PORT_en, [2], 1), (NET_PORT_link, [2], 1)]).queue 10 0 (frameOf_ 60)).isNone = true ∧
    bitAt 0x300 8 = true ∧ bitAt 0x300 9 = true ∧
    (portIn []).inSt [DAWN, NIGHT] = false ∧ (bitsOf 8 (4 % 256)).filter (portIn []).portUp = [2] ∧
    bitAt 4 8 = false ∧ bitAt 4 9 = false ∧ (cmd 4 1518).len.toNat ≤ 1518 ∧ (((portIn []).open_ (cmd 4 60)).queue 10 0 (frameOf_ 60)).isSome = true ∧
    (at_ NIGHT []).inSt [DAWN, NIGHT] = true ∧ (∀ p ∈ bitsOf 8 (0xFB % 256), (portIn []).portUp p = false) := ⟨at_runs _ _, by decide +kernel⟩

def asked : PtpPort := { emptyPtp with reqSeq := 9, reqAt := some 5, synced := some (7, 3, 5, 0) }
def ptpIn (x : PtpPort) (l : List (Fld × List Nat × Nat)) : State := (portIn l).putPtp 2 x
def role2 : List (Fld × List Nat × Nat) := [(NET_PTP_role, [2], 2)]

/-- A SLAVE port whose best master is clock 7. -/
def heard : State := ptpIn { emptyPtp with foreign := [⟨⟨128, 6, 0x21, 0, 128, 7, 0, 7, 1, 0x20, 37, true, none⟩, 2, 10 ^ 15⟩] }
  [(NET_PTP_role, [2], 2), (NET_PTP_state, [2], PS_SLAVE)]

theorem witness_PtpPorts : (mor []).Runs ∧ ((portIn role2).rxAccept (head (frameOf_ 60))).1 = true ∧ (portIn []).g NET_PTP_role [2] = 0 ∧
    (portIn role2).g NET_PTP_role [2] ≠ 0 ∧ 77 ≠ (portIn role2).g NET_PTPCFG_domain ∧
    ((ptpIn asked role2).ptpPort 2).reqSeq = 9 ∧ ((ptpIn asked role2).ptpPort 2).reqAt = some 5 ∧
    (portIn [(NET_PTP_state, [2], PS_MASTER)]).portUp 2 = true ∧ (portIn [(NET_PTP_state, [2], PS_MASTER)]).g NET_PTP_state [2] = PS_MASTER ∧
    oneSec ≤ (portIn []).since ((portIn []).ptpPort 2).syncCyc ∧ oneSec ≤ (portIn []).since ((portIn []).ptpPort 2).annSent ∧
    oneSec ≤ (portIn []).since ((portIn []).ptpPort 2).reqCyc ∧ 3 * oneSec ≤ (portIn []).since ((portIn []).ptpPort 2).annCyc ∧
    [PS_LISTENING, PS_PASSIVE, PS_SLAVE].contains ((portIn [(NET_PTP_state, [2], PS_PASSIVE)]).g NET_PTP_state [2]) = true ∧
    ((mor []).rxAccept (head (frameOf_ 60))).1 = false ∧ (portIn []).g NET_PTPCFG_domain ≠ 255 ∧
    (ptpIn asked [(NET_PTP_role, [2], 2), (NET_PTP_state, [2], PS_SLAVE)]).g NET_PTP_state [2] = PS_SLAVE ∧
    ((ptpIn asked role2).ptpPort 2).synced = some (7, 3, 5, 0) ∧ (portIn role2).g NET_PTP_state [2] ≠ PS_SLAVE ∧
    ((portIn []).ptpPort 2).reqAt = none ∧ (((portIn []).rxCheck (head (frameOf_ 60))).1 = true) ∧
    (((mor []).rxCheck (head (frameOf_ 60))).1 = false) ∧ (mor []).portUp 2 = false ∧ (portIn role2).portUp 2 = true ∧
    (portIn []).g NET_PTP_state [2] ≠ PS_MASTER ∧ heard.g NET_PTP_state [2] = PS_SLAVE ∧
    (heard.portBest 2).any (fun d => decide (d.sender = 7)) = true ∧
    [PS_LISTENING, PS_PASSIVE, PS_SLAVE].contains ((portIn [(NET_PTP_state, [2], PS_MASTER)]).g NET_PTP_state [2]) = false :=
  ⟨at_runs _ _, by decide +kernel⟩

/-- The entry of an SV subscription to stream 1 with 4000 samples/s, and a frame of it. -/
def svEntry : List Byte := [0, 0, 0, 0, 0, 1, 0, 0x40, 1, 0] ++ List.replicate 70 0
def svFrameOf (n cnt : Nat) : SvIn := ⟨1, 0x4000, [], false, true, [⟨cnt, 2, List.replicate n ⟨5, 0, false, false⟩⟩], none⟩
def svIn (l : List (Fld × List Nat × Nat)) : State :=
  let s := portIn l
  { s with sv := s.sv.set 63 ⟨svEntry, none, [], some 0⟩ }
/-- The entry of a GOOSE subscription with one member, and a frame of it. -/
def gEntry : List Byte := [0, 0, 0, 0, 0, 1, 0, 0, 1, 0, 1, 0] ++ List.replicate 148 0
def gFrame (dst : BitVec 48) : GooseIn := ⟨dst, 0, [], 1, 0, 1000, false, false, [.bool true], none⟩
def gIn (l : List (Fld × List Nat × Nat)) : State := (portIn l).putGsub 255 ⟨gEntry, none, none, [], 0⟩
def pubEntry : List Byte := List.replicate 10 0 ++ [1, 0, 0, 0] ++ List.replicate 530 0
def pubIn (vals : List GMember) : State := (portIn []).putGpub 63 ⟨pubEntry, 1, 0, vals, 0, 4, 0⟩

theorem witness_Subscriptions : (mor []).Runs ∧ ((portIn []).rxAccept (head (frameOf_ 60))).1 = true ∧ (portIn []).subsRun = true ∧
    (∀ k < 64, svMatch ((portIn []).svSub k).entry (svFrameOf 8 0) = false) ∧ ((svIn []).rxAccept (head (frameOf_ 60))).1 = true ∧
    (List.range 64).filter (fun k => svMatch ((svIn []).svSub k).entry (svFrameOf 8 0)) = [63] ∧
    bitAt (leAt ((svIn []).svSub 63).entry 8 1) 1 = false ∧ svRate ((svIn []).svSub 63).entry ≤ 4000 ∧ 3999 < svRate ((svIn []).svSub 63).entry ∧
    (List.replicate 8 (⟨5, 0, false, false⟩ : SvVal)).length = 8 ∧
    (∀ k < 256, gooseMatch ((portIn []).gsub k).entry (gFrame 1) = false) ∧ ((gIn []).rxAccept (head (frameOf_ 60))).1 = true ∧
    (List.range 256).filter (fun k => gooseMatch ((gIn []).gsub k).entry (gFrame 1)) = [255] ∧
    bitAt (leAt ((gIn []).gsub 255).entry 8 1) 1 = false ∧ (gFrame 1).members.length = leAt ((gIn []).gsub 255).entry 10 2 ∧
    ((gIn []).gsub 255).last ≠ some ((gFrame 1).stNum, (gFrame 1).sqNum) ∧
    (portIn []).authOk ⟨5, [], [], []⟩ 5 = false ∧ (mor []).subsRun = true ∧ (at_ NIGHT []).subsRun = false ∧
    ((mor []).rxAccept (head (frameOf_ 60))).1 = false ∧ ((svIn []).svSub 63).last = some 0 ∧ (mor []).g NET_SVSTAT_state [63] ≠ 2 ∧
    (mor []).g NET_GSTAT_state [255] ≠ 2 ∧ ((mor []).gpub 63).enabled = false ∧
    (svIn [(NET_SVSTAT_state, [63], 2)]).g NET_SVSTAT_state [63] = 2 ∧ ((svIn []).svSub 63).last = some 0 ∧
    10 * oneSec ≤ (svIn []).since 0 * svRate ((svIn []).svSub 63).entry ∧
    (gIn [(NET_GSTAT_state, [255], 2)]).g NET_GSTAT_state [255] = 2 ∧ ((gIn []).gsub 255).until_ ≤ (gIn []).mer.cyc ∧
    (pubIn []).netRuns = true ∧ ((pubIn []).gpub 63).enabled = true ∧ ((pubIn []).gpub 63).nextAt ≤ (pubIn []).mer.cyc ∧
    (mor []).g NET_GVAL [0] = (mor []).g NET_GVAL [0] ∧ ((mor []).p NET_GVAL [0] 1).g NET_GVAL [0] ≠ (mor []).g NET_GVAL [0] ∧
    (at_ NIGHT []).inSt [DAWN, NIGHT] = true ∧ (mor []).inSt [DAWN, NIGHT] = false ∧
    bitAt (leAt (clampGpub pubEntry).1 10 1) 0 = true ∧ bitAt (leAt (clampGpub []).1 10 1) 0 = false ∧ 7 < (mor []).net.svpubs.length ∧
    bitAt 0x11F 8 = true ∧ bitAt 0x1F 8 = false ∧ leAt (padTo 52 [2]) 0 1 = 2 := ⟨at_runs _ _, by decide +kernel⟩

/-- Port 3 runs, in a state. -/
def teleIn (x : TpcPort) (l : List (Fld × List Nat × Nat)) : State := (mor ([(TPC_CFG_en, [3], 1)] ++ l)).putPort 3 x
def telePort : TpcPort := { TpcPort.reset with echo := some (7, 9), sendCyc := some 0, fails := 3, timed := false }
/-- A frame with address a and a right CRC. -/
def teleFrame (a : Byte) : List Byte :=
  let b := [0xB5, 0xC7, 0, a * 16] ++ List.replicate 48 0
  b ++ leBytes 4 (crc32 b).toNat

theorem witness_Teleprotection : (mor []).Runs ∧ (teleIn telePort []).tpcRuns 3 = true ∧ ((teleIn telePort []).port 3) = telePort ∧
    telePort.sendCyc = some 0 ∧ (teleIn telePort []).telePeriod 3 ≤ (teleIn telePort []).since 0 ∧ telePort.echo = some (7, 9) ∧
    TpcPort.reset.echo = none ∧ teleOk [] = false ∧
    ((teleIn telePort [(TPC_STAT_state, [3], 2)]).p TPC_STAT_rdi [3] 0).g TPC_STAT_state [3] = 2 ∧
    ((teleIn telePort []).p TPC_STAT_rdi [3] 1).g TPC_STAT_state [3] ≠ 2 ∧ telePort.fails = 3 ∧ telePort.timed = false ∧
    (teleIn telePort []).g TPC_CFG_cto [3] * oneMs ≤ (teleIn telePort []).since telePort.okCyc ∧
    (teleIn telePort []).g TPC_CMDST_rx [3] = (teleIn telePort []).g TPC_FALL_val [3] ∧
    (teleIn telePort [(TPC_CMDST_rx, [3], 9), (TPC_FALL_hold, [3], 8)]).g TPC_CMDST_rx [3] ≠ 8 ∧
    telePort.los = false ∧ (teleIn telePort []).g TPC_CFG_iface [3] = 0 ∧ (mor []).tpcRuns 3 = false ∧
    (teleIn { telePort with sendCyc := some (10 ^ 15) } []).since (10 ^ 15) < (teleIn { telePort with sendCyc := some (10 ^ 15) } []).telePeriod 3 ∧
    (teleIn { telePort with begun := some [1] } []).tpcRuns 3 = true ∧ TpcPort.reset.fails < 3 ∧
    (teleIn { telePort with timed := true } []).tpcRuns 3 = true ∧ (teleIn telePort [(TPC_CFG_iface, [3], 1)]).g TPC_CFG_iface [3] ≠ 0 :=
  ⟨at_runs _ _, by decide +kernel⟩

theorem witness_Teleprotection_frames : teleOk (teleFrame 5) = true ∧
    leAt (teleFrame 5) 3 1 / 16 = (teleIn telePort [(TPC_CFG_addr, [3], 5)]).g TPC_CFG_addr [3] ∧
    leAt (teleFrame 5) 3 1 / 16 ≠ (teleIn telePort [(TPC_CFG_addr, [3], 6)]).g TPC_CFG_addr [3] := by decide +kernel

/-! ### The host interface -/

/-- The host link is up, and ring 127 has a class, an index, a state and a size of 16. -/
def ringIn (cls idx st : Nat) (x : RingSt) (l : List (Fld × List Nat × Nat)) : State :=
  let s := mor ([(HIF_LINK_up, [], 1), (HIF_LINK_bme, [], 1), (HIF_RING_2_en, [127], 1), (HIF_RING_2_cls, [127], cls), (HIF_RING_2_idx, [127], idx),
    (HIF_RING_2_state, [127], st), (HIF_RING_2_k, [127], 4)] ++ l)
  s.putRing 127 x
def someDesc : RDesc := ⟨1, 0, 0, 0, 0, 0, 0, 0, []⟩
def someBound : Bound := (someDesc, [])
/-- Ring 127 takes commands, one of which waits, and its completions go to ring 126. -/
def cmdRing (open_ : List Desc) (waiting : List Bound) : State :=
  let s := ringIn CLS_CMD 0 1 ⟨1, [], [], [], false⟩ [(HIF_RING_2_cring, [127], 126)]
  let t := s.putRing 126 ⟨0, [], [], waiting, false⟩
  { t with hif := { t.hif with openCmds := open_ } }
/-- A descriptor of opcode op with flags f. -/
def taken (op f : Byte) : CmdRead := ⟨[op] ++ List.replicate 30 0 ++ [f], []⟩
def completing (en cls posted : Nat) (waiting : List Bound) : State :=
  let s := ringIn CLS_CMD 0 1 ⟨1, [], [], [], false⟩ [(HIF_RING_2_cring, [127], 126), (HIF_RING_2_en, [126], en), (HIF_RING_2_cls, [126], cls),
    (HIF_RING_2_state, [126], 1), (HIF_RING_2_k, [126], 4)]
  let t := s.putRing 126 ⟨posted, [], [], waiting, false⟩
  { t with hif := { t.hif with comps := [compOf { cmd 0 with ring := 127 } 0 ST_DONE] } }
/-- Consumer CMPL holds no buffer, one completion waits for the host's descriptors, and another comes. -/
def noCmpl (f : Bool) : State :=
  let s := sets (completing 1 2 0 [someBound]) [(CIS_Q_max, [11], 0), (CIS_Q_res, [11], 0)]
  { s with hif := { s.hif with comps := [{ compOf { cmd 0 with ring := 127 } 0 ST_DONE with refused := f }] } }
def readyRing (irq : Nat) : State := ringIn CLS_CMPL 0 1 ⟨1, [], [someBound], [], false⟩ [(HIF_RING_2_irq, [127], irq)]
/-- Disabled ring 127, enabled ring 126 of class 3, and words that enable and disable a ring of class 3 and size 16. -/
def off127 : State := mor [(HIF_RING_2_en, [126], 1), (HIF_RING_2_cls, [126], 3), (HIF_RING_2_idx, [126], 0)]

def stackRegs : List (Fld × List Nat × Nat) :=
  [(GEN_STATE_stacked, [], 1), (GEN_STATE_master, [], 1), (CSC_CFG_en, [], 1), (CSC_CFG_lmask, [], 3), (CSC_STAT_state, [], CS_FORMED),
    (CSC_STAT_count, [], 2), (CSC_STAT_present, [], 3)]
/-- Ring 127 tunnels commands to member 1, and consumer TUN has room or not. -/
def tunRing : State := let s := ringIn CLS_TUN 1 1 ⟨1, [], [], [], false⟩ stackRegs; { s with csc := (stkMaster []).csc }
def tunFull : State := sets tunRing [(CIS_Q_max, [12], 0), (CIS_Q_res, [12], 0)]
def bitsOn (w : Word) : Word := (ringClamp w).1

theorem witness_Rings : (mor []).Runs ∧ (cmdRing [] []).canTake 127 = true ∧
    bitAt (cmdFlags (taken 0 0)) 7 ≠ passPhase ((cmdRing [] []).g HIF_RING_2_k [127]) ((cmdRing [] []).g HIF_RING_3_d [127]) ∧
    bitAt (cmdFlags (taken 0 0x80)) 7 = passPhase ((cmdRing [] []).g HIF_RING_2_k [127]) ((cmdRing [] []).g HIF_RING_3_d [127]) ∧
    (cmdDesc (taken 0 0x81) 127 false).fence = true ∧ (cmdDesc (taken 0 0x80) 127 false).fence = false ∧
    (cmdRing [{ cmd 0 with ring := 127 }] []).canTake 127 = true ∧
    (∃ x ∈ (cmdRing [{ cmd 0 with ring := 127 }] []).hif.openCmds, x.ring = 127 ∧ x.tunnel = false) ∧
    (∀ x ∈ (cmdRing [{ cmd 0 with ring := 126 }] []).hif.openCmds, ¬ (x.ring = 127 ∧ x.tunnel = false)) ∧
    (cmdRing [] []).cls 127 = CLS_CMD ∧ (cmdRing [] []).tunMember 127 = none ∧
    (((cmdRing [] []).p HIF_RING_3_d [127] 1).tunMember 127 = none) ∧ cmdOp (taken 0 0x80) = 0 ∧
    (completing 0 2 0 []).hif.comps = [compOf { cmd 0 with ring := 127 } 0 ST_DONE] ∧ (completing 0 2 0 []).cls 127 ≠ CLS_TUN ∧
    (completing 0 2 0 []).ringEn 126 = false ∧ (completing 1 1 0 []).cls 126 ≠ CLS_CMPL ∧ (completing 1 2 0 []).ringEn 126 = true ∧
    (completing 1 2 0 []).cls 126 = CLS_CMPL ∧ ((completing 1 2 0 []).ring 126).waiting = [] ∧ 0 < (completing 1 2 0 []).posted 126 ∧
    ((completing 1 2 0 [someBound]).ring 126).waiting ≠ [] ∧
    ((completing 1 2 0 [someBound]).queue 11 126 (compOf (cmd 0) 0 ST_DONE).rdesc.bytes).isSome = true ∧
    ((readyRing 1).ring 127).ready ≠ [] := ⟨at_runs _ _, by decide +kernel⟩
theorem witness_Rings_stack : ((noCmpl false).ring 126).waiting ≠ [] ∧ (mor []).canTake 127 = false ∧ (mor []).hif.comps = [] ∧
    (∀ f ∈ [true, false], (noCmpl f).hif.comps.map (·.refused) = [f] ∧ (noCmpl f).hif.comps.map (fun c => ((noCmpl f).compMove c).isNone) = [true] ∧
      (noCmpl f).hif.comps.map (noCmpl f).bufferOnly = [false] ∧ (noCmpl f).hif.comps.map (·.quiet) = [false]) ∧
    (compOf { cmd 0 with ring := 127 } 0 ST_DONE).buf = [] ∧ (mor []).linkOk = false ∧ (completing 0 2 0 []).linkOk = true ∧
    tunRing.tunMember 127 = some 1 ∧ (tunRing.p HIF_RING_3_d [127] 1).tunMember 127 = some 1 ∧ tunRing.tunPaused [] = false ∧
    tunFull.tunPaused [1] = true ∧ tunFull.tunMember 127 = some 1 ∧ tunRing.canTake 127 = true ∧ tunFull.canTake 127 = true ∧
    ((mor []).ring 127).ready = [] ∧ (readyRing 0).ringTaken 127 (bitsOn 0x80021000) = false ∧
    (∀ f ∈ [true, false], ((noCmpl f).queue 11 126 (compOf { cmd 0 with ring := 127 } 0 ST_DONE).rdesc.bytes).isNone = true) ∧
    ((readyRing 1).ring 127).ready ≠ [] ∧ (readyRing 1).linkOk = true ∧ (readyRing 1).ringEn 127 = true ∧ (readyRing 1).g HIF_RING_2_state [127] = 1 ∧
    (readyRing 1).on HIF_RING_2_irq [127] = true ∧ (readyRing 0).on HIF_RING_2_irq [127] = false ∧
    ((readyRing 0).rd (0x110108 + 16 * 127)).msb = true ∧ bits (ringClamp 0x80021800).1 19 0 ≠ bits ((readyRing 0).rd (0x110108 + 16 * 127)) 19 0 ∧
    (ringClamp 0x80021800).1.msb = true ∧ off127.ringTaken 127 (ringClamp 0x80021800).1 = true ∧
    (off127.rd (0x110108 + 16 * 127)).msb = false ∧ (mor []).ringTaken 127 (ringClamp 0x80021800).1 = false := by decide +kernel
theorem witness_Rings_disable : (ringClamp 0x21000).1.msb = false ∧ bits (ringClamp 0x21000).1 19 0 =
    bits ((ringIn CLS_CMPL 0 1 ⟨1, [], [], [], false⟩ []).rd (0x110108 + 16 * 127)) 19 0 := by decide +kernel
theorem witness_Rings_doorbell : (mor [(HIF_RING_2_en, [127], 0)]).ringEn 127 = false ∧
    (ringIn CLS_CMD 0 2 ⟨1, [], [], [], false⟩ []).g HIF_RING_2_state [127] = 2 ∧ 65536 < (0 + M17 - 1) % M17 ∧
    (readyRing 0).ringEn 127 = true ∧ (readyRing 0).g HIF_RING_2_state [127] ≠ 2 ∧ (17 + M17 - 1) % M17 ≤ 65536 ∧
    toDevice ((cmdRing [] []).cls 127) ((cmdRing [] []).ringIdx 127) = true ∧
    (16 + M17 - (cmdRing [] []).g HIF_RING_3_d [127]) % M17 ≤ (cmdRing [] []).ringSize 127 ∧
    (cmdRing [] []).ringSize 127 < (17 + M17 - (cmdRing [] []).g HIF_RING_3_d [127]) % M17 ∧
    toDevice ((readyRing 0).cls 127) ((readyRing 0).ringIdx 127) = false ∧
    ((ringIn CLS_CMPL 0 1 ⟨1, [], [], [], false⟩ [(HIF_RING_3_d, [127], 17)]).g HIF_RING_3_d [127] + M17 - 1) % M17 < (18 + M17 - 1) % M17 ∧
    (17 + M17 - 1) % M17 ≤ ((ringIn CLS_CMPL 0 1 ⟨1, [], [], [], false⟩ [(HIF_RING_3_d, [127], 17)]).g HIF_RING_3_d [127] + M17 - 1) % M17 := by
  decide +kernel

theorem witness_HostLink : (mor []).Runs ∧ ((mor []).p HIF_LINK [] 0).linkOk = false ∧ ((mor []).p HIF_LINK [] 768).linkOk = true ∧
    (({ (mor []).p HIF_LINK [] 768 with hif := { (mor []).hif with msixWait := [] } } : State).linkOk = true) ∧
    (readyRing 0).linkOk = true ∧ (mor []).linkOk = false := ⟨at_runs _ _, by decide +kernel⟩

/-! ### The stack -/

/-- The links run, in a state of formation, and what else. -/
def stackIn (st : Nat) (l : List (Fld × List Nat × Nat)) : State :=
  mor ([(CSC_CFG_en, [], 1), (CSC_CFG_lmask, [], 15), (CSC_STAT_state, [], st)] ++ l)
def locked (s : State) : State := { s with csc := { s.csc with lock := s.csc.lock.set 3 true } }
/-- This device and others of a strap, joined in a chain by links 0 and 1. -/
def chainOf (straps : List Bool) : StackGroup :=
  ⟨straps.map fun b => ⟨5, b, 3⟩, (List.range straps.length).map fun k => ⟨k, 1, k + 1, 0⟩⟩
/-- Two devices joined by two links. -/
def doubled : StackGroup := ⟨[⟨5, true, 0⟩], [⟨0, 0, 1, 0⟩, ⟨0, 1, 1, 1⟩]⟩
/-- A device that forms a group, with this strap. -/
def forming (m : Nat) (l : List (Fld × List Nat × Nat)) : State := stackIn CS_FORMING ([(GEN_STATE_master, [], m)] ++ l)
/-- What a packet of the link class leaves, whether it is taken in. -/
def linked (s : State) (h : PktHead) : Bool × State := s.linkIn h
/-- A stack of which position 1, of serial number 9, is lost to its master. -/
def lostOne : State := stkMaster [(CSC_STAT_present, [], 1), (CSC_MEM_0, [1], 9)]
def alone : State := stkMember [(CSC_STAT_state, [], CS_DETACHED)]
def formingMember : State := stkMember [(CSC_STAT_state, [], CS_FORMING)]
/-- The register CSC_CFG under its lock. -/
def lockedCfg : State := stackIn 1 [(BLK_CTRL_lock, [CSC], 1)]

theorem witness_StackFormation : (mor []).Runs ∧ nth (stackIn 1 []).csc.lock 3 false = false ∧ (stackIn 1 []).stackLink 3 = true ∧
    dark.stackLink 3 = false ∧ nth (locked (stackIn 1 [])).csc.lock 3 false = true ∧ (locked (stackIn 1 [])).stackLink 3 = true ∧
    (at_ NIGHT []).inSt [MORNING, NOON, DUSK, SAFE] = false ∧ (mor [(CSC_CFG_en, [], 0)]).on CSC_CFG_en = false ∧
    (stackIn 1 []).inSt [MORNING, NOON, DUSK, SAFE] = true ∧ (stackIn 1 []).on CSC_CFG_en = true ∧
    100 * oneUs ≤ (stackIn 1 []).since (nth (stackIn 1 []).csc.helloCyc 3 0) ∧
    (linked (stkMaster []) (pk 1)).1 = true ∧ (linked (stkMaster []) { pk 1 with crcOk := false }).1 = false ∧
    lostOne.isMaster = true ∧ lostOne.formed = true ∧ lostOne.others.find? (fun m => lostOne.memSerial m = 9 && !bitAt (lostOne.g CSC_STAT_present) m) = some 1 ∧
    (∀ m ∈ (stkMaster []).others, (stkMaster []).memSerial m = 9 → bitAt ((stkMaster []).g CSC_STAT_present) m = true) ∧
    alone.isMaster = false ∧ alone.isMember = true ∧ alone.cscState = CS_DETACHED ∧ formingMember.isMember = true ∧
    formingMember.cscState = CS_FORMING ∧ (stkMember []).cscState ≠ CS_DETACHED ∧ (stkMember []).cscState ≠ CS_FORMING ∧
    (mor []).cscState ≠ CS_FORMING ∧ (forming 0 []).cscState = CS_FORMING ∧ (forming 0 []).linksRun = true ∧
    linkEnds ⟨[], []⟩ 0 = [] ∧ (forming 0 []).g CSC_CFG_fto * oneMs ≤ (forming 0 []).since (forming 0 []).csc.formAt ∧
    ({ forming 0 [] with csc := { (forming 0 []).csc with formAt := 10 ^ 15 } } : State).since (10 ^ 15) < (forming 0 []).g CSC_CFG_fto * oneMs ∧
    linkEnds (chainOf [false]) 0 ≠ [] ∧ (forming 0 []).groupMasters (chainOf [false]) = [] ∧
    2 ≤ ((forming 1 []).groupMasters (chainOf [true])).length ∧ (forming 0 []).groupMasters doubled = [1] ∧ isDoubled doubled = true ∧
    (forming 0 []).groupMasters (chainOf [true]) = [1] ∧ isDoubled (chainOf [true]) = false ∧ linkEnds doubled 0 ≠ [] ∧
    (nth ((forming 0 []).groupDevs (chainOf [true])) 1 ⟨0, false, 0⟩).nexp = 3 ∧ (groupOrder (chainOf [true]) 0).length = 2 ∧
    (groupOrder (chainOf [true, false]) 0).length = 3 ∧ (forming 0 []).groupMasters (chainOf [true, false]) = [1] ∧
    (forming 1 []).groupMasters (chainOf (List.replicate 7 false)) = [0] ∧ (groupOrder (chainOf (List.replicate 7 false)) 0).length = 8 ∧
    (forming 1 []).g CSC_CFG_nexp = 0 ∧ ((forming 1 []).membersLeave 8).on GEN_STATE_stacked = false ∧
    ((forming 1 []).membersLeave 8).on GEN_STATE_master = true ∧ ((forming 0 []).membersLeave 3).on GEN_STATE_master = false ∧
    (stackIn 2 [(CSC_LINK_up, [3], 1)]).on CSC_LINK_up [3] = true ∧ oneMs ≤ (stackIn 2 []).since (nth (stackIn 2 []).csc.timeCyc 3 0) ∧
    (stackIn 2 []).on CSC_LINK_up [3] = false ∧ (linked (stkMaster [(CSC_LINK_up, [0], 1)]) (pk 1)).2.on CSC_LINK_up [0] = true ∧
    (at_ DUSK []).inSt [NOON, DUSK] = true ∧ (mor []).inSt [NOON, DUSK] = false := ⟨at_runs _ _, by decide +kernel⟩
/-- What a write of CSC_CFG stores. -/
def cscWord (s : State) (v : Word) : Option Bool :=
  (findReg 0x100100).map fun r => s.lockRefuses 0x100100 r.1.fields (s.rd 0x100100) (s.depClamp 0x100100 [] (clampStatic r.1.fields v))
theorem witness_StackFormation_config : (findReg 0x100100).map (·.2) = some [] ∧ cscWord lockedCfg 0 = some true ∧
    cscWord (stackIn 1 []) 0 = some false := by decide +kernel

/-- A publication of a frame at 5 s, aligned or not. -/
def aPub (al : Byte) : List Byte := leBytes 6 5 ++ List.replicate 12 0 ++ [al] ++ List.replicate 20 0
/-- A master with the time and the frame last evaluated, which position 1 has aligned or not. -/
def pubAt (now : Time) (last : Option Time) (al : Nat) : State :=
  let s := stkMaster [(CSC_STAT_aligned, [], al)]
  { s with mer := { s.mer with now := now }, ele := { s.ele with lastTs := last } }
def pub_ (s : State) (h : PktHead) (l : List Byte) : Bool × State := s.packetIn PK_PUB h none (l.map (·.toNat))
def sync_ (s : State) (h : PktHead) (r : Option Int) : Bool × State :=
  s.packetIn PK_SYNC h none (syncBody (s.g CSC_LINK_dly [h.link.val]) h 5 0 2 false r)
def level_ (s : State) (h : PktHead) : Bool × State := s.packetIn PK_LEVEL h none [h.src.val, 1]
def grid_ (s : State) (h : PktHead) : Bool × State := s.packetIn PK_GRID h none [5, 1]
def aligning (n : Nat) (was : Nat) : State :=
  let s := stkMember []
  { s with csc := { s.csc with alignCnt := n, wasAligned := was } }
/-- A member of a stack in SAFE. -/
def safeMember : State :=
  let s := at_ SAFE [(GEN_STATE_stacked, [], 1), (GEN_STATE_member, [], 1), (CSC_CFG_en, [], 1), (CSC_CFG_lmask, [], 3), (CSC_STAT_state, [], CS_FORMED)]
  { s with csc := (stkMember []).csc }

theorem witness_StackPackets : (mor []).Runs ∧ (stkMaster []).isMaster = true ∧ (stkMaster []).formed = true ∧
    (stkMaster []).csc.syncMs ≠ (stkMaster []).mer.now / oneMs ∧ (mor []).isMaster = false ∧
    (sync_ (stkMaster []) (pk 1) (some 3)).1 = true ∧ (sync_ (stkMaster []) (pk 1) (some 3)).2.formed = true ∧
    (sync_ (stkMaster []) (pk 1) (some 3)).2.isMaster = true ∧ (sync_ (stkMember []) (pk 0) (some 3)).2.isMaster = false ∧
    (sync_ (stkMember []) (pk 0) (some 3)).1 = true ∧ (sync_ (stkMaster []) (pk 1) none).2.isMember = false ∧
    (sync_ (stkMember []) (pk 0) none).1 = true ∧ (sync_ (stkMember []) (pk 0) none).2.formed = true ∧
    (sync_ (stkMember []) (pk 0) none).2.isMember = true ∧ (sync_ (stkMember []) (pk 0) none).2.dev ≠ SAFE ∧
    (sync_ safeMember (pk 0) none).1 = true ∧ (sync_ safeMember (pk 0) none).2.formed = true ∧ (sync_ safeMember (pk 0) none).2.isMember = true ∧
    (sync_ safeMember (pk 0) none).2.dev = SAFE ∧ (sync_ (mor []) (pk 1) none).2.formed = false ∧
    (aligning 16 0).formed = true ∧ (aligning 16 0).isMember = true ∧ (aligning 16 0).csc.alignCnt = 16 ∧
    bitAt ((aligning 16 0).g CSC_STAT_aligned) (aligning 16 0).position = false ∧ bitAt (aligning 16 0).csc.wasAligned 1 = false ∧
    bitAt (aligning 16 2).csc.wasAligned (aligning 16 2).position = true ∧ (aligning 15 0).csc.alignCnt ≠ 16 ∧
    (grid_ (stkMember []) (pk 0)).1 = true ∧ (grid_ (stkMember []) (pk 0)).2.formed = true ∧ (grid_ (stkMember []) (pk 0)).2.isMember = true ∧
    (grid_ (stkMaster []) (pk 1)).2.isMember = false ∧
    (level_ (stkMaster []) (pk 1)).1 = true ∧ (level_ (stkMaster []) (pk 1)).2.isMaster = true ∧ (level_ (stkMaster []) (pk 1)).2.formed = true ∧
    (level_ (stkMember []) (pk 0)).2.isMaster = false ∧ (1 : Nat) ≠ 0 ∧
    (stkMember []).formed = true ∧ (stkMember []).isMember = true ∧ oneMs ≤ (stkMember []).since (stkMember []).csc.levelCyc ∧
    (mor []).isMember = false := ⟨at_runs _ _, by decide +kernel⟩
theorem witness_StackPackets_publications :
    (∀ now ∈ [6 * oneSec, 5 * oneSec, deadline (5 * oneSec)], ∀ al ∈ [0, 2], (pub_ (pubAt now none al) (pk 1) (aPub 8)).1 = true ∧
      (pub_ (pubAt now none al) (pk 1) (aPub 8)).2.formed = true ∧ (pub_ (pubAt now none al) (pk 1) (aPub 8)).2.mer.now = now) ∧
    headerTime (aPub 8) = 5 * oneSec ∧ deadline (5 * oneSec) < 6 * oneSec ∧ 5 * oneSec < deadline (5 * oneSec) ∧
    bitAt (leAt (aPub 8) 18 1) 3 = true ∧ bitAt (leAt (aPub 0) 18 1) 3 = false ∧ (1 : Nat) ≠ (pubAt 0 none 0).position ∧
    (pub_ (pubAt (5 * oneSec) none 2) (pk 1) (aPub 0)).1 = true ∧ (pub_ (mor []) (pk 1) (aPub 0)).2.formed = false ∧
    (pub_ (pubAt (5 * oneSec) (some (5 * oneSec)) 0) (pk 1) (aPub 8)).2.ele.lastTs = some (5 * oneSec) ∧
    (pub_ (pubAt (5 * oneSec) none 0) (pk 1) (aPub 8)).2.ele.lastTs ≠ some (5 * oneSec) ∧
    (pub_ (pubAt (5 * oneSec) none 0) (pk 1) (aPub 8)).2.tmx.second = false := by decide +kernel

/-- The master with a command open for member 1, and packets of the tunnel. -/
def tunnelling : State :=
  let s := stkMaster [(HIF_RING_2_cls, [127], CLS_TUN), (HIF_RING_2_idx, [127], 1)]
  { s with hif := { s.hif with openCmds := [{ cmd 0 with ring := 127 }] } }
def answer : TunMsg := .completion 0 5 0 0 0 0 0 0 []
def order_ : TunMsg := .command 1 127 ⟨List.replicate 32 0, []⟩
def tun_ (s : State) (h : PktHead) (x : TunMsg) : Bool × State := s.packetIn PK_TUN h (some (tunDest x)) (tunBody x)
/-- Position 1 was last heard of long ago. -/
def silent (s : State) : State := { s with csc := { s.csc with heard := List.replicate 8 0 } }

theorem witness_TunnelAndLoss : (mor []).Runs ∧
    (tun_ (stkMember []) (pk 0) order_).1 = true ∧ (tun_ (stkMember []) (pk 0) order_).2.formed = true ∧
    (tun_ (stkMember []) (pk 0) order_).2.isMember = true ∧ (tun_ (mor []) (pk 0) order_).2.formed = false ∧
    (tun_ tunnelling (pk 1) answer).1 = true ∧ (tun_ tunnelling (pk 1) answer).2.formed = true ∧
    (tun_ tunnelling (pk 1) answer).2.isMaster = true ∧ (tun_ tunnelling (pk 1) answer).2.tunOpen 1 5 = some { cmd 0 with ring := 127 } ∧
    (tun_ (stkMaster []) (pk 1) answer).2.tunOpen 1 5 = none ∧ (tun_ (stkMaster []) (pk 1) order_).2.isMember = false ∧
    clampN 1 64 (0 / 8) = 1 ∧ clampN 1 64 (520 / 8) = 64 ∧
    (silent (stkMaster [])).isMaster = true ∧ (silent (stkMaster [])).linksRun = true ∧ bitAt ((silent (stkMaster [])).g CSC_STAT_present) 1 = true ∧
    oneMs ≤ (silent (stkMaster [])).since (nth (silent (stkMaster [])).csc.heard 1 0) ∧ (mor []).isMaster = false ∧
    (stkMember []).linksRun = true ∧ (stkMember []).isMember = true ∧ (stkMember []).cscState ≠ CS_DETACHED ∧
    oneMs ≤ (stkMember []).since (max (stkMember []).csc.syncCyc (stkMember []).csc.gridCyc) ∧ alone.cscState = CS_DETACHED :=
  ⟨at_runs _ _, by decide +kernel⟩

/-! ### Security, supply, start-up, faults and test -/

/-- The security engine as given; SEC holds no buffer when q is 0. -/
def secIn (q : Nat) (x : SecSt) : State := { mor [(CIS_Q_max, [13], q), (CIS_Q_res, [13], 0)] with sec := x }
def noSec : SecSt := ⟨[], [], false, none, none⟩
def aGen (b : Bool) : OwnerGen := ⟨[], false, b⟩

theorem witness_SecurityEngine : (mor []).Runs ∧ (at_ NIGHT []).inSt [DAWN, NIGHT] = true ∧ (secIn 9 { noSec with keyBad := true }).sec.keyBad = true ∧
    (secIn 9 noSec).inSt [DAWN, NIGHT] = false ∧ (secIn 9 noSec).sec.keyBad = false ∧
    (secIn 9 { noSec with sign := some ⟨cmd 0, 1, [], [], ([], 7), false⟩ }).sec.sign ≠ none ∧
    (∀ k ∈ [0, 1], (((secIn 0 noSec).open_ (cmd 0)).reserve 13 0 (reportLen k)).isNone = true) ∧
    (((secIn 9 noSec).open_ (cmd 0)).reserve 13 0 (reportLen 1)).isSome = true ∧
    (∀ k ∈ [0, 1], (secIn 9 { noSec with sign := some ⟨cmd 0, k, [], [], ([], 7), true⟩ }).sec.sign = some ⟨cmd 0, k, [], [], ([], 7), true⟩) ∧
    (at_ NOON []).dev ≠ MORNING ∧ 4 ≤ (secIn 9 { noSec with gens := List.replicate 4 (aGen true) }).sec.gens.length ∧ (mor []).dev = MORNING ∧
    (secIn 9 noSec).sec.gens.length < 4 ∧ (∀ c ∈ (secIn 9 noSec).bcp, c.loading = []) ∧ (secIn 9 noSec).sec.enroll = none ∧
    (cmd 0 3088).len.toNat = 3088 ∧ (secIn 9 noSec).ownerGen = 0 ∧ (secIn 9 { noSec with gens := [aGen true] }).ownerGen ≠ 0 ∧
    (secIn 9 noSec).sec.sign = none ∧ (secIn 9 { noSec with sign := some ⟨cmd 0, 1, [], [], ([], 7), false⟩ }).afe.run = true ∧
    (secIn 9 { noSec with sign := some ⟨cmd 0, 1, [], [], ([], 7), false⟩ }).sec.sign = some ⟨cmd 0, 1, [], [], ([], 7), false⟩ ∧
    (((secIn 0 noSec).open_ (cmd 0)).queue 13 1 [1]).isNone = true ∧ (((secIn 9 noSec).open_ (cmd 0)).queue 13 1 [1]).isSome = true ∧
    (secIn 0 noSec).inSt [DAWN, NIGHT] = false ∧ (secIn 9 { noSec with enroll := some (cmd 0) }).sec.enroll ≠ none ∧
    (∃ c ∈ ((mor []).onCpu 3 fun c => { c with loading := [(cmd 3, [])] }).bcp, c.loading ≠ []) ∧
    (secIn 9 { noSec with gens := [aGen true, aGen false], enroll := some (cmd 0) }).sec.enroll = some (cmd 0) ∧
    (secIn 9 { noSec with gens := [aGen true, aGen false], enroll := some (cmd 0) }).sec.gens = [aGen true] ++ [aGen false] :=
  ⟨at_runs _ _, by decide +kernel⟩

/-- The device in DAWN. -/
def dawnIn (f : PwrSt → PwrSt) : State := { State.reset with pwr := f State.reset.pwr }

/-- RST_N is low. -/
def heldLow : State := { State.reset with pwr := { State.reset.pwr with held := true } }

theorem witness_StartUp : dark.pwr.off = true ∧ State.reset.pwr.off = false ∧ State.reset.Runs ∧ (mor []).Runs ∧ State.reset.dev = DAWN ∧ State.reset.pwr.otp = false ∧
    (mor []).dev ≠ DAWN ∧ State.reset.pwr.waits = false ∧ (dawnIn fun x => { x with waits := true }).dev = DAWN ∧
    (dawnIn fun x => { x with waits := true }).pwr.waits = true ∧ (dawnIn fun x => { x with waits := true }).pwr.boot = none ∧
    (dawnIn fun x => { x with waits := true, boot := some (cmd 0, []) }).pwr.boot ≠ none ∧ (cmd 0 8388608).len.toNat ≤ 8388608 ∧
    (dawnIn fun x => { x with otp := true, boot := some (cmd 0, []) }).pwr.otp = true ∧
    (dawnIn fun x => { x with otp := true, boot := some (cmd 0, []) }).pwr.boot = some (cmd 0, []) ∧
    heldLow.pwr.held = true ∧ State.reset.pwr.held = false ∧ dark.pwr.held = false ∧ bits 0xD15A#32 15 0 = 0xD15A ∧ bits 0xD15B#32 15 0 ≠ 0xD15A ∧
    (mor []).dawnOtp.dev ≠ DAWN ∧ (dawnIn fun x => { x with otp := true }).dawnOtp.dev = DAWN ∧
    (dawnIn fun x => { x with otp := true }).dawnOtp.pwr.boot = none ∧
    (dawnIn fun x => { x with otp := true }).dawnOtp.pwr.waits = false ∧
    (dawnIn fun x => { x with otp := true, waits := true }).dawnOtp.pwr.waits = true ∧
    (dawnIn fun x => { x with otp := true, waits := true }).dawnOtp.dev = DAWN ∧
    (dawnIn fun x => { x with otp := true, boot := some (cmd 0, []) }).dawnOtp.dev = DAWN ∧
    (dawnIn fun x => { x with otp := true, boot := some (cmd 0, []) }).dawnOtp.pwr.boot = some (cmd 0, []) ∧
    (dawnIn fun x => { x with otp := true }).pwr.boot = none ∧ (dawnIn fun x => { x with otp := true }).pwr.waits = false :=
  ⟨rfl, rfl, ⟨rfl, rfl⟩, at_runs _ _, by decide +kernel⟩

/-- A die temperature with the trims of the sensors at 0. -/
def sensors (l : List (Fld × List Nat × Nat)) : State := { mor l with trim := List.replicate 2112 0 }
def wanted (t : Nat) : Word := BitVec.ofNat 32 t

theorem witness_PowerStates : (mor []).Runs ∧ bits (wanted NOON) 2 0 = NOON ∧ 2 ≤ NOON ∧ NIGHT ≤ 6 ∧ SAFE ≤ 6 ∧ (mor []).pwr.want = none ∧
    State.reset.dev = DAWN ∧ (at_ SAFE []).dev = SAFE ∧ NOON ≠ SAFE ∧ (at_ NIGHT []).dev = NIGHT ∧ NOON ≠ NIGHT ∧ NOON ≠ MORNING ∧
    (at_ NOON []).dev ≠ NIGHT ∧ (at_ NOON []).dev ≠ MORNING ∧ (mor []).dev = MORNING ∧
    (mor [(CSC_STAT_state, [], CS_FAILED)]).moveNotNow = true ∧ (mor [(TST_JTAG_bscan, [], 1)]).on TST_JTAG_bscan = true ∧
    (at_ NOON []).dev ≠ DAWN ∧ (at_ NOON []).on TST_JTAG_bscan = false ∧ (at_ NOON []).dev = NOON ∧ (at_ NOON []).dev ≠ SAFE ∧
    (mor []).moveNotNow = false ∧ (at_ DUSK []).dev = DUSK ∧
    (irqIn 5 true false [] [(ICU_EN, [0], 32), (ICU_SRC_wake, [5], 1)]).presented 5 = true ∧
    (irqIn 5 true false [] [(ICU_EN, [0], 32), (ICU_SRC_wake, [5], 1)]).on ICU_SRC_wake [5] = true ∧
    (irqIn 5 true false [] [(ICU_EN, [0], 32), (ICU_SRC_wake, [5], 1), (GEN_STATE_state, [], NIGHT)]).dev = NIGHT ∧
    (mor []).dev ≠ NIGHT ∧ (mor []).dev ≠ DUSK ∧ bits (wanted 0) 2 0 < 2 ∧ bits (wanted 7) 2 0 = 7 ∧ min 7 6 = SAFE ∧ (mor []).dev ≠ SAFE ∧
    (mor []).dev ≠ DAWN ∧ (at_ NIGHT []).dev ≠ DAWN ∧ (at_ DUSK []).on TST_JTAG_bscan = false ∧ (mor []).on PWR_CFG_tdusk = false ∧
    (({ at_ DUSK [] with pwr := { (at_ DUSK []).pwr with dusk := true } } : State).pwr.dusk = true) ∧ (at_ DUSK []).icu.level.getLsbD 225 = false ∧
    oneSec * 10 ≤ (at_ DUSK []).since (at_ DUSK []).pwr.coolAt ∧
    (sensors []).trimTemp 0 149999 = 149999 ∧ (sensors []).trimTemp 1 165000 = 165000 ∧ (sensors []).trimTemp 2 164999 = 164999 ∧
    149999 < (150000 : Int) ∧ (165000 : Int) ≤ 165000 ∧ (164999 : Int) < 165000 ∧ (150000 : Int) ≤ 164999 ∧ (mor []).icu.level.getLsbD 225 = false ∧
    (mor [(PWR_VCFG_mode, [], 1)]).on PWR_VCFG_mode = true ∧ (at_ NOON []).inSt [MORNING, NOON] = true ∧ (at_ DUSK []).inSt [MORNING, NOON] = false ∧
    (at_ NOON [(PWR_VCFG_mode, [], 0)]).on PWR_VCFG_mode = false := ⟨at_runs _ _, by decide +kernel⟩

/-- A class-S row is enabled; an internal fault has been recorded or not. -/
def withS (f : Bool) : State :=
  let s := rowIs 63 classS [(TMX_ROW_en, [63], 1)]
  { s with pwr := { s.pwr with faulted := f } }
def testSlot : ElSlot := { ElSlot.reset with cfg := 0xA1090703 }

theorem witness_FaultContainment : (mor []).Runs ∧ (mor []).pwr.faulted = false ∧ (withS true).pwr.faulted = true ∧ (20 : Fin 21).val ≠ CIS ∧
    (20 : Fin 21).val ∉ [PHE, ELE, TMX] ∧ (7 : Fin 21).val ∈ [PHE, ELE, TMX] ∧
    (withS true).anyS = true ∧ (withS false).anyS = true ∧ (withS false).pwr.faulted = false ∧
    (((withS true).p PWR_VSTAT_meas [] 699).vUpdate.pwr.faulted = true) ∧ (mor []).anyS = false ∧ (16 + 2 : Fin 21).val = CIS ∧
    (at_ NIGHT []).inSt [DAWN, NIGHT] = true ∧ ((mor []).slot 255).mode ≠ M_TEST ∧ (mor []).inSt [DAWN, NIGHT] = false ∧
    ((slotIs 255 testSlot).slot 255).mode = M_TEST ∧ ((slotIs 255 { testSlot with cfg := 0xA1090103 }).slot 255).typ = T_PIOC ∧ ((slotIs 255 { testSlot with cfg := 0xA1090103 }).slot 255).mode = M_TEST ∧
    ((slotIs 254 { testSlot with cfg := 0xA1090203 }).slot 254).typ ≠ T_PIOC ∧ ((slotIs 254 { testSlot with cfg := 0xA1090203 }).slot 254).mode = M_TEST ∧
    (mor [(GEN_STATE_stacked, [], 1)]).isMember = true ∧ (mor []).isMember = false ∧ (0x80000002#32).msb = true ∧ bits 0x80000002#32 1 0 ≤ 2 ∧
    (findReg 0x140110).map (·.2) = some [] ∧ (mor []).g MER_STAT_tq = bits 0x80000000#32 1 0 ∧
    (mor []).g MER_STAT_tq ≠ bits 0x80000002#32 1 0 ∧ (2#32).msb = false ∧
    (mor []).on BLK_CTRL_lock [TST] = false ∧ (mor []).on TST_MSUB_en = false := ⟨at_runs _ _, by decide +kernel⟩

theorem witness_TestPort : (mor []).Runs ∧ (mor [(TST_JTAG_bscan, [], 1)]).on TST_JTAG_bscan = true ∧ (mor []).on TST_JTAG_bscan = false :=
  ⟨at_runs _ _, by decide +kernel⟩

end Sys2Proof.Tests
end

section
/-! Reads and writes of registers (R9 to R11, R26, R27, R35, R38): what a host read and a host write of each kind of offset do. -/

namespace Sys2Proof.Machine

/-! ### Words made of fields that cover them -/

/-- A word is its own field of all 32 bits, whatever it is put into. -/
theorem setBits_word (x v : Word) : setBits x 31 0 (bits v 31 0) = v := by
  apply BitVec.eq_of_toNat_eq
  rw [setBits_toNat _ _ _ _ (by decide) (by decide), bits]
  have hx := x.isLt
  have hv := v.isLt
  omega

/-- The upper and the lower half put one after the other leave nothing of the word that was there. -/
theorem setBits_halves (x : Word) (hi lo : Nat) :
    setBits (setBits x 31 16 hi) 15 0 lo = BitVec.ofNat 32 (hi % 2 ^ 16 * 2 ^ 16 + lo % 2 ^ 16) := by
  apply BitVec.eq_of_toNat_eq
  rw [setBits_toNat _ _ _ _ (by decide) (by decide), setBits_toNat _ _ _ _ (by decide) (by decide), BitVec.toNat_ofNat]
  have hx := x.isLt
  omega

/-! ### Offsets and their registers -/

/-- A distance that is no multiple of a block's window lies on no array of one register for each block. -/
theorem matchDims_blocks_none (k d : Nat) (hd : d % 0x10000 ≠ 0) : matchDims [(0x10000, k)] d = none := by
  simp [matchDims, hd]

/-- The flag counters of block b stand at 16#40 of its window (R28). -/
theorem findReg_flagCount (b : Fin 21) (f : Fin 32) : findReg (0x10000 * b.val + 0x40 + 4 * f.val) =
    some (⟨0x40, [(0x10000, 21), (4, 32)], .blk, [⟨15, 0, .rc, 0, .any⟩]⟩, [b.val, f.val]) := by
  obtain ⟨b, hb⟩ := b
  obtain ⟨f, hf⟩ := f
  have below (k : Nat) (hk : k < 0x40) : matchDims [(0x10000, 21)] (0x10000 * b + 0x40 + 4 * f - k) = none :=
    matchDims_blocks_none _ _ (by omega)
  have own : matchDims [(0x10000, 21), (4, 32)] (0x10000 * b + 0x40 + 4 * f - 0x40) = some [b, f] := by
    rw [show 0x10000 * b + 0x40 + 4 * f - 0x40 = 0x10000 * b + 4 * f by omega]
    simp [matchDims, show (0x10000 * b + 4 * f) / 0x10000 = b by omega,
      show (0x10000 * b + 4 * f) % 0x10000 = 4 * f by omega, hb, hf]
  have above (k : Nat) (hk : k ≤ 0x40) : ¬ 0x10000 * b + 0x40 + 4 * f < k := by omega
  rw [findReg, if_neg (by omega), if_pos (by omega)]
  simp (disch := decide) only [regsHeader, findIn, above, below, own, if_false]

/-- The data word of MSI-X vector k (R548, log 6). -/
theorem findReg_msixData (k : Fin 64) : findReg (0x118008 + 16 * k.val) =
    some (⟨0x118008, [(16, 64)], .blk, [⟨31, 0, .rw, 0, .any⟩]⟩, [k.val]) := by
  revert k; decide

/-- MER_STEP: slew above stepthr, both at least 1. -/
theorem findReg_merStep : findReg 0x2010C =
    some (⟨0x2010C, [], .blk, [⟨31, 16, .rw, 100, .range 1 500⟩, ⟨15, 0, .rw, 10, .range 1 1000⟩]⟩, []) := by
  decide

/-! ### Reads -/

/-- A read latches, takes the value, and clears the RC fields, in this order (R10). -/
theorem rcRead_eq (off : Nat) (s : State) :
    rcRead off s = ((s.latch off).readClear off).emit (.read off ((s.latch off).readVal off)) := rfl

/-- A read of an offset that is not assigned latches and clears nothing. -/
theorem rcRead_unassigned {off : Nat} (h : findReg off = none) (s : State) : rcRead off s = s.emit (.read off 0) := by
  simp only [rcRead_eq, State.latch, State.readVal, State.readClear, h]

/-- A flag counter returns its count and restarts at 0. -/
theorem rcRead_flagCount {off b f : Nat} {dims : List (Nat × Nat)} {d : Dom}
    (h : findReg off = some (⟨0x40, dims, d, [⟨15, 0, .rc, 0, .any⟩]⟩, [b, f])) (s : State) :
    rcRead off s = (s.wr off (setBits (s.rd off) 15 0 0)).emit (.read off (s.rd off)) := by
  simp [rcRead_eq, State.latch, State.readVal, State.readClear, State.live, h]

/-! ### Writes -/

/-- A write to an offset that is not assigned is ignored (R27). -/
theorem hostWrite_unassigned {off : Nat} (h : findReg off = none) (s : State) (p : Nat) (v : Word) (l : List (Nat × Nat)) :
    s.hostWrite p off v l = s := by
  simp only [State.hostWrite, h]

/-- A register outside `wholeWord` is written field by field. -/
theorem hostWrite_plain {off : Nat} {r : Reg} {ix : List Nat} (h : findReg off = some (r, ix)) (hb : r.base ∉ wholeWord)
    (s : State) (p : Nat) (v : Word) (l : List (Nat × Nat)) : s.hostWrite p off v l = s.plainWrite off r ix v := by
  simp only [State.hostWrite, h]
  split
  case h_21 => rfl
  all_goals
    next e => exact absurd (e ▸ hb) (by decide)

/-- The lock or the register's rule makes the write not-now (R11, R38). -/
theorem plainWrite_refused {s : State} {off : Nat} {r : Reg} {ix : List Nat} {v x w : Word} (hx : x = maskReserved r.base ix v)
    (hw : w = s.depClamp r.base ix (clampStatic r.fields x))
    (h : (s.lockRefuses off r.fields (s.rd off) w || s.refuses off r.base ix (s.rd off) w) = true) :
    s.plainWrite off r ix v = s.notNow off := by
  subst hx hw
  exact if_pos h

/-- An accepted write stores w, counts the clamps that lead from x to it, and has its effect (R32, R35). -/
theorem plainWrite_accepted {s : State} {off : Nat} {r : Reg} {ix : List Nat} {v x w : Word} (hx : x = maskReserved r.base ix v)
    (hw : w = s.depClamp r.base ix (clampStatic r.fields x))
    (h : (s.lockRefuses off r.fields (s.rd off) w || s.refuses off r.base ix (s.rd off) w) = false) :
    s.plainWrite off r ix v = ((s.wr off (storeWord r.fields (s.rd off) x w)).clampReg off
      (clampTotal r.base r.fields x w)).written r.base ix (s.rd off) x w := by
  subst hx hw
  exact if_neg (Bool.eq_false_iff.mp h)

/-- A register whose fields no lock protects refuses nothing because of the lock. -/
theorem State.lockRefuses_false (s : State) (off : Nat) {fs : List RField} (h : ∀ f ∈ fs, f.acc ≠ .rwl) (old w : Word) :
    s.lockRefuses off fs old w = false := by
  have : (fs.any fun f => f.acc = .rwl && bits w f.hi f.lo ≠ bits old f.hi f.lo) = false := by
    simpa [List.any_eq_false] using fun f hf ha => absurd ha (h f hf)
  rw [State.lockRefuses, this, Bool.and_false]

/-- The data word of an MSI-X vector takes every value. -/
theorem hostWrite_msixData (s : State) (p : Nat) (k : Fin 64) (v : Word) (l : List (Nat × Nat)) :
    s.hostWrite p (0x118008 + 16 * k.val) v l = s.wr (0x118008 + 16 * k.val) v := by
  rw [hostWrite_plain (findReg_msixData k) (by decide),
    plainWrite_accepted (x := v) (w := v) rfl]
  · simp [clampTotal, fieldDiff, storeWord, setBits_word, State.clampReg, State.written]
  · simp [State.depClamp, clampStatic, RField.stores, Legal.clamp, setBits_word]
  · rw [s.lockRefuses_false _ (by decide)]; rfl

/-- A write of 0 to MER_STEP stores the lowest value of both fields, which are two clamps (R35). -/
theorem hostWrite_merStep_zero (s : State) (p : Nat) (l : List (Nat × Nat)) :
    s.hostWrite p 0x2010C 0 l = (s.wr 0x2010C 0x00010001).clampReg 0x2010C 2 := by
  rw [hostWrite_plain findReg_merStep (by decide),
    plainWrite_accepted (x := 0) (w := 0x00010001) rfl (by rfl)]
  · have hw : storeWord [⟨31, 16, .rw, 100, .range 1 500⟩, ⟨15, 0, .rw, 10, .range 1 1000⟩] (s.rd 0x2010C) 0 0x00010001
        = 0x00010001 := setBits_halves _ _ _
    rw [hw]; rfl
  · rw [s.lockRefuses_false _ (by decide)]; rfl

/-! ### The obligation -/

/-- Settles O9: reads go through `rcRead`, writes of whole words through `hostWrite`, one lemma for each kind of offset. -/
theorem registerAccess : Obligations.RegisterAccess := by
  intro s hr
  refine ⟨fun off v h => ⟨?_, ?_⟩, ?_, fun b f => ?_, fun off => ⟨?_, ?_, fun be v => ⟨?_, ?_⟩⟩, fun off be v hbe => ?_,
    fun off r ix v x w hf hb hx hw => ⟨fun h => ?_, fun h => ?_⟩, fun k v => ?_, ?_⟩
  · rw [exec_rcRead _ hr, hostLoad, rcRead_unassigned h]
  · rw [exec_registerWrite _ _ _ hr, hostStore, registerWrite, if_pos rfl, hostWrite_unassigned h]
  · rintro off t rfl
    rw [exec_rcRead _ hr, hostLoad, rcRead_eq]
  · rw [exec_rcRead _ hr, hostLoad, rcRead_flagCount (findReg_flagCount b f)]
  · exact exec_rcRead _ hr
  · exact exec_rcRead _ hr
  · exact exec_registerWrite _ _ _ hr
  · exact exec_registerWrite _ _ _ hr
  · rw [exec_registerWrite _ _ _ hr, hostStore, registerWrite, if_neg hbe]
  · rw [exec_registerWrite _ _ _ hr, hostStore, registerWrite, if_pos rfl, hostWrite_plain hf hb, plainWrite_refused hx hw h]
  · rw [exec_registerWrite _ _ _ hr, hostStore, registerWrite, if_pos rfl, hostWrite_plain hf hb, plainWrite_accepted hx hw h]
  · rw [exec_registerWrite _ _ _ hr, hostStore, registerWrite, if_pos rfl, hostWrite_msixData]
  · rw [exec_registerWrite _ _ _ hr, hostStore, registerWrite, if_pos rfl, hostWrite_merStep_zero]

end Sys2Proof.Machine
end

section
/-! Events of the servo (R53, R64, R71, R72, R516, R518, R520): the stamp of a TDC channel, and what an IRIG-B frame, an edge of PPS_IN
and a Sync do. -/

namespace Sys2Proof.Machine

/-! ### Stamps of the TDC -/

/-- A channel that is armed stamps the edge less the channel's delay, and is not armed until it re-arms (R70, R72). -/
theorem State.tdcStamp_armed {s : State} {c : Nat} (h : (nth s.mer.tdc c (true, 0)).1 = true) (edge : Time) :
    s.tdcStamp c edge = (some (((edge : Int) - s.tdcDelay c).toNat / 1024 * 1024),
      { s with mer := { s.mer with tdc := s.mer.tdc.set c (false, edge) } }) := if_pos h

/-- An edge on a channel that is not armed is lost, and tdclost tells it (R72). -/
theorem State.tdcStamp_lost {s : State} {c : Nat} (h : (nth s.mer.tdc c (true, 0)).1 = false) (edge : Time) :
    s.tdcStamp c edge = (none, s.flag MER 12) := if_neg (Bool.eq_false_iff.mp h)

/-! ### IRIG-B and PPS_IN -/

/-- A decoded frame whose edge is stamped at t serves as source 8, less MER_DLY[1], and ends a count of missed frames (R64, R71). -/
theorem irigbFrame_stamped {f : IrigFrame} {edge t : Time} {s u : State} (hf : f.ok = true)
    (h : s.tdcStamp 19 edge = (some t, u)) :
    irigbFrame f edge s = ({ u with mer := { u.mer with irigBad := 0 } } : State).sourceEvent 8
      ((t : Int) - u.dly 1 - (u.irigTai f * oneSec : Nat)) := by
  rw [irigbFrame, if_pos hf, h]
  rfl

/-- A decoded frame whose edge is lost has no further effect. -/
theorem irigbFrame_lost {f : IrigFrame} {edge : Time} {s u : State} (hf : f.ok = true) (h : s.tdcStamp 19 edge = (none, u)) :
    irigbFrame f edge s = u := by
  rw [irigbFrame, if_pos hf, h]

/-- A frame that does not decode is missed, and ends the run of valid ones (R53, log 131). -/
theorem irigbFrame_undecoded {f : IrigFrame} (hf : f.ok = false) (edge : Time) (s : State) :
    irigbFrame f edge s = ({ s with mer := { s.mer with irigBad := s.mer.irigBad + 1 } } : State).breakRun 8 :=
  if_neg (Bool.eq_false_iff.mp hf)

/-- An edge of PPS_IN that is stamped at t1 serves as source 9, less MER_DLY[0], and then triggers (R71, R413). -/
theorem ppsInEdge_stamped {edge t1 : Time} {s u : State} (h : s.tdcStamp 18 edge = (some t1, u)) :
    ppsInEdge edge s = (u.sourceEvent 9 (secOffset ((t1 : Int) - u.dly 0))).recPps t1 := by
  rw [ppsInEdge, h]
  rfl

/-- An edge of PPS_IN that is lost has no further effect. -/
theorem ppsInEdge_lost {edge : Time} {s u : State} (h : s.tdcStamp 18 edge = (none, u)) : ppsInEdge edge s = u := by
  rw [ppsInEdge, h]

/-! ### Sync messages -/

section
variable {h : RxHead} {domain : Nat} {sender : BitVec 64} {m : PtpSync} {corr : Int} {residence : Nat} {s u v : State} {on : Bool}

/-- Outside an HSR pair a Sync does not pass on (R518). -/
theorem State.ptpForward_noRing (hp : u.pairMode (h.port.val / 2) ≠ 2) (ok : Bool) :
    u.ptpForward h false ok domain m corr residence = u := by
  simp [State.ptpForward, hp]

/-- A Sync that neither the port nor the ring takes does not pass on. -/
theorem State.ptpForward_dropped : u.ptpForward h false false domain m corr residence = u := by
  simp [State.ptpForward]

/-- A Sync that the port does not receive at most passes on. -/
theorem ptpSyncReceive_dropped (hc : s.rxCheck h = (false, on, u)) :
    ptpSyncReceive h domain sender m corr residence s = u.ptpForward h on false domain m corr residence := by
  rw [ptpSyncReceive, hc]
  rfl

/-- A Sync on a port without PTP, or of another domain, goes to the host (R520). -/
theorem ptpSyncReceive_toHost (hc : s.rxCheck h = (true, on, u)) (hv : u.ptpForward h on true domain m corr residence = v)
    (hd : v.g NET_PTP_role [h.port.val] = 0 ∨ domain ≠ v.g NET_PTPCFG_domain) :
    ptpSyncReceive h domain sender m corr residence s = v.rxHost h false := by
  simp only [ptpSyncReceive, hc, hv]
  rw [if_neg (by decide), if_pos (by simpa using hd)]

/-- A Sync of the master of a SLAVE port tells its interval, and waits for the Follow_Up or serves at once (R515, R516). -/
theorem ptpSyncReceive_parent (hc : s.rxCheck h = (true, on, u)) (hv : u.ptpForward h on true domain m corr residence = v)
    (hr : v.g NET_PTP_role [h.port.val] ≠ 0) (hd : domain = v.g NET_PTPCFG_domain)
    (hs : v.g NET_PTP_state [h.port.val] = PS_SLAVE)
    (hm : (v.portBest h.port.val).any (fun d => decide (d.sender = sender)) = true) :
    ptpSyncReceive h domain sender m corr residence s =
      if m.twoStep then
        v.putPtp h.port.val { v.ptpPort h.port.val with logInt := m.logInt, synced := some (sender, m.seq, h.arr, corr) }
      else (v.putPtp h.port.val { v.ptpPort h.port.val with logInt := m.logInt, synced := none }).ptpOffset
        h.port.val h.arr m.origin corr := by
  simp only [ptpSyncReceive, hc, hv]
  rw [if_neg (by decide), if_neg (by simp [hr, hd]), if_pos (by simp [hs, hm])]
  cases m.twoStep <;> rfl

end

/-! ### The obligation -/

/-- Settles O11: a Sync goes by `rxCheck` and the role of its port, a frame or an edge by the stamp of its TDC channel. -/
theorem servoEvents : Obligations.ServoEvents := by
  intro s hr
  refine ⟨?sync, fun h domain sender m corr residence s0 hc => ?dropped, fun _ _ _ _ _ => rfl, fun f edge hf ha => ?irig,
    fun f edge hf ha => ?irigLost, fun f edge hf => ?undecoded, ?pps, fun edge ha => ?ppsLost⟩
  case sync =>
    rintro h domain sender m corr residence s0 on p hc rfl hp rfl
    have hv := State.ptpForward_noRing (domain := domain) (m := m) (corr := corr) (residence := residence) hp true
    refine ⟨fun hd => ?_, fun hrole hd hst hm => ?_⟩
    · rw [exec_ptpSyncReceive _ _ _ _ _ _ hr, ptpSyncReceive_toHost hc hv hd]
    · rw [exec_ptpSyncReceive _ _ _ _ _ _ hr, ptpSyncReceive_parent hc hv hrole hd hst hm]
      exact ⟨fun h1 => by rw [h1]; rfl, fun h2 => by rw [h2]; rfl⟩
  case dropped => rw [exec_ptpSyncReceive _ _ _ _ _ _ hr, ptpSyncReceive_dropped hc, State.ptpForward_dropped]
  case irig =>
    rw [exec_irigbFrame _ _ hr, irigbFrame_stamped hf (State.tdcStamp_armed ha edge)]
    rfl
  case irigLost => rw [exec_irigbFrame _ _ hr, irigbFrame_lost hf (State.tdcStamp_lost ha edge)]
  case undecoded => rw [exec_irigbFrame _ _ hr, irigbFrame_undecoded hf]
  case pps =>
    rintro edge t1 ha rfl
    rw [exec_ppsInEdge _ hr, ppsInEdge_stamped (State.tdcStamp_armed ha edge)]
    rfl
  case ppsLost => rw [exec_ppsInEdge _ hr, ppsInEdge_lost (State.tdcStamp_lost ha edge)]

end Sys2Proof.Machine
end

section
/-! Interrupts (R378 to R401): TAKE and DONE, raises, clears, enables, targets, compatibility mode, levels, and the messages of vectors. -/

namespace Sys2Proof.Machine

/-! ### TAKE and DONE -/

/-- The source that a write of ICU_TAKE or ICU_DONE names. -/
theorem bits_source (n : BitVec 8) : bits (n.setWidth 32) 7 0 = n.toNat := by
  have hn := n.isLt
  simp only [bits, BitVec.toNat_setWidth]
  omega

/-- The host may take a pending source that has no taker and whose target it is: a source of the host is always served. -/
theorem State.takeOk_host (s : State) (n : Nat) :
    s.takeOk n HOST = true ↔ s.srcPend n = true ∧ s.srcAct n = false ∧ s.srcTgt n = HOST := by
  have served : s.srcTgt n = HOST → s.srcServed n = true := fun ht => by simp [State.srcServed, ht]
  simp only [State.takeOk, Bool.and_eq_true, Bool.not_eq_true', decide_eq_true_eq, and_assoc]
  exact ⟨fun ⟨hp, ha, ht, _⟩ => ⟨hp, ha, ht⟩, fun ⟨hp, ha, ht⟩ => ⟨hp, ha, ht, served ht⟩⟩

theorem State.doneOk_iff (s : State) (n party : Nat) :
    s.doneOk n party = true ↔ s.srcAct n = true ∧ (n, party) ∈ s.icu.taker := by
  simp [State.doneOk]

theorem icuTakeBy_ok {s : State} {n party : Nat} (h : s.takeOk n party = true) : icuTakeBy party n s = s.take n party :=
  if_pos h

/-- A TAKE that does not succeed counts, is recorded and sets badtake (R385). -/
theorem icuTakeBy_bad {s : State} {n party : Nat} (h : ¬ s.takeOk n party = true) :
    icuTakeBy party n s = ((s.cnt ICU_BADTAKE_count).p ICU_BADTAKE_src [] n).flag ICU 9 := if_neg h

theorem icuDoneBy_ok {s : State} {n party : Nat} (h : s.doneOk n party = true) : icuDoneBy party n s = s.release n :=
  if_pos h

/-- A DONE that does not succeed counts, is recorded and sets baddone (R387). -/
theorem icuDoneBy_bad {s : State} {n party : Nat} (h : ¬ s.doneOk n party = true) :
    icuDoneBy party n s = ((s.cnt ICU_BADDONE_count).p ICU_BADDONE_src [] n).flag ICU 8 := if_neg h

/-- A host's write of ICU_TAKE is a TAKE by the host. -/
theorem exec_icuTake_host (n : BitVec 8) {s : State} (hr : s.Runs) :
    exec (.icuTake n) s = .next (settle (icuTakeBy HOST n.toNat s)) := by
  rw [exec_icuTake _ hr, hostWrite_icuTake, bits_source]

/-- A host's write of ICU_DONE is a DONE by the host. -/
theorem exec_icuDone_host (n : BitVec 8) {s : State} (hr : s.Runs) :
    exec (.icuDone n) s = .next (settle (icuDoneBy HOST n.toNat s)) := by
  rw [exec_icuDone _ hr, hostWrite_icuDone, bits_source]

/-- Settles O27: a TAKE goes by `takeOk`, a DONE by `doneOk`. -/
theorem takeAndDone : Obligations.TakeAndDone := by
  intro s hr
  refine ⟨?take, fun n h => ?badTake, ?done, fun n h => ?badDone⟩
  case take =>
    rintro n k rfl hp ha ht
    rw [exec_icuTake_host n hr, icuTakeBy_ok ((s.takeOk_host _).mpr ⟨hp, ha, ht⟩)]
    rfl
  case badTake =>
    have bad : ¬ s.takeOk n.toNat HOST = true := by
      rw [State.takeOk_host]
      rintro ⟨hp, ha, ht⟩
      simp [hp, ha, ht] at h
    rw [exec_icuTake_host n hr, icuTakeBy_bad bad]
  case done =>
    rintro n k rfl ha hm
    rw [exec_icuDone_host n hr, icuDoneBy_ok ((s.doneOk_iff _ _).mpr ⟨ha, hm⟩)]
    rfl
  case badDone =>
    have bad : ¬ s.doneOk n.toNat HOST = true := by
      rw [State.doneOk_iff]
      rintro ⟨ha, hm⟩
      simp [ha, hm] at h
    rw [exec_icuDone_host n hr, icuDoneBy_bad bad]

/-! ### Software raises -/

/-- The low half of ICU_SWSET[0] to ICU_SWSET[3] raises the first 16 sources of a group of 32 (R378). -/
theorem swsetSources_bcp {j : Nat} (h : j < 4) (v : Nat) : swsetSources j v = (bitsOf 16 v).map (32 * j + ·) := if_pos h

/-- The high half of ICU_SWSET[4] raises sources 240 to 255 (R378). -/
theorem swsetSources_shared (v : Nat) : swsetSources (4 : Fin 5).val v = (bitsOf 16 (v / 65536)).map (240 + ·) := if_neg (by decide)

/-! ### Targets -/

/-- A field keeps its value when a field beside it or of another register is stored. -/
theorem State.p_g_other (s : State) {f g : Fld} {ix jx : List Nat} (v : Nat) (h1 : f.lo ≤ f.hi) (h2 : f.hi < 32)
    (h : fldOff f ix ≠ fldOff g jx ∨ f.hi < g.lo ∨ g.hi < f.lo) : (s.p f ix v).g g jx = s.g g jx := by
  simp only [State.g, State.p_rd]
  split
  · next e => exact bits_setBits_other _ _ _ _ _ _ h1 h2 (h.resolve_left (· e))
  · rfl

/-- The vector and the wake of a source lie beside its target. -/
theorem State.srcTgt_vecWake (s : State) (n a b : Nat) :
    ((s.p ICU_SRC_vec [n] a).p ICU_SRC_wake [n] b).srcTgt n = s.srcTgt n := by
  rw [State.srcTgt, State.p_g_other _ _ (by decide) (by decide) (.inr (.inr (by decide))),
    State.p_g_other _ _ (by decide) (by decide) (.inr (.inr (by decide)))]
  rfl

/-- The target that is there already presents nothing. -/
theorem State.retarget_same {s : State} {n t : Nat} (h : s.srcTgt n = t) : s.retarget n t = s.p ICU_SRC_tgt [n] t := by
  simp [State.retarget, h]

/-- A new target has the source presented to it, where it is presented at all (R393). -/
theorem State.retarget_other {s : State} {n t : Nat} (h : s.srcTgt n ≠ t) :
    s.retarget n t = if (s.p ICU_SRC_tgt [n] t).presented n = true then (s.p ICU_SRC_tgt [n] t).present n
      else s.p ICU_SRC_tgt [n] t := by
  simp [State.retarget, h]

/-- The target code 7 apart, a write of ICU_SRC is refused, or stores the vector, the wake and the target as they are written. -/
theorem icuSrc_eq (n : Nat) {v : Word} {tg : Nat} (hv : tg = v.toNat % 8) (ht : tg ≤ 6) (s : State) :
    icuSrc n v s =
      if s.srcTgt n ≠ tg ∧ (s.srcAct n = true ∨ s.on ICU_MODE_compat = true ∧ n < 128) then s.notNow (0x90400 + 4 * n)
      else ((s.p ICU_SRC_vec [n] (bits v 13 8)).p ICU_SRC_wake [n] (bits v 16 16)).retarget n tg := by
  subst hv
  simp [icuSrc, show v.toNat % 8 ≠ 7 by omega, State.clampReg, b2n, eq_comm (b := s.srcTgt n)]

/-- A change of target is refused while the source is active (R393). -/
theorem icuSrc_active {n : Nat} {v : Word} {tg : Nat} {s : State} (hv : tg = v.toNat % 8) (ht : tg ≤ 6)
    (hn : s.srcTgt n ≠ tg) (ha : s.srcAct n = true) : icuSrc n v s = s.notNow (0x90400 + 4 * n) := by
  rw [icuSrc_eq n hv ht, if_pos ⟨hn, .inl ha⟩]

/-- A source that is not active takes a new target in native mode. -/
theorem icuSrc_native {n : Nat} {v : Word} {tg : Nat} {s : State} (hv : tg = v.toNat % 8) (ht : tg ≤ 6)
    (ha : s.srcAct n = false) (hc : s.on ICU_MODE_compat = false) :
    icuSrc n v s = ((s.p ICU_SRC_vec [n] (bits v 13 8)).p ICU_SRC_wake [n] (bits v 16 16)).retarget n tg := by
  rw [icuSrc_eq n hv ht, if_neg (by simp [ha, hc])]

/-- A write with the present target is never refused. -/
theorem icuSrc_same {n : Nat} {v : Word} {tg : Nat} {s : State} (hv : tg = v.toNat % 8) (ht : tg ≤ 6) (hn : s.srcTgt n = tg) :
    icuSrc n v s = ((s.p ICU_SRC_vec [n] (bits v 13 8)).p ICU_SRC_wake [n] (bits v 16 16)).p ICU_SRC_tgt [n] tg := by
  rw [icuSrc_eq n hv ht, if_neg (fun h => h.1 hn), State.retarget_same (by rw [State.srcTgt_vecWake, hn])]

/-! ### Compatibility mode -/

/-- A write of the present mode does nothing. -/
theorem icuMode_same {v : Word} {s : State} (h : bits v 0 0 = s.g ICU_MODE_compat) : icuMode v s = s := if_pos h

/-- The mode changes neither while a BCP runs nor while a source is active (R401). -/
theorem icuMode_refused {v : Word} {s : State} (h : bits v 0 0 ≠ s.g ICU_MODE_compat)
    (hb : (∃ b ∈ s.bcp, b.state = 2) ∨ s.icu.active ≠ 0) : icuMode v s = s.notNow 0x90100 := by
  have busy : ((s.bcp.any fun b => b.state = 2) || s.icu.active ≠ 0) = true := by simpa using hb
  simp only [icuMode]
  rw [if_neg h, if_pos busy]

/-- Compatibility mode gives sources 0 to 127 their targets (R401). -/
theorem icuMode_enter {v : Word} {s : State} (hv : v.getLsbD 0 = true) (hc : s.g ICU_MODE_compat = 0)
    (hb : ∀ b ∈ s.bcp, b.state ≠ 2) (ha : s.icu.active = 0) :
    icuMode v s = (s.p ICU_MODE_compat [] 1).each (List.range 128) fun s n => s.retarget n (n / 32) := by
  have one : bits v 0 0 = 1 := by simpa [bits, BitVec.getLsbD, Nat.testBit_zero] using hv
  have idle : ¬ ((s.bcp.any fun b => b.state = 2) || s.icu.active ≠ 0) = true := by simpa [ha] using hb
  simp only [icuMode, one, hc]
  rw [if_neg (by decide), if_neg idle, if_pos trivial]

/-! ### Levels -/

/-- A level that changes: the pending bit follows it, and a rise counts (R380, R381). -/
theorem State.setLevel_change {s : State} {n : Nat} {lv : Bool} (h : s.icu.level.getLsbD n = !lv) :
    s.setLevel n lv = (if lv then s.cnt ICU_CNT_count [n] else s).icuTo n { s.icu with
      level := putSrc s.icu.level n lv, pending := putSrc s.icu.pending n lv } := by
  cases lv <;> simp [State.setLevel, h]

theorem levelChange_change {n : Nat} {lv : Bool} {s : State} (hn : n ≠ 222) (hl : isLevel n = true)
    (h : s.icu.level.getLsbD n = !lv) : levelChange n lv s = s.setLevel n lv := by
  simp [levelChange, hn, hl, h]

/-- An edge source has no level, and a level that is there already does not change. -/
theorem levelChange_none {n : Nat} {lv : Bool} {s : State} (hn : n ≠ 222)
    (h : isLevel n = false ∨ s.icu.level.getLsbD n = lv) : levelChange n lv s = s := by
  rcases h with h | h <;> simp [levelChange, hn, h]

/-- The level of source 222 is what the shared pool gives (R574). -/
theorem levelChange_shared (lv : Bool) (s : State) : levelChange (222 : Fin 256).val lv s = s.cisLevels := if_pos rfl

/-! ### Messages -/

/-- The unmasking of a vector whose bit of the array is set clears the bit and sends the message (R397). -/
theorem msixVectorUnmask_waiting {vec : Nat} {s : State} (h : bitAt (s.g MSIX_pba [vec / 32]) (vec % 32) = true) :
    msixVectorUnmask vec s = ((s.p MSIX_mask [vec] 0).p MSIX_pba [vec / 32]
      (putBit (s.g MSIX_pba [vec / 32]) (vec % 32) false)).msix vec := if_pos h

theorem msixVectorUnmask_none {vec : Nat} {s : State} (h : bitAt (s.g MSIX_pba [vec / 32]) (vec % 32) = false) :
    msixVectorUnmask vec s = s.p MSIX_mask [vec] 0 := if_neg (Bool.eq_false_iff.mp h)

/-! ### The obligation -/

/-- Settles O28: each write goes to the handler of its register, and each handler by its cases. -/
theorem interruptControl : Obligations.InterruptControl := by
  intro s hr
  refine ⟨fun j v hj => ?swset, fun v => ?swsetShared, fun k v => ?raw, ?en, fun n v tg hv ht hn ha => ?srcActive, ?srcNew,
    fun n v tg hv ht hn => ?srcSame, fun v h => ?modeSame, fun v h hb => ?modeRefused, fun v hv hc hb ha => ?modeEnter,
    fun n lv hn hl h => ?level, fun n lv hn h => ?levelNone, fun lv => ?levelShared, fun vec h => ?unmask,
    fun vec h => ?unmaskNone⟩
  case swset => rw [exec_icuSwset _ _ hr, hostWrite_icuSwset, icuSwset, swsetSources_bcp hj]
  case swsetShared => rw [exec_icuSwset _ _ hr, hostWrite_icuSwset, icuSwset, swsetSources_shared]
  case raw => rw [exec_icuRaw _ _ hr, hostWrite_icuRaw, icuRaw]
  case en =>
    rintro k v u rfl
    rw [exec_icuEn _ _ hr, hostWrite_icuEn, icuEn]
  case srcActive => rw [exec_icuSrc _ _ hr, hostWrite_icuSrc, icuSrc_active hv ht hn ha]
  case srcNew =>
    rintro n v tg u hv ht hn ha hc rfl
    rw [exec_icuSrc _ _ hr, hostWrite_icuSrc, icuSrc_native hv ht ha hc,
      State.retarget_other (by rwa [State.srcTgt_vecWake])]
    exact ⟨fun h => by rw [if_pos h], fun h => by rw [if_neg (Bool.eq_false_iff.mp h)]⟩
  case srcSame => rw [exec_icuSrc _ _ hr, hostWrite_icuSrc, icuSrc_same hv ht hn]
  case modeSame => rw [exec_icuMode _ hr, hostWrite_icuMode, icuMode_same h]
  case modeRefused => rw [exec_icuMode _ hr, hostWrite_icuMode, icuMode_refused h hb]
  case modeEnter => rw [exec_icuMode _ hr, hostWrite_icuMode, icuMode_enter hv hc hb ha]
  case level => rw [exec_levelChange _ _ hr, levelChange_change hn hl h, State.setLevel_change h]
  case levelNone => rw [exec_levelChange _ _ hr, levelChange_none hn h]
  case levelShared => rw [exec_levelChange _ _ hr, levelChange_shared]
  case unmask => rw [exec_msixVectorUnmask _ hr, hostWrite_msixUnmask, msixVectorUnmask_waiting h]
  case unmaskNone => rw [exec_msixVectorUnmask _ hr, hostWrite_msixUnmask, msixVectorUnmask_none h]

end Sys2Proof.Machine
end

section
/-! Writes of the Sluice rows' enables and commits (R274 to R280, R568). -/

namespace Sys2Proof.Machine

/-! ### The word of TMX_ROW -/

/-- The fields of TMX_ROW (R275). -/
def rowFields : List RField :=
  [⟨31, 31, .rw, 0, .any⟩, ⟨30, 28, .rwl, 0, .range 0 4⟩, ⟨27, 26, .rwl, 0, .range 0 2⟩, ⟨25, 25, .rw, 0, .any⟩,
    ⟨24, 24, .rwl, 1, .any⟩, ⟨19, 19, .ro, 0, .any⟩, ⟨18, 18, .ro, 0, .any⟩, ⟨17, 17, .ro, 0, .any⟩, ⟨16, 16, .ro, 0, .any⟩,
    ⟨8, 8, .rwl, 0, .any⟩]

theorem findReg_tmxRow (r : Fin 64) :
    findReg (0x70100 + 4 * r.val) = some (⟨0x70100, [(4, 64)], .blk, rowFields⟩, [r.val]) := by
  revert r; decide

/-- A field of one bit is that bit of the word. -/
theorem bits_one (w : Word) (i : Nat) : bits w i i = b2n (w.getLsbD i) := by
  rw [bits, show i + 1 - i = 1 by omega, BitVec.getLsbD, Nat.testBit_eq_decide_div_mod_eq, b2n]
  split <;> simp_all

theorem bits_top (w : Word) : bits w 31 31 = b2n w.msb := by rw [bits_one, BitVec.msb_eq_getLsbD_last]

theorem b2n_testBit_zero (b : Bool) : (b2n b).testBit 0 = b := by cases b <;> rfl

theorem setBits_getLsbD (w : Word) (hi lo v i : Nat) (h1 : lo ≤ hi) (h2 : hi < 32) :
    (setBits w hi lo v).getLsbD i = if lo ≤ i ∧ i ≤ hi then v.testBit (i - lo) else w.getLsbD i :=
  setBits_testBit w hi lo v i h1 h2

/-- A one-bit field of any value that is put back keeps its bit. -/
theorem setBits_one_getLsbD (w : Word) (i : Nat) (b : Bool) (hi : i < 32) : (setBits w i i (b2n b)).getLsbD i = b := by
  rw [setBits_getLsbD _ _ _ _ _ (Nat.le_refl i) hi, if_pos ⟨Nat.le_refl i, Nat.le_refl i⟩, Nat.sub_self, b2n_testBit_zero]

/-- Clamping a word for TMX_ROW leaves its enable. -/
theorem clampStatic_row_msb (v : Word) : (clampStatic rowFields v).msb = v.msb := by
  have top : (clampStatic rowFields v).getLsbD 31 = (setBits v 31 31 (bits v 31 31)).getLsbD 31 := by
    simp [-BitVec.getLsbD_eq_getElem, rowFields, clampStatic, RField.stores, Legal.clamp, setBits_getLsbD]
  rw [BitVec.msb_eq_getLsbD_last, top, bits_top, setBits_one_getLsbD _ _ _ (by decide)]

/-- Clamping a word for TMX_ROW leaves its class. -/
theorem clampStatic_row_cls (v : Word) : (clampStatic rowFields v).getLsbD 8 = v.getLsbD 8 := by
  have last : clampStatic rowFields v = setBits (clampStatic (rowFields.take 9) v) 8 8 (bits v 8 8) := rfl
  rw [last, bits_one, setBits_one_getLsbD _ _ _ (by decide)]

/-- TMX_ROW takes its class from the word that a write stores. -/
theorem storeWord_row_cls (old v w : Word) : (storeWord rowFields old v w).getLsbD 8 = w.getLsbD 8 := by
  have last : storeWord rowFields old v w = setBits (storeWord (rowFields.take 9) old v w) 8 8 (bits w 8 8) := rfl
  rw [last, bits_one, setBits_one_getLsbD _ _ _ (by decide)]

/-! ### Rows and their enables -/

@[simp] theorem State.p_row (s : State) (f : Fld) (ix : List Nat) (v r : Nat) : (s.p f ix v).row r = s.row r := by
  simp [State.row]

theorem State.on_eq_getLsbD (s : State) {f : Fld} (ix : List Nat) (h : f.hi = f.lo) :
    s.on f ix = (s.rd (fldOff f ix)).getLsbD f.lo := by
  rw [State.on, State.g, h, bits_one, b2n]
  split <;> simp_all

/-- A one-bit field reads the bit put into it. -/
theorem State.p_on (s : State) {f : Fld} (ix : List Nat) (b : Bool) (h : f.hi = f.lo) (h32 : f.lo < 32) :
    (s.p f ix (b2n b)).on f ix = b := by
  rw [State.on_eq_getLsbD _ _ h, State.p_rd, if_pos rfl, h, setBits_one_getLsbD _ _ _ h32]

/-- The enable of a row lies beside its class. -/
theorem State.rowIsS_en (s : State) (r q v : Nat) : (s.p TMX_ROW_en [q] v).rowIsS r = s.rowIsS r := by
  rw [State.rowIsS, State.on, State.p_g_other _ _ (by decide) (by decide) (.inr (.inr (by decide))), State.p_row]
  rfl

/-- A row that is disabled is out of force (R277). -/
theorem State.rowEnable_false (s : State) (r : Nat) :
    s.rowEnable r false = (s.p TMX_ROW_en [r] 0).putRow r { s.row r with armed := false, deferred := false } := by
  simp [State.rowEnable, b2n]

/-- A class-N row comes into force as its enable rises (R277). -/
theorem State.rowEnable_classN {s : State} {r : Nat} (hn : s.rowIsS r = false) (hen : s.on TMX_ROW_en [r] = false) :
    s.rowEnable r true = ((s.p TMX_ROW_en [r] 1).putRow r { s.row r with armed := true, deferred := false }).vFloor := by
  simp [State.rowEnable, b2n, hen, hn, State.armRow, State.rowIsS_en]

/-- A class-S row below 0.72 V has its enable deferred (R280). -/
theorem State.rowEnable_deferred {s : State} {r : Nat} (hS : s.rowIsS r = true) (hen : s.on TMX_ROW_en [r] = false)
    (hv : s.g PWR_VSTAT_meas < 720) :
    s.rowEnable r true = (((s.p TMX_ROW_en [r] 1).putRow r { s.row r with deferred := true }).vFloor).flag TMX 12 := by
  simp [State.rowEnable, b2n, hen, hS, hv]

/-! ### A host's write of TMX_ROW -/

/-- TMX_ROW[r] written with v, its enable as before: what a host's write does ahead of the enable. -/
def State.rowStored (s : State) (r : Nat) (v : Word) : State :=
  let old := s.rd (0x70100 + 4 * r)
  let w := clampStatic rowFields v
  ((s.wr (0x70100 + 4 * r) (storeWord rowFields old v w)).clampReg (0x70100 + 4 * r) (fieldDiff rowFields v w)).p
    TMX_ROW_en [r] (b2n old.msb)

@[simp] theorem State.rowStored_tmx (s : State) (r : Nat) (v : Word) : (s.rowStored r v).tmx = s.tmx := by
  simp [State.rowStored]

@[simp] theorem State.rowStored_row (s : State) (r q : Nat) (v : Word) : (s.rowStored r v).row q = s.row q := by
  simp [State.row]

theorem fldOff_rowEn (r : Nat) : fldOff TMX_ROW_en [r] = 0x70100 + 4 * r := by simp [fldOff]

/-- Besides TMX_ROW[r] the write changes the notice of clamps at most. -/
theorem State.rowStored_rd (s : State) {r x : Nat} (v : Word) (h : x ≠ 0x70100 + 4 * r) (hc : x ≠ 0x120) (hl : x ≠ 0x124) :
    (s.rowStored r v).rd x = s.rd x := by
  rw [State.rowStored, State.p_rd, fldOff_rowEn, if_neg h.symm, State.clampReg_rd _ _ _ _ hc hl, State.wr_rd, if_neg h.symm]

theorem State.rowStored_en (s : State) (r : Nat) (v : Word) : (s.rowStored r v).on TMX_ROW_en [r] = s.on TMX_ROW_en [r] := by
  rw [State.rowStored, State.p_on _ _ _ rfl (by decide), State.on_eq_getLsbD _ _ rfl, fldOff_rowEn, BitVec.msb_eq_getLsbD_last]

/-- The row has the class that is written. -/
theorem State.rowStored_cls (s : State) (r : Nat) (v : Word) : (s.rowStored r v).on TMX_ROW_cls [r] = v.getLsbD 8 := by
  have off : fldOff TMX_ROW_cls [r] = 0x70100 + 4 * r := by simp [fldOff]
  rw [State.on_eq_getLsbD _ _ rfl, off, State.rowStored, State.p_rd, fldOff_rowEn, if_pos rfl, setBits_getLsbD _ _ _ _ _ (by decide) (by decide),
    if_neg (by decide), State.clampReg_rd _ _ _ _ (by omega) (by omega), State.wr_rd, if_pos rfl, storeWord_row_cls, clampStatic_row_cls]

/-- The present state neither clamps nor refuses a write of TMX_ROW. -/
theorem depClamp_row (s : State) (ix : List Nat) (w : Word) : s.depClamp 0x70100 ix w = w := rfl
theorem refuses_row (s : State) (off : Nat) (ix : List Nat) (old w : Word) : s.refuses off 0x70100 ix old w = false := rfl
theorem written_row (s : State) (r : Nat) (old v w : Word) : s.written 0x70100 [r] old v w = s.rowWritten r old w := rfl

/-- A row that keeps its class has its enable written. -/
theorem State.rowWritten_sameClass {s : State} {r : Nat} {old w : Word} (h : w.getLsbD 8 = (s.row r).cls) :
    s.rowWritten r old w = ((s.p TMX_ROW_en [r] (b2n old.msb)).rowEnable r w.msb).vFloor := by
  have keeps : ¬ (w.getLsbD 8 && !(old.getLsbD 8 || (s.row r).cls)) = true := by
    rw [h]; cases (s.row r).cls <;> simp
  rw [State.rowWritten, bits_top, if_neg keeps]

/-- A host's write of a row in an unlocked Sluice, with the class in force, stores the word and then writes the enable. -/
theorem hostWrite_tmxRow {s : State} {r : Fin 64} {v : Word} (hlock : s.on BLK_CTRL_lock [TMX] = false)
    (hc : v.getLsbD 8 = (s.row r).cls) (p : Nat) (l : List (Nat × Nat)) :
    s.hostWrite p (0x70100 + 4 * r.val) v l = ((s.rowStored r v).rowEnable r v.msb).vFloor := by
  have blk : (0x70100 + 4 * r.val) / 0x10000 = TMX := by show _ = 7; omega
  have unlocked (old w : Word) : s.lockRefuses (0x70100 + 4 * r.val) rowFields old w = false := by
    rw [State.lockRefuses, blk, hlock, Bool.false_and]
  rw [hostWrite_plain (findReg_tmxRow r) (by decide),
    plainWrite_accepted (x := v) rfl (depClamp_row s [r.val] (clampStatic rowFields v)).symm (by rw [unlocked, refuses_row]; rfl),
    written_row, State.rowWritten_sameClass, clampStatic_row_msb]
  · rfl
  · rw [clampStatic_row_cls, hc]
    simp [State.row]

/-- A row counts as class S if it is one in force or is written as one. -/
theorem State.rowStored_rowIsS (s : State) (r : Nat) (v : Word) : (s.rowStored r v).rowIsS r = ((s.row r).cls || v.getLsbD 8) := by
  rw [State.rowIsS, State.rowStored_row, State.rowStored_cls]

/-- What the word and the enable b written into TMX_ROW[r] leave of the state. -/
theorem State.rowStored_enabled (s : State) (r : Nat) (v : Word) (b : Bool) :
    ((s.rowStored r v).p TMX_ROW_en [r] (b2n b)).tmx = s.tmx ∧
    ((s.rowStored r v).p TMX_ROW_en [r] (b2n b)).on TMX_ROW_en [r] = b ∧
    ∀ x, x ≠ 0x70100 + 4 * r → x ≠ 0x120 → x ≠ 0x124 → ((s.rowStored r v).p TMX_ROW_en [r] (b2n b)).rd x = s.rd x := by
  refine ⟨by simp, State.p_on _ _ _ rfl (by decide), fun x h hc hl => ?_⟩
  rw [State.p_rd, fldOff_rowEn, if_neg h.symm, State.rowStored_rd _ _ h hc hl]

/-! ### A host's write of TMX_COMMIT -/

theorem findReg_tmxCommit : findReg 0x70700 = some (⟨0x70700, [], .blk, [⟨5, 0, .wo, 0, .any⟩]⟩, []) := by decide

/-- A host's write of TMX_COMMIT stores nothing and commits the row it names. -/
theorem hostWrite_tmxCommit (s : State) (p : Nat) (v : Word) (l : List (Nat × Nat)) :
    s.hostWrite p 0x70700 v l = (s.wr 0x70700 (s.rd 0x70700)).commitRow (bits v 5 0) := by
  rw [hostWrite_plain findReg_tmxCommit (by decide), plainWrite_accepted (x := v) (w := v) rfl rfl]
  · rfl
  · rw [s.lockRefuses_false _ (by decide)]; rfl

/-- A register that is stored as it reads changes no read. -/
theorem State.wr_rd_self (s : State) (o a : Nat) : (s.wr o (s.rd o)).rd a = s.rd a := by
  rw [State.wr_rd]
  split
  · next h => rw [h]
  · rfl

@[simp] theorem State.wr_row (s : State) (o : Nat) (v : Word) (r : Nat) : (s.wr o v).row r = s.row r := by simp [State.row]

theorem State.wr_self_shadow (s : State) (o r : Nat) : (s.wr o (s.rd o)).shadow r = s.shadow r := by
  simp [State.shadow, State.wr_rd_self]

theorem State.wr_self_rowIsS (s : State) (o r : Nat) : (s.wr o (s.rd o)).rowIsS r = s.rowIsS r := by
  rw [State.rowIsS, State.rowIsS, State.wr_row, State.on, State.on, State.g, State.g, State.wr_rd_self]

/-- A commit takes the shadow of a class-N row as it stands (R274). -/
theorem State.commitRow_classN {s : State} {r : Nat} (h : s.rowIsS r = false) :
    s.commitRow r = s.putRow r { s.row r with commit := some (s.shadow r) } := by
  simp [State.commitRow, h]

/-- A commit clears from a class-S row what leads to a slot in HOST mode, counted as clamps (R276). -/
theorem State.commitRow_classS {s u : State} {r : Nat} (h : s.rowIsS r = true)
    (hu : u = s.putRow r { s.row r with commit := some (s.shadow r) }) :
    s.commitRow r = (u.clearHost r).1.clampReg 0x70700 (u.clearHost r).2 := by
  simp [State.commitRow, h, hu]

/-! ### TMX_ROWEN -/

theorem bitsOf_two_pow (r : Fin 64) : bitsOf 64 (2 ^ r.val) = [r.val] := by revert r; decide

/-- TMX_ROWEN of one row that it disables (R568). -/
theorem tmxRowen_disableOne {d : Desc} {r : Fin 64} (hm : d.addr.toNat = 2 ^ r.val) (ha : d.a.getLsbD r = false) (s : State) :
    tmxRowen d s = (((s.p TMX_ROW_en [r.val] 0).putRow r { s.row r with armed := false, deferred := false }).vFloor).complete
      d 0x0701 ST_DONE := by
  rw [tmxRowen, hm, bitsOf_two_pow]
  show ((s.rowEnable r (d.a.getLsbD r)).vFloor).complete d 0x0701 ST_DONE = _
  rw [ha, State.rowEnable_false]

/-! ### The obligation -/

/-- Settles O25: a host's write of a row goes by the cases of `rowEnable`, TMX_ROWEN does so for each row of its mask, and TMX_COMMIT
goes by the class of its row. -/
theorem rowEnables : Obligations.RowEnables := by
  intro s hr hlock
  refine ⟨fun r v hv h8 hcls hen => ?classN, fun r v hv h8 hcls hen hmeas => ?deferred, fun r v hv h8 => ?disabled,
    fun d r hm ha => ?rowenOne, fun d => ?rowen, ?commit⟩
  case classN =>
    obtain ⟨htmx, hon, hrd⟩ := s.rowStored_enabled r v true
    refine ⟨_, htmx, hon, hrd, ?_⟩
    rw [exec_tmxRowEn _ _ hr, hostWrite_tmxRow hlock (by rw [h8, hcls]), hv,
      State.rowEnable_classN (by rw [State.rowStored_rowIsS, hcls, h8]; rfl) (by rw [State.rowStored_en, hen]), State.rowStored_row]
    rfl
  case deferred =>
    obtain ⟨htmx, hon, hrd⟩ := s.rowStored_enabled r v true
    have meas : (s.rowStored r v).g PWR_VSTAT_meas = s.g PWR_VSTAT_meas := by
      have off : fldOff PWR_VSTAT_meas [] = 0x10108 := rfl
      rw [State.g, State.g, off, State.rowStored_rd _ _ (by omega) (by decide) (by decide)]
    refine ⟨_, htmx, hon, hrd, ?_⟩
    rw [exec_tmxRowEn _ _ hr, hostWrite_tmxRow hlock (by rw [h8, hcls]), hv,
      State.rowEnable_deferred (by rw [State.rowStored_rowIsS, hcls]; rfl) (by rw [State.rowStored_en, hen]) (by rw [meas]; exact hmeas),
      State.rowStored_row]
    rfl
  case disabled =>
    obtain ⟨htmx, hon, hrd⟩ := s.rowStored_enabled r v false
    refine ⟨_, htmx, hon, hrd, ?_⟩
    rw [exec_tmxRowEn _ _ hr, hostWrite_tmxRow hlock h8, hv, State.rowEnable_false, State.rowStored_row]
    rfl
  case rowenOne =>
    rw [exec_tmxRowen _ hr, tmxRowen_disableOne hm ha]
    rfl
  case rowen => exact exec_tmxRowen _ hr
  case commit =>
    rintro v r u rfl rfl
    have row := s.wr_row 0x70700 (s.rd 0x70700) (bits v 5 0)
    rw [exec_tmxCommit _ hr, hostWrite_tmxCommit]
    refine ⟨fun hN => ?_, fun hS => ?_⟩
    · rw [State.commitRow_classN (by rw [State.wr_self_rowIsS, hN]), row, State.wr_self_shadow]
    · rw [State.commitRow_classS (by rw [State.wr_self_rowIsS, hS]) rfl, row, State.wr_self_shadow]

end Sys2Proof.Machine
end

section
/-! Completions whose buffer the engine itself writes (R564): what a ring number above 127 makes of one. -/

namespace Sys2Proof.Machine

/-- A completion whose buffer has been written, and whose records have left the Cistern, goes to the CMPL ring that its command ring
names then. -/
theorem State.compMove_buffer_ready {s t : State} {c : Comp} {r : Nat} (hb : s.bufferOnly c = true) (hl : s.linkOk = true)
    (ht : t = (s.emit (.hostMem c.addr c.buf)).freeToks c.toks) (hd : c.d.tunnel = false) (htun : t.cmplTunnels c = false)
    (hq : c.quiet = false) (hr : t.cmplRing c = some r) (hw : (t.ring r).waiting = []) (hp : 0 < t.posted r) :
    s.compMove c = some (t.ready r c.rdesc c.toks) := by
  subst ht
  simp [State.compMove, hb, hl, hd, htun, hq, hr, hw, hp]

/-- The host link may be used, ring 1 is an enabled CMPL ring with posted slots, and the low-water mark stands above the buffers of
the shared pool. -/
def lowPool : State :=
  (((((State.reset.p HIF_LINK_up [] 1).p HIF_LINK_bme [] 1).p CIS_CFG_lowat [] 4096).p HIF_RING_2_en [1] 1).p
    HIF_RING_2_cls [1] CLS_CMPL).p HIF_RING_2_state [1] 1

/-- A completion, for a ring number 4086, that returns one byte in a buffer and delivers one record of the Cistern. -/
def strayComp : Comp := { compOf ⟨4086, false, 5, false, false, 0, 0, 0, 0, 0⟩ 0 ST_DONE with buf := [0], toks := [(0, 0)] }

/-- lowPool once the buffer is written and the record has left. -/
def lowPoolFreed : State := (lowPool.emit (.hostMem strayComp.addr strayComp.buf)).freeToks strayComp.toks

theorem lowPool_runs : lowPool.Runs := by simp [State.Runs, lowPool, State.reset, PwrSt.reset]

/-- The completion finds no CMPL ring at first: the cring of a ring 4086 lies in the count of the Cistern's flag low
(BLK_FLAGCNT[18][10]), which is 0, and ring 0 is disabled. -/
theorem lowPool_cmplRing : lowPool.linkOk = true ∧ lowPool.bufferOnly strayComp = true ∧ lowPool.cls 4086 ≠ CLS_TUN ∧
    lowPool.ringEn (lowPool.g HIF_RING_2_cring [4086]) = false := by decide +kernel

/-- The record that leaves has the flag low counted, and so the completion finds ring 1. -/
theorem lowPoolFreed_cmplRing : lowPoolFreed.cmplRing strayComp = some 1 ∧ lowPoolFreed.cmplTunnels strayComp = false ∧
    (lowPoolFreed.ring 1).waiting = [] ∧ 0 < lowPoolFreed.posted 1 := by decide +kernel

/-- A lost completion would count; none is lost in lowPoolFreed. -/
theorem lowPoolFreed_lost : lowPoolFreed.g HIF_CMPLLOST = 0 ∧
    ((lowPoolFreed.cnt HIF_CMPLLOST).flag HIF 11).g HIF_CMPLLOST = 1 := by decide +kernel

theorem State.ready_g (s : State) (r : Nat) (d : RDesc) (l : List CisTok) (f : Fld) (ix : List Nat) :
    (s.ready r d l).g f ix = s.g f ix := rfl

/-- Refutes O51: its clause on a completion that returns a buffer and finds no CMPL ring ranges over every number c.d.ring, and a
context that a number above 127 would have can lie on other registers. The record that strayComp delivers has the Cistern count its flag low in the
register that a ring 4086 would have; the completion found no ring before, and goes to ring 1 after that, where the clause has it lost. -/
theorem not_rings : ¬ Obligations.Rings := by
  intro h
  obtain ⟨hl, hb, hcls, hen⟩ := lowPool_cmplRing
  obtain ⟨hring, htun, hw, hp⟩ := lowPoolFreed_cmplRing
  obtain ⟨kept, counted⟩ := lowPoolFreed_lost
  obtain ⟨-, -, -, -, -, -, hmove, -⟩ := h lowPool lowPool_runs
  obtain ⟨-, -, claim⟩ := (hmove strayComp _ rfl hcls rfl rfl).1 (.inl hen)
  have lost : lowPool.compMove strayComp = some ((lowPoolFreed.cnt HIF_CMPLLOST).flag HIF 11) := claim (by decide) hl
  have delivered := State.compMove_buffer_ready hb hl rfl rfl htun rfl hring hw hp
  have same : (lowPoolFreed.cnt HIF_CMPLLOST).flag HIF 11 = lowPoolFreed.ready 1 strayComp.rdesc strayComp.toks :=
    Option.some.inj (lost.symm.trans delivered)
  rw [same, State.ready_g, kept] at counted
  exact absurd counted (by decide)

end Sys2Proof.Machine
end

section
/-! The tunnel and the loss of a device (R399, R591 to R595): what a tunnel packet does by its kind and the role of the device, what
CSC_WR and CSC_RD complete with, and when a member or the master is lost. -/

namespace Sys2Proof.Machine

/-! ### Tunnel packets -/

section
variable {h : PktHead} {s u : State}

/-- A packet that the device does not take in, or outside a formed stack, is received and no more. -/
theorem tunPacket_dropped {x : TunMsg} {ok : Bool} (hp : s.packetIn PK_TUN h (some (tunDest x)) (tunBody x) = (ok, u))
    (hd : ok = false ∨ u.formed = false) : tunPacket h x s = u := by
  have dropped : (!ok || !u.formed) = true := by simpa using hd
  rw [tunPacket, hp]
  exact if_pos dropped

/-- A command that arrives in a formed stack runs on a member, and on no other device (R592). -/
theorem tunPacket_command {m : Fin 8} {r : Fin 128} {rd : CmdRead}
    (hp : s.packetIn PK_TUN h (some (tunDest (.command m r rd))) (tunBody (.command m r rd)) = (true, u)) (hf : u.formed = true) :
    tunPacket h (.command m r rd) s = if u.isMember then u.run (cmdOp rd) (cmdDesc rd r.val true) rd.buf else u := by
  rw [tunPacket, hp]
  exact if_neg (by simp [hf])

section
variable {op tag st len addr a b rf : Nat} {buf : List Byte}

/-- A completion that arrives in a formed stack ends the open command of its sender and tag on the master (R592). -/
theorem tunPacket_completion_open {d : Desc}
    (hp : s.packetIn PK_TUN h (some (tunDest (.completion op tag st len addr a b rf buf)))
      (tunBody (.completion op tag st len addr a b rf buf)) = (true, u))
    (hf : u.formed = true) (hm : u.isMaster = true) (ho : u.tunOpen h.src.val tag = some d) :
    tunPacket h (.completion op tag st len addr a b rf buf) s
      = u.completeWith ⟨d, op, st, len, addr, a, b, rf, buf, [], false⟩ := by
  simp [tunPacket, hp, hf, hm, ho]

/-- A completion has no effect on a device that is not the master, and none where its command is not open. -/
theorem tunPacket_completion_ignored
    (hp : s.packetIn PK_TUN h (some (tunDest (.completion op tag st len addr a b rf buf)))
      (tunBody (.completion op tag st len addr a b rf buf)) = (true, u))
    (hf : u.formed = true) (hi : u.isMaster = false ∨ u.tunOpen h.src.val tag = none) :
    tunPacket h (.completion op tag st len addr a b rf buf) s = u := by
  rcases hi with hm | ho
  · simp [tunPacket, hp, hf, hm]
  · simp [tunPacket, hp, hf, ho]

end

end

/-! ### CSC_WR and CSC_RD -/

/-- CSC_WR writes its n entries in order, and completes with the number of those refused (R593). -/
theorem cscWr_eq {d : Desc} {buf : List Byte} {s t : State} {n k : Nat} (hn : n = clampN 1 64 (d.len.toNat / 8))
    (hw : tunWrites buf n 0 (s.clampDesc d 4 (b2n (decide (n * 8 ≠ d.len.toNat)))) = (k, t)) :
    cscWr d buf s = t.completeWith { compOf d 0x0F01 ST_DONE with len := n * 8, b := k } := by
  subst hn
  simp only [cscWr, Nat.mul_div_cancel _ (show 0 < 8 by decide), hw]

/-- CSC_RD reads its n offsets in order, and returns the values to a tunnelled command (R593). -/
theorem cscRd_eq {d : Desc} {buf l : List Byte} {s t : State} {n : Nat} (hn : n = clampN 1 64 (d.len.toNat / 4))
    (hrd : tunReads buf n 0 (s.clampDesc d 4 (b2n (decide (n * 4 ≠ d.len.toNat)))) = (l, t)) :
    cscRd d buf s = t.completeWith { compOf d 0x0F02 ST_DONE with len := 4 * n, buf := if d.tunnel then l else [] } := by
  subst hn
  simp only [cscRd, hrd]

/-! ### The loss of a member and of the master -/

/-- What the loss of member m leads to: it is present and aligned no more, its flag, count and event tell it, its forward source falls
and its part in a launch ends (R399, R594). -/
def State.memberGone (s : State) (m : Nat) : State :=
  let u := (s.p CSC_STAT_present [] (putBit (s.g CSC_STAT_present) m false)).putAligned m false
  ((((u.flag CSC 10).cnt CSC_MEM_3_lost [m]).cscEvt 3 m (u.memSerial m)).setLevel (205 + m) false).launchLost m

/-- The master loses a present member that it has not heard for 1 ms (R594). -/
theorem memberLost_due {m : Nat} {s : State} (hm : s.isMaster = true) (hl : s.linksRun = true) (h0 : m ≠ 0)
    (hp : bitAt (s.g CSC_STAT_present) m = true) (ht : oneMs ≤ s.since (nth s.csc.heard m 0)) :
    memberLost m s = s.memberGone m :=
  if_pos (by simp [hm, hl, h0, hp, ht])

theorem memberLost_none {m : Nat} {s : State} (h : s.isMaster = false ∨ s.linksRun = false ∨ m = 0 ∨
    bitAt (s.g CSC_STAT_present) m = false ∨ s.since (nth s.csc.heard m 0) < oneMs) : memberLost m s = s :=
  if_neg (by rcases h with h | h | h | h | h <;> simp [h])

/-- A member that has received neither SYNC nor GRID for 1 ms is DETACHED (R595). -/
theorem detach_due {s : State} (hl : s.linksRun = true) (hm : s.isMember = true) (hs : s.cscState ≠ CS_DETACHED)
    (ht : oneMs ≤ s.since (max s.csc.syncCyc s.csc.gridCyc)) :
    detach s = (s.withoutMaster.p CSC_STAT_state [] CS_DETACHED).flag CSC 12 :=
  if_pos (by simp [hl, hm, hs, ht])

theorem detach_none {s : State} (h : s.linksRun = false ∨ s.isMember = false ∨ s.cscState = CS_DETACHED ∨
    s.since (max s.csc.syncCyc s.csc.gridCyc) < oneMs) : detach s = s :=
  if_neg (by rcases h with h | h | h | h <;> simp [h])

/-! ### The obligation -/

/-- Settles O55: a tunnel packet goes by its kind and the role of the device, CSC_WR and CSC_RD by their clamped number of entries, and a
loss by its 1 ms. -/
theorem tunnelAndLoss : Obligations.TunnelAndLoss := by
  intro s hr
  refine ⟨fun h x ok u hp => ?tunnel, ?write, ?read, ?member, fun hl hm hs ht => ?detach, fun hn => ?stays⟩
  case tunnel =>
    rw [exec_tunPacket _ _ hr]
    refine ⟨fun hd => ?dropped, ?taken⟩
    case dropped => rw [tunPacket_dropped hp.symm hd]
    case taken =>
      rintro rfl hf
      refine ⟨?command, ?completion⟩
      case command =>
        rintro m r rd rfl
        rw [tunPacket_command hp.symm hf]
        exact ⟨fun hm => by rw [if_pos hm], fun hm => by rw [if_neg (Bool.eq_false_iff.mp hm)]⟩
      case completion =>
        rintro op tag st len addr a b rf buf rfl
        exact ⟨fun d hm ho => by rw [tunPacket_completion_open hp.symm hf hm ho],
          fun hi => by rw [tunPacket_completion_ignored hp.symm hf hi]⟩
  case write =>
    rintro d buf n u k t hn rfl hw
    rw [exec_cscWr _ _ hr, cscWr_eq hn hw]
  case read =>
    rintro d buf n u l t hn rfl hrd
    rw [exec_cscRd _ _ hr, cscRd_eq hn hrd]
  case member =>
    rintro m u v rfl rfl
    refine ⟨fun hm hl h0 hp ht => ?_, fun hn => ?_⟩
    · rw [exec_memberLost _ hr, memberLost_due hm hl h0 hp ht]
      rfl
    · rw [exec_memberLost _ hr, memberLost_none hn]
  case detach => rw [exec_detach hr, detach_due hl hm hs ht]
  case stays => rw [exec_detach hr, detach_none hn]

end Sys2Proof.Machine
end

section
/-! The security engine (R608 to R611, R616 to R618, R621): when a signing command is refused and what one that is accepted waits with,
when its report goes out, what SEC_CERT returns, and the two steps of an enrolment. -/

namespace Sys2Proof.Machine

/-! ### Signing -/

/-- What a signing command that is accepted waits with: its nonce, its digest and the report as of its acceptance (R617, R618). -/
def State.newSigning (s : State) (d : Desc) (kind : Nat) (buf : List Byte) : Signing :=
  let nonce := (padTo 96 buf).take 32
  let dig := (padTo 96 buf).drop 32
  ⟨d, kind, nonce, dig, s.report kind nonce dig, false⟩

section
variable {d : Desc} {op kind : Nat} {buf : List Byte} {s : State}

/-- Nothing is signed in DAWN and NIGHT, or without a good key (R603). -/
theorem State.secReport_notNow (h : s.inSt [DAWN, NIGHT] = true ∨ s.sec.keyBad = true) :
    s.secReport d op kind buf = s.complete d op ST_NOT_NOW :=
  if_pos (by simpa using h)

/-- Where signing is allowed, a free engine takes the command if SEC has room for its report (R621). -/
theorem State.secReport_allowed (hst : s.inSt [DAWN, NIGHT] = false) (hkey : s.sec.keyBad = false) :
    s.secReport d op kind buf =
      if s.sec.sign.isSome then s.complete d op ST_BUSY
      else match s.reserve 13 0 (reportLen kind) with
        | none => (s.noBuf 13).complete d op ST_NO_BUFFER
        | some u => (u.clampDesc d 4 (b2n (decide (d.len.toNat < reportLen kind)))).onSec fun x => { x with
            sign := some (s.newSigning d kind buf) } :=
  if_neg (by simp [hst, hkey])

theorem State.secReport_busy (hst : s.inSt [DAWN, NIGHT] = false) (hkey : s.sec.keyBad = false) (hs : s.sec.sign ≠ none) :
    s.secReport d op kind buf = s.complete d op ST_BUSY := by
  rw [State.secReport_allowed hst hkey, if_pos (Option.isSome_iff_ne_none.mpr hs)]

theorem State.secReport_noBuffer (hst : s.inSt [DAWN, NIGHT] = false) (hkey : s.sec.keyBad = false) (hs : s.sec.sign = none)
    (hres : s.reserve 13 0 (reportLen kind) = none) :
    s.secReport d op kind buf = (s.noBuf 13).complete d op ST_NO_BUFFER := by
  simp [State.secReport_allowed hst hkey, hs, hres]

/-- A free engine with room for the report accepts the command, and clamps a length that is too short (R617). -/
theorem State.secReport_waits {u : State} (hst : s.inSt [DAWN, NIGHT] = false) (hkey : s.sec.keyBad = false)
    (hs : s.sec.sign = none) (hres : s.reserve 13 0 (reportLen kind) = some u) :
    s.secReport d op kind buf = (u.clampDesc d 4 (b2n (decide (d.len.toNat < reportLen kind)))).onSec fun x => { x with
      sign := some (s.newSigning d kind buf) } := by
  simp [State.secReport_allowed hst hkey, hs, hres]

end

/-- The report before its signature followed by the signature that draw k gives: length, padding and 1280 bytes (R606, R619). -/
def signedReport (k kind : Nat) (rep : List Byte) : List Byte :=
  rep ++ leBytes 2 1280 ++ List.replicate 6 0
    ++ (Config.falconSign k (tagBytes (if kind = 0 then "FRTATST1" else "FRTHOST1") ++ digest rep)).toList

/-- A report whose frame has been taken, or that no frame will change, is signed, stored and returned (R618). -/
theorem signingComplete_due {d : Desc} {kind seq : Nat} {nonce dig rep : List Byte} {fr : Bool} {s : State}
    (hs : s.sec.sign = some ⟨d, kind, nonce, dig, (rep, seq), fr⟩) (hdue : fr = true ∨ s.afe.run = false) :
    signingComplete s =
      (((({ s with free := s.free + 1 } : State).onSec fun y => { y with sign := none }).cnt SEC_OPS_sign).storeLast 13 0 0
        (signedReport s.free kind rep)).completeWith
          (({ compOf d (if kind = 0 then OP_ATTEST else OP_SIGN) ST_DONE with
            len := reportLen kind, buf := signedReport s.free kind rep, toks := [(13, 0)] } : Comp).seq seq) := by
  have due : ¬ (!fr && s.afe.run) = true := by rcases hdue with h | h <;> simp [h]
  rw [signingComplete, hs]
  exact if_neg due

/-- Without a signing command, and while the report waits for its frame, nothing is signed. -/
theorem signingComplete_idle {s : State}
    (h : s.sec.sign = none ∨ ((∃ x, s.sec.sign = some x ∧ x.framed = false) ∧ s.afe.run = true)) : signingComplete s = s := by
  obtain hs | ⟨⟨x, hs, hx⟩, hrun⟩ := h
  · rw [signingComplete, hs]
  · rw [signingComplete, hs]
    exact if_pos (by simp [hx, hrun])

/-! ### SEC_CERT -/

section
variable {d : Desc} {s : State}

theorem secCert_notNow (h : s.inSt [DAWN, NIGHT] = true) : secCert d s = s.complete d OP_CERT ST_NOT_NOW := if_pos h

/-- A certificate that SEC has no buffer for is refused (log 13). -/
theorem secCert_noBuffer (h : s.inSt [DAWN, NIGHT] = false) (hq : s.queue 13 1 s.sec.cert = none) :
    secCert d s = (s.noBuf 13).complete d OP_CERT ST_NO_BUFFER := by
  simp [secCert, h, hq]

theorem secCert_done {u : State} (h : s.inSt [DAWN, NIGHT] = false) (hq : s.queue 13 1 s.sec.cert = some u) :
    secCert d s = (u.clampDesc d 4 (b2n (decide (d.len.toNat < 3136)))).completeWith
      { compOf d OP_CERT ST_DONE with len := 3136, buf := s.sec.cert, toks := [(13, 1)] } := by
  simp [secCert, h, hq]

end

/-! ### Enrolment -/

/-- Whether the device takes no enrolment: outside MORNING, with all four generations used, or while an image loads (R610). -/
def State.enrolClosed (s : State) : Prop := s.dev ≠ MORNING ∨ 4 ≤ s.sec.gens.length ∨ ∃ c ∈ s.bcp, c.loading ≠ []

/-- The next generation holds the key and the flags of the buffer, and its commit marker is still to be written (R610). -/
def State.programGen (s : State) (d : Desc) (b : List Byte) : State :=
  s.onSec fun x => { x with
    gens := x.gens ++ [⟨b.take 1793, bitAt (leAt b 1793 1) 0, false⟩]
    enroll := some d }

section
variable {d : Desc} {buf : List Byte} {s : State}

theorem State.not_enrolClosed (hm : s.dev = MORNING) (hg : s.sec.gens.length < 4) (hl : ∀ c ∈ s.bcp, c.loading = []) :
    ¬ s.enrolClosed := by
  rintro (h | h | ⟨c, hc, h⟩)
  · exact h hm
  · omega
  · exact h (hl c hc)

/-- The test that SEC_ENROLL makes first. -/
theorem State.enrolClosed_iff :
    (s.dev ≠ MORNING || 4 ≤ s.sec.gens.length || s.bcp.any (fun c => !c.loading.isEmpty)) = true ↔ s.enrolClosed := by
  simp [State.enrolClosed, or_assoc]

theorem secEnroll_notNow (h : s.enrolClosed) : secEnroll d buf s = s.complete d OP_ENROLL ST_NOT_NOW :=
  if_pos (State.enrolClosed_iff.mpr h)

/-- While one enrolment commits, the next is BUSY (log 80). -/
theorem secEnroll_busy (h : ¬ s.enrolClosed) (he : s.sec.enroll ≠ none) : secEnroll d buf s = s.complete d OP_ENROLL ST_BUSY :=
  (if_neg (mt State.enrolClosed_iff.mp h)).trans (if_pos (Option.isSome_iff_ne_none.mpr he))

/-- The first owner needs no signature of an owner before it (R610). -/
theorem secEnroll_unowned (h : ¬ s.enrolClosed) (he : s.sec.enroll = none) (h0 : s.ownerGen = 0) :
    secEnroll d buf s = (s.clampDesc d 4 (b2n (decide (d.len.toNat ≠ 3088)))).programGen d (padTo 3088 buf) := by
  rw [secEnroll, if_neg (mt State.enrolClosed_iff.mp h)]
  simp [he, h0, State.programGen]

/-- A later owner passes by the signature of the owner in force, and fails without it (R610). -/
theorem secEnroll_owned {u : State} {b : List Byte} (h : ¬ s.enrolClosed) (he : s.sec.enroll = none) (h0 : s.ownerGen ≠ 0)
    (hb : b = padTo 3088 buf) (hu : u = (s.clampDesc d 4 (b2n (decide (d.len.toNat ≠ 3088)))).cnt SEC_OPS_verify) :
    secEnroll d buf s =
      if signatureOk s.owner.key "FRTOWNR1" (enrolDigest s.ownerGen b) (leAt b 1800 2) (b.drop 1808) = true
      then u.programGen d b else u.complete d OP_ENROLL ST_AUTH_FAIL := by
  subst hb hu
  rw [secEnroll, if_neg (mt State.enrolClosed_iff.mp h)]
  simp [he, h0, State.programGen]

end

/-- A change of the entry whose index is the last one leaves the entries before it. -/
theorem map_zipIdx_concat_last {α : Type} (f : α → α) (l : List α) (x : α) :
    (l ++ [x]).zipIdx.map (fun y => if y.2 + 1 = (l ++ [x]).length then f y.1 else y.1) = l ++ [f x] := by
  apply List.ext_getElem
  · simp
  · intro i hi _
    obtain hlt | rfl : i < l.length ∨ i = l.length := by simp at hi; omega
    · simp [hlt, show i ≠ l.length by omega]
    · simp

theorem enrollCommit_none {s : State} (h : s.sec.enroll = none) : enrollCommit s = s := by
  rw [enrollCommit, h]

/-- The commit marker of the last generation is written, which tells the owner and completes the enrolment (R610, R624). -/
theorem enrollCommit_done {d : Desc} {s : State} {l : List OwnerGen} {x : OwnerGen} (he : s.sec.enroll = some d)
    (hg : s.sec.gens = l ++ [x]) :
    enrollCommit s = ((s.onSec fun y => { y with enroll := none, gens := l ++ [{ x with committed := true }] }).flag SEC 11).complete
      d OP_ENROLL ST_DONE := by
  have last := map_zipIdx_concat_last (fun g : OwnerGen => { g with committed := true }) l x
  rw [enrollCommit, he]
  simp only [State.onSec, hg, last]

/-! ### The obligation -/

/-- Settles O56: SEC_ATTEST and SEC_SIGN go by `secReport`, SIGNING_COMPLETE by whether the frame of its report has been taken, SEC_CERT by
the room in SEC, and an enrolment by `enrolClosed` and the owner in force. A command that is taken changes the list of open commands alone,
so what a clause supposes of `s` holds of `s.open_ d` as it stands. -/
theorem securityEngine : Obligations.SecurityEngine := by
  intro s hr
  refine ⟨fun d buf => ⟨exec_secAttest d buf hr, exec_secSign d buf hr⟩, fun d buf op kind run hrun => ?sign, ?signed,
    fun h => ?unsigned, fun d hst => ?certNotNow, fun d hst => ⟨fun hq => ?certNoBuffer, fun u hq => ?certDone⟩,
    fun d buf h => ?enrolNotNow, fun d buf hm hg hl he => ?enrolBusy, ?enrol, fun he => ?noCommit, fun d l x he hg => ?commit⟩
  case sign =>
    have hexec : exec run s = .next (settle ((s.open_ d).secReport d op kind buf)) := by
      obtain ⟨rfl, rfl, rfl⟩ | ⟨rfl, rfl, rfl⟩ := hrun
      · exact exec_secAttest d buf hr
      · exact exec_secSign d buf hr
    rw [hexec]
    refine ⟨fun h => ?_, fun hst hkey => ⟨fun hs => ?_, fun hs hres => ?_, ?_⟩⟩
    · rw [State.secReport_notNow (s := s.open_ d) h]
    · rw [State.secReport_busy (s := s.open_ d) hst hkey hs]
    · rw [State.secReport_noBuffer (s := s.open_ d) hst hkey hs hres]
    · rintro u v n b hs rfl rfl hres rfl
      rw [State.secReport_waits (s := s.open_ d) hst hkey hs hres]
      rfl
  case signed =>
    rintro d kind nonce dig rep seq fr sig full u hs hdue rfl rfl rfl
    rw [exec_signingComplete hr, signingComplete_due hs hdue]
    rfl
  case unsigned => rw [exec_signingComplete hr, signingComplete_idle h]
  case certNotNow => rw [exec_secCert _ hr, secCert_notNow (s := s.open_ d) hst]
  case certNoBuffer => rw [exec_secCert _ hr, secCert_noBuffer (s := s.open_ d) hst hq]
  case certDone =>
    rw [exec_secCert _ hr, secCert_done (s := s.open_ d) hst hq]
    rfl
  case enrolNotNow => rw [exec_secEnroll _ _ hr, secEnroll_notNow (s := s.open_ d) h]
  case enrolBusy => rw [exec_secEnroll _ _ hr, secEnroll_busy (s := s.open_ d) (State.not_enrolClosed hm hg hl) he]
  case enrol =>
    rintro d buf g b v hm hg hl he rfl rfl rfl
    have accepts : ¬ (s.open_ d).enrolClosed := State.not_enrolClosed hm hg hl
    rw [exec_secEnroll _ _ hr]
    refine ⟨?_, fun h0 => ?_⟩
    · rintro ok u rfl rfl h0
      rw [secEnroll_owned accepts he h0 rfl rfl]
      rfl
    · rw [secEnroll_unowned accepts he h0]
      rfl
  case noCommit => rw [exec_enrollCommit hr, enrollCommit_none he]
  case commit =>
    rw [exec_enrollCommit hr, enrollCommit_done he hg]
    rfl

end Sys2Proof.Machine
end

section
/-! The test access port (R655 to R658): the fields of the identification register, which instruction register a load leaves by the enable
of boundary scan, and what an instruction that selects the boundary register leaves in it. -/

namespace Sys2Proof.Machine

/-! ### The identification register

The three lemmas speak of any digit d, for Config.revDigit has no value that a proof can compute with. -/

section
variable {w : Word} {d : Nat}

/-- A digit of 4 bits above the three constants of R656 gives a sum of 32 bits. -/
theorem toNat_of_idSum (hd : d < 16) (hw : w = BitVec.ofNat 32 (d * 2 ^ 28 + 0x4832 * 2 ^ 12 + 0x2D3 * 2 + 1)) :
    w.toNat = d * 2 ^ 28 + 0x4832 * 2 ^ 12 + 0x2D3 * 2 + 1 := by
  rw [hw, BitVec.toNat_ofNat]
  omega

/-- No field of such a word runs into the next. -/
theorem bits_of_idSum (hd : d < 16) (hw : w = BitVec.ofNat 32 (d * 2 ^ 28 + 0x4832 * 2 ^ 12 + 0x2D3 * 2 + 1)) :
    bits w 31 28 = d % 16 ∧ bits w 27 12 = 0x4832 ∧ bits w 11 1 = 0x2D3 ∧ bits w 0 0 = 1 := by
  simp only [bits, toNat_of_idSum hd hw]
  omega

/-- The word of revision digit 2. -/
theorem eq_of_idSum_two (hd : d = 2) (hw : w = BitVec.ofNat 32 (d * 2 ^ 28 + 0x4832 * 2 ^ 12 + 0x2D3 * 2 + 1)) :
    w = 0x248325A7 := by
  subst hd hw
  rfl

end

/-! ### Loading an instruction -/

/-- What the scans of a loaded instruction that selects the boundary register leave: its code, and free values of the cells (log 89). -/
def State.scanLoaded (s : State) (code : Nat) : State :=
  let u := s.p TST_JTAG_ir [] code
  { u with free := s.free + 1, pwr := { u.pwr with boundary := Config.scan s.free } }

section
variable {s : State} {code : Nat}

/-- An instruction loads as itself while bscan is 1, and in every state if it needs no bscan (R656). -/
theorem State.jtag_loads (h : s.on TST_JTAG_bscan = true ∨ code ∈ [0x01, 0x02, 0x1F]) :
    s.jtag code = s.p TST_JTAG_ir [] code := by
  have loads : (s.on TST_JTAG_bscan || [0x01, 0x02, 0x1F].contains code) = true := by simpa using h
  rw [State.jtag, if_pos loads]

/-- While bscan is 0, an instruction that needs it loads BYPASS (R656). -/
theorem State.jtag_bypassed (h : s.on TST_JTAG_bscan = false) (hc : code ∉ [0x01, 0x02, 0x1F]) :
    s.jtag code = s.p TST_JTAG_ir [] 0x1F := by
  have closed : ¬ (s.on TST_JTAG_bscan || [0x01, 0x02, 0x1F].contains code) = true := by simpa [h] using hc
  rw [State.jtag, if_neg closed]

/-- Of the instructions that select the boundary register, SAMPLE/PRELOAD alone scans while bscan is 0. -/
theorem State.scanned_loads (h : s.on TST_JTAG_bscan = true ∨ code = 0x02) : s.scanned code = s.scanLoaded code := by
  have loads : s.jtag code = s.p TST_JTAG_ir [] code := State.jtag_loads (h.imp_right (by rintro rfl; decide))
  have scans : (s.on TST_JTAG_bscan || decide (code = 0x02)) = true := by simpa using h
  rw [State.scanned, loads]
  exact if_pos scans

/-- While bscan is 0, the others leave the boundary register as it is and load BYPASS. -/
theorem State.scanned_bypassed (h : s.on TST_JTAG_bscan = false) (hc : code ∉ [0x01, 0x02, 0x1F]) :
    s.scanned code = s.p TST_JTAG_ir [] 0x1F := by
  have idle : ¬ (s.on TST_JTAG_bscan || decide (code = 0x02)) = true := by
    have other : code ≠ 0x02 := by
      rintro rfl
      exact hc (by decide)
    simp [h, other]
  rw [State.scanned, State.jtag_bypassed h hc]
  exact if_neg idle

/-- EXTEST that leaves the PCI Express lanes alone. -/
theorem extest_pins (h : s.on TST_JTAG_bscan = true) : extest false s = s.scanLoaded 0x00 := State.scanned_loads (.inl h)

/-- EXTEST of the lanes takes the host link down, which keeps d3 and bme and reads 0 elsewhere (R549, R658, log 162). -/
theorem extest_lanes (h : s.on TST_JTAG_bscan = true) :
    extest true s = (s.scanLoaded 0x00).p HIF_LINK [] (b2n (s.on HIF_LINK_d3) * 1024 + b2n (s.on HIF_LINK_bme) * 512) := by
  rw [extest, State.scanned_loads (.inl h)]
  exact if_pos h

theorem extest_bypassed (lanes : Bool) (h : s.on TST_JTAG_bscan = false) : extest lanes s = s.p TST_JTAG_ir [] 0x1F := by
  rw [extest, State.scanned_bypassed h (by decide)]
  exact if_neg (by simp [h])

/-- While bscan is 0, each instruction that needs it completes as BYPASS does. -/
theorem exec_tap_bypassed (hr : s.Runs) (h : s.on TST_JTAG_bscan = false) {c : Instr}
    (hc : c ∈ [Instr.fieldClamp, .highz, .extestPulse, .extestTrain, .extest false, .extest true]) :
    exec c s = .next (settle (s.p TST_JTAG_ir [] 0x1F)) := by
  simp only [List.mem_cons, List.not_mem_nil, or_false] at hc
  obtain rfl | rfl | rfl | rfl | rfl | rfl := hc
  · rw [exec_fieldClamp hr, fieldClamp, State.jtag_bypassed h (by decide)]
  · rw [exec_highz hr, highz, State.jtag_bypassed h (by decide)]
  · rw [exec_extestPulse hr, extestPulse, State.scanned_bypassed h (by decide)]
  · rw [exec_extestTrain hr, extestTrain, State.scanned_bypassed h (by decide)]
  · rw [exec_extest _ hr, extest_bypassed _ h]
  · rw [exec_extest _ hr, extest_bypassed _ h]

theorem exec_extestPulse_scans (hr : s.Runs) (h : s.on TST_JTAG_bscan = true) :
    exec .extestPulse s = .next (settle (s.scanLoaded 0x06)) := by
  rw [exec_extestPulse hr, extestPulse, State.scanned_loads (.inl h)]

theorem exec_extestTrain_scans (hr : s.Runs) (h : s.on TST_JTAG_bscan = true) :
    exec .extestTrain s = .next (settle (s.scanLoaded 0x07)) := by
  rw [exec_extestTrain hr, extestTrain, State.scanned_loads (.inl h)]

/-- While bscan is 1, the three forms of EXTEST scan with their own codes. -/
theorem exec_extest_scans (hr : s.Runs) (h : s.on TST_JTAG_bscan = true) {c : Instr}
    (hc : (code, c) ∈ [(0x00, Instr.extest false), (0x06, .extestPulse), (0x07, .extestTrain)]) :
    exec c s = .next (settle (s.scanLoaded code)) := by
  simp only [List.mem_cons, Prod.mk.injEq, List.not_mem_nil, or_false] at hc
  obtain ⟨rfl, rfl⟩ | ⟨rfl, rfl⟩ | ⟨rfl, rfl⟩ := hc
  · rw [exec_extest _ hr, extest_pins h]
  · exact exec_extestPulse_scans hr h
  · exact exec_extestTrain_scans hr h

end

/-! ### The obligation -/

/-- Settles O60: the identification register has four fields that do not meet, and the enable of boundary scan alone decides whether an
instruction loads as itself or as BYPASS. -/
theorem testPort : Obligations.TestPort := by
  refine ⟨?idRegister, fun s hr => ⟨?bypass, ?sample, ?idcode, fun hb => ?enabled, fun hb c hc => exec_tap_bypassed hr hb hc⟩⟩
  case idRegister =>
    obtain ⟨digit, part, maker, one⟩ := bits_of_idSum Config.revDigit.isLt rfl
    exact ⟨digit, part, maker, one, fun hd => eq_of_idSum_two hd rfl⟩
  case bypass => rw [exec_bypass hr, bypass, State.jtag_loads (.inr (by decide))]
  case sample =>
    rintro u rfl
    rw [exec_samplePreload hr, samplePreload, State.scanned_loads (.inr rfl)]
    rfl
  case idcode =>
    rintro u rfl
    rw [exec_idcode hr, idcode, State.jtag_loads (.inr (by decide))]
    rfl
  case enabled =>
    refine ⟨?clamp, ?highz, ?pulse, ?train, ?scans, ?lanes⟩
    case clamp => rw [exec_fieldClamp hr, fieldClamp, State.jtag_loads (.inl hb)]
    case highz => rw [exec_highz hr, highz, State.jtag_loads (.inl hb)]
    case pulse =>
      rintro u rfl
      exact exec_extestPulse_scans hr hb
    case train =>
      rintro u rfl
      exact exec_extestTrain_scans hr hb
    case scans =>
      rintro k c hc u rfl
      exact exec_extest_scans hr hb hc
    case lanes =>
      rintro u rfl
      rw [exec_extest _ hr, extest_lanes hb]
      rfl

end Sys2Proof.Machine
end

section
/-! The block: what a step runs, what settling leaves unchanged (R482, R519, log 1, log 3, log 88), and the two relations between
registers and state that every step keeps (R279, R449, R450, R639). -/

open Sys2Proof Sys2Proof.Machine

namespace Sys2Proof.Machine

/-! ### Fields after a store -/

/-- A field is smaller than the power of two of its width. -/
theorem State.g_lt (s : State) (f : Fld) (ix : List Nat) : s.g f ix < 2 ^ (f.hi + 1 - f.lo) :=
  Nat.mod_lt _ (Nat.two_pow_pos _)

/-- A field of another register keeps its value. -/
theorem State.p_g_off (s : State) {f g : Fld} {ix jx : List Nat} (v : Nat) (h : fldOff f ix ≠ fldOff g jx) :
    (s.p f ix v).g g jx = s.g g jx := by
  rw [State.g, State.p_rd, if_neg h, State.g]

/-- A field reads what has been put into it, cut at its width. -/
theorem State.p_g_same (s : State) (f : Fld) (ix : List Nat) (v : Nat) (h1 : f.lo ≤ f.hi) (h2 : f.hi < 32) :
    (s.p f ix v).g f ix = v % 2 ^ (f.hi + 1 - f.lo) := by
  rw [State.g, State.p_rd, if_pos rfl, bits_setBits _ _ _ _ h1 h2]

/-- A change applied to each of a list keeps what each application to a member keeps. -/
theorem State.each_keeps_mem {α : Type} {P : State → Prop} (f : State → α → State) :
    (l : List α) → (∀ s, ∀ x ∈ l, P s → P (f s x)) → ∀ s, P s → P (s.each l f)
  | [], _, _, hs => hs
  | x :: l, h, s, hs => State.each_keeps_mem f l (fun s y hy => h s y (by simp [hy])) _ (h s x (by simp) hs)

/-! ### Numbers made of bits -/

/-- The sum of distinct powers of two below 2^n is below 2^n, and its bits are the members. -/
theorem maskSum_range (p : Nat → Bool) (n : Nat) :
    maskSum ((List.range n).filter p) < 2 ^ n ∧ ∀ i < n, bitAt (maskSum ((List.range n).filter p)) i = p i := by
  induction n with
  | zero => simp [maskSum]
  | succ n ih =>
    obtain ⟨hlt, hb⟩ := ih
    have hs : maskSum ((List.range (n + 1)).filter p) = 2 ^ n * (b2n (p n)) + maskSum ((List.range n).filter p) := by
      rw [List.range_succ, List.filter_append, maskSum, List.map_append, List.sum_append, ← maskSum, Nat.add_comm]
      cases h : p n <;> simp [b2n, h]
    rw [hs]
    refine ⟨?_, fun i hi => ?_⟩
    · have : b2n (p n) ≤ 1 := by cases p n <;> simp [b2n]
      have := Nat.mul_le_mul_left (2 ^ n) this
      rw [Nat.pow_succ]; omega
    · rw [bitAt, Nat.testBit_two_pow_mul_add _ hlt]
      by_cases h : i < n
      · rw [if_pos h]; exact hb i h
      · rw [if_neg h, show i = n by omega, Nat.sub_self]
        exact b2n_testBit_zero _

theorem maskSum_range_lt (p : Nat → Bool) (n : Nat) : maskSum ((List.range n).filter p) < 2 ^ n := (maskSum_range p n).1

theorem bitAt_maskSum (p : Nat → Bool) {n i : Nat} (h : i < n) : bitAt (maskSum ((List.range n).filter p)) i = p i :=
  (maskSum_range p n).2 i h

/-- The sum depends on the predicate below n only. -/
theorem maskSum_congr {p q : Nat → Bool} {n : Nat} (h : ∀ i < n, p i = q i) :
    maskSum ((List.range n).filter p) = maskSum ((List.range n).filter q) :=
  congrArg maskSum (List.filter_congr fun i hi => h i (List.mem_range.mp hi))

/-! ### What a step of settling may change -/

/-- From u a part of settling may lead to t: everything outside the registers that settling writes, the interrupt controller, the
rings, the block-code processors, the field outputs and the on-state checks is as it was; what leaves and what completes is added. -/
structure SettlesTo (u t : State) : Prop where
  mer : t.mer = u.mer := by rfl
  sa : t.sa = u.sa := by rfl
  cis : t.cis = u.cis := by rfl
  afe : t.afe = u.afe := by rfl
  dch : t.dch = u.dch := by rfl
  phe : t.phe = u.phe := by rfl
  sv : t.sv = u.sv := by rfl
  ele : t.ele = u.ele := by rfl
  view : t.view = u.view := by rfl
  rows : t.tmx.rows = u.tmx.rows := by rfl
  pubs : t.tmx.pubs = u.tmx.pubs := by rfl
  rcd : t.rcd = u.rcd := by rfl
  rio : t.rio = u.rio := by rfl
  sec : t.sec = u.sec := by rfl
  aux : t.aux = u.aux := by rfl
  net : t.net = u.net := by rfl
  tpc : t.tpc = u.tpc := by rfl
  csc : t.csc = u.csc := by rfl
  pwr : t.pwr = u.pwr := by rfl
  trim : t.trim = u.trim := by rfl
  free : t.free = u.free := by rfl
  pending : t.pending = u.pending := by rfl
  out : ∃ l, t.out = l ++ u.out := by exact ⟨[], rfl⟩
  comps : ∃ l, t.hif.comps = u.hif.comps ++ l := by exact ⟨[], (List.append_nil _).symm⟩
  regs : ∀ off, settleKeeps off → t.rd off = u.rd off := by intros; rfl

namespace SettlesTo

theorem refl (u : State) : SettlesTo u u := {}

theorem trans {u v t : State} (h : SettlesTo u v) (k : SettlesTo v t) : SettlesTo u t where
  mer := k.mer.trans h.mer
  sa := k.sa.trans h.sa
  cis := k.cis.trans h.cis
  afe := k.afe.trans h.afe
  dch := k.dch.trans h.dch
  phe := k.phe.trans h.phe
  sv := k.sv.trans h.sv
  ele := k.ele.trans h.ele
  view := k.view.trans h.view
  rows := k.rows.trans h.rows
  pubs := k.pubs.trans h.pubs
  rcd := k.rcd.trans h.rcd
  rio := k.rio.trans h.rio
  sec := k.sec.trans h.sec
  aux := k.aux.trans h.aux
  net := k.net.trans h.net
  tpc := k.tpc.trans h.tpc
  csc := k.csc.trans h.csc
  pwr := k.pwr.trans h.pwr
  trim := k.trim.trans h.trim
  free := k.free.trans h.free
  pending := k.pending.trans h.pending
  out := by
    obtain ⟨a, ha⟩ := h.out
    obtain ⟨b, hb⟩ := k.out
    exact ⟨b ++ a, by rw [hb, ha, List.append_assoc]⟩
  comps := by
    obtain ⟨a, ha⟩ := h.comps
    obtain ⟨b, hb⟩ := k.comps
    exact ⟨a ++ b, by rw [hb, ha, List.append_assoc]⟩
  regs off ho := (k.regs off ho).trans (h.regs off ho)

/-- A store into a register that settling may write. -/
theorem put (u : State) {f : Fld} {ix : List Nat} (v : Nat) (h : ¬ settleKeeps (fldOff f ix)) : SettlesTo u (u.p f ix v) where
  regs off ho := by
    rw [State.p_rd, if_neg]
    rintro rfl
    exact h ho

theorem each {α : Type} (f : State → α → State) (l : List α) (h : ∀ s, ∀ x ∈ l, SettlesTo s (f s x)) (u : State) :
    SettlesTo u (u.each l f) :=
  State.each_keeps_mem (P := SettlesTo u) f l (fun s x hx hs => hs.trans (h s x hx)) u (refl u)

/-! ### Dispatch -/

theorem msix (u : State) {vec : Nat} (h : vec < 64) : SettlesTo u (u.msix vec) := by
  unfold State.msix
  split
  · refine put u _ ?_
    simp only [fldOff, settleKeeps, List.zipWith_cons_cons, List.zipWith_nil_right, List.sum_cons, List.sum_nil]
    omega
  · split
    · exact { out := ⟨[_], rfl⟩ }
    · exact {}

theorem present (u : State) (n : Nat) : SettlesTo u (u.present n) := by
  simp only [State.present]
  split
  · exact msix u (u.g_lt ICU_SRC_vec [n])
  · split
    · split
      · exact {}
      · exact refl u
    · exact refl u

theorem icuTo (u : State) (n : Nat) (i : IcuSt) : SettlesTo u (u.icuTo n i) := by
  have hi : SettlesTo u { u with icu := i } := {}
  simp only [State.icuTo]
  split
  · exact hi.trans (present _ n)
  · exact hi

theorem take (u : State) (n party : Nat) : SettlesTo u (u.take n party) := icuTo u n _

theorem onCpu (u : State) (b : Nat) (f : BcpSt → BcpSt) : SettlesTo u (u.onCpu b f) := {}

theorem putGap (u : State) (cls idx : Nat) (b : Bool) : SettlesTo u (u.putGap cls idx b) := {}

theorem ready (u : State) (r : Nat) (d : RDesc) (l : List CisTok) : SettlesTo u (u.ready r d l) := {}

theorem deliver (u : State) (cls idx : Nat) (d : RDesc) (marks : Bool) : SettlesTo u (u.deliver cls idx d marks).2 := by
  unfold State.deliver
  split
  · split
    · exact putGap u _ _ _
    · exact refl u
  · split
    · exact (putGap u _ _ _).trans (ready _ _ _ _)
    · exact ready u _ _ _

theorem releaseAt (u : State) {b t : Nat} (hb : b < 4) (ht : t < 16) (src : Option Nat) (at_ : Time) (cyc : Nat) :
    SettlesTo u (u.releaseAt b t src at_ cyc) := by
  have hc : SettlesTo u (u.p BCP_TSTAT_0_consec [b, t] 0) := by
    refine put u _ ?_
    simp only [fldOff, settleKeeps, List.zipWith_cons_cons, List.zipWith_nil_right, List.sum_cons, List.sum_nil]
    omega
  simp only [State.releaseAt]
  split
  · exact (hc.trans (onCpu _ _ _)).trans (deliver _ _ _ _ _)
  · exact hc.trans (onCpu _ _ _)

theorem scanEntry (u : State) {b : Nat} (hb : b < 4) (i : Nat) : SettlesTo u (u.scanEntry b i) := by
  simp only [State.scanEntry]
  split
  · exact (take u _ _).trans (releaseAt _ hb (u.g_lt BCP_SCAN_task [b, i]) _ _ _)
  · exact refl u

theorem dispatchPoint (u : State) {b : Nat} (hb : b < 4) : SettlesTo u (u.dispatchPoint b) := by
  unfold State.dispatchPoint
  refine SettlesTo.trans ?_ (onCpu _ b _)
  split
  · exact each _ _ (fun s i _ => scanEntry s hb i) u
  · exact refl u

theorem dispatchAll (u : State) : SettlesTo u u.dispatchAll := by
  refine each _ _ (fun s b hb => ?_) u
  split
  · exact dispatchPoint s (List.mem_range.mp hb)
  · exact refl s

/-! ### The set point and the drive -/

theorem vUpdate (u : State) : SettlesTo u u.vUpdate :=
  (put u _ (by simp [fldOff, settleKeeps])).trans (put _ _ (by simp [fldOff, settleKeeps]))

end SettlesTo

/-- From u a part of driving the outputs may lead to t: of the registers, FIO_EXTST and FIO_WDSTAT alone change. -/
structure DrivesTo (u t : State) : Prop extends SettlesTo u t where
  keeps : ∀ off, off ≠ 0xC0494 → off ≠ 0xC04C4 → t.rd off = u.rd off := by intros; rfl

namespace DrivesTo

theorem refl (u : State) : DrivesTo u u := {}

theorem trans {u v t : State} (h : DrivesTo u v) (k : DrivesTo v t) : DrivesTo u t where
  toSettlesTo := h.toSettlesTo.trans k.toSettlesTo
  keeps off h1 h2 := (k.keeps off h1 h2).trans (h.keeps off h1 h2)

/-- A store into FIO_EXTST or FIO_WDSTAT. -/
theorem put (u : State) {f : Fld} {ix : List Nat} (v : Nat) (h : fldOff f ix = 0xC0494 ∨ fldOff f ix = 0xC04C4) :
    DrivesTo u (u.p f ix v) where
  toSettlesTo := SettlesTo.put u v (by rcases h with h | h <;> rw [h] <;> simp [settleKeeps])
  keeps off h1 h2 := by
    rw [State.p_rd, if_neg]
    rintro rfl
    exact h.elim h1 h2

theorem each {α : Type} (f : State → α → State) (l : List α) (h : ∀ s x, DrivesTo s (f s x)) (u : State) :
    DrivesTo u (u.each l f) :=
  State.each_keeps (P := DrivesTo u) f (fun s x hs => hs.trans (h s x)) l u (refl u)

/-- A completion without records of the Cistern. -/
theorem complete (u : State) (d : Desc) (op status : Nat) : DrivesTo u (u.complete d op status) := by
  unfold State.complete State.completeWith
  split
  · exact {}
  · exact { comps := ⟨[_], rfl⟩ }

theorem tpulseDone (u : State) (o : Nat) : DrivesTo u (u.tpulseDone o) := by
  have hf (f : FioSt) : DrivesTo u { u with fio := f } := {}
  exact (hf _).trans (each _ _ (fun s x => complete s _ _ _) _)

theorem pulseCut (u : State) (o : Nat) : DrivesTo u (u.pulseCut o) := by
  have hf (l : Nat) : DrivesTo u ((u.offNow l).putPulse l none) := {}
  have hl (l : Nat) : DrivesTo u (if (u.pulse l).isSome then ((u.offNow l).putPulse l none).tpulseDone l else u) := by
    split
    · exact (hf _).trans (tpulseDone _ _)
    · exact refl u
  exact hl _

theorem edgeOf (u : State) (o : Nat) (on : Bool) : DrivesTo u (u.edgeOf o on) := by
  cases on
  · exact {}
  · have he (v : Nat) : DrivesTo u (u.p FIO_EXTST_ovc_or_ext [] v) := put u v (.inl rfl)
    simp only [State.edgeOf, if_true]
    split
    · exact (he _).trans {}
    · exact he _

theorem sendWord (u : State) (w : Nat) : DrivesTo u (u.sendWord w) := by
  have hp (s : State) (f : FioSt) : DrivesTo s ({ s with fio := f }.p FIO_WDSTAT_silent [] 0) :=
    trans (v := { s with fio := f }) {} (put _ _ (.inr rfl))
  have hw (s : State) (e : Emit) : DrivesTo s (s.emit e) := { out := ⟨[e], rfl⟩ }
  exact ((each _ _ (fun s o => edgeOf s o _) u).trans (hp _ _)).trans (hw _ _)

end DrivesTo

/-! ### The drive -/

/-- The state in which the requests have become the command, before anything follows from it. -/
def State.commanded (s : State) : State :=
  let s1 := (s.p FIO_FLTST_tsd [] (maskSum ((List.range 16).filter s.tsdHolds))).p FIO_REQST_low [] s.ownerBits
  s1.p FIO_CMD [] (s.sluiceCmd * 65536 + s1.combinedOf s.sluiceCmd s.ownerBits)

/-- Driving stores the command, then what follows from it, then the state applied and the pins. -/
theorem State.driveOut_eq (s : State) : ∃ t n, DrivesTo s.commanded t ∧ s.driveOut = t.p FIO_OUTST [] (n * 65536 + t.applied) := by
  refine ⟨_, _, ?_, rfl⟩
  have hc (l : List Nat) : DrivesTo s.commanded (s.commanded.each l State.pulseCut) :=
    DrivesTo.each _ _ (fun s o => DrivesTo.pulseCut s o) _
  split
  · exact (hc _).trans (DrivesTo.sendWord _ _)
  · exact hc _

/-- A register outside FIO_FLTST, FIO_REQST, FIO_CMD, FIO_OUTST, FIO_EXTST and FIO_WDSTAT keeps its word. -/
theorem State.driveOut_rd (s : State) {off : Nat} (h : off ∉ [0xC0490, 0xC0484, 0xC0488, 0xC048C, 0xC0494, 0xC04C4]) :
    s.driveOut.rd off = s.rd off := by
  obtain ⟨t, n, ht, e⟩ := s.driveOut_eq
  simp only [List.mem_cons, List.not_mem_nil, or_false, not_or] at h
  obtain ⟨h1, h2, h3, h4, h5, h6⟩ := h
  rw [e, State.p_rd, if_neg (show fldOff FIO_OUTST [] ≠ off from Ne.symm h4), ht.keeps off h5 h6, State.commanded, State.p_rd,
      if_neg (show fldOff FIO_CMD [] ≠ off from Ne.symm h3),
    State.p_rd, if_neg (show fldOff FIO_REQST_low [] ≠ off from Ne.symm h2), State.p_rd,
    if_neg (show fldOff FIO_FLTST_tsd [] ≠ off from Ne.symm h1)]

theorem State.driveOut_rows (s : State) : s.driveOut.tmx.rows = s.tmx.rows := by
  obtain ⟨t, n, ht, e⟩ := s.driveOut_eq
  rw [e, State.p_tmx, ht.rows, State.commanded, State.p_tmx, State.p_tmx, State.p_tmx]

theorem SettlesTo.driveOut (u : State) : SettlesTo u u.driveOut := by
  obtain ⟨t, n, ht, e⟩ := u.driveOut_eq
  rw [e]
  have hc : SettlesTo u u.commanded :=
    ((put u _ (by simp [fldOff, settleKeeps])).trans (put _ _ (by simp [fldOff, settleKeeps]))).trans
      (put _ _ (by simp [fldOff, settleKeeps]))
  exact (hc.trans ht.toSettlesTo).trans (put _ _ (by simp [fldOff, settleKeeps]))

/-! ### What the command, the requests and the state applied depend on -/

theorem State.row_congr {s t : State} (h : t.tmx.rows = s.tmx.rows) (r : Nat) : t.row r = s.row r := by
  rw [State.row, h, State.row]

/-- The Sluice command depends on the rows and the device state. -/
theorem State.sluiceCmd_congr {s t : State} (hr : t.tmx.rows = s.tmx.rows) (hd : t.rd 0x110 = s.rd 0x110) :
    t.sluiceCmd = s.sluiceCmd := by
  have hg : t.dev = s.dev := congrArg (bits · 2 0) hd
  have hd (r : Nat) : t.rowDrives r = s.rowDrives r := by simp only [State.rowDrives, State.inSt, State.row_congr hr, hg]
  simp only [State.sluiceCmd, State.orRows, hd, State.row_congr hr]

/-- The Sluice command has 16 bits. -/
theorem State.sluiceCmd_lt (s : State) : s.sluiceCmd < 2 ^ 16 := by
  have h (l : List Nat) (a : Nat) (ha : a < 2 ^ 16) :
      l.foldl (fun a r => if s.rowDrives r then a ||| bits (s.row r).dst 15 0 else a) a < 2 ^ 16 := by
    induction l generalizing a with
    | nil => exact ha
    | cons r l ih =>
      refine ih _ ?_
      show (if s.rowDrives r then a ||| bits (s.row r).dst 15 0 else a) < 2 ^ 16
      split
      · exact Nat.or_lt_two_pow ha (Nat.mod_lt _ (by decide))
      · exact ha
  exact h _ 0 (by decide)

/-- The register of an output's configuration. -/
theorem fldOff_docfg (hi lo o : Nat) : fldOff ⟨0xC0400, [4], hi, lo⟩ [o] = 0xC0400 + 4 * o := by simp [fldOff]

theorem State.docfg_congr {s t : State} (h : ∀ o < 16, t.rd (0xC0400 + 4 * o) = s.rd (0xC0400 + 4 * o)) {o : Nat} (ho : o < 16)
    (hi lo : Nat) : t.g ⟨0xC0400, [4], hi, lo⟩ [o] = s.g ⟨0xC0400, [4], hi, lo⟩ [o] := by
  rw [State.g, fldOff_docfg, h o ho, State.g, fldOff_docfg]

theorem State.paired_congr {s t : State} (h : ∀ o < 16, t.rd (0xC0400 + 4 * o) = s.rd (0xC0400 + 4 * o)) {o : Nat} (ho : o < 16) :
    t.paired o = s.paired o := by
  rw [State.paired, State.on, State.docfg_congr h (show o / 2 * 2 < 16 by omega), State.paired, State.on]

/-- The combined command depends on the pairs and the scheduled requests, beside the Sluice command and the owner requests. -/
theorem State.combinedOf_congr {s t : State} (h : ∀ o < 16, t.rd (0xC0400 + 4 * o) = s.rd (0xC0400 + 4 * o))
    (hr : t.g FIO_REQST_high = s.g FIO_REQST_high) (sl ow : Nat) : t.combinedOf sl ow = s.combinedOf sl ow := by
  refine maskSum_congr fun o ho => ?_
  have hterm (k : Nat) (hk : k < 16) : t.term sl ow k = s.term sl ow k := by
    simp only [State.term, State.oddPair, hr, State.paired_congr h hk]
  rw [State.paired_congr h ho, hterm o ho, hterm (o / 2 * 2) (by omega), hterm (o / 2 * 2 + 1) (by omega)]

/-- Requests that have become the owner requests stay the owner requests. -/
theorem State.ownerBits_congr {s t : State} (h : ∀ o < 16, t.rd (0xC0400 + 4 * o) = s.rd (0xC0400 + 4 * o))
    (hp : t.g PTMR_STAT_pwm = s.g PTMR_STAT_pwm) (hr : t.g FIO_REQST_low = s.ownerBits) : t.ownerBits = s.ownerBits := by
  refine maskSum_congr fun o ho => ?_
  rw [hr, hp, State.docfg_congr h ho 31 29, State.docfg_congr h ho 28 26, State.ownerBits, bitAt_maskSum _ ho]
  split <;> rfl

/-- The state applied has 16 bits. -/
theorem State.applied_lt (s : State) : s.applied < 2 ^ 16 := by
  have hs : s.safeWord < 2 ^ 16 := maskSum_range_lt _ _
  unfold State.applied State.cmdWord
  split
  · split
    · exact hs
    · exact s.fio.word.isLt
  · exact maskSum_range_lt _ _

/-- The state applied does not depend on FIO_OUTST, which shows it. -/
theorem State.applied_outst (s : State) (v : Nat) : (s.p FIO_OUTST [] v).applied = s.applied := by
  have hg (f : Fld) (ix : List Nat) (h : fldOff f ix ≠ 0xC048C) : (s.p FIO_OUTST [] v).g f ix = s.g f ix :=
    s.p_g_off v (by simpa [fldOff] using Ne.symm h)
  have hon (f : Fld) (ix : List Nat) (h : fldOff f ix ≠ 0xC048C) : (s.p FIO_OUTST [] v).on f ix = s.on f ix := by
    rw [State.on, hg f ix h, State.on]
  have hd (o hi lo : Nat) (ho : o < 16) : fldOff ⟨0xC0400, [4], hi, lo⟩ [o] ≠ 0xC048C := by rw [fldOff_docfg]; omega
  have hpair (o : Nat) (ho : o < 16) : (s.p FIO_OUTST [] v).paired o = s.paired o := hon _ _ (hd _ _ _ (by omega))
  have hlead (o : Nat) (ho : o < 16) : (s.p FIO_OUTST [] v).lead o = s.lead o := by rw [State.lead, hpair o ho, State.lead]
  have hlt (o : Nat) (ho : o < 16) : s.lead o < 16 := by unfold State.lead; split <;> omega
  have hfault (o : Nat) (ho : o < 16) : (s.p FIO_OUTST [] v).faultOff o = s.faultOff o := by
    simp only [State.faultOff, State.mates, hpair o ho, hg FIO_FLTST_tsd [] (by decide), hg FIO_EXTST_ovc_or_ext [] (by decide),
      hg FIO_FLTST_ovc_or_ext [] (by decide)]
  have hsafe : (s.p FIO_OUTST [] v).safeWord = s.safeWord := by
    refine maskSum_congr fun o ho => ?_
    rw [hlead o ho, hg FIO_DOCFG_safe _ (hd _ _ _ (hlt o ho)), State.p_fio]
  have hdie : (s.p FIO_OUTST [] v).dieSafe = s.dieSafe := by
    rw [State.dieSafe, hon FIO_WDSTAT_silent [] (by decide), State.p_fio, State.dieSafe]
  simp only [State.applied, State.cmdWord, hdie, hsafe, State.p_fio]
  split
  · rfl
  · refine maskSum_congr fun o ho => ?_
    rw [hfault o ho, hlead o ho, State.pulse, State.p_fio, State.pulse]

/-! ### The two relations after settling -/

/-- The halves of a word that is stored whole. -/
theorem bits_halves (x : Word) {hi lo : Nat} (h1 : hi < 2 ^ 16) (h2 : lo < 2 ^ 16) :
    bits (setBits x 31 0 (hi * 65536 + lo)) 31 16 = hi ∧ bits (setBits x 31 0 (hi * 65536 + lo)) 15 0 = lo := by
  have hx := x.isLt
  constructor <;> rw [bits, setBits_toNat _ _ _ _ (by decide) (by decide)] <;> omega

/-- The lower half of a word that is stored whole. -/
theorem bits_low_half (x : Word) (hi : Nat) {lo : Nat} (h : lo < 2 ^ 16) : bits (setBits x 31 0 (hi * 65536 + lo)) 15 0 = lo := by
  have hx := x.isLt
  rw [bits, setBits_toNat _ _ _ _ (by decide) (by decide)]
  omega

/-- Driving the outputs leaves FIO_CMD showing the command and FIO_OUTST the state applied (R449, R450, R466). -/
theorem State.driveOut_shows (s : State) : s.driveOut.DriveShown := by
  have hd : ∀ o < 16, s.driveOut.rd (0xC0400 + 4 * o) = s.rd (0xC0400 + 4 * o) := fun o ho =>
    s.driveOut_rd (by simp only [List.mem_cons, List.not_mem_nil, or_false, not_or]; omega)
  have hsl : s.driveOut.sluiceCmd = s.sluiceCmd := State.sluiceCmd_congr s.driveOut_rows (s.driveOut_rd (by decide))
  have hpwm : s.driveOut.g PTMR_STAT_pwm = s.g PTMR_STAT_pwm := congrArg (bits · 7 0) (s.driveOut_rd (off := 0xB0280) (by decide))
  have hlt := s.sluiceCmd_lt
  have how : s.ownerBits < 2 ^ 16 := maskSum_range_lt _ _
  have hco (sl ow : Nat) : s.combinedOf sl ow < 2 ^ 16 := maskSum_range_lt _ _
  obtain ⟨t, n, ht, e⟩ := s.driveOut_eq
  have hcmd : t.rd 0xC0488 = s.commanded.rd 0xC0488 := ht.keeps _ (by decide) (by decide)
  have hreq : s.driveOut.rd 0xC0484 = setBits (s.rd 0xC0484) 15 0 s.ownerBits := by
    rw [e, State.p_rd, if_neg (by decide), ht.keeps _ (by decide) (by decide), State.commanded, State.p_rd, if_neg (by decide),
      State.p_rd, if_pos (by decide), State.p_rd, if_neg (by decide)]
  have hlow : s.driveOut.g FIO_REQST_low = s.ownerBits := by
    rw [State.g, show fldOff FIO_REQST_low [] = 0xC0484 from rfl, hreq, bits_setBits _ _ _ _ (by decide) (by decide)]
    exact Nat.mod_eq_of_lt how
  have hhigh : s.driveOut.g FIO_REQST_high = s.g FIO_REQST_high := by
    rw [State.g, show fldOff FIO_REQST_high [] = 0xC0484 from rfl, hreq,
      bits_setBits_other _ _ _ _ _ _ (by decide) (by decide) (by decide)]
    rfl
  have hc1 : ((s.p FIO_FLTST_tsd [] (maskSum ((List.range 16).filter s.tsdHolds))).p FIO_REQST_low [] s.ownerBits).combinedOf
      s.sluiceCmd s.ownerBits = s.combinedOf s.sluiceCmd s.ownerBits := by
    refine State.combinedOf_congr (fun o ho => ?_) ?_ _ _
    · rw [State.p_rd, if_neg (by simp [fldOff]; omega), State.p_rd, if_neg (by simp [fldOff]; omega)]
    · rw [State.p_g_other _ _ (by decide) (by decide) (.inr (by decide)), State.p_g_off _ _ (by decide)]
  have hword : s.driveOut.rd 0xC0488 =
      setBits (s.rd 0xC0488) 31 0 (s.sluiceCmd * 65536 + s.combinedOf s.sluiceCmd s.ownerBits) := by
    rw [e, State.p_rd, if_neg (by decide), hcmd, State.commanded, State.p_rd, if_pos (by decide), hc1, State.p_rd,
      if_neg (by decide), State.p_rd, if_neg (by decide)]
  have hcomb : s.driveOut.combined = s.combinedOf s.sluiceCmd s.ownerBits := by
    rw [State.combined, hsl, State.ownerBits_congr hd hpwm hlow, State.combinedOf_congr hd hhigh]
  have hx := hco s.sluiceCmd s.ownerBits
  refine ⟨?_, ?_, ?_⟩
  · rw [State.g, show fldOff FIO_CMD_high [] = 0xC0488 from rfl, hword, hsl]
    exact (bits_halves _ hlt hx).1
  · rw [State.g, show fldOff FIO_CMD_low [] = 0xC0488 from rfl, hword, hcomb]
    exact (bits_halves _ hlt hx).2
  · rw [e, State.applied_outst, State.g, show fldOff FIO_OUTST_low [] = fldOff FIO_OUTST [] from rfl, State.p_rd, if_pos rfl]
    exact bits_low_half _ _ t.applied_lt

theorem State.frames_shows {s : State} (h : s.DriveShown) : s.frames.DriveShown := h

theorem settle_shows (s : State) : (settle s).DriveShown := State.frames_shows (State.driveOut_shows _)

/-- Whether a class-S row is enabled depends on the rows and their registers. -/
theorem State.anyS_congr {s t : State} (hr : t.tmx.rows = s.tmx.rows)
    (h : ∀ r < 64, t.rd (0x70100 + 4 * r) = s.rd (0x70100 + 4 * r)) : t.anyS = s.anyS := by
  have hf (f : Fld) (hf : fldOff f = fldOff TMX_ROW_en) (r : Nat) (hlt : r < 64) : t.on f [r] = s.on f [r] := by
    rw [State.on, State.g, hf, fldOff_rowEn, h r hlt, State.on, State.g, hf, fldOff_rowEn]
  rw [Bool.eq_iff_iff]
  simp only [State.anyS, List.any_eq_true, List.mem_range]
  refine exists_congr fun r => and_congr_right fun hlt => ?_
  rw [hf _ rfl r hlt, State.rowIsS, State.row_congr hr, hf TMX_ROW_cls rfl r hlt, State.rowIsS]

theorem State.setPoint_floor {s : State} (h : s.anyS = true) : 720 ≤ s.setPoint := by
  rw [State.setPoint, if_pos (by simp [h])]
  exact Nat.le_max_right _ _

/-- Every set point fits PWR_VSTAT.setp. -/
theorem State.setPoint_lt (s : State) : s.setPoint < 2 ^ 10 := by
  have hb : s.basePoint < 2 ^ 10 := by
    have hd := s.g_lt PWR_VCFG_dusk []
    have hv := s.g_lt PWR_VCFG_vset []
    unfold State.basePoint
    simp only [] at hd hv
    repeat' split
    all_goals omega
  unfold State.setPoint
  split
  · omega
  · exact hb

theorem State.vUpdate_rows (s : State) : s.vUpdate.tmx.rows = s.tmx.rows := by rw [State.vUpdate, State.p_tmx, State.p_tmx]

/-- The set point has its floor once it has been renewed (R279, R639). -/
theorem State.vUpdate_floor (s : State) : s.vUpdate.VcoreFloor := by
  have hv := s.setPoint_lt
  have hsetp : s.vUpdate.g PWR_VSTAT_setp = s.setPoint := by
    rw [State.vUpdate, State.p_g_other _ _ (by decide) (by decide) (.inr (by decide)), State.p_g_same _ _ _ _ (by decide) (by decide)]
    exact Nat.mod_eq_of_lt hv
  have hmeas : s.vUpdate.g PWR_VSTAT_meas = s.g PWR_VSTAT_meas := by
    rw [State.vUpdate, State.p_g_other _ _ (by decide) (by decide) (.inr (by decide)),
      State.p_g_other _ _ (by decide) (by decide) (.inr (by decide))]
  have hok : s.vUpdate.on PWR_VSTAT_ok720 = (decide (720 ≤ s.setPoint) && decide (720 ≤ s.g PWR_VSTAT_meas)) := by
    rw [State.vUpdate, State.p_on _ _ _ rfl (by decide)]
  have hany : s.vUpdate.anyS = s.anyS := State.anyS_congr s.vUpdate_rows fun r hr => by
    rw [State.vUpdate, State.p_rd, if_neg (by simp [fldOff]; omega), State.p_rd, if_neg (by simp [fldOff]; omega)]
  refine ⟨fun h => ?_, fun h => ?_⟩
  · rw [hsetp]
    exact State.setPoint_floor (hany ▸ h)
  · rw [hok] at h
    simpa [hsetp, hmeas] using h

/-- Driving the outputs leaves rows and set point alone. -/
theorem State.driveOut_floor {s : State} (h : s.VcoreFloor) : s.driveOut.VcoreFloor := by
  have hv : s.driveOut.rd 0x10108 = s.rd 0x10108 := s.driveOut_rd (by decide)
  have hs (f : Fld) (hf : fldOff f [] = 0x10108) : s.driveOut.g f = s.g f := by rw [State.g, hf, hv, State.g, hf]
  have hany : s.driveOut.anyS = s.anyS := State.anyS_congr s.driveOut_rows fun r hr =>
    s.driveOut_rd (by simp only [List.mem_cons, List.not_mem_nil, or_false, not_or]; omega)
  rw [State.VcoreFloor, State.on, hany, hs _ rfl, hs PWR_VSTAT_ok720 rfl, hs PWR_VSTAT_meas rfl]
  exact h

theorem State.frames_floor {s : State} (h : s.VcoreFloor) : s.frames.VcoreFloor := h

theorem settle_floor (s : State) : (settle s).VcoreFloor := State.frames_floor (State.driveOut_floor (State.vUpdate_floor _))

/-- Every step changes nothing but the queue, or settles. -/
theorem step_settled {s t : State} (h : step s = .next t) : (∃ l, t = { s with pending := l }) ∨ ∃ v, t = settle v := by
  unfold step at h
  split at h
  · obtain rfl := Host.Outcome.next.inj h
    unfold idle
    split
    · exact .inl ⟨_, rfl⟩
    · exact .inr ⟨_, rfl⟩
  · next rest _ =>
    rcases exec_settled h with rfl | hv
    · exact .inl ⟨rest, rfl⟩
    · exact .inr hv

/-! ### Without supply -/

theorem done_holds {s : State} (t : State) (h : ¬ s.Runs) : done s t = .next s := by
  have hoff : s.pwr.off = true ∨ s.pwr.held = true := by
    cases ho : s.pwr.off with
    | true => exact .inl rfl
    | false => exact .inr ((Bool.not_eq_false _).mp fun hh => h ⟨ho, hh⟩)
  rw [done, if_pos (Bool.or_eq_true_iff.mpr hoff)]

/-! ### The obligations -/

/-- Settles O6: what settles shows the drive, and the queue has no part in the relation. -/
theorem driveShownKept : Obligations.DriveShownKept := by
  intro s t hs ht
  rcases step_settled ht with ⟨l, rfl⟩ | ⟨v, rfl⟩
  · exact hs
  · exact settle_shows v

/-- Settles O7: what settles has the floor, and the queue has no part in the relation. -/
theorem vcoreFloorKept : Obligations.VcoreFloorKept := by
  intro s t hs ht
  rcases step_settled ht with ⟨l, rfl⟩ | ⟨v, rfl⟩
  · exact hs
  · exact settle_floor v

/-- Before the frames leave, settling leads where `SettlesTo` allows, behind the drop-outs that are decided. -/
theorem settle_frames (s : State) : ∃ t, SettlesTo (if s.bcp.any (·.dispatch) then s.dropsFirst else s) t ∧ settle s = t.frames :=
  ⟨_, ((SettlesTo.dispatchAll _).trans (SettlesTo.vUpdate _)).trans (SettlesTo.driveOut _), rfl⟩

/-- Settles O1: the definition of a step. -/
theorem stepRunsFront : Obligations.StepRunsFront := by
  intro c rest s h
  rw [step, h]

/-- Settles O2: an idle step is `idle`, by whether the device runs. -/
theorem stepIdles : Obligations.StepIdles := by
  intro s h
  have hi : step s = done s ((s.runClock s.mer.stride).dawnOtp.teleDue) := by rw [step, h, idle, done]
  exact ⟨fun hr => hi.trans (done_runs _ hr), fun hr => hi.trans (done_holds _ hr)⟩

/-- Settles O3: `exec` is `done` of the effect, and settles the effect of the four that end OFF and the reset. -/
theorem everyCommandAnswers : Obligations.EveryCommandAnswers := by
  refine ⟨fun i s => ?_, fun i s hr => ?_, fun i s h => ?_⟩
  · cases i <;> exact ⟨_, rfl⟩
  · cases i
    case por | vsupFail | rstN | rstNRelease => rfl
    all_goals exact done_runs _ hr
  · rcases h with rfl | rfl | rfl | rfl <;> rfl

/-- Settles O4: without supply or in reset `done` changes nothing. -/
theorem unpoweredHolds : Obligations.UnpoweredHolds := by
  intro i s hs h1 h2 h3 h4
  cases i
  case por => exact absurd rfl h1
  case vsupFail => exact absurd rfl h2
  case rstN => exact absurd rfl h3
  case rstNRelease => exact absurd rfl h4
  all_goals exact done_holds _ hs

/-- Settles O8: both relations evaluate to true at the reset state. -/
theorem shownAtReset : Obligations.ShownAtReset := by
  refine ⟨?_, ?_, rfl, rfl⟩
  · unfold State.DriveShown
    decide +kernel
  · unfold State.VcoreFloor
    decide +kernel

end Sys2Proof.Machine

namespace Sys2Proof

/-- Settles O5: dispatch, the set point and the drive each lead to a state that `SettlesTo` allows; the frames leave last. -/
theorem settleKeeps : Obligations.SettleKeeps := by
  rintro s u rfl
  obtain ⟨t, h, e⟩ := settle_frames s
  rw [e]
  refine ⟨h.mer, h.sa, h.cis, h.afe, h.dch, h.phe, h.sv, h.ele, h.view, h.rows, h.pubs, h.rcd, h.rio, h.sec, h.aux, ?_, h.tpc, h.csc,
    h.pwr, h.trim, h.free, h.pending, ?_, h.comps, h.regs⟩
  · rw [← h.net, State.frames]
  · obtain ⟨l, hl⟩ := h.out
    exact ⟨l, by rw [List.append_assoc, ← hl, ← h.net, State.frames]⟩

end Sys2Proof
end

section
/-! What the notices leave of the fields of other registers, and writes that are refused or stored as they come. -/

open Sys2Proof Sys2Proof.Machine

namespace Sys2Proof.Machine

/-! ### Registers apart from the notices -/

/-- An offset outside the common header of its block (XXX_STS, its counters, XXX_NNLAST), the source counters and the
pending-bit array: no flag and no source changes the register there. -/
abbrev apart (a : Nat) : Prop :=
  0x100 ≤ a % 0x10000 ∧ ¬ (0x90800 ≤ a ∧ a < 0x90C00) ∧ ¬ (0x119000 ≤ a ∧ a < 0x119008)

theorem State.wr_g_off (s : State) {o : Nat} (v : Word) {f : Fld} {ix : List Nat} (h : o ≠ fldOff f ix) :
    (s.wr o v).g f ix = s.g f ix := by
  rw [State.g, State.wr_rd, if_neg h, State.g]

theorem State.msix_rd_apart (s : State) {vec a : Nat} (hv : vec < 64) (h : apart a) : (s.msix vec).rd a = s.rd a := by
  refine State.msix_rd _ _ _ ?_
  simp only [fldOff, List.zipWith_cons_cons, List.zipWith_nil_right, List.sum_cons, List.sum_nil]
  omega

theorem State.present_rd_apart (s : State) (n : Nat) {a : Nat} (h : apart a) : (s.present n).rd a = s.rd a := by
  simp only [State.present]
  split
  · exact s.msix_rd_apart (s.g_lt ICU_SRC_vec [n]) h
  · split
    · split <;> rfl
    · rfl

theorem State.icuTo_rd_apart (s : State) (n : Nat) (i : IcuSt) {a : Nat} (h : apart a) : (s.icuTo n i).rd a = s.rd a := by
  simp only [State.icuTo]
  split
  · exact State.present_rd_apart _ _ h
  · rfl

theorem State.raise_rd_apart (s : State) {n a : Nat} (hn : n < 256) (h : apart a) : (s.raise n).rd a = s.rd a := by
  simp only [State.raise]
  rw [State.icuTo_rd_apart _ _ _ h, State.cnt_rd, if_neg]
  simp only [fldOff, List.zipWith_cons_cons, List.zipWith_nil_right, List.sum_cons, List.sum_nil]
  omega

theorem State.sts_rd_apart (s : State) (blk : Nat) {bit a : Nat} (hb : bit < 48) (h : apart a) : (s.sts blk bit).rd a = s.rd a := by
  refine State.sts_rd _ _ _ _ ?_ ?_ <;>
  · simp only [fldOff, List.zipWith_cons_cons, List.zipWith_nil_right, List.sum_cons, List.sum_nil]
    omega

/-- Every source that a flag raises is one of the 256. -/
theorem flagSource_lt {blk bit n : Nat} (hb : bit < 48) (h : flagSource blk bit = some n) : n < 256 := by
  unfold flagSource at h
  split at h
  · cases h
  · repeat' split at h
    all_goals cases h <;> omega

theorem State.flag_rd_apart (s : State) (blk : Nat) {bit a : Nat} (hb : bit < 48) (h : apart a) : (s.flag blk bit).rd a = s.rd a := by
  unfold State.flag
  split
  · next n hn => rw [State.raise_rd_apart _ (flagSource_lt hb hn) h, State.sts_rd_apart _ _ hb h]
  · exact State.sts_rd_apart _ _ hb h

theorem State.flag_g (s : State) (blk : Nat) {bit : Nat} {f : Fld} {ix : List Nat} (hb : bit < 48) (h : apart (fldOff f ix)) :
    (s.flag blk bit).g f ix = s.g f ix := by
  rw [State.g, State.flag_rd_apart _ _ hb h, State.g]

theorem State.flagAt_rd_apart (s : State) (blk : Nat) {bit src a : Nat} (hb : bit < 48) (hs : src < 256) (h : apart a) :
    (s.flagAt blk bit src).rd a = s.rd a := by
  rw [State.flagAt, State.raise_rd_apart _ hs h, State.sts_rd_apart _ _ hb h]

/-- Two states with the same GEN_STATE are in the same device state. -/
theorem State.dev_congr {s t : State} (h : t.rd 0x110 = s.rd 0x110) : t.dev = s.dev := congrArg (bits · 2 0) h

theorem State.inSt_congr {s t : State} (h : t.rd 0x110 = s.rd 0x110) (l : List Nat) : t.inSt l = s.inSt l := by
  rw [State.inSt, State.dev_congr h, State.inSt]

/-- Two states with the same GEN_STATE have the same place in the stack. -/
theorem State.isMember_congr {s t : State} (h : t.rd 0x110 = s.rd 0x110) : t.isMember = s.isMember := by
  have hg (f : Fld) (hf : fldOff f [] = 0x110) : t.on f = s.on f := by rw [State.on, State.g, hf, h, State.on, State.g, hf]
  rw [State.isMember, hg _ rfl, hg GEN_STATE_master rfl, State.isMember]

theorem State.isMaster_congr {s t : State} (h : t.rd 0x110 = s.rd 0x110) : t.isMaster = s.isMaster := by
  have hg (f : Fld) (hf : fldOff f [] = 0x110) : t.on f = s.on f := by rw [State.on, State.g, hf, h, State.on, State.g, hf]
  rw [State.isMaster, hg _ rfl, hg GEN_STATE_master rfl, State.isMaster]

theorem State.wr_pwr_runs {s : State} (hr : s.Runs) (o : Nat) (v : Word) : (s.wr o v).Runs := by simpa [State.Runs] using hr

/-- A write whose word is refused, on a register that no lock protects, whatever the register's rule. -/
theorem hostWrite_refused {off : Nat} {r : Reg} {ix : List Nat} (hf : findReg off = some (r, ix)) (hb : r.base ∉ wholeWord)
    {s : State} {v w : Word} (hw : w = s.depClamp r.base ix (clampStatic r.fields (maskReserved r.base ix v)))
    (h : s.lockRefuses off r.fields (s.rd off) w = true ∨ s.refuses off r.base ix (s.rd off) w = true) (p : Nat) (l : List (Nat × Nat)) :
    s.hostWrite p off v l = s.notNow off := by
  rw [hostWrite_plain hf hb, plainWrite_refused rfl hw (Bool.or_eq_true_iff.mpr h)]

/-- An accepted write that no clamp changes, on a register without reserved bits and without fields under a lock. -/
theorem hostWrite_accepted {off : Nat} {r : Reg} {ix : List Nat} (hf : findReg off = some (r, ix)) (hb : r.base ∉ wholeWord)
    {s : State} {v : Word} (hm : maskReserved r.base ix v = v) (hw : s.depClamp r.base ix (clampStatic r.fields v) = v)
    (hl : ∀ f ∈ r.fields, f.acc ≠ .rwl) (h : s.refuses off r.base ix (s.rd off) v = false)
    (hc : clampTotal r.base r.fields v v = 0) (p : Nat) (l : List (Nat × Nat)) :
    s.hostWrite p off v l = (s.wr off (storeWord r.fields (s.rd off) v v)).written r.base ix (s.rd off) v v := by
  rw [hostWrite_plain hf hb, plainWrite_accepted hm.symm hw.symm, hc]
  · rfl
  · rw [s.lockRefuses_false off hl, h]; rfl

/-- A word that a write leaves as it is counts no clamp. -/
theorem clampTotal_self (base : Nat) (fs : List RField) (v : Word) : clampTotal base fs v v = 0 := by
  unfold clampTotal
  split
  · simp [bitsOf]
  · simp [fieldDiff]

end Sys2Proof.Machine
end

section
/-! Block locks and soft resets (R11, R28, R38, R654): a write of XXX_CTRL, and a locked field of ELE_CFG. -/

open Sys2Proof Sys2Proof.Machine

namespace Sys2Proof.Machine

/-! ### Writes of XXX_CTRL -/

theorem State.ctrlWrite_lock (s : State) (blk : Nat) : s.ctrlWrite blk 2 = s.p BLK_CTRL_lock [blk] 1 := rfl

theorem State.ctrlWrite_refused {s : State} {blk : Nat} (h : s.srstNotNow blk = true) :
    s.ctrlWrite blk 1 = s.notNow (blk * 0x10000 + 4) := by
  rw [State.ctrlWrite, h]; rfl

theorem State.ctrlWrite_reset {s : State} {blk : Nat} (h : s.srstNotNow blk = false) : s.ctrlWrite blk 1 = s.blkReset blk := by
  rw [State.ctrlWrite, h]; rfl

/-- The blocks whose reset R28 refuses in NOON and DUSK. -/
theorem State.srstNotNow_services {s : State} {blk : Nat}
    (hb : [PWR, MER, AFE, DCH, PHE, ELE, TMX, BCP, FIO, RIO, NET, TPC, CSC].contains blk = true) (hd : s.dev = NOON ∨ s.dev = DUSK) :
    s.srstNotNow blk = true := by
  have hc : blk ≠ CIS := by rintro rfl; exact absurd hb (by decide)
  rw [State.srstNotNow, if_neg hc, hb, State.inSt]
  rcases hd with h | h <;> rw [h] <;> decide

/-- The Cistern's reset is refused while a consumer holds a buffer. -/
theorem State.srstNotNow_cistern (s : State) : s.srstNotNow CIS = true ↔ ∃ c ∈ s.cis.cons, c.bufs ≠ [] := by
  rw [State.srstNotNow, if_pos rfl, List.any_eq_true]
  simp

theorem State.srstNotNow_false {s : State} {blk : Nat}
    (hb : [PWR, MER, AFE, DCH, PHE, ELE, TMX, BCP, FIO, RIO, NET, TPC, CSC].contains blk = true → s.dev ≠ NOON ∧ s.dev ≠ DUSK)
    (hc : blk = CIS → ∀ c ∈ s.cis.cons, c.bufs = []) : s.srstNotNow blk = false := by
  by_cases h : blk = CIS
  · subst h
    rw [Bool.eq_false_iff, Ne, State.srstNotNow_cistern]
    rintro ⟨c, hm, hn⟩
    exact hn (hc rfl c hm)
  · rw [State.srstNotNow, if_neg h, Bool.and_eq_false_iff, Decidable.or_iff_not_imp_left, Bool.not_eq_false]
    intro hl
    obtain ⟨h1, h2⟩ := hb hl
    simp [State.inSt, h1, h2]

/-! ### A locked field -/

/-- The fields of ELE_CFG (R205). -/
def eleCfgFields : List RField :=
  [⟨31, 24, .rwl, 161, .any⟩, ⟨23, 20, .rwl, 0, .any⟩, ⟨19, 19, .rwl, 1, .any⟩, ⟨17, 16, .rwl, 1, .range 0 2⟩,
    ⟨12, 8, .rwl, 0, .range 0 15⟩, ⟨1, 0, .rwl, 0, .any⟩]

set_option maxRecDepth 4000 in
theorem findReg_eleCfg (n : Fin 256) :
    findReg (0x60100 + 4 * n.val) = some (⟨0x60100, [(4, 256)], .blk, eleCfgFields⟩, [n.val]) := by
  revert n; decide

/-- A type of at most 15 is stored as it is written, whatever becomes of the other fields of ELE_CFG. -/
theorem eleCfg_type_stored (s : State) (ix : List Nat) {v : Word} (h : bits v 12 8 ≤ 15) :
    bits (s.depClamp 0x60100 ix (clampStatic eleCfgFields v)) 12 8 = bits v 12 8 := by
  have hc : bits (clampStatic eleCfgFields v) 12 8 = bits v 12 8 := by
    have last : clampStatic eleCfgFields v =
        setBits (setBits (clampStatic (eleCfgFields.take 4) v) 12 8 (min (max (bits v 12 8) 0) 15)) 1 0 (bits v 1 0) := rfl
    rw [last, bits_setBits_other _ _ _ _ _ _ (by decide) (by decide) (by decide), bits_setBits _ _ _ _ (by decide) (by decide)]
    omega
  simp only [State.depClamp]
  split
  · rw [bits_setBits_other _ _ _ _ _ _ (by decide) (by decide) (by decide), hc]
  · exact hc

/-- Under the lock of ELE a change of a slot's type is refused (R11, R38). -/
theorem hostWrite_eleCfg_locked {s : State} {n : Fin 256} {v : Word} (hl : s.on BLK_CTRL_lock [ELE] = true)
    (hv : bits v 12 8 ≠ s.g ELE_CFG_type [n.val]) (h : bits v 12 8 ≤ 15) (p : Nat) (l : List (Nat × Nat)) :
    s.hostWrite p (0x60100 + 4 * n.val) v l = s.notNow (0x60100 + 4 * n.val) := by
  have hoff : fldOff ELE_CFG_type [n.val] = 0x60100 + 4 * n.val := by simp [fldOff]
  refine hostWrite_refused (findReg_eleCfg n) (by decide) rfl (.inl ?_) p l
  rw [State.lockRefuses, show (0x60100 + 4 * n.val) / 0x10000 = ELE from (show _ = 6 by omega), hl, Bool.true_and, List.any_eq_true]
  refine ⟨⟨12, 8, .rwl, 0, .range 0 15⟩, by simp [eleCfgFields], ?_⟩
  have hw := eleCfg_type_stored s [n.val] h
  rw [State.g, hoff] at hv
  simpa [maskReserved, hw] using hv

/-! ### The obligation -/

/-- Settles O10: a write of XXX_CTRL goes by `srstNotNow`, and a locked write by the field that it would change. -/
theorem lockAndSoftReset : Obligations.LockAndSoftReset := by
  intro s hr
  refine ⟨fun b => ?lock, fun n v hl hv h => ?cfg, fun b hb hd => ?services, fun b hb hc => ?cistern, fun b t hb hc ht => ?reset,
    fun b hb => ?plain⟩
  case lock => rw [exec_lock _ hr, State.ctrlWrite_lock]
  case cfg => rw [exec_eleCfg _ _ hr, hostWrite_eleCfg_locked hl hv h]
  case services => rw [exec_softReset _ hr, State.ctrlWrite_refused (State.srstNotNow_services hb hd)]
  case cistern => rw [exec_softReset _ hr, State.ctrlWrite_refused (by rw [hb]; exact s.srstNotNow_cistern.mpr hc)]
  case reset =>
    subst ht
    rw [exec_softReset _ hr, State.ctrlWrite_reset (State.srstNotNow_false hb hc), State.blkReset]
  case plain =>
    have hn : s.srstNotNow b.val = false := State.srstNotNow_false
      (fun hl => by rcases hb with h | h <;> rw [h] at hl <;> exact absurd hl (by decide))
      (fun h => by rcases hb with h' | h' <;> rw [h'] at h <;> exact absurd h (by decide))
    rw [exec_softReset _ hr, State.ctrlWrite_reset hn, State.blkReset]
    rcases hb with h | h <;> rw [h] <;> rfl

end Sys2Proof.Machine
end

section
/-! Meridian (R48 to R72): the selection of a source, time quality, corrections by the host, and the time ports. -/

open Sys2Proof Sys2Proof.Machine

namespace Sys2Proof.Machine

/-! ### Time quality -/

/-- The quality has changed: MER_STS.tqchg sets, and the counts of offsets start afresh (R61, R63). -/
def State.tqChanged (s : State) (q : Nat) : State :=
  { (s.p MER_STAT_tq [] q).flag MER 9 with mer := { s.mer with lockCnt := 0, outCnt := 0 } }

theorem State.tqChanged_rd (s : State) (q : Nat) {a : Nat} (h : apart a) (hm : a ≠ 0x20114) : (s.tqChanged q).rd a = s.rd a := by
  show ((s.p MER_STAT_tq [] q).flag MER 9).rd a = s.rd a
  rw [State.flag_rd_apart _ _ (by decide) h, State.p_rd, if_neg (show fldOff MER_STAT_tq [] ≠ a from Ne.symm hm)]

theorem State.tqChanged_g (s : State) (q : Nat) {f : Fld} {ix : List Nat} (h : apart (fldOff f ix)) (hm : fldOff f ix ≠ 0x20114) :
    (s.tqChanged q).g f ix = s.g f ix := by
  rw [State.g, State.tqChanged_rd _ _ h hm, State.g]

theorem State.tqChanged_tq (s : State) {q : Nat} (hq : q < 3) : (s.tqChanged q).g MER_STAT_tq = q := by
  show ((s.p MER_STAT_tq [] q).flag MER 9).g MER_STAT_tq = q
  rw [State.flag_g _ _ (by decide) (by decide), State.p_g_same _ _ _ _ (by decide) (by decide)]
  exact Nat.mod_eq_of_lt (by simpa using Nat.lt_of_lt_of_le hq (by decide))

/-- A flag shows in its block's XXX_STS. -/
theorem State.flag_sts (s : State) {blk bit : Nat} (hblk : blk < 9) (hb : bit < 32) :
    bitAt ((s.flag blk bit).g BLK_STS [blk]) bit = true := by
  have off : fldOff BLK_STS [blk] = 0x10000 * blk + 8 := by simp [fldOff]; omega
  have hsts : bitAt ((s.sts blk bit).g BLK_STS [blk]) bit = true := by
    rw [State.sts, State.cnt, State.p_g_off _ _ (by simp [fldOff]; omega), State.p_g_same _ _ _ _ (by decide) (by decide), bitAt,
      Nat.testBit_mod_two_pow, putBit_testBit]
    simpa using hb
  have hraise (n : Nat) : ((s.sts blk bit).raise n).g BLK_STS [blk] = (s.sts blk bit).g BLK_STS [blk] := by
    rw [State.g, State.raise_rd, State.g]
    · intro k
      simp [fldOff]; omega
    · simp [fldOff]; omega
  unfold State.flag
  split
  · rw [hraise, hsts]
  · exact hsts

theorem State.tqChanged_sts (s : State) (q : Nat) : bitAt ((s.tqChanged q).g BLK_STS [MER]) 9 = true :=
  State.flag_sts (s.p MER_STAT_tq [] q) (by decide) (by decide)

theorem State.setTq_eq {s : State} {q : Nat} (h : s.g MER_STAT_tq ≠ q) (hm : s.on TST_MSUB_en = false) :
    s.setTq q =
      if q = TQ_HOLDOVER then
        let s3 := { s.tqChanged q with mer := { (s.tqChanged q).mer with holdAt := s.mer.cyc } }
        if (s.g MER_SRC_mode = 0 || s.isMember) && s.dev ≠ SAFE then s3.putAdj s3.lockedMean else s3
      else if q = TQ_LOCKED then
        { s.tqChanged q with mer := { (s.tqChanged q).mer with
          locked := [(s.mer.cyc, sgn 32 ((s.tqChanged q).g MER_FADJ))], integ := sgn 32 ((s.tqChanged q).g MER_FADJ) } }
      else s.tqChanged q := by
  have hmer : ((s.p MER_STAT_tq [] q).flag MER 9).mer = s.mer := by rw [State.flag_mer, State.p_mer]
  rw [State.setTq, hm, if_neg (by simp [h])]
  simp only [hmer]
  rfl

theorem State.setTq_free {s : State} (h : s.g MER_STAT_tq ≠ TQ_FREE) (hm : s.on TST_MSUB_en = false) :
    s.setTq TQ_FREE = s.tqChanged TQ_FREE := State.setTq_eq h hm

/-- The state in HOLDOVER, before the adjustment takes the mean. -/
def State.heldOver (s : State) : State :=
  { s.tqChanged TQ_HOLDOVER with mer := { (s.tqChanged TQ_HOLDOVER).mer with holdAt := s.mer.cyc } }

theorem State.setTq_holdover {s : State} (h : s.g MER_STAT_tq ≠ TQ_HOLDOVER) (hm : s.on TST_MSUB_en = false) :
    s.setTq TQ_HOLDOVER =
      if (s.g MER_SRC_mode = 0 || s.isMember) && s.dev ≠ SAFE then s.heldOver.putAdj s.heldOver.lockedMean else s.heldOver :=
  State.setTq_eq h hm

theorem State.heldOver_lockedMean (s : State) : s.heldOver.lockedMean = s.lockedMean := by
  have hadj : s.heldOver.g MER_FADJ = s.g MER_FADJ := State.tqChanged_g s TQ_HOLDOVER (by decide) (by decide)
  unfold State.lockedMean
  rw [hadj]
  rfl

theorem State.putAdj_g_off (s : State) (v : Int) {f : Fld} {ix : List Nat} (h : 0x2011C ≠ fldOff f ix) :
    (s.putAdj v).g f ix = s.g f ix := s.p_g_off (f := MER_FADJ) (ix := []) _ h

theorem State.putAdj_fadj (s : State) (v : Int) : (s.putAdj v).g MER_FADJ = wrap 32 v := by
  show (s.p MER_FADJ [] (wrap 32 v)).g MER_FADJ = _
  rw [State.p_g_same _ _ _ _ (by decide) (by decide)]
  refine Nat.mod_eq_of_lt ?_
  show (v % (2 ^ 32 : Int)).toNat < 2 ^ 32
  omega

/-- The quality, its flag and the fresh counts after a change. -/
theorem State.setTq_shows {s : State} {q : Nat} (hq : q < 3) (h : s.g MER_STAT_tq ≠ q) (hm : s.on TST_MSUB_en = false) :
    (s.setTq q).g MER_STAT_tq = q ∧ bitAt ((s.setTq q).g BLK_STS [MER]) 9 = true ∧ (s.setTq q).mer.lockCnt = 0 ∧
      (s.setTq q).mer.outCnt = 0 := by
  have htq := s.tqChanged_tq hq
  have hsts := s.tqChanged_sts q
  rw [State.setTq_eq h hm]
  split
  · split
    · exact ⟨(State.putAdj_g_off _ _ (by decide)).trans htq, by rwa [State.putAdj_g_off _ _ (by decide)], rfl, rfl⟩
    · exact ⟨htq, hsts, rfl, rfl⟩
  · split <;> exact ⟨htq, hsts, rfl, rfl⟩

theorem State.setTq_holdAt {s : State} (h : s.g MER_STAT_tq ≠ TQ_HOLDOVER) (hm : s.on TST_MSUB_en = false) :
    (s.setTq TQ_HOLDOVER).mer.holdAt = s.mer.cyc := by
  rw [State.setTq_holdover h hm]
  split <;> rfl

theorem State.setTq_mean {s : State} (h : s.g MER_STAT_tq ≠ TQ_HOLDOVER) (hm : s.on TST_MSUB_en = false)
    (hc : s.g MER_SRC_mode = 0 ∨ s.isMember = true) (hd : s.dev ≠ SAFE) : (s.setTq TQ_HOLDOVER).g MER_FADJ = wrap 32 s.lockedMean := by
  rw [State.setTq_holdover h hm, if_pos (by simpa [hd] using hc), State.putAdj_fadj, State.heldOver_lockedMean]

/-- A change of quality leaves every register apart from MER_STAT, MER_FADJ and the notices. -/
theorem State.setTq_rd (s : State) (q : Nat) {a : Nat} (h : apart a) (hs : a ≠ 0x20114) (hf : a ≠ 0x2011C) : (s.setTq q).rd a = s.rd a := by
  have hput (t : State) (v : Int) : (t.putAdj v).rd a = t.rd a := by
    show (t.p MER_FADJ [] _).rd a = _
    rw [State.p_rd, if_neg (show fldOff MER_FADJ [] ≠ a from Ne.symm hf)]
  have hc := s.tqChanged_rd q h hs
  by_cases hq : s.g MER_STAT_tq = q ∨ s.on TST_MSUB_en = true
  · rw [State.setTq, if_pos (by simpa using hq)]
  · rw [not_or, Bool.not_eq_true] at hq
    rw [State.setTq_eq hq.1 hq.2]
    split
    · split
      · exact (hput _ _).trans hc
      · exact hc
    · split <;> exact hc

/-! ### The selection of a source -/

/-- Another source has been selected (R54). -/
theorem State.selectSrc_rd (s : State) (c : Nat) {a : Nat} (h : apart a) (hs : a ≠ 0x20114) (hf : a ≠ 0x2011C) :
    (s.selectSrc c).rd a = s.rd a := by
  have hp : ((s.p MER_STAT_active [] c).flag MER 8).rd a = s.rd a := by
    rw [State.flag_rd_apart _ _ (by decide) h, State.p_rd, if_neg (show fldOff MER_STAT_active [] ≠ a from Ne.symm hs)]
  unfold State.selectSrc
  split
  · rfl
  · show (if _ then _ else _ : State).rd a = s.rd a
    split
    · exact (State.setTq_rd _ _ h hs hf).trans hp
    · exact hp

theorem State.selectSrc_isMember (s : State) (c : Nat) : (s.selectSrc c).isMember = s.isMember :=
  State.isMember_congr (s.selectSrc_rd c (by decide) (by decide) (by decide))

/-- Source c, unqualified and its run of valid events ended. -/
def State.unqualified (s : State) (c : Nat) : State := (s.setQual c false).putSrcSt c { s.srcSt c with since := none }

theorem State.setQual_g (s : State) (c : Nat) (b : Bool) {f : Fld} (h : fldOff f [] ≠ 0x20114 ∨ f.hi < 16) :
    (s.setQual c b).g f = s.g f := by
  rcases h with h | h
  · exact s.p_g_off _ (Ne.symm h)
  · exact s.p_g_other _ (by decide) (by decide) (.inr (.inr h))

theorem State.unqualified_g (s : State) (c : Nat) {f : Fld} (h : fldOff f [] ≠ 0x20114 ∨ f.hi < 16) :
    (s.unqualified c).g f = s.g f := s.setQual_g c false h

theorem State.unqualified_isMember (s : State) (c : Nat) : (s.unqualified c).isMember = s.isMember :=
  State.isMember_congr (by
    show (s.setQual c false).rd _ = _
    rw [State.setQual, State.p_rd, if_neg (by decide)])

/-- The loss of a source, on the state in which it is unqualified (R53 to R55). -/
theorem State.loseSrc_eq (s : State) (c : Nat) :
    s.loseSrc c =
      if s.isMember then (if c = 10 && s.g MER_STAT_tq = TQ_LOCKED then (s.unqualified c).setTq TQ_HOLDOVER else s.unqualified c)
      else if s.g MER_STAT_active = c then (s.unqualified c).selectSrc (s.unqualified c).bestSrc else s.unqualified c := by
  have hm := s.unqualified_isMember c
  have ha : (s.unqualified c).g MER_STAT_active = s.g MER_STAT_active := s.unqualified_g c (.inr (by decide))
  have ht : (s.unqualified c).g MER_STAT_tq = s.g MER_STAT_tq := s.unqualified_g c (.inr (by decide))
  have hl : s.loseSrc c =
      let s2 := if (s.unqualified c).g MER_STAT_active = c && !(s.unqualified c).isMember then
          (s.unqualified c).selectSrc (s.unqualified c).bestSrc
        else s.unqualified c
      if s2.isMember && c = 10 && s2.g MER_STAT_tq = TQ_LOCKED then s2.setTq TQ_HOLDOVER else s2 := rfl
  rw [hl, hm, ha]
  cases hs : s.isMember
  · by_cases h : s.g MER_STAT_active = c
    · simp [h, State.selectSrc_isMember, hm, hs]
    · simp [h, hm, hs]
  · simp [hm, hs, ht]

theorem sourceLost_qualified {s : State} {c : Nat} (hl : s.srcIsLost c = true) (hq : s.qualified c = true) :
    sourceLost c s = s.loseSrc c := by simp [sourceLost, hl, hq]

theorem sourceLost_unqualified {s : State} {c : Nat} (hl : s.srcIsLost c = true) (hq : s.qualified c = false) :
    sourceLost c s = s.breakRun c := by simp [sourceLost, hl, hq]

theorem sourceLost_present {s : State} {c : Nat} (hl : s.srcIsLost c = false) : sourceLost c s = s := by simp [sourceLost, hl]

/-- A source whose run has lasted becomes qualified, and the best is selected where none is (R53, R54). -/
theorem sourceQualify_due {s u : State} {c t : Nat} (ht : (s.srcSt c).since = some t)
    (hu : u = (s.setQual c true).putSrcSt c { s.srcSt c with qualAt := s.mer.cyc }) (hq : s.qualified c = false)
    (hd : s.g MER_QUAL_qual * oneSec ≤ s.since t) (hl : s.srcIsLost c = false) :
    sourceQualify c s = if s.g MER_STAT_active = 12 && !s.isMember then u.selectSrc u.bestSrc else u := by
  have ha : u.g MER_STAT_active = s.g MER_STAT_active := by
    rw [hu]; exact s.setQual_g c true (.inr (by decide))
  have hm : u.isMember = s.isMember := State.isMember_congr (by
    rw [hu]
    show (s.setQual c true).rd _ = _
    rw [State.setQual, State.p_rd, if_neg (by decide)])
  rw [← ha, ← hm, hu]
  simp only [sourceQualify, ht, hq, hd, hl, Bool.not_false, decide_true, Bool.and_self, if_true]

theorem sourceQualify_none {s : State} {c : Nat} (h : (s.srcSt c).since = none ∨ s.qualified c = true ∨ s.srcIsLost c = true) :
    sourceQualify c s = s := by
  unfold sourceQualify
  split
  · rfl
  · next t ht =>
    rw [if_neg]
    rcases h with h | h | h <;> simp_all

theorem waitToRestore_due {s : State} {c : Nat} (hm : s.isMember = false) (hr : s.on MER_SRC_revert = true) (hq : s.qualified c = true)
    (hl : s.srcList.contains c = true) (hk : s.srcRank c < s.srcRank (s.g MER_STAT_active)) (hb : s.bestSrc = c)
    (hw : s.g MER_QUAL_wtr * oneSec ≤ s.since (s.srcSt c).qualAt) : waitToRestore c s = s.selectSrc c := by
  simp only [waitToRestore, hm, hr, hq, hl, hk, hb, hw, Bool.not_false, decide_true, Bool.and_self, if_true]

theorem waitToRestore_none {s : State} {c : Nat} (h : s.isMember = true ∨ s.on MER_SRC_revert = false ∨ s.bestSrc ≠ c) :
    waitToRestore c s = s := by
  rw [waitToRestore, if_neg]
  rcases h with h | h | h <;> simp [h]

/-! ### The transitions of time quality -/

theorem tqLock_due {s : State} (hm : s.isMember = false) (hq : s.g MER_STAT_tq ≠ TQ_LOCKED) (hc : s.g MER_SERVO_lockcnt ≤ s.mer.lockCnt)
    (ha : s.g MER_STAT_active ≤ 10) (hd : s.dev ≠ SAFE) : tqLock s = s.setTq TQ_LOCKED := if_pos (by simp [hm, hq, hc, ha, hd])

theorem tqLock_none {s : State} (h : s.isMember = true ∨ s.g MER_STAT_tq = TQ_LOCKED ∨ s.mer.lockCnt < s.g MER_SERVO_lockcnt ∨
    10 < s.g MER_STAT_active ∨ s.dev = SAFE) : tqLock s = s := by
  rw [tqLock, if_neg]
  rcases h with h | h | h | h | h
  · simp [h]
  · simp [h]
  · simp [Nat.not_le.mpr h]
  · simp [Nat.not_le.mpr h]
  · simp [h]

theorem State.holdOver_of_tq {s : State} (h : s.g MER_STAT_tq ≠ TQ_HOLDOVER) : s.holdOver = false := by simp [State.holdOver, h]

theorem holdoverLimit_none {s : State} (h : s.g MER_STAT_tq ≠ TQ_HOLDOVER ∨ s.follows = true) : holdoverLimit s = s := by
  rw [holdoverLimit, if_neg]
  rcases h with h | h
  · simp [State.holdOver_of_tq h]
  · simp [h]

theorem holdoverLimit_due {s : State} (hq : s.g MER_STAT_tq = TQ_HOLDOVER) (hl : s.g MER_HOLD_limit * oneSec ≤ s.since s.mer.holdAt)
    (hf : s.follows = false) : holdoverLimit s = s.setTq TQ_FREE := if_pos (by simp [State.holdOver, hq, hl, hf])

theorem State.follows_isMember {s : State} (h : s.follows = true) : s.isMember = true := by
  rw [State.follows, Bool.and_eq_true] at h
  exact h.1

theorem tqEvaluate_member {s : State} (h : s.isMember = true) : tqEvaluate s = holdoverLimit s := if_pos h

/-- LOCKED has no qualified source left (R61). -/
theorem tqEvaluate_lost {s : State} (hm : s.isMember = false) (hq : s.g MER_STAT_tq = TQ_LOCKED) (ha : 11 ≤ s.g MER_STAT_active)
    (hn : ∀ c ∈ s.srcList, c ≠ 11 → s.qualified c = false) : tqEvaluate s = s.setTq TQ_HOLDOVER := by
  have hany : (s.srcList.any fun c => c ≠ 11 && s.qualified c) = false := by simpa [List.any_eq_false] using hn
  simp only [tqEvaluate, hm, hq, ha, hany, Bool.false_eq_true, if_false, decide_true, Bool.true_or, Bool.not_false, Bool.and_self, if_true]

theorem tqEvaluate_freeRun {s : State} (hm : s.isMember = false) (hq : s.g MER_STAT_tq = TQ_HOLDOVER) (ha : s.g MER_STAT_active = 11) :
    tqEvaluate s = s.setTq TQ_FREE := by
  simp [tqEvaluate, hm, hq, ha, show TQ_HOLDOVER ≠ TQ_LOCKED by decide]

theorem tqEvaluate_free {s : State} (hq : s.g MER_STAT_tq = TQ_FREE) : tqEvaluate s = s := by
  have hl : holdoverLimit s = s := holdoverLimit_none (.inl (by rw [hq]; decide))
  simp [tqEvaluate, hq, hl]

theorem tqEvaluate_limit {s : State} (hq : s.g MER_STAT_tq = TQ_HOLDOVER) (hl : holdoverLimit s = s.setTq TQ_FREE) :
    tqEvaluate s = s.setTq TQ_FREE := by
  simp [tqEvaluate, hq, hl, show TQ_HOLDOVER ≠ TQ_LOCKED by decide]

/-- No correction has come within hcto (R57). -/
theorem hostCorrectionTimeout_due {s u : State} (hm : s.isMember = false) (hs : s.g MER_SRC_mode = 1) (hd : s.mer.hctoDone = false)
    (ht : s.g MER_HOLD_hcto * oneSec ≤ s.since s.mer.hctoAt)
    (hu : u = ({ s with mer := { s.mer with hctoDone := true } } : State).flag MER 13) :
    hostCorrectionTimeout s = if s.g MER_STAT_tq = TQ_LOCKED then u.setTq TQ_HOLDOVER else u := by
  have hq : u.g MER_STAT_tq = s.g MER_STAT_tq := by
    rw [hu, State.flag_g _ _ (by decide) (by decide)]
    rfl
  rw [hostCorrectionTimeout, if_pos (by simp [hm, hs, hd, ht])]
  simp only [← hu, hq]

theorem hostCorrectionTimeout_none {s : State} (h : s.isMember = true ∨ s.g MER_SRC_mode = 0 ∨ s.mer.hctoDone = true) :
    hostCorrectionTimeout s = s := by
  rw [hostCorrectionTimeout, if_neg]
  rcases h with h | h | h <;> simp [h]

/-! ### Corrections by the host -/

theorem findReg_merHfreq : findReg 0x20120 = some (⟨0x20120, [], .blk, [⟨31, 0, .rw, 0, .srange (-200000000) 200000000⟩]⟩, []) := by decide
theorem findReg_merHphase : findReg 0x20124 = some (⟨0x20124, [], .blk, [⟨31, 0, .wo, 0, .any⟩]⟩, []) := by decide
theorem findReg_merTsetHi : findReg 0x20144 = some (⟨0x20144, [], .blk, [⟨15, 0, .wo, 0, .any⟩]⟩, []) := by decide
theorem findReg_merNowSlo : findReg 0x20130 = some (⟨0x20130, [], .sys, [⟨31, 0, .ro, 0, .any⟩]⟩, []) := by decide

/-- Two's complement in 32 bits, read and written back, is the word's own number. -/
theorem wrap_sgn (v : Word) : wrap 32 (sgn 32 v.toNat) = v.toNat := by
  have hv := v.isLt
  unfold wrap sgn
  split <;> omega

/-- A field of all 32 bits holds the number put into it, cut at 32 bits. -/
theorem setBits_whole (x : Word) (v : Nat) : setBits x 31 0 v = BitVec.ofNat 32 v := by
  apply BitVec.eq_of_toNat_eq
  rw [setBits_toNat _ _ _ _ (by decide) (by decide), BitVec.toNat_ofNat]
  have hx := x.isLt
  omega

theorem hostWrite_merHfreq_hardware {s : State} (h : s.g MER_SRC_mode = 0) (p : Nat) (v : Word) (l : List (Nat × Nat)) :
    s.hostWrite p 0x20120 v l = s.notNow 0x20120 :=
  hostWrite_refused findReg_merHfreq (by decide) rfl (.inr (by simp [State.refuses, h])) p l

theorem hostWrite_merHphase_hardware {s : State} (h : s.g MER_SRC_mode = 0) (p : Nat) (v : Word) (l : List (Nat × Nat)) :
    s.hostWrite p 0x20124 v l = s.notNow 0x20124 :=
  hostWrite_refused findReg_merHphase (by decide) rfl (.inr (by simp [State.refuses, h])) p l

/-- An adjustment within ±200 ppm is stored as it is written. -/
theorem hostWrite_merHfreq {s : State} {v : Word} (hs : s.g MER_SRC_mode = 1) (h1 : -200000000 ≤ sgn 32 v.toNat)
    (h2 : sgn 32 v.toNat ≤ 200000000) (p : Nat) (l : List (Nat × Nat)) :
    s.hostWrite p 0x20120 v l = (s.wr 0x20120 v).hfreqWritten v := by
  have hv : bits v 31 0 = v.toNat := by
    have hv := v.isLt
    rw [bits]; omega
  have hsat : satI (-200000000) 200000000 (sgn 32 v.toNat) = sgn 32 v.toNat := by
    rw [satI, if_neg (by omega), if_neg (by omega)]
  rw [hostWrite_accepted findReg_merHfreq (by decide) rfl ?_ (by decide) ?_ (clampTotal_self _ _ _)]
  · have hw : storeWord [⟨31, 0, .rw, 0, .srange (-200000000) 200000000⟩] (s.rd 0x20120) v v = v := by
      simp [storeWord, setBits_word]
    rw [hw]; rfl
  · simp [State.depClamp, clampStatic, RField.stores, Legal.clamp, hv, hsat, wrap_sgn, setBits_whole]
  · simp [State.refuses, hs]

theorem hostWrite_merHphase {s : State} (hs : s.g MER_SRC_mode = 1) (hd : s.dev ≠ SAFE) (p : Nat) (v : Word) (l : List (Nat × Nat)) :
    s.hostWrite p 0x20124 v l = (s.wr 0x20124 (s.rd 0x20124)).hphaseWritten v := by
  rw [hostWrite_accepted findReg_merHphase (by decide) rfl rfl (by decide) (by simp [State.refuses, hs, hd]) (clampTotal_self _ _ _)]
  rfl

theorem hostWrite_merTsetHi_refused {s : State} (h : s.dev = SAFE ∨ ((s.dev = NOON ∨ s.dev = DUSK) ∧ s.on MER_SERVO_stepnoon = false))
    (p : Nat) (v : Word) (l : List (Nat × Nat)) : s.hostWrite p 0x20144 v l = s.notNow 0x20144 := by
  refine hostWrite_refused findReg_merTsetHi (by decide) rfl (.inr ?_) p l
  rcases h with h | ⟨h | h, hn⟩ <;> simp [State.refuses, State.inSt, *]

theorem hostWrite_merTsetHi {s : State} (hd : s.dev ≠ SAFE) (h : (s.dev ≠ NOON ∧ s.dev ≠ DUSK) ∨ s.on MER_SERVO_stepnoon = true)
    (p : Nat) (v : Word) (l : List (Nat × Nat)) :
    s.hostWrite p 0x20144 v l = (s.wr 0x20144 (s.rd 0x20144)).tsetWritten v := by
  rw [hostWrite_accepted findReg_merTsetHi (by decide) rfl rfl (by decide) ?_ (clampTotal_self _ _ _)]
  · rfl
  · rcases h with ⟨h1, h2⟩ | h <;> simp [State.refuses, State.inSt, *]

/-- The adjustment, where it is within its limits and the device is not LOCKED. -/
theorem State.setAdj_unlocked {s : State} {a : Int} (h1 : -200000000 ≤ a) (h2 : a ≤ 200000000) (hq : s.g MER_STAT_tq ≠ TQ_LOCKED) :
    s.setAdj a = s.putAdj a := by
  have hsat : satI (-200000000) 200000000 a = a := by rw [satI, if_neg (by omega), if_neg (by omega)]
  rw [State.setAdj, if_neg hq, hsat]

theorem State.hfreqWritten_own {s : State} {v : Word} (hd : s.dev ≠ SAFE) (hm : s.isMember = false) (h1 : -200000000 ≤ sgn 32 v.toNat)
    (h2 : sgn 32 v.toNat ≤ 200000000) (hq : s.g MER_STAT_tq ≠ TQ_LOCKED) :
    s.hfreqWritten v = { s.p MER_FADJ [] v.toNat with
      mer := { s.mer with integ := sgn 32 v.toNat, hctoAt := s.mer.cyc, hctoDone := false } } := by
  rw [State.hfreqWritten, if_neg hd, if_neg (by simp [hm]), State.setAdj_unlocked h1 h2 hq, State.putAdj, wrap_sgn]
  rfl

theorem State.hfreqWritten_member {s : State} (v : Word) (hd : s.dev ≠ SAFE) (hm : s.isMember = true) :
    s.hfreqWritten v = { s with mer := { s.mer with hctoAt := s.mer.cyc, hctoDone := false } } := by
  rw [State.hfreqWritten, if_neg hd, if_pos hm]
  rfl

/-- A phase correction that does not exceed stepthr is slewed (R58). -/
theorem State.hphaseWritten_slew {s : State} {v : Word} (hd : s.dev ≠ SAFE) (hm : s.isMember = false)
    (h : (sgn 32 v.toNat * 1024).natAbs ≤ s.g MER_STEP_stepthr * oneUs) :
    s.hphaseWritten v = { s with
      mer := { s.mer with slew := sgn 32 v.toNat * 1024, slewRem := 0, slewing := decide (sgn 32 v.toNat * 1024 ≠ 0)
                          hctoAt := s.mer.cyc, hctoDone := false } } := by
  rw [State.hphaseWritten, if_neg (by simp [hm]), State.correct, if_neg hd, if_pos (by simp only [h, decide_true, Bool.true_or])]
  rfl

theorem State.hphaseWritten_member {s : State} (v : Word) (hm : s.isMember = true) :
    s.hphaseWritten v = { s with mer := { s.mer with hctoAt := s.mer.cyc, hctoDone := false } } := by
  rw [State.hphaseWritten, if_pos hm]
  rfl

theorem slewSpent_due {s : State} (h : s.mer.slewing = true) (h0 : s.mer.slew = 0) :
    slewSpent s = { s with mer := { s.mer with slewing := false } } := by simp [slewSpent, h, h0]

theorem slewSpent_none {s : State} (h : s.mer.slewing = false ∨ s.mer.slew ≠ 0) : slewSpent s = s := by
  rw [slewSpent, if_neg]
  rcases h with h | h <;> simp [h]

theorem nextWholeSecondLabel_due {s u : State} {sec label : Nat} (ht : s.mer.tset = some (sec, label)) (hs : sec < Time.sec s.mer.now)
    (hu : u = { s with mer := { s.mer with tset := none } }) :
    nextWholeSecondLabel s = if s.dev = SAFE then u else u.stepBy (((label : Int) - ((sec : Int) + 1)) * oneSec) := by
  simp only [nextWholeSecondLabel, ht, hs, if_true, ← hu]

theorem nextWholeSecondLabel_none {s : State} (h : s.mer.tset = none) : nextWholeSecondLabel s = s := by
  simp only [nextWholeSecondLabel, h]

/-! ### The time ports -/

/-- A read of MER_NOW_SLO returns the seconds that it latches (R48). -/
theorem rcRead_merNowSlo (s : State) :
    rcRead 0x20130 s = ((merNowSlo s).wr 0x20130 ((merNowSlo s).rd 0x20130)).emit
      (.read 0x20130 (BitVec.ofNat 32 (Time.sec s.mer.now))) := by
  have hl : s.latch 0x20130 = merNowSlo s := by rw [State.latch, findReg_merNowSlo]; rfl
  have hc (t : State) : t.readClear 0x20130 = t.wr 0x20130 (t.rd 0x20130) := by rw [State.readClear, findReg_merNowSlo]; rfl
  have hv (t : State) : t.readVal 0x20130 = t.rd 0x20130 := by rw [State.readVal, findReg_merNowSlo]; rfl
  have hrd : (merNowSlo s).rd 0x20130 = BitVec.ofNat 32 (Time.sec s.mer.now) := by
    rw [merNowSlo, State.p_rd, if_neg (by decide), State.p_rd, if_neg (by decide), State.p_rd, if_neg (by decide), State.p_rd,
      if_pos (by decide), setBits_whole]
    exact BitVec.eq_of_toNat_eq (by simp)
  rw [rcRead_eq, hl, hc, hv, hrd]

theorem ppsOutRise_due {s : State} {c : Nat} (hc : c = ((s.mer.now : Int) - s.dly 2).toNat / oneSec) (he : s.on MER_PORT_ppsen = true)
    (h : s.mer.ppsSec < c) : ppsOutRise s = { s with
      mer := { s.mer with pps := true, ppsSec := c, ppsAt := ((c * oneSec : Nat) + s.dly 2).toNat } } := by
  subst hc
  exact if_pos (by simp only [he, h, decide_true, Bool.and_self])

theorem ppsOutRise_off {s : State} (h : s.on MER_PORT_ppsen = false) : ppsOutRise s = s := by simp [ppsOutRise, h]

theorem ppsOutFall_due {s : State} (hp : s.mer.pps = true) (h : s.mer.ppsAt + s.g MER_PORT_ppsw * oneMs ≤ s.mer.now) :
    ppsOutFall s = { s with mer := { s.mer with pps := false } } := if_pos (by simp only [hp, h, decide_true, Bool.and_self])

theorem irigbOutFrame_due {s : State} {c : Nat} (hc : c = ((s.mer.now : Int) - s.dly 3).toNat / oneSec) (he : s.on MER_PORT_irigen = true)
    (h : s.mer.irigSec < c) : irigbOutFrame s =
      ({ s with mer := { s.mer with irigSec := c } } : State).emit (.irig (irigFields ((c : Int) - s.g MER_UTC_offset))) := by
  subst hc
  exact if_pos (by simp only [he, h, decide_true, Bool.and_self])

theorem irigbOutFrame_off {s : State} (h : s.on MER_PORT_irigen = false) : irigbOutFrame s = s := by simp [irigbOutFrame, h]

theorem trigInEdge_armed {s : State} {n : Nat} (h : (nth s.mer.tdc (16 + n) (true, 0)).1 = true) (rising : Bool) (edge : Time) :
    trigInEdge n rising edge s = ({ s with mer := { s.mer with tdc := s.mer.tdc.set (16 + n) (false, edge) } } : State).recPin n rising
      (((edge : Int) - s.trimI (0x2A0 + 4 * (16 + n)) * 1024).toNat / 1024 * 1024) := by
  rw [trigInEdge, State.tdcStamp, if_pos h]
  rfl

theorem trigInEdge_lost {s : State} {n : Nat} (h : (nth s.mer.tdc (16 + n) (true, 0)).1 = false) (rising : Bool) (edge : Time) :
    trigInEdge n rising edge s = s.flag MER 12 := by
  rw [trigInEdge, State.tdcStamp, if_neg (by simp [h])]

theorem tdcRearm_due {s : State} {c : Nat} {at_ : Time} (h : nth s.mer.tdc c (true, 0) = (false, at_)) (ht : at_ + 40 * oneNs ≤ s.mer.now) :
    tdcRearm c s = { s with mer := { s.mer with tdc := s.mer.tdc.set c (true, at_) } } := by
  simp only [tdcRearm, h, ht, Bool.not_false, decide_true, Bool.and_self, if_true]

/-! ### The obligations -/

/-- Settles O12: a loss goes by `loseSrc`, a qualification by the run of valid events, a wait by the ranks. -/
theorem sourceSelection : Obligations.SourceSelection := by
  intro s hr
  refine ⟨fun c u hu hl => ?lost, fun c hl => ?present, fun c t u ht hu hq hd hl => ?qualify, fun c h => ?noRun,
    fun c hm hv hq hl hk hb hw => ?restore, fun c h => ?stays⟩
  case lost =>
    have hu : u = s.unqualified c := hu
    simp only [exec_sourceLost _ hr]
    refine ⟨fun hq => ?_, fun hq hm ha => ?_, fun hq hm ha => ?_, fun hq hm hc => ?_, fun hq hm hc ht => ?_⟩
    · rw [sourceLost_unqualified hl hq, State.breakRun]
    all_goals rw [sourceLost_qualified hl hq, State.loseSrc_eq, hm, hu]
    · simp [ha]
    · simp [ha]
    · rcases hc with h | h <;> simp [h]
    · simp [hc, ht]
  case present => rw [exec_sourceLost _ hr, sourceLost_present hl]
  case qualify =>
    rw [exec_sourceQualify _ hr, sourceQualify_due ht hu hq hd hl]
    exact ⟨fun h => by rcases h with h | h <;> simp [h], fun ha hm => by simp [ha, hm]⟩
  case noRun => rw [exec_sourceQualify _ hr, sourceQualify_none h]
  case restore => rw [exec_waitToRestore _ hr, waitToRestore_due hm hv hq hl hk hb hw]
  case stays => rw [exec_waitToRestore _ hr, waitToRestore_none h]

/-- Settles O13: each transition by its condition, and a change of quality by `setTq_eq`. -/
theorem timeQuality : Obligations.TimeQuality := by
  intro s hr
  refine ⟨fun hm hq hc ha hd => ?lock, fun h => ?noLock, fun hm hq ha hn => ?lost, fun hm hq ha => ?freeRun, fun hq => ?free,
    fun hq hl hf => ?limit, fun hf => ?follows, fun hm hs hd ht u hu => ?timeout, fun h => ?noTimeout, ?change⟩
  case lock => rw [exec_tqLock hr, tqLock_due hm hq hc ha hd]
  case noLock => rw [exec_tqLock hr, tqLock_none h]
  case lost => rw [exec_tqEvaluate hr, tqEvaluate_lost hm hq ha hn]
  case freeRun => rw [exec_tqEvaluate hr, tqEvaluate_freeRun hm hq ha]
  case free =>
    rw [exec_tqEvaluate hr, exec_holdoverLimit hr, tqEvaluate_free hq, holdoverLimit_none (.inl (by rw [hq]; decide))]
    exact ⟨rfl, rfl⟩
  case limit =>
    have h := holdoverLimit_due hq hl hf
    rw [exec_tqEvaluate hr, exec_holdoverLimit hr, tqEvaluate_limit hq h, h]
    exact ⟨rfl, rfl⟩
  case follows =>
    rw [exec_tqEvaluate hr, exec_holdoverLimit hr, tqEvaluate_member (State.follows_isMember hf), holdoverLimit_none (.inr hf)]
    exact ⟨rfl, rfl⟩
  case timeout =>
    rw [exec_hostCorrectionTimeout hr, hostCorrectionTimeout_due hm hs hd ht hu]
    exact ⟨fun h => by rw [if_neg h], fun h => by rw [if_pos h]⟩
  case noTimeout => rw [exec_hostCorrectionTimeout hr, hostCorrectionTimeout_none h]
  case change =>
    rintro q t hq h hm rfl
    obtain ⟨htq, hsts, hlock, hout⟩ := State.setTq_shows hq h hm
    refine ⟨htq, hsts, hlock, hout, ?_, ?_, ?_⟩
    · rintro rfl
      rw [State.setTq_free h hm, State.tqChanged]
    · rintro rfl
      exact State.setTq_holdAt h hm
    · rintro rfl hc hd
      exact State.setTq_mean h hm hc hd

/-- Settles O14: the writes go through `hostWrite` to the effect of their register, and each effect by the role and the device state. -/
theorem corrections : Obligations.Corrections := by
  intro s hr
  refine ⟨fun v hs => ⟨?freqHw, ?phaseHw⟩, fun v hs hd h1 h2 => ⟨fun hm hq => ?freq, fun hm => ?freqMember⟩,
    fun v hs hd => ⟨fun hm h => ?phase, fun hm => ?phaseMember⟩, fun h h0 => ?spent, fun h => ?slews, fun v h => ?tsetNo,
    fun v hd h => ?tset, fun sec label u ht hs hu => ?label, fun h => ?noLabel⟩
  case freqHw => rw [exec_merHfreq _ hr, hostWrite_merHfreq_hardware hs]
  case phaseHw => rw [exec_merHphase _ hr, hostWrite_merHphase_hardware hs]
  case freq =>
    rw [exec_merHfreq _ hr, hostWrite_merHfreq hs h1 h2, State.hfreqWritten_own _ _ h1 h2]
    · rw [State.wr_mer]
    · rwa [State.wr_g_off _ _ (by decide)]
    · rwa [State.dev, State.wr_g_off _ _ (by decide)]
    · rwa [State.isMember_congr (s := s) (by rw [State.wr_rd, if_neg (by decide)])]
  case freqMember =>
    rw [exec_merHfreq _ hr, hostWrite_merHfreq hs h1 h2, State.hfreqWritten_member, State.wr_mer]
    · rwa [State.dev, State.wr_g_off _ _ (by decide)]
    · rwa [State.isMember_congr (s := s) (by rw [State.wr_rd, if_neg (by decide)])]
  case phase =>
    rw [exec_merHphase _ hr, hostWrite_merHphase hs hd, State.hphaseWritten_slew, State.wr_mer]
    · rwa [State.dev, State.wr_g_off _ _ (by decide)]
    · rwa [State.isMember_congr (s.wr_rd_self _ _)]
    · rwa [State.wr_g_off _ _ (by decide)]
  case phaseMember =>
    rw [exec_merHphase _ hr, hostWrite_merHphase hs hd, State.hphaseWritten_member, State.wr_mer]
    rwa [State.isMember_congr (s.wr_rd_self _ _)]
  case spent => rw [exec_slewSpent hr, slewSpent_due h h0]
  case slews => rw [exec_slewSpent hr, slewSpent_none h]
  case tsetNo => rw [exec_merTsetHi _ hr, hostWrite_merTsetHi_refused h]
  case tset =>
    rw [exec_merTsetHi _ hr, hostWrite_merTsetHi hd h, State.tsetWritten, State.wr_g_off _ _ (by decide), State.wr_mer]
  case label =>
    rw [exec_nextWholeSecondLabel hr, nextWholeSecondLabel_due ht hs hu]
    exact ⟨fun h => by rw [if_neg h], fun h => by rw [if_pos h]⟩
  case noLabel => rw [exec_nextWholeSecondLabel hr, nextWholeSecondLabel_none h]

/-- Settles O15: the read latches before it answers, and every port acts when its second or its edge has come. -/
theorem timePorts : Obligations.TimePorts := by
  intro s hr
  refine ⟨?now, fun c hc he h => ?rise, fun h => ?riseOff, fun hp h => ?fall, fun c hc he h => ?irig, fun h => ?irigOff,
    fun n rising edge h => ?armed, fun n rising edge h => ?lost, fun c at_ h ht => ?rearm⟩
  case now =>
    rintro t rfl
    rw [exec_merNowSlo hr, rcRead_merNowSlo, merNowSlo]
  case rise => rw [exec_ppsOutRise hr, ppsOutRise_due hc he h]
  case riseOff => rw [exec_ppsOutRise hr, ppsOutRise_off h]
  case fall => rw [exec_ppsOutFall hr, ppsOutFall_due hp h]
  case irig => rw [exec_irigbOutFrame hr, irigbOutFrame_due hc he h]
  case irigOff => rw [exec_irigbOutFrame hr, irigbOutFrame_off h]
  case armed => rw [exec_trigInEdge _ _ _ hr, trigInEdge_armed h]
  case lost => rw [exec_trigInEdge _ _ _ hr, trigInEdge_lost h]
  case rearm => rw [exec_tdcRearm _ hr, tdcRearm_due h ht]

end Sys2Proof.Machine
end

section
/-! Scheduled actions (R73 to R84): arming and cancelling a slot, the execution of its action, and the stack-wide launch. -/

open Sys2Proof Sys2Proof.Machine

namespace Sys2Proof.Machine

/-! ### Arming and cancelling -/

/-- What slot r.slot holds once an arm has taken it (R79, R82). -/
def State.slotArmed (s : State) (who : SaWho) (r : ArmReq) : SaSlot :=
  { s.sas r.slot with
    who := who, time := r.time, action := r.action, arg := r.arg, stack := r.stack, exec := 0, late := 0
    refused := if r.stack then s.absent else 0
    own := none, pendLate := false }

theorem State.armSlot_free {s : State} {r : ArmReq} (h : s.saHeld r.slot = false) (hs : r.stack = false) (who : SaWho) :
    s.armSlot who r = ((s.putSa r.slot (s.slotArmed who r)).putSaState r.slot SA_ARMED).saRun r.slot := by
  simp only [State.armSlot, h, hs, Bool.false_eq_true, if_false, State.slotArmed]

theorem State.armSlot_replaced {s v : State} {r : ArmReq} (h : s.saHeld r.slot = true) (hs : r.stack = false)
    (hv : v = (s.saForget r.slot).saFree r.slot) (who : SaWho) :
    s.armSlot who r = ((v.putSa r.slot (v.slotArmed who r)).putSaState r.slot SA_ARMED).saRun r.slot := by
  simp only [State.armSlot, h, hs, if_true, Bool.false_eq_true, if_false, ← hv, State.slotArmed]

/-- A stack-wide arm is launched to every device of the stack before it executes here (R82). -/
theorem State.armSlot_stack {s : State} {r : ArmReq} (h : s.saHeld r.slot = false) (hs : r.stack = true) (who : SaWho) :
    s.armSlot who r = (((s.putSa r.slot (s.slotArmed who r)).putSaState r.slot SA_ARMED).stackSend
      PK_LAUNCH [r.slot, Time.sec r.time, Time.ns r.time, r.action, r.arg.toNat]).saRun r.slot := by
  simp only [State.armSlot, h, hs, if_true, Bool.false_eq_true, if_false, State.slotArmed]

/-- Whether an arm is not-now does not depend on the commands that are open. -/
theorem State.armNotNow_open (s : State) (d : Desc) (own : Nat) (r : ArmReq) : (s.open_ d).armNotNow own r = s.armNotNow own r := rfl

section
variable {d : Desc} {r : ArmReq} {rep : Bool} {cl : List (Nat × Nat)} (hf : armFields d = (r, rep, cl))
include hf

theorem saArm_refused {s : State} (h : s.armNotNow 0 r = true) : saArm d s = s.complete d 0x0101 ST_NOT_NOW := by
  simp only [saArm, hf, h, if_true]

theorem saArm_busy {s u : State} (h : s.armNotNow 0 r = false) (hu : u = s.each cl fun t x => t.clampDesc d x.1 x.2)
    (hh : u.saHeld r.slot = true) (hr : rep = false) : saArm d s = u.complete d 0x0101 ST_BUSY := by
  simp only [saArm, hf, h, ← hu, hh, hr, Bool.not_false, Bool.and_self, if_true, Bool.false_eq_true, if_false]

theorem saArm_accepted {s u : State} (h : s.armNotNow 0 r = false) (hu : u = s.each cl fun t x => t.clampDesc d x.1 x.2)
    (hh : u.saHeld r.slot = false ∨ rep = true) : saArm d s = u.armSlot (.host d) r := by
  have hb : (u.saHeld r.slot && !rep) = false := by rcases hh with hh | hh <;> simp [hh]
  simp only [saArm, hf, h, ← hu, hb, Bool.false_eq_true, if_false]

end

theorem State.saFree_noSwitch {s : State} {i : Nat} (h : (s.cpu ((s.sas i).arg.toNat % 4)).switch = none) :
    s.saFree i = s.saEnd i ST_DONE true 0 := by
  simp [State.saFree, h, State.saCancelled]

theorem saCancel_done {d : Desc} {s : State} {i : Nat} (hi : i = d.rf.toNat % 64) (ho : s.saOwner i = 0) (hh : s.saHeld i = true) :
    saCancel d s = (s.saFree i).complete d 0x0102 ST_DONE := by
  subst hi
  simp [saCancel, ho, hh]

theorem saCancel_refused {d : Desc} {s : State} {i : Nat} (hi : i = d.rf.toNat % 64)
    (h : (s.saOwner i ≠ 0 ∧ s.saOwner i ≠ 5) ∨ s.saHeld i = false) : saCancel d s = s.complete d 0x0102 ST_NOT_NOW := by
  subst hi
  rcases h with ⟨h0, h5⟩ | h
  · simp [saCancel, h0, h5]
  · simp [saCancel, h]

/-! ### Execution -/

/-- An action whose time has come executes, LATE more than 20 ns after it (R75, R76). -/
theorem actionExecute_due {s : State} {i st : Nat} {t : Time} (hf : s.saFirst i = true) (ha : s.saState i = SA_ARMED)
    (ho : (s.sas i).own = none) (ht : (s.sas i).time ≤ s.mer.now)
    (hst : (st, t) = if (s.sas i).time + 20 * oneNs < s.mer.now then (ST_LATE, s.mer.now) else (ST_DONE, (s.sas i).time)) :
    actionExecute i s = s.act i t st := by
  rw [actionExecute, if_pos hf, State.saRun, if_pos (by simp [ha, ho, ht])]
  split at hst <;>
  · next h =>
    obtain ⟨rfl, rfl⟩ := Prod.mk.inj hst
    simp only [h, if_true, if_false]

theorem actionExecute_early {s : State} {i : Nat} (h : s.mer.now < (s.sas i).time) : actionExecute i s = s := by
  have hr : s.saRun i = s := if_neg (by simp [h])
  rw [actionExecute, hr, ite_self]

theorem outPulseEnd_due {s : State} {o c : Nat} (h : nth s.fio.pulseEnd o none = some c) (hc : c ≤ s.mer.cyc) :
    outPulseEnd o s = { (s.p FIO_REQST_high [] (putBit (s.g FIO_REQST_high) o false)) with
      fio := { s.fio with pulseEnd := s.fio.pulseEnd.set o none } } := by
  simp only [outPulseEnd, h, hc, if_true, State.p_fio]

theorem outPulseEnd_none {s : State} {o : Nat} (h : nth s.fio.pulseEnd o none = none) : outPulseEnd o s = s := by
  simp only [outPulseEnd, h]

/-! ### The launch -/

section
variable {slot : Fin 64} {p : PktTime} {action : Nat} {arg : Word} {s u : State} {ok : Bool}

theorem launchPacket_ignored
    (hp : s.packetIn PK_LAUNCH p.head none [slot.val, Time.sec p.t, Time.ns p.t, action, arg.toNat] = (ok, u))
    (h : ok = false ∨ u.follows = false) : launchPacket slot.val p action arg s = u := by
  have hc : (!ok || !u.follows) = true := by rcases h with h | h <;> simp [h]
  simp only [launchPacket, hp, hc, if_true]

theorem launchPacket_taken
    (hp : s.packetIn PK_LAUNCH p.head none [slot.val, Time.sec p.t, Time.ns p.t, action, arg.toNat] = (true, u))
    (hf : u.follows = true) :
    launchPacket slot.val p action arg s =
      if u.armNotNow 5 ⟨slot.val, min action 8, arg, p.t, false⟩ then
        u.stackSend PK_LAUNCHRES [u.position, slot.val, ST_NOT_NOW]
      else u.armSlot .casc ⟨slot.val, min action 8, arg, p.t, false⟩ := by
  simp only [launchPacket, hp, hf, Bool.not_true, Bool.or_self, Bool.false_eq_true, if_false]

end

section
variable {h : PktHead} {slot : Fin 64} {st : Nat} {s u : State} {ok : Bool}

theorem launchresPacket_noted {x : SaSlot} (hp : s.packetIn PK_LAUNCHRES h none [h.src.val, slot.val, st] = (true, u))
    (hx : x = u.sas slot) (hm : u.isMaster = true) (hh : u.saHeld slot = true) (hs : x.stack = true) :
    launchresPacket h slot.val st s = (u.putSa slot (x.result h.src.val st)).saSettle slot := by
  subst hx
  simp only [launchresPacket, hp, hm, hh, hs, Bool.and_self, if_true]

theorem launchresPacket_ignored (hp : s.packetIn PK_LAUNCHRES h none [h.src.val, slot.val, st] = (ok, u))
    (hn : ok = false ∨ u.isMaster = false ∨ u.saHeld slot = false ∨ (u.sas slot).stack = false) :
    launchresPacket h slot.val st s = u := by
  have hc : (ok && u.isMaster && u.saHeld slot && (u.sas slot).stack) = false := by
    rcases hn with hn | hn | hn | hn <;> simp [hn]
  simp only [launchresPacket, hp, hc, Bool.false_eq_true, if_false]

end

/-! ### The obligations -/

/-- Settles O16: an arm goes by `armNotNow` and the slot, an execution by the action of the slot. -/
theorem scheduledActions : Obligations.ScheduledActions := by
  intro s hr
  refine ⟨fun d r rep cl u v hf hu hv => ⟨fun h => ?refused, fun h hh hp => ?busy, fun h hs hh => ?arm, fun h hs hh hp => ?replace⟩,
    fun d i hi ho hh => ⟨fun hsw => ?cancelPlain, ?cancel⟩, fun d i hi h => ?cancelNo,
    fun i x st t v hx hv hf ha ho ht hst => ?execute, fun i h => ?early, fun o c h hc => ?pulseEnd, fun o h => ?noPulse⟩
  case refused => rw [exec_saArm _ hr, saArm_refused hf (by rwa [State.armNotNow_open])]
  case busy => rw [exec_saArm _ hr, saArm_busy hf (by rwa [State.armNotNow_open]) hu hh hp]
  case arm =>
    rw [exec_saArm _ hr, saArm_accepted hf (by rwa [State.armNotNow_open]) hu (.inl hh), State.armSlot_free hh hs, State.slotArmed, hs]
    rfl
  case replace =>
    rw [exec_saArm _ hr, saArm_accepted hf (by rwa [State.armNotNow_open]) hu (.inr hp), State.armSlot_replaced hh hs hv,
      State.slotArmed, hs]
    rfl
  case cancel => rw [exec_saCancel _ hr, saCancel_done (s := s.open_ d) hi ho hh]
  case cancelPlain => rw [exec_saCancel _ hr, saCancel_done (s := s.open_ d) hi ho hh, State.saFree_noSwitch (s := s.open_ d) hsw]
  case cancelNo => rw [exec_saCancel _ hr, saCancel_refused (s := s.open_ d) hi h]
  case execute =>
    subst hx hv
    rw [exec_actionExecute _ hr, actionExecute_due hf ha ho ht hst, State.act]
    refine ⟨?_, ?_, ?_, ?_, ?_, ?_, ?_, ?_, ?_, ?_⟩
    case refine_6 =>
      intro hx hok hsw
      simp only [hx, hok, hsw, Option.isNone_none, Bool.and_self, if_true]
    case refine_7 =>
      intro hx h
      have hc : (s.switchOk ((s.sas i).arg.toNat % 4) && (s.cpu ((s.sas i).arg.toNat % 4)).switch.isNone) = false := by
        rcases h with h | h
        · rw [h, Bool.false_and]
        · rw [Option.isNone_eq_false_iff.mpr (Option.isSome_iff_ne_none.mpr h), Bool.and_false]
      simp only [hx, hc, Bool.false_eq_true, if_false, State.saRefuse]
    case refine_1 => rintro hx l rfl; simp only [hx, State.p_fio]
    case refine_2 => rintro hx l rfl; simp only [hx, State.p_fio]
    all_goals
      intro hx
      simp only [hx]
  case early => rw [exec_actionExecute _ hr, actionExecute_early h]
  case pulseEnd => rw [exec_outPulseEnd _ hr, outPulseEnd_due h hc]
  case noPulse => rw [exec_outPulseEnd _ hr, outPulseEnd_none h]

/-- Settles O17: a launch by `armSlot`, and a packet by whether the device takes it in and what it is in the stack. -/
theorem stackLaunch : Obligations.StackLaunch := by
  intro s hr
  refine ⟨fun d r rep hf h hs hh => ?launch, fun slot p action arg u hp hf => ⟨fun h hh => ?take, fun h => ?refuse⟩,
    fun slot p action arg ok u hp h => ?ignored, fun h slot st u x hp hx hm hh hs => ?noted, fun h slot st ok u hp hn => ?unnoted⟩
  case launch =>
    rw [exec_saArm _ hr, saArm_accepted (s := s.open_ d) (u := s.open_ d) hf (by rwa [State.armNotNow_open]) rfl (.inl hh),
      State.armSlot_stack (s := s.open_ d) hh hs,
      State.slotArmed, hs]
    rfl
  case take =>
    rw [exec_launchPacket _ _ _ _ hr, launchPacket_taken hp hf, h, if_neg (by decide),
      State.armSlot_free (r := ⟨slot.val, min action 8, arg, p.t, false⟩) hh rfl]
    rfl
  case refuse => rw [exec_launchPacket _ _ _ _ hr, launchPacket_taken hp hf, h, if_pos rfl]
  case ignored => rw [exec_launchPacket _ _ _ _ hr, launchPacket_ignored hp h]
  case noted =>
    rw [exec_launchresPacket _ _ _ hr, launchresPacket_noted hp hx hm hh hs, SaSlot.result]
    refine ⟨fun h => by rw [if_pos h], fun h => by rw [h]; rfl, fun h1 h2 => by rw [if_neg h1, if_neg h2]⟩
  case unnoted => rw [exec_launchresPacket _ _ _ hr, launchresPacket_ignored hp hn]

end Sys2Proof.Machine
end

section
/-! The analogue front end and the decimation chains (R72, R99, R109 to R114, R128 to R164): weirs and injection, the samples of the
chains, their resets, and their banks and tracking. -/

open Sys2Proof Sys2Proof.Machine

namespace Sys2Proof.Machine

/-! ### Reads that latch and words that are stored as they come -/

/-- A read of a register without live bits and without RC fields returns what it latches. -/
theorem rcRead_latched {off : Nat} {r : Reg} {ix : List Nat} {s t : State} (h : findReg off = some (r, ix))
    (hv : ∀ w, t.live r.base ix w = w) (hc : (r.fields.filter fun f => f.acc = .rc) = []) (ht : s.latch off = t) :
    rcRead off s = (t.wr off (t.rd off)).emit (.read off (t.rd off)) := by
  have hval : t.readVal off = t.rd off := by simp only [State.readVal, h, hv]
  have hclr : t.readClear off = t.wr off (t.rd off) := by simp only [State.readClear, h, hc, List.foldl_nil]
  rw [rcRead_eq, ht, hval, hclr]

/-- A field that is put back as it reads leaves the word. -/
theorem setBits_self (w : Word) {hi lo : Nat} (h1 : lo ≤ hi) (h2 : hi < 32) : setBits w hi lo (bits w hi lo) = w := by
  refine BitVec.eq_of_getLsbD_eq fun i _ => ?_
  rw [setBits_getLsbD _ _ _ _ _ h1 h2]
  split
  · next h =>
    rw [bits_testBit, Nat.sub_add_cancel h.1, BitVec.getLsbD]
    simp [show i - lo < hi + 1 - lo by omega]
  · rfl

/-- A clamped descriptor field changes GEN_CLAMPCNT and GEN_CLAMPLAST only. -/
theorem State.clampDesc_rd (s : State) (d : Desc) (o n : Nat) {a : Nat} (h : a ≠ 0x120) (hl : a ≠ 0x124) :
    (s.clampDesc d o n).rd a = s.rd a := by
  unfold State.clampDesc
  split
  · rfl
  · rw [State.wr_rd, if_neg (Ne.symm hl), State.cnt_rd, if_neg]
    exact Ne.symm h

/-- Three clamped descriptor fields leave Meridian, and every register but GEN_CLAMPCNT and GEN_CLAMPLAST. -/
theorem State.clampDesc_three (s : State) (d : Desc) (o n o1 n1 o2 n2 : Nat) {u : State}
    (hu : u = ((s.clampDesc d o n).clampDesc d o1 n1).clampDesc d o2 n2) :
    u.mer = s.mer ∧ ∀ a, a ≠ 0x120 → a ≠ 0x124 → u.rd a = s.rd a := by
  subst hu
  refine ⟨by simp, fun a h hl => ?_⟩
  rw [State.clampDesc_rd _ _ _ _ h hl, State.clampDesc_rd _ _ _ _ h hl, State.clampDesc_rd _ _ _ _ h hl]

/-! ### Weirs -/

theorem weirFire_fires {s : State} {n : Nat} {w : WeirSt} {edge t1 st : Time} {c : Nat} (pol : Bool) (hw : w = s.weir n)
    (hr : s.afe.run = true) (he : s.on AFE_WCFG_en [n] = true) (hs : w.settling = none) (ha : w.armed = true)
    (ht : (nth s.mer.tdc n (true, 0)).1 = true) (h1 : t1 = ((edge : Int) - s.trimI (0x2A0 + 4 * n) * 1024).toNat / 1024 * 1024)
    (hst : st = ((t1 : Int) - s.trimI (0x220 + 8 * n) * 1024).toNat) (hc : c = (w.count + 1) % 2 ^ 32) :
    weirFire n pol edge s =
      ((((((({ s with mer := { s.mer with tdc := s.mer.tdc.set n (false, edge) } } : State).putWeir n
        { w with armed := false, stamp := st, pol := pol, count := c }).p AFE_WTS_3 [n] c).p AFE_WTS_0 [n]
        (Time.sec st % 2 ^ 32)).flag AFE 9).raise (164 + n)).recWeir n st pol) := by
  have hstamp : s.tdcStamp n edge = (some t1, { s with mer := { s.mer with tdc := s.mer.tdc.set n (false, edge) } }) := by
    rw [State.tdcStamp, if_pos ht, h1]
    rfl
  subst hst hc hw
  simp only [weirFire, State.weirFires, hr, he, hs, ha, hstamp, Option.isSome_none, Bool.not_true, Bool.or_self, Bool.false_eq_true,
    if_false]
  rfl

theorem weirFire_off {s : State} {n : Nat} (h : s.afe.run = false ∨ s.on AFE_WCFG_en [n] = false ∨ (s.weir n).settling ≠ none)
    (pol : Bool) (edge : Time) : weirFire n pol edge s = s := by
  have hc : (!s.afe.run || !s.on AFE_WCFG_en [n] || (s.weir n).settling.isSome) = true := by
    rcases h with h | h | h
    · simp [h]
    · simp [h]
    · simp [Option.isSome_iff_ne_none.mpr h]
  simp only [weirFire, State.weirFires, hc, if_true]

theorem weirRearm_due {s : State} {n : Nat} (ha : (s.weir n).armed = false) (ht : (nth s.mer.tdc n (true, 0)).1 = true) :
    weirRearm n s = s.putWeir n { s.weir n with armed := true } := if_pos (by simp [ha, ht])

theorem weirRearm_none {s : State} {n : Nat} (h : (s.weir n).armed = true ∨ (nth s.mer.tdc n (true, 0)).1 = false) :
    weirRearm n s = s := if_neg (by rcases h with h | h <;> simp [h])

theorem weirSettle_due {s : State} {n c : Nat} (hs : (s.weir n).settling = some c) (h : 10 * oneUs ≤ s.since c) :
    weirSettle n s = s.putWeir n { s.weir n with settling := none } := by
  simp only [weirSettle, hs, h, if_true]

theorem findReg_afeWts (n : Fin 16) :
    findReg (0x30400 + 16 * n.val) = some (⟨0x30400, [(16, 16)], .blk, [⟨31, 0, .ro, 0, .any⟩]⟩, [n.val]) := by
  revert n; decide

/-- The seconds that a read of AFE_WTS[n][0] latches. -/
theorem afeWtsRead_seconds (s : State) (n : Fin 16) :
    (afeWtsRead n.val s).rd (0x30400 + 16 * n.val) = BitVec.ofNat 32 (Time.sec (s.weir n).stamp) := by
  have h0 : fldOff AFE_WTS_0 [n.val] = 0x30400 + 16 * n.val := by simp [fldOff]
  have hn (f : Fld) (k : Nat) (hf : f.base = 0x30400 + k) (hs : f.strides = [16]) (hk : 0 < k ∧ k < 16) :
      ¬ fldOff f [n.val] = 0x30400 + 16 * n.val := by simp [fldOff, hf, hs]; omega
  rw [afeWtsRead, State.p_rd, if_neg (hn _ 8 rfl rfl (by decide)), State.p_rd, if_neg (hn _ 8 rfl rfl (by decide)), State.p_rd,
    if_neg (hn _ 8 rfl rfl (by decide)), State.p_rd, if_neg (hn _ 4 rfl rfl (by decide)), State.p_rd, if_pos h0, setBits_whole]
  exact BitVec.eq_of_toNat_eq (by simp)

theorem rcRead_afeWts (s : State) (n : Fin 16) :
    rcRead (0x30400 + 16 * n.val) s =
      ((afeWtsRead n.val s).wr (0x30400 + 16 * n.val) ((afeWtsRead n.val s).rd (0x30400 + 16 * n.val))).emit
        (.read (0x30400 + 16 * n.val) (BitVec.ofNat 32 (Time.sec (s.weir n).stamp))) := by
  have hl : s.latch (0x30400 + 16 * n.val) = afeWtsRead n.val s := by rw [State.latch, findReg_afeWts n]; rfl
  rw [rcRead_latched (findReg_afeWts n) (fun _ => rfl) (by decide) hl, afeWtsRead_seconds]

theorem injectionWindow_full {s : State} {n k : Nat} {hg lg : Int} {mean : Int → Nat} (h : s.afe.inj.full = some (n, k, hg, lg))
    (hm : mean = fun x : Int => wrap 32 (roundAway ((x : Rat) / ((128 * k : Nat) : Rat)))) :
    injectionWindow s = (((s.p AFE_INJRES_HG [] (if n < 16 then mean hg else 0)).p AFE_INJRES_LG [] (mean lg)).cnt
      AFE_INJCNT_count).putInj { s.afe.inj with full := none } := by
  subst hm
  simp only [injectionWindow, h]

theorem injectionWindow_none {s : State} (h : s.afe.inj.full = none) : injectionWindow s = s := by simp only [injectionWindow, h]

/-! ### Samples -/

theorem wbSample_due {s : State} {codes : List (List (Int × Bool))} (hr : s.afe.run = true) (hm : s.afe.mainDue = none)
    (hf : s.resetFirst = false) : wbSample codes s = (s.wbFeed codes).recWb.recOutput 0 := by
  have hc : wbSampleChain codes s = s.wbFeed codes := if_neg (by simp [hr, hm, hf])
  have hn := s.wbFeed_next codes
  rw [wbSample, hc]
  exact if_neg (by omega)

theorem wbSample_stopped {s : State} {codes : List (List (Int × Bool))} (hr : s.afe.run = false) : wbSample codes s = s := by
  have hc : wbSampleChain codes s = s := if_pos (by simp [hr])
  rw [wbSample, hc]
  exact if_pos rfl

theorem any_units {s : State} (h : ∀ t ∈ [0, 1, 2], s.unitReady t = false) : [0, 1, 2].any s.unitReady = false :=
  List.any_eq_false.mpr fun t ht => by simp [h t ht]

theorem mainPointSample_due {s u : State} {m : Nat} {us : List Samp} (hm : s.afe.mainDue = some m)
    (hp : ∀ p ∈ List.range 24, s.pipeDue m p = false) (ht : ∀ t ∈ [0, 1, 2], s.unitReady t = false)
    (hu : (us, u) = (s.stopPipes m).mainPoints (List.range 24)) :
    mainPointSample s = { (u.injAdd m) with
      afe := { (u.injAdd m).afe with mainDue := none }
      dch := { (u.injAdd m).dch with
        pipes := (u.injAdd m).dch.pipes.map fun x => x.push us m
        mainAt := some m
        preAt := if m % 1024 = 0 ∧ 1024 ≤ m then some (m - 1024) else (u.injAdd m).dch.preAt } } := by
  have hany : ((List.range 24).any (s.pipeDue m) || [0, 1, 2].any s.unitReady) = false := by
    rw [any_units ht, Bool.or_false]
    exact List.any_eq_false.mpr fun p h => by simp [hp p h]
  simp only [mainPointSample, hm, hany, ← hu, Bool.false_eq_true, if_false, Bool.and_eq_true, decide_eq_true_eq]

theorem mainPointSample_none {s : State} (h : s.afe.mainDue = none) : mainPointSample s = s := by simp only [mainPointSample, h]

theorem fixedTapOutput_other {s : State} {t : Nat} (hu : s.unitReady t = true) (ht : t ≠ 0) (avail : Time) (ack : Nat) :
    fixedTapOutput t avail ack s = ((s.fixedTap t).recOutput (t + 1)).svPublish t := by
  simp only [fixedTapOutput, hu, ht, Bool.not_true, Bool.false_eq_true, if_false]

theorem fixedTapOutput_none {s : State} {t : Nat} (hu : s.unitReady t = false) (avail : Time) (ack : Nat) :
    fixedTapOutput t avail ack s = s := if_pos (by simp [hu])

theorem fixedTapOutput_pioc {s u v w : State} {avail ts : Time} {ack : Nat} (hr : s.unitReady 0 = true)
    (hts : ts = modTime (nth s.dch.next 0 0)) (hu : u = (s.fixedTap 0).piocSample ts) (hv : v = u.recStarts u.piocStarts ts)
    (hw : w = ({ v with tmx := { v.tmx with rose := [] } }.piocPath avail ack).recRows ts) :
    fixedTapOutput 0 avail ack s = ((({ w with tmx := { w.tmx with rose := u.tmx.rose } } : State).recOutput 1).svPublish 0) := by
  subst hts hu hv hw
  simp only [fixedTapOutput, hr, Bool.not_true, Bool.false_eq_true, if_false, if_true]

section
variable {s u : State} {p : Placed} (hp : s.dch.nextT = some p) (hr : s.afe.run = true) (hn : p.now ≤ s.mer.now)
include hp hr hn

theorem trackedInstant_fixed {n : Placed} (h : s.tracked p = (some n, u)) : trackedInstant s = u.gridSend n := by
  simp only [trackedInstant, hp, hr, hn, h, decide_true, Bool.and_self, if_true]

theorem trackedInstant_last (h : s.tracked p = (none, u)) : trackedInstant s = u := by
  simp only [trackedInstant, hp, hr, hn, h, decide_true, Bool.and_self, if_true]

end

theorem trackedInstant_none {s : State} (h : s.dch.nextT = none) : trackedInstant s = s := by simp only [trackedInstant, h]

/-! ### Resets -/

theorem syncPinPulse_edge {s : State} {rising : Bool} {width : Nat} (he : s.on DCH_SYNCCFG_pinen = true) (hw : 20 ≤ width)
    (hp : rising = !s.on DCH_SYNCCFG_pinpol) (edge : Time) :
    syncPinPulse rising edge width s = s.askReset (modTime (modAt (edge + 8 * oneNs))) 0 none := if_pos (by simp [he, hw, hp])

theorem syncPinPulse_none {s : State} {rising : Bool} {width : Nat}
    (h : s.on DCH_SYNCCFG_pinen = false ∨ width < 20 ∨ rising = s.on DCH_SYNCCFG_pinpol) (edge : Time) :
    syncPinPulse rising edge width s = s := by
  refine if_neg ?_
  rcases h with h | h | h
  · simp [h]
  · simp [Nat.not_le.mpr h]
  · simp [h]

theorem findReg_dchSynccfg : findReg 0x40110 =
    some (⟨0x40110, [], .blk, [⟨8, 8, .wo, 0, .any⟩, ⟨1, 1, .rw, 0, .any⟩, ⟨0, 0, .rw, 0, .any⟩]⟩, []) := by decide

theorem clampStatic_dchSynccfg (v : Word) :
    clampStatic [⟨8, 8, .wo, 0, .any⟩, ⟨1, 1, .rw, 0, .any⟩, ⟨0, 0, .rw, 0, .any⟩] v = v := by
  have h : clampStatic [⟨8, 8, .wo, 0, .any⟩, ⟨1, 1, .rw, 0, .any⟩, ⟨0, 0, .rw, 0, .any⟩] v =
      setBits (setBits v 1 1 (bits v 1 1)) 0 0 (bits v 0 0) := rfl
  rw [h, setBits_self v (by decide) (by decide), setBits_self v (by decide) (by decide)]

theorem hostWrite_dchSynccfg {s : State} {v : Word} (hv : v.getLsbD 8 = true) (h : s.inSt [DAWN, NIGHT, SAFE] = false) (p : Nat)
    (l : List (Nat × Nat)) : s.hostWrite p 0x40110 v l =
      (s.wr 0x40110 (setBits (setBits (s.rd 0x40110) 1 1 (bits v 1 1)) 0 0 (bits v 0 0))).syncCmd := by
  rw [hostWrite_accepted findReg_dchSynccfg (by decide) rfl (clampStatic_dchSynccfg v) (by decide)
    (by simp only [State.refuses, h, Bool.and_false]) (clampTotal_self _ _ _)]
  exact if_pos hv

theorem hostWrite_dchSynccfg_refused {s : State} {v : Word} (hv : v.getLsbD 8 = true) (h : s.inSt [DAWN, NIGHT, SAFE] = true) (p : Nat)
    (l : List (Nat × Nat)) : s.hostWrite p 0x40110 v l = s.notNow 0x40110 :=
  hostWrite_refused findReg_dchSynccfg (by decide) (clampStatic_dchSynccfg v).symm
    (.inr (by simp only [State.refuses, h, hv, Bool.and_self])) p l

theorem dchSync_refused {s : State} (h : s.inSt [DAWN, NIGHT, SAFE] = true) (d : Desc) :
    dchSync d s = s.complete d 0x0401 ST_NOT_NOW := if_pos h

theorem dchSync_accepted {s : State} (h : s.inSt [DAWN, NIGHT, SAFE] = false) (d : Desc) :
    dchSync d s = s.askReset (nextGrid s.mer.now) 1 (some d) := if_neg (by simp [h])

/-- The device resets of the earliest instant are taken together (R153, R154, R158). -/
theorem decimatorReset_due {s u : State} {tr : Time} {l : List (Time × Nat × Option Desc)} {b : Bool} (hd : s.resetDue = some tr)
    (hl : l = s.dch.resets.filter fun r => r.1 = tr) (hr : s.afe.run = true) (hc : s.chainsBusy = false) (ht : modAt tr < s.reach)
    (hb : s.chanBefore (modAt tr) = false) (hu : u = { s with dch := { s.dch with resets := s.dch.resets.filter fun r => r.1 ≠ tr } })
    (hh : b = (l.any (fun r => r.2.1 = 5) || l.any (fun r => r.2.1 = 4))) :
    decimatorReset s = (((((if b then u.takeConfig else u).restart tr b).lastSync tr
      ((l.map fun r => r.2.1).foldl max 0)).flag DCH 8).syncDone l ST_DONE) := by
  subst hl hu hh
  simp only [decimatorReset, hd, hr, hc, ht, hb, Bool.not_true, decide_true, Bool.or_self, Bool.false_eq_true, if_false]

theorem decimatorReset_none {s : State} (h : s.resetDue = none) : decimatorReset s = s := by simp only [decimatorReset, h]

theorem channelReset_due {s : State} {n tr : Nat} {c : ChanChg} {l : List (Nat × ChanChg)} (hd : (s.chan n).due = (tr, c) :: l)
    (hr : s.afe.run = true) (hc : s.chainsBusy = false) (ht : tr < s.reach) (hb : ∀ t, s.resetDue = some t → tr < modAt t) :
    channelReset n s = ((s.resetChan n tr).each ((List.range 24).filter fun p => ((s.pipe p).takeDue tr).1.src = n)
      fun s p => s.resetPipe p tr).flag DCH 8 := by
  have hany : (s.resetDue.any fun t => modAt t ≤ tr) = false := by
    cases h : s.resetDue with
    | none => rfl
    | some t => simpa using hb t h
  simp only [channelReset, hd, hr, hc, ht, hany, Bool.not_true, decide_true, Bool.or_self, Bool.false_eq_true, if_false]

theorem channelReset_none {s : State} {n : Nat} (h : (s.chan n).due = []) : channelReset n s = s := by simp only [channelReset, h]

theorem pipelineReset_due {s : State} {p m tr : Nat} (hm : s.afe.mainDue = some m) (ht : ((s.pipe p).takeDue m).2.getLast? = some tr)
    (hu : ∀ t ∈ [0, 1, 2], s.unitReady t = false) (hf : s.frameReady = false) :
    pipelineReset p s = (s.resetPipe p (max tr (s.pipe p).tr)).flag DCH 8 := by
  simp only [pipelineReset, hm, any_units hu, hf, ht, Bool.or_self, Bool.false_eq_true, if_false]

theorem pipelineReset_none {s : State} {p : Nat} (h : s.afe.mainDue = none) : pipelineReset p s = s := by simp only [pipelineReset, h]

/-! ### Banks and tracking -/

section
variable {d : Desc} {s u : State} {p0 t0 w0 p t w : Nat} (hp0 : p0 = d.rf.toNat % 32) (ht0 : t0 = d.rf.toNat / 32 % 4)
  (hw0 : w0 = d.b.toNat % 512) (hp : p = min p0 23) (ht : t = min t0 2) (hw : w = min (max w0 8) 256)
  (hu : u = ((s.clampDesc d 24 (b2n (w ≠ w0))).clampDesc d 28 (b2n (!bitAt d.rf.toNat 8 && 23 < p0))).clampDesc d 28 (b2n (t0 = 3)))
include hp0 ht0 hw0 hp ht hw hu

theorem dchSwap_eq : dchSwap d s =
    if u.inSt [DAWN, NIGHT, SAFE] || (!bitAt d.rf.toNat 8 && !(u.runsNow p && !u.scsNow p t)) then s.complete d 0x0402 ST_NOT_NOW
    else { u with dch := { u.dch with
      swaps := u.dch.swaps ++ [⟨t, if bitAt d.rf.toNat 8 then (List.range 24).filter fun q => u.runsNow q && !u.scsNow q t else [p],
        u.mer.now, b2n (bitAt d.rf.toNat 7), w, d⟩] } } := by
  subst hp0 ht0 hw0 hp ht hw hu
  rfl

end

theorem dchBdef_accepted {s : State} {v : Word} (h : ∀ x ∈ bdefBanks v.toNat, s.bankInUse x.1 x.2 = false) :
    dchBdef v s = s.each (bdefBanks v.toNat) State.bankDefault :=
  if_neg (by rw [Bool.not_eq_true, List.any_eq_false]; exact fun x hx => by simp [h x hx])

theorem dchBdef_refused {s : State} {v : Word} (h : ∃ x ∈ bdefBanks v.toNat, s.bankInUse x.1 x.2 = true) :
    dchBdef v s = s.notNow 0x40520 := if_pos (List.any_eq_true.mpr h)

theorem findReg_dchTrkfreq : findReg 0x40104 =
    some (⟨0x40104, [], .blk, [⟨31, 0, .rw, 50000000, .range 10000000 70000000⟩]⟩, []) := by decide

/-- A word within the range of a register that is one field is stored as it is. -/
theorem clampStatic_within {v : Word} {k lo hi : Nat} (h1 : lo ≤ v.toNat) (h2 : v.toNat ≤ hi) :
    clampStatic [⟨31, 0, .rw, k, .range lo hi⟩] v = v := by
  have hb : bits v 31 0 = v.toNat := by
    have hv := v.isLt
    rw [bits]; omega
  have h : clampStatic [⟨31, 0, .rw, k, .range lo hi⟩] v = setBits v 31 0 (min (max (bits v 31 0) lo) hi) := rfl
  rw [h, hb, Nat.max_eq_left h1, Nat.min_eq_left h2, ← hb, setBits_word]

/-- A register that is one stored field takes the word. -/
theorem storeWord_whole (old v w : Word) (k : Nat) (l : Legal) : storeWord [⟨31, 0, .rw, k, l⟩] old v w = w := setBits_word old w

theorem hostWrite_dchTrkfreq {s : State} {v : Word} (hs : s.g DCH_TRK_src = 1) (h1 : 10000000 ≤ v.toNat) (h2 : v.toNat ≤ 70000000)
    (p : Nat) (l : List (Nat × Nat)) : s.hostWrite p 0x40104 v l = (s.wr 0x40104 v).trkFreqWritten := by
  rw [hostWrite_accepted findReg_dchTrkfreq (by decide) rfl (clampStatic_within h1 h2) (by decide)
    (by simp [State.refuses, hs]) (clampTotal_self _ _ _), storeWord_whole]
  rfl

theorem hostWrite_dchTrkfreq_refused {s : State} {v : Word} (hs : s.g DCH_TRK_src ≠ 1) (p : Nat) (l : List (Nat × Nat)) :
    s.hostWrite p 0x40104 v l = s.notNow 0x40104 :=
  hostWrite_refused findReg_dchTrkfreq (by decide) rfl (.inr (by simp [State.refuses, hs])) p l

theorem trackingHostTimeout_due {s : State} (hs : s.dg DCH_TRK_src = 1) (hd : s.dch.hostDone = false)
    (ht : s.dg DCH_TRK_hto * oneMs ≤ s.since s.dch.hostCyc) :
    trackingHostTimeout s = { s with dch := { s.dch with hostDone := true } } := if_pos (by simp [hs, hd, ht])

theorem trackingHostTimeout_none {s : State} (h : s.dg DCH_TRK_src ≠ 1 ∨ s.dch.hostDone = true) : trackingHostTimeout s = s :=
  if_neg (by rcases h with h | h <;> simp [h])

/-! ### The obligations -/

/-- Settles O18: a firing goes by the weir and its TDC channel, a read latches before it answers, a window shows its means once. -/
theorem weirsAndInjection : Obligations.WeirsAndInjection := by
  intro s hr
  refine ⟨fun n pol edge t1 st w c hw hrun he hs ha ht h1 hst hc => ?fire, fun n pol edge h => ?off, fun n ha ht => ?rearm,
    fun n h => ?noRearm, fun n c hs h => ?settles, ?read, fun n k hg lg mean h hm => ?window, fun h => ?noWindow⟩
  case fire => rw [exec_weirFire _ _ _ hr, weirFire_fires pol hw hrun he hs ha ht h1 hst hc]
  case off => rw [exec_weirFire _ _ _ hr, weirFire_off h]
  case rearm => rw [exec_weirRearm _ hr, weirRearm_due ha ht]
  case noRearm => rw [exec_weirRearm _ hr, weirRearm_none h]
  case settles => rw [exec_weirSettle _ hr, weirSettle_due hs h]
  case read =>
    rintro n t w rfl rfl
    rw [exec_afeWtsRead _ hr, rcRead_afeWts, afeWtsRead]
  case window => rw [exec_injectionWindow hr, injectionWindow_full h hm]
  case noWindow => rw [exec_injectionWindow hr, injectionWindow_none h]

/-- Settles O19: each event of a chain by whether what it waits for has come. -/
theorem sampleChains : Obligations.SampleChains := by
  intro s hr
  refine ⟨fun codes hrun hm hf => ?wb, fun codes hrun => ?wbStopped, fun m us u hm hp ht hu => ?main, fun h => ?noMain,
    fun t avail ack hu ht => ?tap, fun avail ack ts u v w hu hts h1 h2 h3 => ?pioc, fun t avail ack hu => ?noTap,
    fun p u hp hrun hn => ?tracked, fun h => ?noTracked⟩
  case wb => rw [exec_wbSample _ hr, wbSample_due hrun hm hf]
  case wbStopped => rw [exec_wbSample _ hr, wbSample_stopped hrun]
  case main => rw [exec_mainPointSample hr, mainPointSample_due hm hp ht hu]
  case noMain => rw [exec_mainPointSample hr, mainPointSample_none h]
  case tap => rw [exec_fixedTapOutput _ _ _ hr, fixedTapOutput_other hu (fun h => ht (Fin.ext h))]
  case pioc => rw [exec_fixedTapOutput _ _ _ hr, Fin.val_zero, fixedTapOutput_pioc hu hts h1 h2 h3]
  case noTap => rw [exec_fixedTapOutput _ _ _ hr, fixedTapOutput_none hu]
  case tracked =>
    rw [exec_trackedInstant hr]
    exact ⟨fun h => by rw [trackedInstant_last hp hrun hn h], fun n h => by rw [trackedInstant_fixed hp hrun hn h]⟩
  case noTracked => rw [exec_trackedInstant hr, trackedInstant_none h]

/-- Settles O20: a request asks for its instant, and each reset is taken when nothing comes before it. -/
theorem chainResets : Obligations.ChainResets := by
  intro s hr
  refine ⟨fun rising edge width he hw hp => ?pin, fun rising edge width h => ?noPin, fun d h => ?sync, fun d h => ?syncNo,
    fun v hv h => ?cmd, fun v hv h => ?cmdNo, fun tr l u b hd hl hrun hc ht hb hu hh => ?device, fun h => ?noDevice,
    fun n tr c l hd hrun hc ht hb => ?channel, fun n h => ?noChannel, fun p m tr hm ht hu hf => ?pipe, fun p h => ?noPipe⟩
  case pin => rw [exec_syncPinPulse _ _ _ hr, syncPinPulse_edge he hw hp, State.askReset]
  case noPin => rw [exec_syncPinPulse _ _ _ hr, syncPinPulse_none h]
  case sync => rw [exec_dchSync _ hr, dchSync_accepted (s := s.open_ d) h]; rfl
  case syncNo => rw [exec_dchSync _ hr, dchSync_refused (s := s.open_ d) h]
  case cmd => rw [exec_dchSynccfgCmd _ hr, hostWrite_dchSynccfg hv h, State.syncCmd]; rfl
  case cmdNo => rw [exec_dchSynccfgCmd _ hr, hostWrite_dchSynccfg_refused hv h]
  case device => rw [exec_decimatorReset hr, decimatorReset_due hd hl hrun hc ht hb hu hh]
  case noDevice => rw [exec_decimatorReset hr, decimatorReset_none h]
  case channel => rw [exec_channelReset _ hr, channelReset_due hd hrun hc ht hb]
  case noChannel => rw [exec_channelReset _ hr, channelReset_none h]
  case pipe => rw [exec_pipelineReset _ hr, pipelineReset_due hm ht hu hf]
  case noPipe => rw [exec_pipelineReset _ hr, pipelineReset_none h]

/-- Settles O21: a swap by `dchSwap_eq` on the state that has counted its clamps, and the writes by what they find in use. -/
theorem banksAndTracking : Obligations.BanksAndTracking := by
  intro s hr
  refine ⟨fun d p0 t0 w0 p t w u hp0 ht0 hw0 hp ht hw hu => ?swap, fun v h => ?bdef, fun v h => ?bdefNo, fun v hs h1 h2 => ?freq,
    fun v hs => ?freqNo, fun hs hd ht => ?timeout, fun h => ?noTimeout⟩
  case swap =>
    obtain ⟨hmer, hrd⟩ := (s.open_ d).clampDesc_three d _ _ _ _ _ _ hu
    have hin : u.inSt [DAWN, NIGHT, SAFE] = s.inSt [DAWN, NIGHT, SAFE] := State.inSt_congr (hrd _ (by decide) (by decide)) _
    have hnow : u.mer.now = s.mer.now := congrArg MerSt.now hmer
    rw [exec_dchSwap _ hr, dchSwap_eq (s := s.open_ d) hp0 ht0 hw0 hp ht hw hu, hnow]
    refine ⟨fun h => ?_, fun h ha hrun hscs => ?_, fun ha h => ?_, fun h ha => ?_⟩
    · rw [if_pos (by rw [hin, h, Bool.true_or])]
    · simp only [h, ha, hrun, hscs, Bool.not_false, Bool.and_self, Bool.not_true, Bool.and_false, Bool.or_self, Bool.false_eq_true,
        if_false]
    · rw [if_pos]
      rcases h with h | h <;> simp [ha, h]
    · simp only [h, ha, Bool.not_true, Bool.false_and, Bool.or_self, Bool.false_eq_true, if_false, if_true]
  case bdef => rw [exec_dchBdef _ hr, hostWrite_dchBdef, dchBdef_accepted h]
  case bdefNo => rw [exec_dchBdef _ hr, hostWrite_dchBdef, dchBdef_refused h]
  case freq => rw [exec_dchTrkfreq _ hr, hostWrite_dchTrkfreq hs h1 h2, State.trkFreqWritten]; rfl
  case freqNo => rw [exec_dchTrkfreq _ hr, hostWrite_dchTrkfreq_refused hs]
  case timeout => rw [exec_trackingHostTimeout hr, trackingHostTimeout_due hs hd ht]
  case noTimeout => rw [exec_trackingHostTimeout hr, trackingHostTimeout_none h]

end Sys2Proof.Machine
end

section
/-! Frames, phasor feeds, element slots and the events of the rows (R22, R176 to R184, R195 to R211, R268 to R298, R589). -/

open Sys2Proof Sys2Proof.Machine

namespace Sys2Proof.Machine

/-! ### The order of work in a frame -/

theorem frame_none {s : State} (h : s.frameReady = false ∨ s.tmx.second = true) (t0 : Time) (ele ack : Nat) :
    frame t0 ele ack s = s := if_pos (by rcases h with h | h <;> simp [h])

theorem State.frameSecond_direct {s u : State} {t : PassTimes} (hu : u = s.holdMissing) (h : u.ele.wait = []) :
    s.frameSecond t = ((u.passTwo t.ackNs).slack t.ackNs t.lateNs).frameEnd := by
  subst hu
  rw [State.frameSecond, h, List.isEmpty_nil, if_pos rfl]

theorem State.frameSecond_waited {s u : State} {t : PassTimes} (hu : u = s.holdMissing) (h : u.ele.wait ≠ []) :
    s.frameSecond t = (((u.eleCascade.eleDone t.eleNs).passTwo t.ackNs).slack t.ackNs t.lateNs).frameEnd := by
  subst hu
  rw [State.frameSecond, List.isEmpty_eq_false_iff.mpr h, if_neg Bool.false_ne_true]

theorem cascadeClassSPass_in {s : State} (h : s.tmx.second = true) (hp : s.pubsIn = true) (t : PassTimes) :
    cascadeClassSPass t s = s.frameSecond t := if_pos (by rw [h, hp]; rfl)

theorem cascadeClassSPass_none {s : State} (h : s.tmx.second = false ∨ s.pubsIn = false) (t : PassTimes) :
    cascadeClassSPass t s = s := if_neg (by rcases h with h | h <;> simp [h])

/-- At the deadline what is missing counts as such, and a second pass that waits goes on. -/
theorem cascadeDeadline_due {s u : State} (h : s.on GEN_STATE_stacked = true ∨ s.tmx.second = true)
    (hd : deadline s.dch.frame.ts ≤ s.mer.now)
    (hu : u = (if s.pubsIn || s.tmx.missed then s else ({ s with tmx := { s.tmx with missed := true } } : State).flag TMX 13))
    (t : PassTimes) : cascadeDeadline t s = if u.holdMissing.tmx.second then u.holdMissing.frameSecond t else u.holdMissing := by
  subst hu
  exact if_pos (by rw [Bool.and_eq_true, Bool.or_eq_true, decide_eq_true_eq]; exact ⟨h, hd⟩)

theorem cascadeDeadline_none {s : State}
    (h : (s.on GEN_STATE_stacked = false ∧ s.tmx.second = false) ∨ s.mer.now < deadline s.dch.frame.ts) (t : PassTimes) :
    cascadeDeadline t s = s := by
  refine if_neg ?_
  rcases h with ⟨h, h'⟩ | h
  · simp [h, h']
  · simp [Nat.not_le.mpr h]

/-- Settles O22: `frame` in a state that is ready, and the two events that end its wait. -/
theorem frameOrder : Obligations.FrameOrder := by
  intro s hr
  refine ⟨fun t0 ele ack u v w h1 h2 h3 hu hv hw => ⟨fun hc => ?wait, fun hc => ?direct⟩, fun t0 ele ack h => ?none,
    fun ele ack late u hu h hp => ⟨fun hw => ?pass, fun hw => ?waited⟩, fun t h => ?noPass,
    fun t u h hd hu => ⟨fun hf => ?held, fun hf => ?goesOn⟩, fun t h => ?early⟩
  case wait | direct =>
    subst hw hv hu
    rw [exec_frame _ _ _ hr, frame, h1, h2, h3, if_neg (by decide)]
    simp only [hc, if_true, Bool.false_eq_true, if_false]
  case none => rw [exec_frame _ _ _ hr, frame_none h]
  case pass => rw [exec_cascadeClassSPass _ hr, cascadeClassSPass_in h hp, State.frameSecond_direct hu hw]
  case waited => rw [exec_cascadeClassSPass _ hr, cascadeClassSPass_in h hp, State.frameSecond_waited hu hw]
  case noPass => rw [exec_cascadeClassSPass _ hr, cascadeClassSPass_none h]
  case held => rw [exec_cascadeDeadline _ hr, cascadeDeadline_due h hd hu, hf, if_neg Bool.false_ne_true]
  case goesOn => rw [exec_cascadeDeadline _ hr, cascadeDeadline_due h hd hu, hf, if_pos rfl]
  case early => rw [exec_cascadeDeadline _ hr, cascadeDeadline_none h]

/-! ### Phasor feeds -/

theorem pheRfeed_queued {s : State} {d : Desc} {r : Nat} (hr : r = d.rf.toNat % 8) (hs : s.inSt [DAWN, NIGHT] = false)
    (he : s.on PHE_RGRP_en [r] = true) (h3 : s.g PHE_RGRP_src [r] = 3) (buf : List Byte) :
    pheRfeed d buf s = { (s.clampDesc d 4 (b2n (d.len.toNat ≠ 160))) with
      phe := { (s.clampDesc d 4 (b2n (d.len.toNat ≠ 160))).phe with
        feeds := (s.clampDesc d 4 (b2n (d.len.toNat ≠ 160))).phe.feeds ++ [(r, d, buf)] } } := by
  subst hr
  exact if_neg (by simp [hs, he, h3])

theorem pheRfeed_refused {s : State} {d : Desc} {r : Nat} (hr : r = d.rf.toNat % 8)
    (h : s.inSt [DAWN, NIGHT] = true ∨ s.on PHE_RGRP_en [r] = false ∨ s.g PHE_RGRP_src [r] ≠ 3) (buf : List Byte) :
    pheRfeed d buf s = s.complete d 0x0501 ST_NOT_NOW := by
  subst hr
  exact if_pos (by rcases h with h | h | h <;> simp [h])

theorem findReg_pheHfreq (g : Fin 8) : findReg (0x501A0 + 4 * g.val) =
    some (⟨0x501A0, [(4, 8)], .blk, [⟨31, 0, .rw, 50000000, .range 10000000 70000000⟩]⟩, [g.val]) := by
  revert g; decide

theorem hostWrite_pheHfreq {s : State} {g : Fin 8} {v : Word} (hs : s.on PHE_GCFG_fsrc [g.val] = true) (h1 : 10000000 ≤ v.toNat)
    (h2 : v.toNat ≤ 70000000) (p : Nat) (l : List (Nat × Nat)) :
    s.hostWrite p (0x501A0 + 4 * g.val) v l = (s.wr (0x501A0 + 4 * g.val) v).pheHfreqWritten g.val := by
  rw [hostWrite_accepted (findReg_pheHfreq g) (by decide) rfl (clampStatic_within h1 h2) (by decide)
    (by simp [State.refuses, hs]) (clampTotal_self _ _ _), storeWord_whole]
  rfl

theorem hostWrite_pheHfreq_refused {s : State} {g : Fin 8} (hs : s.on PHE_GCFG_fsrc [g.val] = false) (p : Nat) (v : Word)
    (l : List (Nat × Nat)) : s.hostWrite p (0x501A0 + 4 * g.val) v l = s.notNow (0x501A0 + 4 * g.val) :=
  hostWrite_refused (findReg_pheHfreq g) (by decide) rfl (.inr (by simp [State.refuses, hs])) p l

theorem pheHostTimeout_due {s : State} {g : Nat} (he : s.on PHE_GCFG_fsrc [g] = true) (hd : (s.grp g).hostDone = false)
    (ht : s.g PHE_GFCFG_hto [g] * oneMs ≤ s.since (s.grp g).hostCyc) :
    pheHostTimeout g s = (s.putGrp g { s.grp g with hostDone := true }).flag PHE 10 := if_pos (by simp [he, hd, ht])

theorem pheHostTimeout_none {s : State} {g : Nat} (h : s.on PHE_GCFG_fsrc [g] = false ∨ (s.grp g).hostDone = true) :
    pheHostTimeout g s = s := if_neg (by rcases h with h | h <;> simp [h])

theorem remoteFeedTimeout_due {s : State} {r : Nat} (he : s.on PHE_RGRP_en [r] = true) (h3 : s.g PHE_RGRP_src [r] = 3)
    (hst : s.on PHE_RSTAT_stale [r] = false) (ha : ∀ a, (s.grp (8 + r)).age = some a → s.g PHE_RGRP_dly [r] ≤ a) :
    remoteFeedTimeout r s = (s.remHold r).remStat r true := by
  refine if_pos ?_
  have hall : (s.grp (8 + r)).age.all (s.g PHE_RGRP_dly [r] ≤ ·) = true := by
    rw [Option.all_eq_true_iff_get]
    exact fun h => decide_eq_true (ha _ (Option.some_get h).symm)
  simp [he, h3, hst, hall]

theorem remoteFeedTimeout_none {s : State} {r : Nat}
    (h : s.on PHE_RGRP_en [r] = false ∨ s.g PHE_RGRP_src [r] ≠ 3 ∨ s.on PHE_RSTAT_stale [r] = true) :
    remoteFeedTimeout r s = s := if_neg (by rcases h with h | h | h <;> simp [h])

/-- Settles O23: each feed, write and timeout by the lemma of its case. -/
theorem phasorFeeds : Obligations.PhasorFeeds := by
  intro s hr
  refine ⟨fun d buf r u hd h1 h2 h3 hu => ?feed, fun d buf r hd h => ?noFeed, fun g v h h1 h2 => ?freq, fun g v h => ?noFreq,
    fun g h1 h2 h3 => ?timeout, fun g h => ?noTimeout, fun r h1 h2 h3 h4 => ?stale, fun r h => ?noStale⟩
  case feed =>
    subst hu
    rw [exec_pheRfeed _ _ hr, pheRfeed_queued (s := s.open_ d) hd h1 h2 h3]
  case noFeed => rw [exec_pheRfeed _ _ hr, pheRfeed_refused (s := s.open_ d) hd h]
  case freq => rw [exec_pheHfreq _ _ hr, hostWrite_pheHfreq h h1 h2]; rfl
  case noFreq => rw [exec_pheHfreq _ _ hr, hostWrite_pheHfreq_refused h]
  case timeout => rw [exec_pheHostTimeout _ hr, pheHostTimeout_due h1 h2 h3]
  case noTimeout => rw [exec_pheHostTimeout _ hr, pheHostTimeout_none h]
  case stale => rw [exec_remoteFeedTimeout _ hr, remoteFeedTimeout_due h1 h2 h3 h4]
  case noStale => rw [exec_remoteFeedTimeout _ hr, remoteFeedTimeout_none h]

/-! ### Element slots -/

theorem eleSetw_refused {s : State} (h : s.inSt [DAWN, NIGHT] = true) (d : Desc) (buf : List Byte) :
    eleSetw d buf s = s.complete d 0x0601 ST_NOT_NOW := if_pos h

/-- The counted state of an ELE_SETW: a length that is no whole number of words, and values beyond the last one. -/
def setwCounted (d : Desc) (cnt0 cnt : Nat) (s : State) : State :=
  (s.clampDesc d 4 (b2n (4 * cnt0 ≠ d.len.toNat))).clampDesc d 4 (b2n (cnt ≠ cnt0))

/-- ELE_SETW outside DAWN and NIGHT, of a slot, a first setting and a count. -/
theorem eleSetw_empty {s : State} {d : Desc} {first cnt0 cnt : Nat} (hs : s.inSt [DAWN, NIGHT] = false)
    (hf : first = d.b.toNat % 16) (hc0 : cnt0 = min d.len.toNat 64 / 4) (hc : cnt = min cnt0 (16 - first)) (h0 : cnt = 0)
    (hk : bitAt d.rf.toNat 8 = true) (buf : List Byte) :
    eleSetw d buf s = (setwCounted d cnt0 cnt s).complete d 0x0601 ST_DONE := by
  have hz : min (min d.len.toNat 64 / 4) (16 - d.b.toNat % 16) = 0 := by rw [← hf, ← hc0, ← hc, h0]
  subst hc hc0 hf
  simp only [eleSetw, hs, Bool.false_eq_true, if_false, hz, hk, decide_true, Bool.and_self, if_true, setwCounted]

/-- The settings that an ELE_SETW stores, with those that depend on them. -/
def setwStored (d : Desc) (n first cnt : Nat) (l : List Word) (c : List Nat) (u : State) : State :=
  (u.putSettings n l).each c fun t k =>
    if first ≤ k && k < first + cnt then t.clampDesc d 8 1 else t.clampReg (0x64000 + 64 * n + 4 * k) 1

/-- The slot waits for the settings to be in force. -/
def setwQueued (d : Desc) (n : Nat) (s : State) : State := { s with ele := { s.ele with setw := s.ele.setw ++ [(n, d)] } }

theorem eleSetw_stored {s u v : State} {d : Desc} {buf : List Byte} {n first cnt0 cnt : Nat} {l : List Word} {c : List Nat}
    (hs : s.inSt [DAWN, NIGHT] = false) (hn : n = d.rf.toNat % 256) (hf : first = d.b.toNat % 16)
    (hc0 : cnt0 = min d.len.toNat 64 / 4) (hc : cnt = min cnt0 (16 - first)) (h : cnt ≠ 0 ∨ bitAt d.rf.toNat 8 = false)
    (hu : u = setwCounted d cnt0 cnt s) (hl : (l, c) = settingWrite (u.g ELE_CFG_type [n]) first (u.settings n)
      ((List.range cnt).map fun i => BitVec.ofNat 32 (leAt buf (4 * i) 4)))
    (hv : v = setwStored d n first cnt l c u) :
    eleSetw d buf s = setwQueued d n
      (if bitAt d.rf.toNat 8 && v.roleOf n = s.roleOf n then v else v.putSlot n { v.slot n with clr := true }) := by
  have hne : ¬ (decide (cnt = 0) && bitAt d.rf.toNat 8) = true := by rcases h with h | h <;> simp [h]
  subst hv hu hc hc0 hf hn
  simp only [setwCounted] at hl
  simp only [eleSetw, hs, Bool.false_eq_true, if_false, hne, ← hl]
  rfl

theorem eleResult_queued {s : State} {d : Desc} {n : Nat} (hn : n = d.rf.toNat % 256) (hs : s.inSt [DAWN, NIGHT] = false)
    (hm : (s.slot n).mode = M_HOST) : eleResult d s = { s with ele := { s.ele with results := s.ele.results ++ [(n, d)] } } := by
  subst hn
  exact if_neg (by simp [hs, hm])

theorem eleResult_refused {s : State} {d : Desc} {n : Nat} (hn : n = d.rf.toNat % 256)
    (h : s.inSt [DAWN, NIGHT] = true ∨ (s.slot n).mode ≠ M_HOST) : eleResult d s = s.complete d 0x0611 ST_NOT_NOW := by
  subst hn
  exact if_pos (by rcases h with h | h <;> simp [h])

/-- A write of 0 leaves of ELE_CFG the bits that no field has. -/
theorem storeWord_eleCfg_zero (old : Word) : storeWord eleCfgFields old 0 0 = old &&& 0x4E0FC := by
  have h : storeWord eleCfgFields old 0 0 =
      setBits (setBits (setBits (setBits (setBits (setBits old 31 24 0) 23 20 0) 19 19 0) 17 16 0) 12 8 0) 1 0 0 := rfl
  rw [h]
  refine BitVec.eq_of_getLsbD_eq fun i hi => ?_
  rw [BitVec.getLsbD_and]
  simp (disch := decide) only [setBits_getLsbD, Nat.zero_testBit]
  generalize old.getLsbD i = b
  revert b
  revert i
  decide

/-- A write of ELE_CFG of 0 over another type loads the defaults of NONE. -/
theorem hostWrite_eleCfg_zero {s : State} {n : Fin 256} (hl : s.on BLK_CTRL_lock [ELE] = false) (ht : s.g ELE_CFG_type [n.val] ≠ 0)
    (p : Nat) (l : List (Nat × Nat)) : s.hostWrite p (0x60100 + 4 * n.val) 0 l =
      ((s.wr (0x60100 + 4 * n.val) (s.rd (0x60100 + 4 * n.val) &&& 0x4E0FC)).putSettings n.val (typeDefaults 0)).reclamp
        (0x60500 + 4 * n.val) := by
  have hold : bits (s.rd (0x60100 + 4 * n.val)) 12 8 ≠ 0 := by
    rwa [State.g, show fldOff ELE_CFG_type [n.val] = 0x60100 + 4 * n.val by simp [fldOff]] at ht
  rw [hostWrite_plain (findReg_eleCfg n) (by decide), plainWrite_accepted (x := 0) (w := 0) rfl rfl ?_,
    storeWord_eleCfg_zero, clampTotal_self]
  · exact if_neg hold
  · rw [State.lockRefuses, show (0x60100 + 4 * n.val) / 0x10000 = ELE from (show _ = 6 by omega), hl, Bool.false_and,
      Bool.false_or]
    rfl

theorem hostResultAgeExpiry_due {s : State} {n k : Nat} {o : Word} {x : ElSlot} (hx : x = s.slot n) (hres : x.res = some (k, o))
    (hm : x.mode = M_HOST) (hst : x.stale = false) (ha : 2 < resultAge s.dch.frame.seq k) :
    hostResultAgeExpiry n s = (s.putSlot n { x with
      stale := true, res := none, out := { x.out with q := x.out.q ||| Q_STALE } }).flag ELE 8 := by
  subst hx
  simp only [hostResultAgeExpiry, hres, hm, hst, ha, decide_true, Bool.not_false, Bool.and_self, if_true]

theorem hostResultAgeExpiry_none {s : State} {n : Nat} (h : (s.slot n).res = none) : hostResultAgeExpiry n s = s := by
  simp only [hostResultAgeExpiry, h]

theorem elementTimerExpiry_due {s : State} {n : Nat} {x : ElSlot} (hx : x = s.slot n) (hm : x.mode = M_HW ∨ x.mode = M_TEST)
    (hv : x.vst = 0) (ht : x.timerDue = true) (ho : x.out.oper = false) :
    elementTimerExpiry n s = (s.putSlot n { x with
      out := { x.out with oper := true, po := if x.typ = T_RBRF then 0 else x.out.ps } }).raise (128 + n / 32) := by
  subst hx
  exact if_pos (by rcases hm with h | h <;> simp [h, hv, ht, ho])

theorem elementTimerExpiry_none {s : State} {n : Nat}
    (h : (s.slot n).timerDue = false ∨ (s.slot n).out.oper = true ∨ (s.slot n).vst ≠ 0) : elementTimerExpiry n s = s :=
  if_neg (by rcases h with h | h | h <;> simp [h])

theorem holdLimitExpiry_due {s : State} {n : Nat} {x : ElSlot} (hx : x = s.slot n) (ht : x.typ ≠ T_PIOC) (hv : x.vst = 1)
    (h : x.val 3 < x.held) : holdLimitExpiry n s = s.putEval n { x with
      out := { noOut with q := x.out.q }, vst := 2, lim := true, mem := x.blockMem x.mem, acc := 0 } := by
  subst hx
  rw [holdLimitExpiry, if_neg ht]
  exact if_pos (by simp [hv, h])

theorem holdLimitExpiry_pioc {s : State} {n : Nat} {x : ElSlot} {ts : Time} {o : ElOut} {f : Word}
    {l : List (Time × ElOut × Nat × Word)} (hx : x = s.slot n) (ht : x.typ = T_PIOC) (hv : x.view = (ts, o, 1, f) :: l)
    (h : x.val 3 < x.held) : holdLimitExpiry n s = (s.putSlot n { x with
      view := (ts, { noOut with q := o.q }, 2, 0) :: l, lim := true, mem := x.fresh }).flag ELE 9 := by
  subst hx
  simp only [holdLimitExpiry, ht, if_true, hv, h]

theorem holdLimitExpiry_early {s : State} {n : Nat} (h : (s.slot n).held ≤ (s.slot n).val 3) : holdLimitExpiry n s = s := by
  have hn := Rat.not_lt.mpr h
  simp only [holdLimitExpiry, hn, decide_false, Bool.and_false, Bool.false_eq_true, if_false]
  split
  · split <;> rfl
  · rfl

/-- Settles O24: the commands of a slot by their cases, its configuration as a register write, and its three expiries. -/
theorem elementSlots : Obligations.ElementSlots := by
  intro s hr
  refine ⟨fun d buf h => ?setwRefused,
    fun d buf n first cnt0 cnt u hs hn hf hc0 hc hu => ⟨fun h0 hk => ?setwEmpty, fun l c v h hl hv => ⟨fun hk hro => ?setwKept,
      fun w h' hw => ?setwCleared⟩⟩,
    fun d n hn hs hm => ?result, fun d n hn h => ?noResult, fun n v => ?cfg, fun n hl ht => ?cfgZero,
    fun n x k o hx h1 h2 h3 h4 => ?age, fun n h => ?noAge, fun n x hx h1 h2 h3 h4 => ?timer, fun n h => ?noTimer,
    fun n x hx h1 h2 h3 => ?hold, fun n x ts o f l hx h1 h2 h3 => ?holdPioc, fun n h => ?noHold⟩
  case setwRefused => rw [exec_eleSetw _ _ hr, eleSetw_refused (s := s.open_ d) h]
  case setwEmpty =>
    subst hu
    rw [exec_eleSetw _ _ hr, eleSetw_empty (s := s.open_ d) hs hf hc0 hc h0 hk, setwCounted]
  case setwKept =>
    rw [exec_eleSetw _ _ hr, eleSetw_stored (s := s.open_ d) hs hn hf hc0 hc h hu hl hv, hk, hro,
      if_pos (by simp), setwQueued]
  case setwCleared =>
    subst hw
    rw [exec_eleSetw _ _ hr, eleSetw_stored (s := s.open_ d) hs hn hf hc0 hc h hu hl hv,
      if_neg (by rcases h' with h' | h' <;> simp [h']), setwQueued]
  case result => rw [exec_eleResult _ hr, eleResult_queued (s := s.open_ d) hn hs hm]; rfl
  case noResult => rw [exec_eleResult _ hr, eleResult_refused (s := s.open_ d) hn h]
  case cfg => rw [exec_eleCfg _ _ hr, exec_registerWrite _ _ _ hr]; rfl
  case cfgZero => rw [exec_eleCfg _ _ hr, hostWrite_eleCfg_zero hl ht]
  case age => rw [exec_hostResultAgeExpiry _ hr, hostResultAgeExpiry_due hx h1 h2 h3 h4]
  case noAge => rw [exec_hostResultAgeExpiry _ hr, hostResultAgeExpiry_none h]
  case timer => rw [exec_elementTimerExpiry _ hr, elementTimerExpiry_due hx h1 h2 h3 h4]
  case noTimer => rw [exec_elementTimerExpiry _ hr, elementTimerExpiry_none h]
  case hold => rw [exec_holdLimitExpiry _ hr, holdLimitExpiry_due hx h1 h2 h3]
  case holdPioc => rw [exec_holdLimitExpiry _ hr, holdLimitExpiry_pioc hx h1 h2 h3]
  case noHold => rw [exec_holdLimitExpiry _ hr, holdLimitExpiry_early h]

/-! ### Seals, pulses, supervision and slack -/

theorem sealLimitExpiry_due {s : State} {r : Nat} {x : RowSt} {tmax tmin : Time} (hx : x = s.row r) (hc : x.cls = true)
    (ha : x.act = false) (hd : x.drive = true) (hs : x.sealOn = true) (hmax : tmax = bits x.sealCfg 15 8 * 100 * oneMs)
    (hmin : tmin = bits x.sealCfg 7 0 * 5 * oneMs) (h0 : 0 < tmax) (h : x.tc + tmax ≤ x.tnow) :
    sealLimitExpiry r s = (s.putRow r { x with sealOn := false, drive := !decide (x.tc + tmin ≤ x.tnow) }).flag TMX 10 := by
  subst hmax hmin hx
  exact if_pos (by simp only [hc, ha, hd, hs, h0, h, decide_true, Bool.not_false, Bool.and_self])

theorem sealLimitExpiry_none {s : State} {r : Nat} (h : (s.row r).cls = false ∨ (s.row r).act = true ∨ (s.row r).sealOn = false) :
    sealLimitExpiry r s = s := if_neg (by rcases h with h | h | h <;> simp [h])

theorem minPulseEnd_due {s : State} {r : Nat} {x : RowSt} (hx : x = s.row r) (hc : x.cls = true) (ha : x.act = false)
    (hd : x.drive = true) (hs : x.sealOn = false) (h : x.tc + bits x.sealCfg 7 0 * 5 * oneMs ≤ x.tnow) :
    minPulseEnd r s = s.putRow r { x with drive := false } := by
  subst hx
  exact if_pos (by simp only [hc, ha, hd, hs, h, decide_true, Bool.not_false, Bool.and_self])

theorem minPulseEnd_none {s : State} {r : Nat} (h : (s.row r).cls = false ∨ (s.row r).act = true ∨ (s.row r).sealOn = true) :
    minPulseEnd r s = s := if_neg (by rcases h with h | h | h <;> simp [h])

theorem tcsOnCheck_sensed {s : State} {o : Nat} {t : Time} (ht : nth s.tmx.onAt o none = some t)
    (hc : s.on TMX_TCS_onchk [o] = true) :
    tcsOnCheck o true s = ({ s with tmx := { s.tmx with onAt := s.tmx.onAt.set o none } } : State).p TMX_TCSST_on []
      (putBit (s.g TMX_TCSST_on) o false) := by
  simp only [tcsOnCheck, ht, hc, Bool.not_true, Bool.false_eq_true, if_false, if_true]
  rfl

theorem tcsOnCheck_late {s : State} {o : Nat} {t : Time} (ht : nth s.tmx.onAt o none = some t)
    (hc : s.on TMX_TCS_onchk [o] = true) (hd : t + 5 * oneMs ≤ s.mer.now) (hb : bitAt (s.g TMX_TCSST_on) o = false) :
    tcsOnCheck o false s = (({ s with tmx := { s.tmx with onAt := s.tmx.onAt.set o none } } : State).p TMX_TCSST_on []
      (putBit (s.g TMX_TCSST_on) o true)).flag TMX 11 := by
  simp only [tcsOnCheck, ht, hc, Bool.not_true, Bool.false_eq_true, if_false, hd, if_true]
  exact if_pos (by rw [Bool.true_and]; exact congrArg (!·) hb)

theorem tcsOnCheck_none {s : State} {o : Nat} (h : nth s.tmx.onAt o none = none) (b : Bool) : tcsOnCheck o b s = s := by
  simp only [tcsOnCheck, h]

/-- The first internal fault is recorded with its cause and its block. -/
theorem State.internalFault_first {s : State} (h : s.pwr.faulted = false) (cause blk : Nat) :
    s.internalFault cause blk = (((({ (((s.cnt TST_FLT_count).p TST_FLT_cause [] cause).p TST_FLT_blk [] blk) with
      pwr := { s.pwr with faulted := true } } : State).flag TST 8).enterSafe 1)) :=
  (if_neg (by rw [h]; exact Bool.false_ne_true)).trans rfl

theorem State.internalFault_again {s : State} (h : s.pwr.faulted = true) (cause blk : Nat) :
    s.internalFault cause blk = (s.cnt TST_FLT_count).enterSafe 1 := if_pos h

theorem slackMissLimit_due {s : State} (hs : s.inSt [NOON, DUSK] = true)
    (h : s.g TST_FCFG_nmiss ≤ s.tmx.misses ∨ sgn 16 (s.g TMX_PSLACK_last) < 0) : slackMissLimit s = s.internalFault 2 TMX :=
  if_pos (by rw [hs, Bool.true_and, Bool.or_eq_true, decide_eq_true_eq, decide_eq_true_eq]; exact h)

theorem slackMissLimit_none {s : State}
    (h : s.inSt [NOON, DUSK] = false ∨ (s.tmx.misses < s.g TST_FCFG_nmiss ∧ 0 ≤ sgn 16 (s.g TMX_PSLACK_last))) :
    slackMissLimit s = s := by
  refine if_neg ?_
  rcases h with h | ⟨h, h'⟩
  · simp [h]
  · simp [Nat.not_le.mpr h, Int.not_lt.mpr h']

/-- Settles O26: the expiries of a row, the check of an output and the limit of misses, each by its cases. -/
theorem sluiceEvents : Obligations.SluiceEvents := by
  intro s hr
  refine ⟨fun r x tmax tmin hx h1 h2 h3 h4 hmax hmin h0 ht => ⟨fun h => ?drops, fun h => ?stays⟩, fun r h => ?noSeal,
    fun r x hx h1 h2 h3 h4 h => ?pulse, fun r h => ?noPulse, fun o on l ho hc hl => ⟨?sensed, fun hd hb => ?late⟩,
    fun o b h => ?noCheck, fun h => ?slackIn, fun hs h => ⟨fun hf => ?first, fun hf => ?again⟩⟩
  case drops => rw [exec_sealLimitExpiry _ hr, sealLimitExpiry_due hx h1 h2 h3 h4 hmax hmin h0 ht, decide_eq_true h]; rfl
  case stays =>
    rw [exec_sealLimitExpiry _ hr, sealLimitExpiry_due hx h1 h2 h3 h4 hmax hmin h0 ht, decide_eq_false (Nat.not_le.mpr h)]; rfl
  case noSeal => rw [exec_sealLimitExpiry _ hr, sealLimitExpiry_none h]
  case pulse => rw [exec_minPulseEnd _ hr, minPulseEnd_due hx h1 h2 h3 h4 h]
  case noPulse => rw [exec_minPulseEnd _ hr, minPulseEnd_none h]
  case sensed => rw [exec_tcsOnCheck _ _ hr, tcsOnCheck_sensed ho hc, hl]
  case late => rw [exec_tcsOnCheck _ _ hr, tcsOnCheck_late ho hc hd hb, hl]
  case noCheck => rw [exec_tcsOnCheck _ _ hr, tcsOnCheck_none h]
  case slackIn => rw [exec_slackMissLimit hr, slackMissLimit_none h]
  case first => rw [exec_slackMissLimit hr, slackMissLimit_due hs h, State.internalFault_first hf]
  case again => rw [exec_slackMissLimit hr, slackMissLimit_due hs h, State.internalFault_again hf]

end Sys2Proof.Machine
end

section
/-! The recorder and the field inputs and outputs (R410 to R466): streams, fault location, digital inputs, host requests, output
faults and test pulses. -/

open Sys2Proof Sys2Proof.Machine

namespace Sys2Proof.Machine

/-- A command with nothing to clamp counts nothing. -/
theorem State.clampDesc_zero (s : State) (d : Desc) (o : Nat) : s.clampDesc d o 0 = s := if_pos rfl

/-! ### Record streams -/

theorem recStart_done {s : State} {d : Desc} {k : Nat} (hk : k = d.rf.toNat % 4) (ha : s.recActive k = false)
    (hs : s.inSt [DAWN, NIGHT] = false)
    (hm : s.on REC_CFG_mode [k] = true → (s.g REC_LEN_pre [k] * s.setLen k + 2047) / 2048 ≤ s.g CIS_Q_max [k]) :
    recStart d s = ((s.putStr k { s.str k with
      start := some d, next := 0, times := [], stopAt := none, run := none, pend := [], last := none })).p REC_STAT_state [k]
        (if s.on REC_CFG_mode [k] then RS_ARMED else RS_RUN) := by
  have hroom : (s.on REC_CFG_mode [k] && decide (s.g CIS_Q_max [k] < (s.g REC_LEN_pre [k] * s.setLen k + 2047) / 2048)) = false := by
    cases h : s.on REC_CFG_mode [k]
    · rfl
    · simpa using hm h
  subst hk
  simp only [recStart, ha, hs, hroom, Bool.or_self, Bool.false_eq_true, if_false]
  rfl

theorem recStart_refused {s : State} {d : Desc} {k : Nat} (hk : k = d.rf.toNat % 4)
    (h : s.recActive k = true ∨ s.inSt [DAWN, NIGHT] = true ∨
      (s.on REC_CFG_mode [k] = true ∧ s.g CIS_Q_max [k] < (s.g REC_LEN_pre [k] * s.setLen k + 2047) / 2048)) :
    recStart d s = s.complete d 0x0A01 ST_NOT_NOW := by
  subst hk
  refine if_pos ?_
  rcases h with h | h | ⟨h, h'⟩
  · simp [h]
  · simp [h]
  · simp only [h, decide_eq_true h', Bool.and_self, Bool.or_true]

theorem recStop_active {s u : State} {d : Desc} {k : Nat} (hk : k = d.rf.toNat % 4) (ha : s.recActive k = true)
    (hu : u = s.recEnd k 1) :
    recStop d s = (u.putStr k { u.str k with stops := (u.str k).stops ++ [(u.rcd.seq, d)] }).recStops k := by
  subst hu hk
  exact if_pos ha

theorem recStop_refused {s : State} {d : Desc} {k : Nat} (hk : k = d.rf.toNat % 4) (ha : s.recActive k = false) :
    recStop d s = s.complete d 0x0A02 ST_NOT_NOW := by
  subst hk
  exact if_neg (Bool.eq_false_iff.mp ha)

theorem recTrig_done {s u : State} {d : Desc} {sec ns : Nat} {t : Time} (hs : s.inSt [DAWN, NIGHT] = false)
    (hsec : sec = d.addr.toNat % 2 ^ 48) (hns : ns = d.a.toNat % 2 ^ 32)
    (ht : t = (if sec = 0 ∧ ns = 0 then s.mer.now else Time.of sec (min ns 999999999)))
    (hu : u = s.clampDesc d 16 (b2n (min ns 999999999 ≠ ns))) :
    recTrig d s = (u.each (bitsOf 4 (bits d.b 3 0)) fun s k =>
      s.trigger k ⟨t, 3, bitAt d.b.toNat 4, 8, 0, 0, none, 1⟩).complete d 0x0A03 ST_DONE := by
  subst hu ht hns hsec
  simp only [recTrig, hs, Bool.false_eq_true, if_false, State.triggers, Bool.and_eq_true, decide_eq_true_eq]

theorem recTrig_refused {s : State} (h : s.inSt [DAWN, NIGHT] = true) (d : Desc) :
    recTrig d s = s.complete d 0x0A03 ST_NOT_NOW := if_pos h

theorem trigPacket_in {s u : State} {h : PktHead} {t : Time} {method code idx : Nat} {test ok : Bool}
    (hp : (ok, u) = s.packetIn PK_TRIG h none [h.src.val, t, method, b2n test, code, idx]) :
    trigPacket h t method test code idx s = if ok && u.formed then u.recLine h.src.val t method test code idx else u := by
  simp only [trigPacket, ← hp]

theorem recordFlush_cur {s : State} {k : Nat} {c : OpenBuf} (hc : (s.str k).cur = some c) :
    recordFlush k s = if s.g REC_CFG_flush [k] * 100 * oneUs ≤ s.since c.cyc then s.recData k else s := by
  simp only [recordFlush, hc]

theorem recordFlush_none {s : State} {k : Nat} (h : (s.str k).cur = none) : recordFlush k s = s := by simp only [recordFlush, h]

/-- Settles O29: the commands of a stream, the trigger line and the flush, each by its cases. -/
theorem recordStreams : Obligations.RecordStreams := by
  intro s hr
  refine ⟨fun d k hk h1 h2 h3 => ?start, fun d k hk h => ?noStart, fun d k hk => ⟨fun h u hu => ?stop, fun h => ?noStop⟩,
    fun d sec ns t u hs h1 h2 ht hu => ?trig, fun d h => ?noTrig,
    fun h t method test code idx ok u hp => ⟨fun h1 h2 => ?line, fun h' => ?noLine⟩,
    fun k c hc => ⟨fun h => ?flush, fun h => ?early⟩, fun k h => ?empty⟩
  case start => rw [exec_recStart _ hr, recStart_done (s := s.open_ d) hk h1 h2 h3]; rfl
  case noStart => rw [exec_recStart _ hr, recStart_refused (s := s.open_ d) hk h]
  case stop => rw [exec_recStop _ hr, recStop_active (s := s.open_ d) hk h hu]
  case noStop => rw [exec_recStop _ hr, recStop_refused (s := s.open_ d) hk h]
  case trig => rw [exec_recTrig _ hr, recTrig_done (s := s.open_ d) hs h1 h2 ht hu]
  case noTrig => rw [exec_recTrig _ hr, recTrig_refused (s := s.open_ d) h]
  case line => rw [exec_trigPacket _ _ _ _ _ _ hr, trigPacket_in hp, h1, h2]; rfl
  case noLine => rw [exec_trigPacket _ _ _ _ _ _ hr, trigPacket_in hp, if_neg (by rcases h' with h' | h' <;> simp [h'])]
  case flush => rw [exec_recordFlush _ hr, recordFlush_cur hc, if_pos h]
  case early => rw [exec_recordFlush _ hr, recordFlush_cur hc, if_neg (Nat.not_le.mpr h)]
  case empty => rw [exec_recordFlush _ hr, recordFlush_none h]

/-! ### Fault location -/

/-- REC_FLREF takes a distance w into the queue and completes. -/
def distQueued (d : Desc) (w : Word) (u : State) : State :=
  ({ u with rcd := { u.rcd with dist := u.rcd.dist ++ [w] } } : State).complete d 0x0A04 ST_DONE

theorem recFlref_within {s : State} {d : Desc} (hs : s.inSt [DAWN, NIGHT] = false) (hn : isNaN f32 d.b.toNat = false)
    (hi : isInf f32 d.b.toNat = false) (h0 : 0 ≤ ofF32 d.b.toNat) (h1 : ofF32 d.b.toNat ≤ 1000000) :
    recFlref d s = distQueued d d.b s := by
  simp only [recFlref, hs, hn, hi, Rat.not_lt.mpr h0, Rat.not_lt.mpr h1, decide_false, Bool.or_self, Bool.false_eq_true, if_false,
    BitVec.ofNat_toNat, BitVec.setWidth_eq]
  rfl

theorem recFlref_below {s : State} {d : Desc} (hs : s.inSt [DAWN, NIGHT] = false)
    (h : isNaN f32 d.b.toNat = true ∨ (isInf f32 d.b.toNat = false ∧ ofF32 d.b.toNat < 0)) :
    recFlref d s = distQueued d 0 (s.clampDesc d 24 1) := by
  rcases h with h | ⟨hi, h⟩
  · simp only [recFlref, hs, h, Bool.false_eq_true, if_false, if_true, Bool.true_or]
    rfl
  · simp only [recFlref, hs, hi, h, decide_true, Bool.false_eq_true, if_false, if_true, ite_self, Bool.or_true, Bool.true_or]
    rfl

theorem recFlref_beyond {s : State} {d : Desc} (hs : s.inSt [DAWN, NIGHT] = false) (hn : isNaN f32 d.b.toNat = false)
    (hi : isInf f32 d.b.toNat = false) (h : 1000000 < ofF32 d.b.toNat) :
    recFlref d s = distQueued d (BitVec.ofNat 32 (toF32 1000000)) (s.clampDesc d 24 1) := by
  have h0 : ¬ ofF32 d.b.toNat < 0 := Rat.not_lt.mpr (Rat.le_trans (by decide) (Rat.le_of_lt h))
  simp only [recFlref, hs, hn, hi, h, h0, decide_true, Bool.false_eq_true, if_false, if_true, Bool.or_true]
  rfl

theorem recFlref_refused {s : State} (h : s.inSt [DAWN, NIGHT] = true) (d : Desc) :
    recFlref d s = s.complete d 0x0A04 ST_NOT_NOW := if_pos h

theorem wavefrontCaptureEnd_full {s u : State} {c : Capture} {w w1 : List (Time × List Word)} {f : Word} {b : List Byte}
    (hc : s.rcd.cap = some c) (hw : w = s.window c.t1) (hn : 111 ≤ (w.filter fun e => decide (c.t1 ≤ e.1)).length)
    (hf : (f, u) = s.drawWord) (hw1 : w1 = List.replicate (148 - w.length) ((nth w 0 (0, [])).1, List.replicate 16 f) ++ w)
    (hb : b = waveRecord c c.chans w1) :
    wavefrontCaptureEnd s = pumpWaves (u.rcd.waves.length + 1) { u.storeLast 5 0 0 b with
      rcd := { u.rcd with cap := none, waves := u.rcd.waves ++ [(b, c.chans.length)] } } := by
  subst hb hw1 hw
  simp only [wavefrontCaptureEnd, hc, Nat.not_lt.mpr hn, if_false, ← hf, List.length_append, List.length_singleton]

theorem wavefrontCaptureEnd_early {s : State} {c : Capture} (hc : s.rcd.cap = some c)
    (h : ((s.window c.t1).filter fun e => decide (c.t1 ≤ e.1)).length < 111) : wavefrontCaptureEnd s = s := by
  simp only [wavefrontCaptureEnd, hc, h, if_true]

theorem wavefrontCaptureEnd_none {s : State} (h : s.rcd.cap = none) : wavefrontCaptureEnd s = s := by
  simp only [wavefrontCaptureEnd, h]

/-- Settles O30: a distance by where it lies, the arrivals that are too old, and the window by its length. -/
theorem faultLocation : Obligations.FaultLocation := by
  intro s hr
  refine ⟨fun d hs h1 h2 h3 h4 => ?within, fun d hs h u hu => ?below, fun d hs h1 h2 h3 u hu => ?beyond, fun d h => ?refused,
    fun old ho => ?old, fun c w f u w1 b h1 h2 h3 h4 h5 h6 => ?full, fun c hc h => ?early, fun h => ?none⟩
  case within => rw [exec_recFlref _ hr, recFlref_within (s := s.open_ d) hs h1 h2 h3 h4]; rfl
  case below => rw [exec_recFlref _ hr, recFlref_below (s := s.open_ d) hs h, hu]; rfl
  case beyond => rw [exec_recFlref _ hr, recFlref_beyond (s := s.open_ d) hs h1 h2 h3, hu]; rfl
  case refused => rw [exec_recFlref _ hr, recFlref_refused (s := s.open_ d) h]
  case old =>
    subst ho
    rw [exec_faultLocationTimeout hr]
    rfl
  case full => rw [exec_wavefrontCaptureEnd hr, wavefrontCaptureEnd_full h1 h2 h3 h4 h5 h6]
  case early => rw [exec_wavefrontCaptureEnd hr, wavefrontCaptureEnd_early hc h]
  case none => rw [exec_wavefrontCaptureEnd hr, wavefrontCaptureEnd_none h]

/-! ### Digital inputs -/

theorem diSample_dawn {s : State} (h : s.dev = DAWN) (us : Nat) (v : BitVec 32) :
    diSample us v s = ({ s with fio := { s.fio with sampleUs := us } } : State).p FIO_DIRAW [] v.toNat := if_pos h

theorem diSample_inputs {s u : State} {us : Nat} {v : BitVec 32} (h : s.dev ≠ DAWN)
    (hu : u = ({ s with fio := { s.fio with sampleUs := us } } : State).p FIO_DIRAW [] v.toNat) :
    diSample us v s = u.each (List.range 32) fun t i =>
      if (t.diSt i).started = false then t.diStart i (v.getLsbD i)
      else if t.on FIO_DICFG_raw [i] = true ∧ v.getLsbD i ≠ bitAt (s.g FIO_DIRAW) i then t.rawEdge us i (v.getLsbD i)
      else t := by
  subst hu
  simp only [diSample, h, if_false, Bool.not_eq_true', Bool.and_eq_true, decide_eq_true_eq, ne_eq]

/-- A tick of a filter whose instant it is, by its count and what that decides. -/
theorem diFilterTick_counts {s : State} {i us l c : Nat} {x : DiSt} {e : Option (Time × Bool × Nat)} (hx : x = s.diSt i)
    (hus : us = s.fio.sampleUs) (hd : s.dev ≠ DAWN) (hst : x.started = true) (hdue : x.due = none)
    (ht : us % 1000000 % 10 ^ s.g FIO_DICFG_tick [i] = 0) (hat : x.tickAt ≠ us * oneUs) (hl : l = s.g FIO_DICFG_lim [i])
    (hc : c = (if bitAt (s.g FIO_DIRAW) i then min (min x.cnt l + 1) l else min x.cnt l - 1))
    (he : e = if (c = l && !bitAt (s.g FIO_DISTATE) i) || (c = 0 && bitAt (s.g FIO_DISTATE) i) then
      some (us * oneUs, !bitAt (s.g FIO_DISTATE) i, l * 10 ^ s.g FIO_DICFG_tick [i]) else none) :
    diFilterTick i s = s.putDi i { x with cnt := c, tickAt := us * oneUs, due := e } := by
  subst he hc hl hus hx
  exact if_neg (by simp [hd, hst, hdue, ht, hat, State.diTick])

theorem diFilterTick_none {s : State} {i : Nat} (h : s.dev = DAWN ∨ (s.diSt i).started = false ∨ (s.diSt i).due ≠ none ∨
    s.fio.sampleUs % 1000000 % 10 ^ s.g FIO_DICFG_tick [i] ≠ 0 ∨ (s.diSt i).tickAt = s.fio.sampleUs * oneUs) :
    diFilterTick i s = s := by
  refine if_pos ?_
  rcases h with h | h | h | h | h
  · simp [h]
  · simp [h]
  · simp [Option.isSome_iff_ne_none.mpr h]
  · simp [State.diTick, h]
  · simp [h]

theorem diDecision_due {s : State} {i k : Nat} {t : Time} {lv : Bool} (h : (s.diSt i).due = some (t, lv, k)) :
    diDecision i s = (s.decide_ i t lv k).recDi i t lv := by simp only [diDecision, h]

theorem diDecision_none {s : State} {i : Nat} (h : (s.diSt i).due = none) : diDecision i s = s := by simp only [diDecision, h]

theorem findReg_fioDits (i : Fin 32) :
    findReg (0xC0200 + 16 * i.val) = some (⟨0xC0200, [(16, 32)], .blk, [⟨31, 0, .ro, 0, .any⟩]⟩, [i.val]) := by
  revert i; decide

theorem rcRead_fioDits (s : State) (i : Fin 32) {t : State} (ht : t = fioDitsRead i.val s) :
    rcRead (0xC0200 + 16 * i.val) s =
      (t.wr (0xC0200 + 16 * i.val) (t.rd (0xC0200 + 16 * i.val))).emit (.read (0xC0200 + 16 * i.val) (t.rd (0xC0200 + 16 * i.val))) := by
  have hl : s.latch (0xC0200 + 16 * i.val) = t := by rw [State.latch, findReg_fioDits i, ht]; rfl
  exact rcRead_latched (findReg_fioDits i) (fun _ => rfl) (by decide) hl

/-- Settles O31: a sample by the state, a tick by whether it is the filter's, and a decision by whether one is due. -/
theorem digitalInputs : Obligations.DigitalInputs := by
  intro s hr
  refine ⟨fun us v u hu => ⟨fun h => ?dawn, fun h => ?inputs⟩,
    fun i x us l c e hx hus hd hst hdue ht hat hl hc he => ⟨fun h => ?decided, fun h1 h2 => ?counted⟩, fun i h => ?noTick,
    fun i t lv k h => ?decision, fun i h => ?noDecision, fun i x t hx ht => ?read⟩
  case dawn => rw [exec_diSample _ _ hr, diSample_dawn h, hu]
  case inputs => rw [exec_diSample _ _ hr, diSample_inputs h hu]
  case decided =>
    rw [exec_diFilterTick _ hr, diFilterTick_counts hx hus hd hst hdue ht hat hl hc (e := some e) (by rw [he, if_pos]; simpa using h)]
  case counted =>
    rw [exec_diFilterTick _ hr, diFilterTick_counts hx hus hd hst hdue ht hat hl hc (e := none) (by
      rw [if_neg]; simp only [Bool.or_eq_true, Bool.and_eq_true, decide_eq_true_eq, Bool.not_eq_true']; exact not_or.mpr ⟨h1, h2⟩)]
  case noTick => rw [exec_diFilterTick _ hr, diFilterTick_none h]
  case decision => rw [exec_diDecision _ hr, diDecision_due h]; rfl
  case noDecision => rw [exec_diDecision _ hr, diDecision_none h]
  case read =>
    subst hx
    rw [exec_fioDitsRead _ hr, rcRead_fioDits s i ht]

/-! ### Requests, watchdog and refresh -/

theorem fioOreq_refused {s : State} (h : s.inSt [DAWN, NIGHT] = true) (d : Desc) :
    fioOreq d s = s.complete d 0x0C01 ST_NOT_NOW := if_pos h

theorem fioOreq_done {s : State} (h : s.inSt [DAWN, NIGHT] = false) (d : Desc) :
    fioOreq d s = (s.hostReq (bits d.b 31 16) (bits d.b 15 0)).complete d 0x0C01 ST_DONE := if_neg (Bool.eq_false_iff.mp h)

theorem fioHostTimeout_due {s u : State} (h1 : s.on FIO_WDCFG_hwd = true) (h2 : s.fio.hostDone = false)
    (h3 : s.g FIO_WDCFG_t * oneMs ≤ s.since s.fio.hostCyc)
    (hu : u = (s.each ((List.range 16).filter s.hostOwns) State.reqSafe).flag FIO 13) :
    fioHostTimeout s = { u with fio := { u.fio with hostDone := true } } := by
  subst hu
  exact if_pos (by simp [h1, h2, h3])

theorem fioHostTimeout_none {s : State}
    (h : s.on FIO_WDCFG_hwd = false ∨ s.fio.hostDone = true ∨ s.since s.fio.hostCyc < s.g FIO_WDCFG_t * oneMs) :
    fioHostTimeout s = s := by
  refine if_neg ?_
  rcases h with h | h | h
  · simp [h]
  · simp [h]
  · simp [Nat.not_le.mpr h]

theorem refreshRepeat_due {s : State} (h1 : s.inSt [MORNING, NOON, DUSK, SAFE] = true) (h2 : 500 * oneUs ≤ s.since s.fio.wordCyc) :
    refreshRepeat s = s.sendWord s.fio.word.toNat := if_pos (by rw [h1, decide_eq_true h2]; rfl)

theorem refreshRepeat_none {s : State} (h : s.inSt [MORNING, NOON, DUSK, SAFE] = false ∨ s.since s.fio.wordCyc < 500 * oneUs) :
    refreshRepeat s = s := by
  refine if_neg ?_
  rcases h with h | h
  · simp [h]
  · simp [Nat.not_le.mpr h]

theorem logicSilentExpiry_due {s : State} (h1 : s.inSt [DAWN, NIGHT] = false) (h2 : s.dieSafe = false)
    (h3 : s.g FIO_WDCFG_t * oneMs * 85 ≤ s.since s.fio.refCyc * 100) :
    logicSilentExpiry s = (((s.edges s.safeWord).p FIO_WDSTAT_silent [] 1).cnt FIO_WDSTAT_count).flag FIO 11 :=
  if_neg (by rw [h1, h2, decide_eq_false (Nat.not_lt.mpr h3)]; decide)

theorem logicSilentExpiry_none {s : State} (h : s.inSt [DAWN, NIGHT] = true ∨ s.dieSafe = true ∨
    s.since s.fio.refCyc * 100 < s.g FIO_WDCFG_t * oneMs * 85) : logicSilentExpiry s = s := by
  refine if_pos ?_
  rcases h with h | h | h
  · simp [h]
  · simp [h]
  · rw [decide_eq_true h, Bool.or_true]

/-- Settles O32: the two host requests, and the three timers before and at their time. -/
theorem outputRequests : Obligations.OutputRequests := by
  intro s hr
  refine ⟨fun v u hu => ?req, fun d u hs hu => ?oreq, fun d h => ?noOreq, fun u h1 h2 h3 hu => ?timeout, fun h => ?noTimeout,
    fun h1 h2 => ?repeats, fun h => ?noRepeat, fun h1 h2 h3 => ?silent, fun h => ?noSilent⟩
  case req =>
    subst hu
    rw [exec_fioReq _ hr, hostWrite_fioReq]
    rfl
  case oreq =>
    subst hu
    rw [exec_fioOreq _ hr, fioOreq_done (s := s.open_ d) hs]
    rfl
  case noOreq => rw [exec_fioOreq _ hr, fioOreq_refused (s := s.open_ d) h]
  case timeout => rw [exec_fioHostTimeout hr, fioHostTimeout_due h1 h2 h3 hu]
  case noTimeout => rw [exec_fioHostTimeout hr, fioHostTimeout_none h]
  case repeats => rw [exec_refreshRepeat hr, refreshRepeat_due h1 h2]
  case noRepeat => rw [exec_refreshRepeat hr, refreshRepeat_none h]
  case silent => rw [exec_logicSilentExpiry hr, logicSilentExpiry_due h1 h2 h3]
  case noSilent => rw [exec_logicSilentExpiry hr, logicSilentExpiry_none h]

/-! ### Output faults -/

theorem overcurrent_new {s : State} {o : Nat} (h1 : bitAt (s.g FIO_OUTST_low) o = true) (h2 : bitAt (s.g FIO_FLTST_ovc_or_ext) o = false) :
    overcurrent o s = (s.p FIO_FLTST_ovc_or_ext [] (putBit (s.g FIO_FLTST_ovc_or_ext) o true)).fault 0 o 9 :=
  if_pos (by rw [h1, h2]; rfl)

theorem overcurrent_none {s : State} {o : Nat} (h : bitAt (s.g FIO_OUTST_low) o = false ∨ bitAt (s.g FIO_FLTST_ovc_or_ext) o = true) :
    overcurrent o s = s := if_neg (by rcases h with h | h <;> simp [h])

theorem thermalShutdown_new {s : State} {o : Nat} (h : s.fio.hot.getLsbD o = false ∨ bitAt (s.g FIO_FLTST_tsd) o = false) :
    thermalShutdown o s = ((({ s with fio := { s.fio with hot := BitVec.ofNat 16 (putBit s.fio.hot.toNat o true) } } : State).p
      FIO_FLTST_tsd [] (putBit (s.g FIO_FLTST_tsd) o true)).fault 1 o 10) := if_neg (by rcases h with h | h <;> simp [h])

theorem thermalShutdown_none {s : State} {o : Nat} (h1 : s.fio.hot.getLsbD o = true) (h2 : bitAt (s.g FIO_FLTST_tsd) o = true) :
    thermalShutdown o s = s := if_pos (by rw [h1, h2]; rfl)

theorem extdrv_new {s : State} {o : Nat} (h1 : bitAt s.cmdWord o = false) (h2 : bitAt (s.g FIO_EXTST_ovc_or_ext) o = false)
    (h3 : s.pulse (s.lead o) = none) (h4 : 2 * oneMs ≤ s.since (nth s.fio.offCyc o 0)) :
    extdrv o s = (s.p FIO_EXTST_ovc_or_ext [] (putBit (s.g FIO_EXTST_ovc_or_ext) o true)).fault 2 o 8 :=
  if_neg (by rw [h1, h2, h3, decide_eq_false (Nat.not_lt.mpr h4)]; decide)

theorem extdrv_none {s : State} {o : Nat} (h : bitAt s.cmdWord o = true ∨ bitAt (s.g FIO_EXTST_ovc_or_ext) o = true ∨
    (s.pulse (s.lead o)).isSome = true ∨ s.since (nth s.fio.offCyc o 0) < 2 * oneMs) : extdrv o s = s := by
  refine if_pos ?_
  rcases h with h | h | h | h
  · simp [h]
  · simp [h]
  · simp [h]
  · rw [decide_eq_true h, Bool.or_true]

/-- A latch whose switches have cooled clears as it is written. -/
theorem fioFltlat_cool {s : State} {k : Nat} (h : k ≠ 1 ∨ s.fio.hot = 0) (v : Word) :
    fioFltlat k v s = s.p FIO_FLTLAT_lat [k] (s.g FIO_FLTLAT_lat [k] - (s.g FIO_FLTLAT_lat [k] &&& bits v 15 0)) := by
  rw [fioFltlat]
  rcases h with h | h
  · exact if_neg h
  · have hnone (l : List Nat) : l.filter s.fio.hot.getLsbD = [] := by rw [h]; simp
    simp only [hnone]
    exact ite_self _

theorem bitsOf_single (o : Fin 16) : bitsOf 16 (2 ^ o.val) = [o.val] := by revert o; decide

/-- The latch of a switch that is still hot sets again. -/
theorem fioFltlat_hot {s : State} {v : Word} {o : Fin 16} (h : s.g FIO_FLTLAT_lat [1] &&& bits v 15 0 = 2 ^ o.val)
    (hot : s.fio.hot.getLsbD o = true) :
    fioFltlat 1 v s = (s.p FIO_FLTLAT_lat [1] (s.g FIO_FLTLAT_lat [1] - 2 ^ o.val)).fault 1 o 10 := by
  have hf : [o.val].filter s.fio.hot.getLsbD = [o.val] := List.filter_eq_self.mpr fun n hn => by rwa [List.mem_singleton.mp hn]
  simp only [fioFltlat, if_true, h, bitsOf_single, hf]
  rfl

/-- Settles O33: each fault where it is new and where it is not, and the latches cool and hot. -/
theorem outputFaults : Obligations.OutputFaults := by
  intro s hr
  refine ⟨fun o h1 h2 => ?limit, fun o h => ?noOver, fun o => ?leaves, fun o h => ?hot, fun o h1 h2 => ?noHot, fun o => ?cools,
    fun o h1 h2 h3 h4 => ?ext, fun o h => ?noExt, fun o => ?clears, fun k v lat hl h => ?latch, fun v o lat hl h h' => ?latchHot⟩
  case limit => rw [exec_overcurrent _ hr, overcurrent_new h1 h2]
  case noOver => rw [exec_overcurrent _ hr, overcurrent_none h]
  case leaves => rw [exec_outputLeavesLimit _ hr, outputLeavesLimit]
  case hot => rw [exec_thermalShutdown _ hr, thermalShutdown_new h]
  case noHot => rw [exec_thermalShutdown _ hr, thermalShutdown_none h1 h2]
  case cools => rw [exec_thermalResume _ hr, thermalResume]
  case ext => rw [exec_extdrv _ hr, extdrv_new h1 h2 h3 h4]
  case noExt => rw [exec_extdrv _ hr, extdrv_none h]
  case clears => rw [exec_extdrvClear _ hr, extdrvClear]
  case latch =>
    subst hl
    rw [exec_fioFltlat _ _ hr, hostWrite_fioFltlat, fioFltlat_cool h]
  case latchHot =>
    subst hl
    rw [exec_fioFltlat _ _ hr, hostWrite_fioFltlat, show ((1 : Fin 4) : Nat) = 1 from rfl, fioFltlat_hot h h']

/-! ### Test pulses -/

theorem testPulseStart_due {s : State} {o per : Nat} (hp : per = s.g FIO_TPCFG_per [o]) (h1 : s.pulsesRun = true)
    (h2 : s.g FIO_TPCFG_mode [o] ≠ 0) (h3 : per ≠ 0) (h4 : s.oddPair o = false)
    (h5 : (s.mer.now / oneUs) % (1000 * per) = 1000 * o % (1000 * per)) : testPulseStart o s = s.startPulse o := by
  subst hp
  exact if_pos (by simp only [h1, h2, h3, h4, h5, ne_eq, not_false_eq_true, decide_true, Bool.not_false, Bool.and_self])

theorem testPulseStart_none {s : State} {o per : Nat} (hp : per = s.g FIO_TPCFG_per [o])
    (h : s.pulsesRun = false ∨ s.g FIO_TPCFG_mode [o] = 0 ∨ per = 0 ∨ s.oddPair o = true ∨
      (s.mer.now / oneUs) % (1000 * per) ≠ 1000 * o % (1000 * per)) : testPulseStart o s = s := by
  subst hp
  refine if_neg ?_
  rcases h with h | h | h | h | h
  · simp [h]
  · simp [h]
  · simp [h]
  · simp [h]
  · rw [decide_eq_false h, Bool.and_false]; exact Bool.false_ne_true

theorem State.startPulse_skipped {s : State} {o : Nat} (h : s.pulseSkips o = true) : s.startPulse o = s.cnt FIO_TPRES_skip [o] := if_pos h

theorem State.startPulse_starts {s : State} {o : Nat} (h : s.pulseSkips o = false) :
    s.startPulse o = s.putPulse o (some ⟨s.mer.now, s.g FIO_TPCFG_mode [o]⟩) := if_neg (Bool.eq_false_iff.mp h)

theorem fioTpulse_refused {s : State} (h : s.pulsesRun = false) (d : Desc) : fioTpulse d s = s.complete d 0x0C02 ST_NOT_NOW :=
  if_pos (by rw [h]; rfl)

theorem fioTpulse_accepted {s u : State} {d : Desc} {l own : List Nat} (h : s.pulsesRun = true) (hl : l = bitsOf 16 (bits d.b 15 0))
    (ho : own = l.filter (fun o => !s.pulseSkips o)) (hu : u = s.each l State.startPulse) :
    fioTpulse d s = if own.isEmpty then u.complete d 0x0C02 ST_DONE
      else { u with fio := { u.fio with tpulse := u.fio.tpulse ++ [(d, BitVec.ofNat 16 (maskSum own))] } } := by
  subst hu ho hl
  exact if_neg (by rw [h]; exact Bool.false_ne_true)

theorem testPulseEnd_due {s u : State} {o : Nat} {x : Pulse} (hx : s.pulse o = some x)
    (ht : x.at_ + s.g FIO_TPCFG_len [o] * oneUs ≤ s.mer.now) (hu : u = (s.putPulse o none).cnt FIO_TPRES_done [o]) (c : Bool) :
    testPulseEnd o c s = (if c then (u.p FIO_TPRES_fail [o] (b2n !c)).offNow o
      else ((u.p FIO_TPRES_fail [o] (b2n !c)).offNow o).fault 3 o 12).tpulseDone o := by
  subst hu
  simp only [testPulseEnd, hx, Nat.not_lt.mpr ht, if_false]

theorem testPulseEnd_none {s : State} {o : Nat} (h : ∀ x, s.pulse o = some x → s.mer.now < x.at_ + s.g FIO_TPCFG_len [o] * oneUs)
    (c : Bool) : testPulseEnd o c s = s := by
  rw [testPulseEnd]
  split
  · rfl
  · next x hx => exact if_pos (h x hx)

/-- Settles O34: a start by its instant and whether the pulse is skipped, the command by what it starts, and the end by its time. -/
theorem testPulses : Obligations.TestPulses := by
  intro s hr
  refine ⟨fun o per hp h1 h2 h3 h4 h5 => ⟨fun h => ?starts, fun h => ?skips⟩, fun o per hp h => ?noStart,
    fun d l own u h hl ho hu => ⟨fun h' => ?none, fun h' => ?some⟩, fun d h => ?refused,
    fun o x u hx ht hu => ⟨?crossed, ?failed⟩, fun o c h => ?noEnd⟩
  case starts => rw [exec_testPulseStart _ hr, testPulseStart_due hp h1 h2 h3 h4 h5, State.startPulse_starts h]
  case skips => rw [exec_testPulseStart _ hr, testPulseStart_due hp h1 h2 h3 h4 h5, State.startPulse_skipped h]
  case noStart => rw [exec_testPulseStart _ hr, testPulseStart_none hp h]
  case none => rw [exec_fioTpulse _ hr, fioTpulse_accepted (s := s.open_ d) h hl ho hu, h', List.isEmpty_nil, if_pos rfl]
  case some =>
    rw [exec_fioTpulse _ hr, fioTpulse_accepted (s := s.open_ d) h hl ho hu, List.isEmpty_eq_false_iff.mpr h', if_neg Bool.false_ne_true]
  case refused => rw [exec_fioTpulse _ hr, fioTpulse_refused (s := s.open_ d) h]
  case crossed => rw [exec_testPulseEnd _ _ hr, testPulseEnd_due hx ht hu]; rfl
  case failed => rw [exec_testPulseEnd _ _ hr, testPulseEnd_due hx ht hu]; rfl
  case noEnd => rw [exec_testPulseEnd _ _ hr, testPulseEnd_none h]

end Sys2Proof.Machine
end

section
/-! Remote I/O stations, the auxiliary converters and the pulse timers (R472 to R508). -/

open Sys2Proof Sys2Proof.Machine

namespace Sys2Proof.Machine

/-- A write with nothing to clamp counts nothing. -/
theorem State.clampReg_zero (s : State) (off : Nat) : s.clampReg off 0 = s := if_pos rfl

/-! ### Remote I/O stations -/

theorem State.sendPoll_frame {s u : State} {l i : Nat} {k : LinkSt} {x : StaSt} {sub ov : Bool} {b f : List Byte} {c fin : Time}
    (hk : k = s.link l) (hx : x = s.sta l i) (hc : k.cycAt = some c) (hsub : sub = s.substOut l i)
    (hb : b = (if sub then s.subOut l i else x.out.take x.no))
    (hov : ov = (decide (s.staState l i = S_UP) && (sub || !x.withhold)))
    (hfin : fin = c + halfUs (s.slotOff l i + slotLen x.ni x.no (s.g RIO_LCFG_rto [l]))) (hf : f = pollFrame i (k.count % 16) ov sub b)
    (hu : u = s.putLink l { k with polled := k.polled ++ [i], slot := some (i, k.count % 16, fin), answer := none }) :
    s.sendPoll l i = (if ov then u.putSta l i { u.sta l i with sent := b } else u).emit (.poll l i f (serialBits f)) := by
  subst hu hf hfin hov hb hsub hx hk
  simp only [State.sendPoll, hc, Option.getD_some]

theorem pollSend_in_cycle {s : State} {l i : Nat} {c : Time} (h1 : (s.link l).running = true) (h2 : s.inSt [DAWN, NIGHT] = false)
    (h3 : (s.link l).slot = none) (hc : (s.link l).cycAt = some c) (hh : (s.toPoll l).head? = some i)
    (ht : c + halfUs (s.slotOff l i) ≤ s.mer.now) : pollSend l i s = s.sendPoll l i := by
  have hne : (s.toPoll l).isEmpty = false := by
    rw [List.isEmpty_eq_false_iff]
    rintro h
    simp [h] at hh
  cases hd : s.cycleDue l with
  | none =>
    simp only [pollSend, h1, h2, h3, hd, Bool.not_true, Option.isSome_none, Bool.or_self, Bool.false_eq_true, if_false, hh, hc,
      Option.isSome_some, Option.getD_some, ht, decide_true, Bool.and_self, if_true]
  | some t =>
    simp only [pollSend, h1, h2, h3, hd, Bool.not_true, Option.isSome_none, Bool.or_self, Bool.false_eq_true, if_false, hne, hc,
      Option.isNone_some, Bool.and_false, hh, Option.isSome_some, Option.getD_some, ht, decide_true, Bool.and_self, if_true]

theorem pollSend_new_cycle {s u : State} {l i : Nat} {t : Time} (h1 : (s.link l).running = true) (hs : (s.link l).stopping = false)
    (h2 : s.inSt [DAWN, NIGHT] = false) (h3 : (s.link l).slot = none) (he : (s.toPoll l).isEmpty = true ∨ (s.link l).cycAt = none)
    (hd : s.cycleDue l = some t) (hu : u = s.cycleStart l t) (hh : (u.toPoll l).head? = some i) (hc : (u.link l).cycAt = some t)
    (ht : t + halfUs (u.slotOff l i) ≤ u.mer.now) : pollSend l i s = u.sendPoll l i := by
  subst hu
  have hstart : (!(s.link l).stopping && ((s.toPoll l).isEmpty || (s.link l).cycAt.isNone)) = true := by
    rw [hs]
    rcases he with h | h <;> simp [h]
  simp only [pollSend, h1, h2, h3, hd, hstart, Bool.not_true, Option.isSome_none, Bool.or_self, Bool.false_eq_true, if_false, if_true,
    hh, hc, Option.isSome_some, Option.getD_some, ht, decide_true, Bool.and_self]

theorem pollSend_none {s : State} {l i : Nat} (h : (s.link l).running = false ∨ s.inSt [DAWN, NIGHT] = true ∨ (s.link l).slot ≠ none) :
    pollSend l i s = s := by
  refine if_pos ?_
  rcases h with h | h | h
  · simp [h]
  · simp [h]
  · simp [Option.isSome_iff_ne_none.mpr h]

theorem respOk_crc {r : List Byte} (h : respCrcBad r = true) (i q ni : Nat) : respOk i q ni r = false := by simp [respOk, h]

theorem respReceive_valid {s u : State} {l i q after : Nat} {r : List Byte} {fin : Time} (hs : (s.link l).slot = some (i, q, fin))
    (ha : (s.link l).answer = none) (ht : after ≤ s.g RIO_LCFG_rto [l] * 1000) (hc : respCrcBad r = false)
    (ho : respOk i q (s.sta l i).ni r = true) (hu : u = s.putLink l { s.link l with answer := some true }) :
    respReceive l r after s = u.goodResp l i r := by
  subst hu
  simp only [respReceive, hs, ha, Option.isSome_none, Bool.false_eq_true, if_false, ht, decide_true, ho, Bool.and_self, hc, if_true]

/-- A valid RESP of a station in UP gives its inputs and clears its misses. -/
theorem State.goodResp_up {s : State} {l i : Nat} {r inp : List Byte} (h : s.staState l i = S_UP)
    (hi : inp = (r.drop 4).take (s.sta l i).ni) :
    s.goodResp l i r = (((s.putSta l i { s.sta l i with inp := inp }).putIn l i inp).p RIO_SST_miss [l, i] 0).p RIO_SST_qual [l, i]
      (if (nth r 3 0).getLsbD 0 then 0x80 else 0) := by
  subst hi
  exact if_pos (decide_eq_true h)

theorem respReceive_crc {s : State} {l i q after : Nat} {r : List Byte} {fin : Time} (hs : (s.link l).slot = some (i, q, fin))
    (ha : (s.link l).answer = none) (hc : respCrcBad r = true) :
    respReceive l r after s =
      ((s.putLink l { s.link l with answer := some false }).cnt RIO_SST_crc [l, i]).flagAt RIO 10 (186 + l) := by
  simp only [respReceive, hs, ha, Option.isSome_none, Bool.false_eq_true, if_false, respOk_crc hc, Bool.and_false, hc, if_true]

theorem respReceive_invalid {s : State} {l i q after : Nat} {r : List Byte} {fin : Time} (hs : (s.link l).slot = some (i, q, fin))
    (ha : (s.link l).answer = none) (hc : respCrcBad r = false)
    (h : s.g RIO_LCFG_rto [l] * 1000 < after ∨ respOk i q (s.sta l i).ni r = false) :
    respReceive l r after s = s.putLink l { s.link l with answer := some false } := by
  have hok : (decide (after ≤ s.g RIO_LCFG_rto [l] * 1000) && respOk i q (s.sta l i).ni r) = false := by
    rcases h with h | h
    · simp [Nat.not_le.mpr h]
    · simp [h]
  simp only [respReceive, hs, ha, Option.isSome_none, Bool.false_eq_true, if_false, hok, hc]

theorem respReceive_none {s : State} {l : Nat} (h : (s.link l).slot = none ∨ (s.link l).answer ≠ none) (r : List Byte) (after : Nat) :
    respReceive l r after s = s := by
  simp only [respReceive]
  split
  · rfl
  · next hs => exact if_pos (Option.isSome_iff_ne_none.mpr (h.resolve_left (by simp [hs])))

/-- The miss that the end of a slot counts. -/
def slotMissed (l i : Nat) (answer : Option Bool) (u : State) : State := if answer = some true then u else u.cnt RIO_SST_miss [l, i]

theorem pollSlotEnd_due {s u : State} {l i q : Nat} {fin : Time} (hs : (s.link l).slot = some (i, q, fin)) (ht : fin ≤ s.mer.now)
    (hst : (s.link l).stopping = false) (hu : u = s.putLink l { s.link l with slot := none, answer := none }) :
    pollSlotEnd l s = if (slotMissed l i (s.link l).answer u).dropDue l i then slotMissed l i (s.link l).answer u
      else (slotMissed l i (s.link l).answer u).rioImg l i := by
  subst hu
  simp only [pollSlotEnd, hs, Nat.not_lt.mpr ht, if_false, hst, Bool.false_and, Bool.false_eq_true]
  rfl

theorem pollSlotEnd_none {s : State} {l : Nat} (h : ∀ i q fin, (s.link l).slot = some (i, q, fin) → s.mer.now < fin) :
    pollSlotEnd l s = s := by
  simp only [pollSlotEnd]
  split
  · rfl
  · next i q fin hs => exact if_pos (h i q fin hs)

theorem stationDropOut_due {s : State} {l i : Nat} (h : s.dropDue l i = true) : stationDropOut l i s = s.dropOut l i := if_pos h

theorem stationDropOut_none {s : State} {l i : Nat} (h : s.dropDue l i = false) : stationDropOut l i s = s :=
  if_neg (Bool.eq_false_iff.mp h)

theorem State.dropOut_host {s u : State} {l i : Nat} (ho : (s.sta l i).own = 0)
    (hu : u = (((s.putSta l i { s.sta l i with dropped := true }).p RIO_SST_drops [l, i]
      ((s.g RIO_SST_drops [l, i] + 1) % 256)).toSubst l i S_DOWN).flagAt RIO 8 (186 + l)) : s.dropOut l i = u.rioImg l i := by
  subst hu
  exact if_pos (by rw [ho]; rfl)

theorem State.dropOut_bcp {s u : State} {l i b : Nat} (ho : (s.sta l i).own = b + 1) (hb : b < 4)
    (hu : u = (((s.putSta l i { s.sta l i with dropped := true }).p RIO_SST_drops [l, i]
      ((s.g RIO_SST_drops [l, i] + 1) % 256)).toSubst l i S_DOWN).flagAt RIO 8 (186 + l)) :
    s.dropOut l i = (u.raise (32 * b + 25)).bcpCause b fun e =>
      { e with cause := e.cause ||| 1, dropped := e.dropped ||| BitVec.ofNat 128 (2 ^ (16 * l + i)) } := by
  subst hu
  have hn : (decide (b + 1 = 0) || decide (4 < b + 1)) = false := by
    rw [decide_eq_false (Nat.succ_ne_zero b), decide_eq_false (by omega)]; rfl
  simp only [State.dropOut, ho, hn, Bool.false_eq_true, if_false, Nat.add_sub_cancel]

theorem rioOut_done {s : State} {d : Desc} {l i : Nat} {x : StaSt} (hl : d.rf.toNat % 128 / 16 = l) (hi : d.rf.toNat % 16 = i)
    (hx : x = s.sta l i) (hs : s.inSt [DAWN, NIGHT] = false) (ho : x.own = 0) (hst : s.staState l i ≠ S_IDLE) (buf : List Byte) :
    rioOut d buf s = ((s.clampDesc d 4 (b2n (d.len.toNat ≠ x.no))).putSta l i { x with
      out := (buf.take x.no ++ (s.outBase l i).drop (min buf.length x.no)).take 64
      subst := false, newOwn := false, hostCyc := s.mer.cyc, hostDone := false
      withhold := x.withhold && !x.imgSeen }).complete d 0x0D01 ST_DONE := by
  subst hx hi hl
  exact if_neg (by simp [hs, ho, hst])

theorem rioOut_refused {s : State} {d : Desc} {l i : Nat} (hl : d.rf.toNat % 128 / 16 = l) (hi : d.rf.toNat % 16 = i)
    (h : s.inSt [DAWN, NIGHT] = true ∨ (s.sta l i).own ≠ 0 ∨ s.staState l i = S_IDLE) (buf : List Byte) :
    rioOut d buf s = s.complete d 0x0D01 ST_NOT_NOW := by
  subst hi hl
  exact if_pos (by rcases h with h | h | h <;> simp [h])

theorem rioHostTimeout_due {s : State} {l i : Nat} {x : StaSt} (hx : x = s.sta l i) (he : x.en = true) (ho : x.own = 0)
    (hd : x.hostDone = false) (ht : s.g RIO_HCFG_hto * oneMs ≤ s.since x.hostCyc) :
    rioHostTimeout l i s = (s.putSta l i { x with hostDone := true }).flagAt RIO 11 (186 + l) := by
  subst hx
  exact if_pos (by simp [he, ho, hd, ht])

theorem rioHostTimeout_none {s : State} {l i : Nat}
    (h : (s.sta l i).en = false ∨ (s.sta l i).own ≠ 0 ∨ (s.sta l i).hostDone = true) : rioHostTimeout l i s = s :=
  if_neg (by rcases h with h | h | h <;> simp [h])

/-- The link and the station of a RIO_OUT number. -/
theorem station_of_number {n : Nat} {l : Fin 8} {i : Fin 16} (h : n % 128 = 16 * l.val + i.val) :
    n % 128 / 16 = l.val ∧ n % 16 = i.val := by omega

/-- Settles O35: polls and responses by the state of the link's slot, its end by the answer, the rest by the station's owner. -/
theorem remoteStations : Obligations.RemoteStations := by
  intro s l hr
  refine ⟨fun i k x u sub b ov f c fin hk hx h1 h2 h3 hc hh ht hsub hb hov hfin hf hu => ?poll,
    fun i t u h1 h2 h3 h4 h5 h6 h7 h8 h9 h10 => ?cycle, fun i h => ?noPoll,
    fun r after k i q fin u inp hk h1 h2 h3 h4 h5 hu h6 hi => ?valid, fun r after k i q fin hk h1 h2 h3 => ?crc,
    fun r after k i q fin hk h1 h2 h3 h4 => ?invalid, fun r after h => ?noResp,
    fun k i q fin u hk h1 h2 h3 hu => ⟨fun ha hd => ?answered, fun ha hd => ?missed, fun ha hd => ?dropping⟩,
    fun k hk h => ?noEnd, fun i u hd hu => ⟨fun ho => ?dropHost, fun b ho hb => ?dropBcp⟩, fun i h => ?noDrop,
    fun i d buf x hx hn h1 h2 h3 => ?out, fun i d buf hn h => ?noOut, fun i x hx h1 h2 h3 h4 => ?timeout, fun i h => ?noTimeout⟩
  case poll =>
    rw [exec_pollSend _ _ hr, pollSend_in_cycle (hk ▸ h1) h2 (hk ▸ h3) (hk ▸ hc) hh ht,
      State.sendPoll_frame hk hx hc hsub hb hov hfin hf hu]
  case cycle => rw [exec_pollSend _ _ hr, pollSend_new_cycle h1 h2 h3 h4 h5 h6 h7 h8 h9 h10]
  case noPoll => rw [exec_pollSend _ _ hr, pollSend_none h]
  case valid =>
    subst hk
    rw [exec_respReceive _ _ _ hr, respReceive_valid h1 h2 h3 h4 h5 hu, State.goodResp_up h6 hi]
  case crc =>
    subst hk
    rw [exec_respReceive _ _ _ hr, respReceive_crc h1 h2 h3]
  case invalid =>
    subst hk
    rw [exec_respReceive _ _ _ hr, respReceive_invalid h1 h2 h3 h4]
  case noResp => rw [exec_respReceive _ _ _ hr, respReceive_none h]
  case answered =>
    subst hk
    rw [exec_pollSlotEnd _ hr, pollSlotEnd_due h1 h2 h3 hu, slotMissed, if_pos ha, hd, if_neg Bool.false_ne_true]
  case missed =>
    subst hk
    rw [exec_pollSlotEnd _ hr, pollSlotEnd_due h1 h2 h3 hu, slotMissed, if_neg ha, hd, if_neg Bool.false_ne_true]
  case dropping =>
    subst hk
    rw [exec_pollSlotEnd _ hr, pollSlotEnd_due h1 h2 h3 hu, slotMissed, if_neg ha, hd, if_pos rfl]
  case noEnd =>
    subst hk
    rw [exec_pollSlotEnd _ hr, pollSlotEnd_none h]
  case dropHost => rw [exec_stationDropOut _ _ hr, stationDropOut_due hd, State.dropOut_host ho hu]
  case dropBcp => rw [exec_stationDropOut _ _ hr, stationDropOut_due hd, State.dropOut_bcp ho hb hu]
  case noDrop => rw [exec_stationDropOut _ _ hr, stationDropOut_none h]
  case out =>
    obtain ⟨hl, hi⟩ := station_of_number hn
    rw [exec_rioOut _ _ hr, rioOut_done (s := s.open_ d) hl hi hx h1 h2 h3]
    rfl
  case noOut =>
    obtain ⟨hl, hi⟩ := station_of_number hn
    rw [exec_rioOut _ _ hr, rioOut_refused (s := s.open_ d) hl hi h]
  case timeout => rw [exec_rioHostTimeout _ _ hr, rioHostTimeout_due hx h1 h2 h3 h4]
  case noTimeout => rw [exec_rioHostTimeout _ _ hr, rioHostTimeout_none h]

/-! ### Auxiliary converters -/

/-- Without coupling AUX_CONV names the converters of its mask. -/
theorem auxConv_uncoupled {s : State} {d : Desc} {m : Nat} (hm : m = d.b.toNat % 4) (hc : s.coupled = false) :
    auxConv d s =
      if s.inSt [DAWN, NIGHT] || (bitsOf 2 m).any (fun a => !s.on AUX_CFG_run [a]) then s.complete d 0x0B01 ST_NOT_NOW
      else if (bitsOf 2 m).any s.auxBusy then (s.each ((bitsOf 2 m).filter s.auxBusy) State.auxSkip).complete d 0x0B01 ST_BUSY
      else if m = 0 then s.complete d 0x0B01 ST_DONE
      else (({ s with aux := { s.aux with
        cmds := s.aux.cmds ++ [(d, (bitsOf 2 m).map fun a => (a, modAt (s.mer.now + s.convDelay d a * oneUs)))] } } : State).each
          (bitsOf 2 m) fun u a => u.auxTrigger a u.mer.now (u.convDelay d a) true) := by
  subst hm
  simp only [auxConv, hc, Bool.false_and, Bool.false_eq_true, if_false]

theorem auxConv_refused {s : State} {d : Desc} {m : Nat} (hm : m = d.b.toNat % 4) (hc : s.coupled = false)
    (h : s.inSt [DAWN, NIGHT] = true ∨ ∃ a ∈ bitsOf 2 m, s.on AUX_CFG_run [a] = false) :
    auxConv d s = s.complete d 0x0B01 ST_NOT_NOW := by
  rw [auxConv_uncoupled hm hc]
  refine if_pos ?_
  rcases h with h | ⟨a, ha, h⟩
  · rw [h, Bool.true_or]
  · rw [List.any_eq_true.mpr ⟨a, ha, by rw [h]; rfl⟩, Bool.or_true]

/-- What does not refuse AUX_CONV. -/
theorem auxConv_allowed {s : State} {m : Nat} (hs : s.inSt [DAWN, NIGHT] = false) (hrun : ∀ a ∈ bitsOf 2 m, s.on AUX_CFG_run [a] = true) :
    (s.inSt [DAWN, NIGHT] || (bitsOf 2 m).any (fun a => !s.on AUX_CFG_run [a])) = false := by
  rw [hs, Bool.false_or]
  exact List.any_eq_false.mpr fun a ha => by rw [hrun a ha]; decide

theorem auxConv_busy {s : State} {d : Desc} {m : Nat} (hm : m = d.b.toNat % 4) (hc : s.coupled = false)
    (hs : s.inSt [DAWN, NIGHT] = false) (hrun : ∀ a ∈ bitsOf 2 m, s.on AUX_CFG_run [a] = true) (hb : ∃ a ∈ bitsOf 2 m, s.auxBusy a = true) :
    auxConv d s = (s.each ((bitsOf 2 m).filter s.auxBusy) State.auxSkip).complete d 0x0B01 ST_BUSY := by
  rw [auxConv_uncoupled hm hc, auxConv_allowed hs hrun, if_neg Bool.false_ne_true, List.any_eq_true.mpr hb, if_pos rfl]

theorem auxConv_starts {s : State} {d : Desc} {m : Nat} (hm : m = d.b.toNat % 4) (hc : s.coupled = false)
    (hs : s.inSt [DAWN, NIGHT] = false) (hrun : ∀ a ∈ bitsOf 2 m, s.on AUX_CFG_run [a] = true)
    (hb : ∀ a ∈ bitsOf 2 m, s.auxBusy a = false) (h0 : m ≠ 0) :
    auxConv d s = (({ s with aux := { s.aux with
      cmds := s.aux.cmds ++ [(d, (bitsOf 2 m).map fun a => (a, modAt (s.mer.now + s.convDelay d a * oneUs)))] } } : State).each
        (bitsOf 2 m) fun u a => u.auxTrigger a u.mer.now (u.convDelay d a) true) := by
  have hfree : (bitsOf 2 m).any s.auxBusy = false := List.any_eq_false.mpr fun a ha => by rw [hb a ha]; exact Bool.false_ne_true
  rw [auxConv_uncoupled hm hc, auxConv_allowed hs hrun, if_neg Bool.false_ne_true, hfree, if_neg Bool.false_ne_true, if_neg h0]

/-- A start code that both converters have is stored as it is written, and counts no clamp. -/
theorem auxStart_legal {v : Word} (hb : bits v 18 16 ≤ 3) (a : Nat) :
    min (bits v 18 16) (if a = 0 then 3 else 4) = bits v 18 16 ∧ b2n (decide ((if a = 0 then 3 else 4) < bits v 18 16)) = 0 := by
  have htop : bits v 18 16 ≤ if a = 0 then 3 else 4 := by split <;> omega
  exact ⟨Nat.min_eq_left htop, by rw [decide_eq_false (Nat.not_lt.mpr htop)]; rfl⟩

theorem auxRun_start {s u : State} {a : Nat} {v w : Word} (hb : bits v 18 16 ≤ 3)
    (hw : w = setBits (v &&& 0xF777FFFF) 18 16 (bits v 18 16)) (h1 : v.getLsbD 31 = true) (h2 : s.on AUX_CFG_run [a] = false)
    (ha : s.auxAlloc a (s.g AUX_BUF_nbuf [a]) = some u) : auxRun a v s = u.wr (0xB0100 + 4 * a) w := by
  obtain ⟨hst, hno⟩ := auxStart_legal hb a
  simp only [auxRun, hst, hno, State.clampReg_zero, h1, h2, ha, Bool.not_false, Bool.and_self, if_true, ← hw]

theorem auxRun_noBuffer {s : State} {a : Nat} {v : Word} (h1 : v.getLsbD 31 = true) (h2 : s.on AUX_CFG_run [a] = false)
    (ha : s.auxAlloc a (s.g AUX_BUF_nbuf [a]) = none) : auxRun a v s = (s.noBuf (6 + a)).notNow (0xB0100 + 4 * a) := by
  simp only [auxRun, h1, h2, ha, Bool.not_false, Bool.and_self, if_true]

theorem auxRun_stop {s : State} {a : Nat} {v w : Word} (hb : bits v 18 16 ≤ 3)
    (hw : w = setBits (v &&& 0xF777FFFF) 18 16 (bits v 18 16)) (h1 : v.getLsbD 31 = false) (h2 : s.on AUX_CFG_run [a] = true) :
    auxRun a v s = (s.auxStop a).wr (0xB0100 + 4 * a) w := by
  obtain ⟨hst, hno⟩ := auxStart_legal hb a
  simp only [auxRun, hst, hno, State.clampReg_zero, h1, h2, Bool.not_true, Bool.not_false, Bool.and_self, Bool.false_eq_true, if_false,
    if_true, ← hw]

theorem auxRun_stays {s : State} {a : Nat} {v w : Word} (hb : bits v 18 16 ≤ 3)
    (hw : w = setBits (v &&& 0xF777FFFF) 18 16 (bits v 18 16)) (h : v.getLsbD 31 = s.on AUX_CFG_run [a]) :
    auxRun a v s = s.wr (0xB0100 + 4 * a) w := by
  obtain ⟨hst, hno⟩ := auxStart_legal hb a
  simp only [auxRun, hst, hno, State.clampReg_zero, h, Bool.and_not_self, Bool.not_and_self, Bool.false_eq_true, if_false, ← hw]

theorem auxIntegrationStart_begins {s : State} {a e : Nat} {host : Bool} (hs : (s.conv a).starts = [(e, host)])
    (ht : modTime e ≤ s.mer.now) (hd : s.inSt [DAWN, NIGHT] = false) (hb : s.auxBusy a = false) (hc : s.coupled = false) :
    auxIntegrationStart a s = s.auxBegin a e (s.auxTint a) host := by
  simp only [auxIntegrationStart, hs, List.foldl_cons, List.foldl_nil, Nat.not_lt.mpr ht, hd, hb, hc, decide_false, Bool.or_self,
    Bool.and_false, Bool.false_eq_true, if_false]

theorem auxIntegrationStart_skips {s : State} {a e : Nat} (hs : (s.conv a).starts = [(e, false)]) (ht : modTime e ≤ s.mer.now)
    (hd : s.inSt [DAWN, NIGHT] = false) (hb : s.auxBusy a = true) :
    auxIntegrationStart a s = (s.putConv a { s.conv a with starts := [] }).auxSkip a := by
  simp only [auxIntegrationStart, hs, List.foldl_cons, List.foldl_nil, Nat.not_lt.mpr ht, hd, hb, decide_false, Bool.or_self,
    Bool.false_eq_true, if_false, if_true, List.filter_cons, ne_eq, not_true_eq_false, List.filter_nil]

theorem auxIntegrationStart_none {s : State} {a : Nat} (h : (s.conv a).starts = []) : auxIntegrationStart a s = s := by
  simp only [auxIntegrationStart, h, List.foldl_nil]

theorem auxBusyEnd_due {s : State} {a : Nat} (hb : s.auxBusy a = true) (ht : (s.conv a).busyTo ≤ s.mer.now) :
    auxBusyEnd a s = s.p AUX_STAT_busy [a] 0 := if_pos (by rw [hb, decide_eq_true ht]; rfl)

theorem auxBusyEnd_none {s : State} {a : Nat} (h : s.auxBusy a = false ∨ s.mer.now < (s.conv a).busyTo) : auxBusyEnd a s = s := by
  refine if_neg ?_
  rcases h with h | h
  · simp [h]
  · simp [Nat.not_le.mpr h]

theorem auxResult_none {s : State} {a : Nat} (h : ∀ r, (s.conv a).run = some r → s.mer.now < r.endAt) (raw : Int) :
    auxResult a raw s = s := by
  simp only [auxResult]
  split
  · rfl
  · next r hr => exact if_pos (h r hr)

/-- Settles O36: the commands and events of a converter, each by its cases; a result is the event's own composition. -/
theorem converters : Obligations.Converters := by
  intro s hr
  refine ⟨fun d m hm hc => ⟨fun h => ?refused, fun hs hrun => ⟨fun hb => ?busy, fun hb h0 => ?starts⟩⟩,
    fun a v w hb hw => ⟨fun h1 h2 => ⟨fun u ha => ?run, fun ha => ?noBuffer⟩, fun h1 h2 => ?stop, fun h => ?stays⟩,
    fun a e host hs ht hd => ⟨fun hb hc => ?begins, fun hb hh => ?skips⟩, fun a h => ?noStart,
    fun a raw x r w code ovr flags m u ok s3 s5 s6 hx hrun ht hw hc hf hm hu hd h5 h6 => ?result, fun a raw h => ?noResult,
    fun a h1 h2 => ?busyEnd, fun a h => ?noEnd⟩
  case refused => rw [exec_auxConv _ hr, auxConv_refused (s := s.open_ d) hm hc h]
  case busy => rw [exec_auxConv _ hr, auxConv_busy (s := s.open_ d) hm hc hs hrun hb]; rfl
  case starts => rw [exec_auxConv _ hr, auxConv_starts (s := s.open_ d) hm hc hs hrun hb h0]; rfl
  case run => rw [exec_auxRun _ _ hr, hostWrite_auxRun, auxRun_start hb hw h1 h2 ha]
  case noBuffer => rw [exec_auxRun _ _ hr, hostWrite_auxRun, auxRun_noBuffer h1 h2 ha]
  case stop => rw [exec_auxRun _ _ hr, hostWrite_auxRun, auxRun_stop hb hw h1 h2]
  case stays => rw [exec_auxRun _ _ hr, hostWrite_auxRun, auxRun_stays hb hw h]
  case begins => rw [exec_auxIntegrationStart _ hr, auxIntegrationStart_begins hs ht hd hb hc]
  case skips =>
    subst hh
    rw [exec_auxIntegrationStart _ hr, auxIntegrationStart_skips hs ht hd hb]
  case noStart => rw [exec_auxIntegrationStart _ hr, auxIntegrationStart_none h]
  case result =>
    subst h6 h5 hu hm hf hw hx
    rw [exec_auxResult _ _ hr]
    simp only [auxResult, hrun, Nat.not_lt.mpr ht, if_false, ← hc, ← hd]
  case noResult => rw [exec_auxResult _ _ hr, auxResult_none h]
  case busyEnd => rw [exec_auxBusyEnd _ hr, auxBusyEnd_due h1 h2]
  case noEnd => rw [exec_auxBusyEnd _ hr, auxBusyEnd_none h]

/-! ### Pulse timers -/

theorem ptmrEvent_due {s v : State} {u : Nat} {x : UnitSt} (hx : x = s.unit u) (hm : x.mode = 1) (hs : s.inSt [DAWN, NIGHT] = false)
    (hn : x.next ≤ s.mer.now / oneUs) (hst : s.mer.stepAt ≤ x.next * oneUs) (hv : v = s.unitLoad u x.next) :
    ptmrEvent u s = v.unitEvent u (v.unit u).high (x.next * oneUs) (decide ((v.unit u).high = (v.unit u).period)) := by
  have hdiv : (s.unit u).next * oneUs / oneUs = (s.unit u).next := Nat.mul_div_cancel _ (by decide)
  subst hv hx
  simp only [ptmrEvent, hm, ne_eq, not_true_eq_false, hs, Nat.not_lt.mpr hn, Nat.not_lt.mpr hst, decide_false, Bool.or_self,
    Bool.false_eq_true, if_false, hdiv]

theorem ptmrEvent_none {s : State} {u : Nat} (h : (s.unit u).mode ≠ 1 ∨ s.inSt [DAWN, NIGHT] = true ∨ s.mer.now / oneUs < (s.unit u).next) :
    ptmrEvent u s = s := if_pos (by rcases h with h | h | h <;> simp [h])

theorem ptmrHighEnd_due {s v : State} {u : Nat} {t : Time} (h : (s.unit u).hiEnd = some t) (ht : t ≤ s.mer.now) (hv : v = s.pwmLow u t) :
    (∀ at_ late d, (v.unit u).shot = some (at_, late, true, d) → ptmrHighEnd u s = v.shotEnd u (if late then ST_LATE else ST_DONE)) ∧
    ((∀ at_ late d, (v.unit u).shot ≠ some (at_, late, true, d)) → ptmrHighEnd u s = v) := by
  subst hv
  refine ⟨fun at_ late d hs => ?_, fun hn => ?_⟩
  · simp only [ptmrHighEnd, h, Nat.not_lt.mpr ht, if_false, hs]
  · simp only [ptmrHighEnd, h, Nat.not_lt.mpr ht, if_false]

theorem ptmrHighEnd_none {s : State} {u : Nat} (h : ∀ t, (s.unit u).hiEnd = some t → s.mer.now < t) : ptmrHighEnd u s = s := by
  rw [ptmrHighEnd]
  split
  · next t ht => exact if_pos (h t ht)
  · rfl

theorem State.shotStart_shot {s : State} {u at_ : Nat} {late b : Bool} {d : Desc} (h : (s.unit u).shot = some (at_, late, b, d)) (t : Time) :
    s.shotStart u t = (s.putUnit u { s.unit u with shot := some (at_, late, true, d) }).unitEvent u (s.g PTMR_CFG_3_high [u]) t false := by
  simp only [State.shotStart, h]

theorem ptmrOneshotStart_due {s : State} {u at_ : Nat} {late : Bool} {d : Desc} (h : (s.unit u).shot = some (at_, late, false, d))
    (ht : at_ * oneUs ≤ s.mer.now) (hst : s.mer.stepAt ≤ at_ * oneUs) : ptmrOneshotStart u s = s.shotStart u (at_ * oneUs) := by
  simp only [ptmrOneshotStart, h, Nat.not_lt.mpr ht, Nat.not_lt.mpr hst, if_false]

theorem ptmrOneshotStart_none {s : State} {u : Nat}
    (h : ∀ at_ late d, (s.unit u).shot = some (at_, late, false, d) → s.mer.now < at_ * oneUs) : ptmrOneshotStart u s = s := by
  rw [ptmrOneshotStart]
  split
  · next hs => exact if_pos (h _ _ _ hs)
  · rfl

theorem ptmrPulse_set {s v : State} {d : Desc} {u sec ns at_ : Nat} {late : Bool} (hu : u = d.b.toNat % 8)
    (hs : s.inSt [DAWN, NIGHT] = false) (hm : (s.unit u).mode = 2) (hsh : (s.unit u).shot = none) (hsec : sec = d.addr.toNat % 2 ^ 48)
    (hns : ns = d.a.toNat % 2 ^ 32)
    (hat : at_ = (if sec = 0 ∧ ns = 0 then s.mer.now / oneUs + 1 else (Time.of sec ns + oneUs - 1) / oneUs))
    (hl : late = decide ((sec ≠ 0 ∨ ns ≠ 0) ∧ at_ * oneUs < s.mer.now))
    (hv : v = (s.putUnit u { s.unit u with shot := some (at_, late, false, d) }).putShot u true) :
    ptmrPulse d s = if late then v.shotStart u v.mer.now else v := by
  have hlate : (!(decide (sec = 0) && decide (ns = 0)) && decide (at_ * oneUs < s.mer.now)) = late := by
    rw [hl, Bool.decide_and, Bool.decide_or, Bool.not_and, decide_not, decide_not]
  have hat' : (if decide (sec = 0) && decide (ns = 0) then s.mer.now / oneUs + 1 else (Time.of sec ns + oneUs - 1) / oneUs) = at_ := by
    rw [hat]
    simp only [Bool.and_eq_true, decide_eq_true_eq]
  subst hv hns hsec hu
  simp only [ptmrPulse, hs, hm, hsh, ne_eq, not_true_eq_false, decide_false, Bool.or_self, Bool.false_eq_true, if_false, Option.isSome_none,
    hat', hlate]

theorem ptmrPulse_refused {s : State} {d : Desc} {u : Nat} (hu : u = d.b.toNat % 8)
    (h : s.inSt [DAWN, NIGHT] = true ∨ (s.unit u).mode ≠ 2) : ptmrPulse d s = s.complete d 0x0B02 ST_NOT_NOW := by
  subst hu
  exact if_pos (by rcases h with h | h <;> simp [h])

theorem ptmrPulse_busy {s : State} {d : Desc} {u : Nat} (hu : u = d.b.toNat % 8) (hs : s.inSt [DAWN, NIGHT] = false)
    (hm : (s.unit u).mode = 2) (hsh : (s.unit u).shot ≠ none) : ptmrPulse d s = s.complete d 0x0B02 ST_BUSY := by
  subst hu
  rw [ptmrPulse, hs, hm]
  exact if_pos (Option.isSome_iff_ne_none.mpr hsh)

/-- Settles O37: the events of a unit before and at their time, and the command by the unit's mode and pulse. -/
theorem pulseTimers : Obligations.PulseTimers := by
  intro s hr
  refine ⟨fun u x v hx h1 h2 h3 h4 hv => ?event, fun u h => ?noEvent,
    fun u t v h ht hv => ⟨fun at_ late d hs => ?shotEnd, fun hn => ?low⟩, fun u h => ?noEnd, fun u at_ late d h ht hst => ?shot,
    fun u h => ?noShot, fun d u sec ns at_ late v hu hs hm hsh hsec hns hat hl hv => ⟨fun h => ?waits, fun h => ?late⟩,
    fun d u hu => ⟨fun h => ?refused, fun hs hm hsh => ?busy⟩⟩
  case event => rw [exec_ptmrEvent _ hr, ptmrEvent_due hx h1 h2 h3 h4 hv]
  case noEvent => rw [exec_ptmrEvent _ hr, ptmrEvent_none h]
  case shotEnd => rw [exec_ptmrHighEnd _ hr, (ptmrHighEnd_due h ht hv).1 at_ late d hs]
  case low => rw [exec_ptmrHighEnd _ hr, (ptmrHighEnd_due h ht hv).2 hn]
  case noEnd => rw [exec_ptmrHighEnd _ hr, ptmrHighEnd_none h]
  case shot => rw [exec_ptmrOneshotStart _ hr, ptmrOneshotStart_due h ht hst, State.shotStart_shot h]
  case noShot => rw [exec_ptmrOneshotStart _ hr, ptmrOneshotStart_none h]
  case waits =>
    rw [exec_ptmrPulse _ hr, ptmrPulse_set (s := s.open_ d) hu hs hm hsh hsec hns hat hl hv, h, if_neg Bool.false_ne_true]
  case late =>
    rw [exec_ptmrPulse _ hr, ptmrPulse_set (s := s.open_ d) hu hs hm hsh hsec hns hat hl hv, h, if_pos rfl]
  case refused => rw [exec_ptmrPulse _ hr, ptmrPulse_refused (s := s.open_ d) hu h]
  case busy => rw [exec_ptmrPulse _ hr, ptmrPulse_busy (s := s.open_ d) hu hs hm hsh]

end Sys2Proof.Machine
end

section
/-! The tasks of the block-code processors, their life cycle, and forces (R306 to R345, R355). -/

open Sys2Proof Sys2Proof.Machine

namespace Sys2Proof.Machine

/-! ### Tasks -/

theorem timeTaskRelease_due {s v u : State} {b t us : Nat} (hv : v = s.dropsFirst) (hus : us = v.mer.now / oneUs)
    (hd : s.timeDue b t = true) (hu : u = v.putCpu b { v.cpu b with
      nextRel := (v.cpu b).nextRel.set t (nextRelease us (v.g BCP_TASK_1 [b, t]) (v.g BCP_TASK_2 [b, t])) }) :
    timeTaskRelease b t s = if (u.cpu b).busy t then (u.skip b t).bcpCause b (ErrRec.overrun t) else u.releaseTask b t := by
  subst hu hus hv
  exact if_pos hd

theorem timeTaskRelease_none {s : State} {b t : Nat}
    (h : s.bcpRuns b = false ∨ s.taskKind b t ≠ K_TIME ∨ s.mer.now / oneUs < nth (s.cpu b).nextRel t 0) :
    timeTaskRelease b t s = s := by
  refine if_neg ?_
  rw [State.timeDue]
  rcases h with h | h | h
  · simp [h]
  · simp [h]
  · simp [Nat.not_le.mpr h]

theorem koverReached_due {s : State} {b t k : Nat} (ht : t < 16) (hk : k = s.g BCP_CFG_kover [b]) (h0 : k ≠ 0) (hr : s.bcpRuns b = true)
    (h : k ≤ s.g BCP_TSTAT_0_consec [b, t]) (hlt : ∀ u < t, s.g BCP_TSTAT_0_consec [b, u] < k) :
    koverReached b s = s.fallback b t 2 := by
  subst hk
  have hfind : ((List.range 16).find? fun t => decide (s.g BCP_CFG_kover [b] ≤ s.g BCP_TSTAT_0_consec [b, t])) = some t := by
    rw [List.find?_range_eq_some]
    exact ⟨decide_eq_true h, List.mem_range.mpr ht, fun j hj => by simpa using hlt j hj⟩
  have hgo : (s.bcpRuns b && decide (s.g BCP_CFG_kover [b] ≠ 0)) = true := by rw [hr, decide_eq_true h0]; rfl
  simp only [koverReached, hfind, hgo, if_true]

theorem koverReached_none {s : State} {b k : Nat} (hk : k = s.g BCP_CFG_kover [b])
    (h : k = 0 ∨ s.bcpRuns b = false ∨ ∀ t < 16, s.g BCP_TSTAT_0_consec [b, t] < k) : koverReached b s = s := by
  subst hk
  simp only [koverReached]
  split
  · next t ht =>
    refine if_neg ?_
    rcases h with h | h | h
    · simp [h]
    · simp [h]
    · rw [List.find?_range_eq_some] at ht
      obtain ⟨hle, hm, -⟩ := ht
      exact absurd (h t (List.mem_range.mp hm)) (Nat.not_lt.mpr (of_decide_eq_true hle))
  · rfl

theorem watchdogExpiry_due {s : State} {b : Nat} {i : Inst} {l : List Inst} (hi : (s.cpu b).insts = i :: l) (hr : s.bcpRuns b = true)
    (h0 : s.g BCP_TASK_3 [b, i.task] ≠ 0) (h : s.g BCP_TASK_3 [b, i.task] * oneUs < s.since i.relCyc) :
    watchdogExpiry b s = s.fallback b i.task 1 := by
  simp only [watchdogExpiry, hi, List.find?_cons, h0, h, hr, ne_eq, not_false_eq_true, decide_true, Bool.and_self, if_true]

theorem watchdogExpiry_none {s : State} {b : Nat} (h : s.bcpRuns b = false ∨ ∀ i ∈ (s.cpu b).insts,
    s.g BCP_TASK_3 [b, i.task] = 0 ∨ s.since i.relCyc ≤ s.g BCP_TASK_3 [b, i.task] * oneUs) : watchdogExpiry b s = s := by
  simp only [watchdogExpiry]
  split
  · next i hi =>
    rcases h with h | h
    · exact if_neg (Bool.eq_false_iff.mp h)
    · have hl := List.find?_some hi
      rcases h i (List.mem_of_find?_eq_some hi) with h' | h'
      · simp [h'] at hl
      · simp [Nat.not_lt.mpr h'] at hl
  · rfl

theorem switchPoint_due {s : State} {b : Nat} {w : Switch} (hw : (s.cpu b).switch = some w) (hi : (s.cpu b).insts = []) :
    switchPoint b s = s.takeSwitch b w := by simp only [switchPoint, hw, hi, List.isEmpty_nil, if_true]

theorem switchPoint_none {s : State} {b : Nat} (h : (s.cpu b).switch = none ∨ (s.cpu b).insts ≠ []) : switchPoint b s = s := by
  rw [switchPoint]
  split
  · next w hw => exact if_neg (by simpa using h.resolve_left (by simp [hw]))
  · rfl

theorem switchTimeout_waiting {s : State} {b : Nat} {w : Switch} (hw : (s.cpu b).switch = some w) :
    switchTimeout b s = if !w.holding && s.g BCP_CFG_swto [b] * oneMs ≤ s.since w.cyc then
      s.putCpu b { s.cpu b with switch := some { w with holding := true } } else s := by
  simp only [switchTimeout, hw]
  rfl

theorem switchTimeout_none {s : State} {b : Nat} (h : (s.cpu b).switch = none) : switchTimeout b s = s := by
  simp only [switchTimeout, h]

/-- BCP_IMASK is stored, and clearing it is a dispatch point. -/
theorem bcpImask_stored (s : State) (b : Nat) (v : Word) :
    bcpImask b v s = if s.on BCP_IMASK_mask [b] && !v.getLsbD 0 then
      (s.p BCP_IMASK_mask [b] (b2n (v.getLsbD 0))).putCpu b { s.cpu b with dispatch := true }
    else s.p BCP_IMASK_mask [b] (b2n (v.getLsbD 0)) := by
  simp only [bcpImask, bits_one, State.p_on _ _ _ (show BCP_IMASK_mask.hi = BCP_IMASK_mask.lo from rfl) (by decide)]
  rfl

/-- Settles O38: each event of a task before and at its time, and the mask by its bit. -/
theorem taskControl : Obligations.TaskControl := by
  intro s b hr
  refine ⟨fun t v us u hv hus hd hu => ⟨fun h => ?released, fun h => ?skipped⟩, fun t h => ?noRelease,
    fun t k hk h0 h1 h2 h3 => ?kover, fun k hk h => ?noKover, fun i l h1 h2 h3 h4 => ?dog, fun h => ?noDog, fun w h1 h2 => ?point,
    fun h => ?noPoint, fun w hw => ⟨fun h1 h2 => ?holds, fun h => ?early⟩, fun h => ?noSwitch, fun v h1 h2 => ?cleared,
    fun v h1 h2 => ?clear, fun v h => ?masked⟩
  case released => rw [exec_timeTaskRelease _ _ hr, timeTaskRelease_due hv hus hd hu, h, if_neg Bool.false_ne_true]
  case skipped => rw [exec_timeTaskRelease _ _ hr, timeTaskRelease_due hv hus hd hu, h, if_pos rfl]; rfl
  case noRelease => rw [exec_timeTaskRelease _ _ hr, timeTaskRelease_none h]
  case kover => rw [exec_koverReached _ hr, koverReached_due t.isLt hk h0 h1 h2 h3]
  case noKover => rw [exec_koverReached _ hr, koverReached_none hk h]
  case dog => rw [exec_watchdogExpiry _ hr, watchdogExpiry_due h1 h2 h3 h4]
  case noDog => rw [exec_watchdogExpiry _ hr, watchdogExpiry_none h]
  case point => rw [exec_switchPoint _ hr, switchPoint_due h1 h2]
  case noPoint => rw [exec_switchPoint _ hr, switchPoint_none h]
  case holds => rw [exec_switchTimeout _ hr, switchTimeout_waiting hw, if_pos (by rw [h1, decide_eq_true h2]; rfl)]
  case early =>
    rw [exec_switchTimeout _ hr, switchTimeout_waiting hw, if_neg]
    rcases h with h | h
    · simp [h]
    · simp [Nat.not_le.mpr h]
  case noSwitch => rw [exec_switchTimeout _ hr, switchTimeout_none h]
  case cleared => rw [exec_bcpImask _ _ hr, hostWrite_bcpImask, bcpImask_stored, h1, h2]; rfl
  case clear => rw [exec_bcpImask _ _ hr, hostWrite_bcpImask, bcpImask_stored, h1, h2]; rfl
  case masked => rw [exec_bcpImask _ _ hr, hostWrite_bcpImask, bcpImask_stored, h, Bool.not_true, Bool.and_false]; rfl

/-! ### Start, stop, load and switch -/

theorem bcpStart_done {s : State} {d : Desc} {b : Nat} (hb : b = d.rf.toNat % 4) (hs : s.inSt [DAWN, NIGHT, SAFE] = false)
    (he : (s.cpu b).state ≠ B_EMPTY) (hrun : (s.cpu b).state ≠ B_RUNNING) :
    bcpStart d s = (s.startBcp b (d.rf.getLsbD 8)).complete d 0x0801 ST_DONE := by
  subst hb
  exact if_neg (by simp [bcpOf, hs, he, hrun])

theorem bcpStart_refused {s : State} {d : Desc} {b : Nat} (hb : b = d.rf.toNat % 4)
    (h : s.inSt [DAWN, NIGHT, SAFE] = true ∨ (s.cpu b).state = B_EMPTY ∨ (s.cpu b).state = B_RUNNING) :
    bcpStart d s = s.complete d 0x0801 ST_NOT_NOW := by
  subst hb
  exact if_pos (by rcases h with h | h | h <;> simp [bcpOf, h])

theorem bcpStop_done {s : State} {d : Desc} {b : Nat} (hb : b = d.rf.toNat % 4) (hs : s.inSt [DAWN, NIGHT] = false)
    (he : (s.cpu b).state ≠ B_EMPTY) (hst : (s.cpu b).state ≠ B_STOPPED) : bcpStop d s = (s.stopBcp b).complete d 0x0802 ST_DONE := by
  subst hb
  exact if_neg (by simp [bcpOf, hs, he, hst])

theorem bcpStop_refused {s : State} {d : Desc} {b : Nat} (hb : b = d.rf.toNat % 4)
    (h : s.inSt [DAWN, NIGHT] = true ∨ (s.cpu b).state = B_EMPTY ∨ (s.cpu b).state = B_STOPPED) :
    bcpStop d s = s.complete d 0x0802 ST_NOT_NOW := by
  subst hb
  exact if_pos (by rcases h with h | h | h <;> simp [bcpOf, h])

theorem State.stopBcp_plain {s v u : State} {b : Nat} (hv : v = s.dropInsts b) (hu : u = v.putCpu b { v.cpu b with state := B_STOPPED })
    (h : (u.cpu b).switch = none) : s.stopBcp b = u := by
  subst hu hv
  simp only [State.stopBcp, State.onCpu, h]

/-- A switch that waits is taken at the stop. -/
theorem State.stopBcp_switch {s v u : State} {b : Nat} {w : Switch} (hv : v = s.dropInsts b)
    (hu : u = v.putCpu b { v.cpu b with state := B_STOPPED }) (h : (u.cpu b).switch = some w) : s.stopBcp b = u.takeSwitch b w := by
  subst hu hv
  simp only [State.stopBcp, State.onCpu, h]

theorem bcpLoad_queued {s u : State} {d : Desc} {b : Nat} (hb : b = d.rf.toNat % 4) (hs : s.inSt [DAWN, NIGHT, SAFE] = false)
    (hw : (s.cpu b).switch = none)
    (hu : u = (s.clampDesc d 4 (b2n (524288 < d.len.toNat))).clearBank b (1 - (s.cpu b).active)) (buf : List Byte) :
    bcpLoad d buf s = u.putCpu b { u.cpu b with loading := (u.cpu b).loading ++ [(d, buf.take 524288)] } := by
  subst hu hb
  exact if_neg (by simp [bcpOf, hs, hw])

theorem bcpLoad_refused {s : State} {d : Desc} {b : Nat} (hb : b = d.rf.toNat % 4)
    (h : s.inSt [DAWN, NIGHT, SAFE] = true ∨ (s.cpu b).switch ≠ none) (buf : List Byte) :
    bcpLoad d buf s = s.complete d 0x0803 ST_NOT_NOW := by
  subst hb
  refine if_pos ?_
  rcases h with h | h
  · simp [h]
  · simp [bcpOf, Option.isSome_iff_ne_none.mpr h]

theorem bcpLoadChecked_next {s u : State} {k code : Nat} {e : Desc} {img : List Byte} {l : List (Desc × List Byte)}
    (hl : (s.cpu k).loading = (e, img) :: l) (hc : (code, u) = (s.putCpu k { s.cpu k with loading := l }).loadBank k
      (1 - (s.cpu k).active) img (min e.len.toNat 524288)) :
    bcpLoadChecked k s =
      if code = 0 then (u.clampDesc e 8 (taskClamps img)).completeWith { compOf e 0x0803 ST_DONE with b := 0 }
      else u.completeWith { compOf e 0x0803 ST_AUTH_FAIL with b := code } := by
  simp only [bcpLoadChecked, hl, State.onCpu, BcpSt.other, ← hc]

theorem bcpLoadChecked_none {s : State} {k : Nat} (h : (s.cpu k).loading = []) : bcpLoadChecked k s = s := by
  simp only [bcpLoadChecked, h]

theorem bcpSwitch_pends {s : State} {d : Desc} {b : Nat} (hb : b = d.rf.toNat % 4) (hs : s.inSt [DAWN, NIGHT] = false)
    (ho : s.switchOk b = true) (hw : (s.cpu b).switch = none) : bcpSwitch d s = s.switchPend b none (some d) := by
  subst hb
  exact if_neg (by simp [bcpOf, hs, ho, hw])

theorem bcpSwitch_refused {s : State} {d : Desc} {b : Nat} (hb : b = d.rf.toNat % 4)
    (h : s.inSt [DAWN, NIGHT] = true ∨ s.switchOk b = false ∨ (s.cpu b).switch ≠ none) :
    bcpSwitch d s = s.complete d 0x0804 ST_NOT_NOW := by
  subst hb
  refine if_pos ?_
  rcases h with h | h | h
  · simp [h]
  · simp [bcpOf, h]
  · simp [bcpOf, Option.isSome_iff_ne_none.mpr h]

/-- A switch of a BCP that runs waits for its switch point. -/
theorem State.switchPend_waits {s u : State} {b : Nat} {slot : Option Nat} {cmd : Option Desc} {w : Switch}
    (hw : w = ⟨slot, cmd, s.mer.now, s.mer.cyc, false⟩) (hu : u = s.putCpu b { s.cpu b with switch := some w })
    (h : (s.cpu b).state = B_RUNNING) : s.switchPend b slot cmd = u := by
  subst hu hw
  exact if_pos h

/-- A switch of a BCP that does not run is taken at once. -/
theorem State.switchPend_taken {s u : State} {b : Nat} {slot : Option Nat} {cmd : Option Desc} {w : Switch}
    (hw : w = ⟨slot, cmd, s.mer.now, s.mer.cyc, false⟩) (hu : u = s.putCpu b { s.cpu b with switch := some w })
    (h : (s.cpu b).state ≠ B_RUNNING) : s.switchPend b slot cmd = u.takeSwitch b w := by
  subst hu hw
  exact if_neg h

theorem bcpMap_done {s u : State} {d : Desc} {b n : Nat} {buf : List Byte} {m : List (List Byte)} (hb : b = d.rf.toNat % 4)
    (hs : s.inSt [DAWN, NIGHT] = false) (hv : ((s.cpu b).bank (1 - (s.cpu b).active)).verified = true)
    (hn : n = min (d.len.toNat / 20) 16384) (hm : m = (List.range n).map (fun i => (buf.drop (20 * i)).take 20))
    (hu : u = (s.clampDesc d 4 (b2n (n * 20 ≠ d.len.toNat))).clampDesc d 8 (m.filter fun e => 2 < leAt e 16 1).length) :
    bcpMap d buf s = (u.putCpu b ((s.cpu b).putBank (1 - (s.cpu b).active) { (s.cpu b).bank (1 - (s.cpu b).active) with
      map := some m.flatten })).complete d 0x0805 ST_DONE := by
  subst hu hm hn hb
  exact if_neg (by simp [bcpOf, BcpSt.other, hs, hv])

theorem bcpMap_refused {s : State} {d : Desc} {b : Nat} (hb : b = d.rf.toNat % 4)
    (h : s.inSt [DAWN, NIGHT] = true ∨ ((s.cpu b).bank (1 - (s.cpu b).active)).verified = false) (buf : List Byte) :
    bcpMap d buf s = s.complete d 0x0805 ST_NOT_NOW := by
  subst hb
  exact if_pos (by rcases h with h | h <;> simp [bcpOf, BcpSt.other, h])

/-- Settles O39: each command by the state of its BCP, and a load by its checks. -/
theorem bcpLifecycle : Obligations.BcpLifecycle := by
  intro s d b c hr hb hc
  subst hc
  refine ⟨fun h1 h2 h3 => ?start, fun h => ?noStart, fun h1 h2 h3 v u hv hu => ⟨fun h => ?stop, fun w h => ?stopSwitch⟩, fun h => ?noStop,
    fun buf h1 h2 u hu => ?load, fun buf h => ?noLoad, fun k e img l code u hl hk => ?checked, fun k h => ?noCheck,
    fun w u h1 h2 h3 hw hu => ⟨fun h => ?pends, fun h => ?taken⟩, fun h => ?noSwitch, fun buf n m u h1 h2 hn hm hu => ?map,
    fun buf h => ?noMap⟩
  case start => rw [exec_bcpStart _ hr, bcpStart_done (s := s.open_ d) hb h1 h2 h3]
  case noStart => rw [exec_bcpStart _ hr, bcpStart_refused (s := s.open_ d) hb h]
  case stop => rw [exec_bcpStop _ hr, bcpStop_done (s := s.open_ d) hb h1 h2 h3, State.stopBcp_plain hv hu h]
  case stopSwitch => rw [exec_bcpStop _ hr, bcpStop_done (s := s.open_ d) hb h1 h2 h3, State.stopBcp_switch hv hu h]
  case noStop => rw [exec_bcpStop _ hr, bcpStop_refused (s := s.open_ d) hb h]
  case load => rw [exec_bcpLoad _ _ hr, bcpLoad_queued (s := s.open_ d) hb h1 h2 hu]
  case noLoad => rw [exec_bcpLoad _ _ hr, bcpLoad_refused (s := s.open_ d) hb h]
  case checked => rw [exec_bcpLoadChecked _ hr, bcpLoadChecked_next hl hk]
  case noCheck => rw [exec_bcpLoadChecked _ hr, bcpLoadChecked_none h]
  case pends => rw [exec_bcpSwitch _ hr, bcpSwitch_pends (s := s.open_ d) hb h1 h2 h3, State.switchPend_waits (s := s.open_ d) hw hu h]
  case taken => rw [exec_bcpSwitch _ hr, bcpSwitch_pends (s := s.open_ d) hb h1 h2 h3, State.switchPend_taken (s := s.open_ d) hw hu h]
  case noSwitch => rw [exec_bcpSwitch _ hr, bcpSwitch_refused (s := s.open_ d) hb h]
  case map => rw [exec_bcpMap _ _ hr, bcpMap_done (s := s.open_ d) hb h1 h2 hn hm hu]; rfl
  case noMap => rw [exec_bcpMap _ _ hr, bcpMap_refused (s := s.open_ d) hb h]

/-! ### Forces and the host's outputs -/

theorem bcpForce_done {s : State} {d : Desc} {b : Nat} {c : BcpSt} {v : VarEnt} {x : BitVec 64} {f : Bool} (hb : b = d.rf.toNat % 4)
    (hc : c = s.cpu b) (hk : findKey c.img d.a.toNat = some v) (hs : s.inSt [DAWN, NIGHT] = false) (hv : v.isFb = false)
    (hl : (c.forces.filter (·.key ≠ d.a.toNat)).length < 256) (hx : (x, f) = forceClamp (v.typ.code % 8) d.addr) :
    bcpForce d s = ((s.clampDesc d 8 (b2n f)).putCpu b ({ c with forces := c.forces.filter (·.key ≠ d.a.toNat) ++
      [⟨d.a.toNat, v.typ.code, x, d.b.truncate 8⟩] } : BcpSt).putForces).complete d 0x0806 ST_DONE := by
  subst hc hb
  simp only [bcpForce, bcpOf, hk, hs, hv, Nat.not_le.mpr hl, decide_false, Bool.or_self, Bool.false_eq_true, if_false, ← hx]

theorem bcpForce_refused {s : State} {d : Desc} {b : Nat} {c : BcpSt} (hb : b = d.rf.toNat % 4) (hc : c = s.cpu b)
    (h : findKey c.img d.a.toNat = none ∨ s.inSt [DAWN, NIGHT] = true ∨ (∀ v, findKey c.img d.a.toNat = some v → v.isFb = true) ∨
      256 ≤ (c.forces.filter (·.key ≠ d.a.toNat)).length) : bcpForce d s = s.complete d 0x0806 ST_NOT_NOW := by
  subst hc hb
  simp only [bcpForce]
  split
  · rfl
  · next v hv =>
    refine if_pos ?_
    rcases h with h | h | h | h
    · exact absurd hv (by rw [show bcpOf d = d.rf.toNat % 4 from rfl, h]; exact nofun)
    · simp [h]
    · simp [h v hv]
    · rw [show bcpOf d = d.rf.toNat % 4 from rfl, decide_eq_true h, Bool.or_true]

theorem bcpUnforce_refused {s : State} (h : s.inSt [DAWN, NIGHT] = true) (d : Desc) :
    bcpUnforce d s = s.complete d 0x0807 ST_NOT_NOW := if_pos h

theorem bcpUnforce_done {s : State} {d : Desc} {b : Nat} (hb : b = d.rf.toNat % 4) (h : s.inSt [DAWN, NIGHT] = false) :
    bcpUnforce d s = (s.putCpu b { s.cpu b with
      forces := (s.cpu b).forces.filter fun f => !d.rf.getLsbD 8 && f.key ≠ d.a.toNat }).complete d 0x0807 ST_DONE := by
  subst hb
  exact if_neg (Bool.eq_false_iff.mp h)

theorem bcpTout_refused {s : State} {d : Desc} {t b : Nat} (ht : t = d.rf.toNat % 16) (hb : b = d.rf.toNat / 16 % 4)
    (h : s.inSt [DAWN, NIGHT] = true ∨ ∀ i ∈ (s.cpu b).insts, i.host = true → i.task ≠ t) (buf : List Byte) :
    bcpTout d buf s = s.complete d 0x0811 ST_NOT_NOW := by
  subst hb ht
  simp only [bcpTout]
  split
  · rfl
  · next i hi =>
    rcases h with h | h
    · exact if_pos h
    · have hp := List.find?_some hi
      rw [Bool.and_eq_true, decide_eq_true_eq] at hp
      obtain ⟨hh, hti⟩ := hp
      exact absurd hti (h i (List.mem_of_find?_eq_some hi) hh)

/-- The outstanding task run of a host-assisted task, by its count. -/
theorem bcpTout_outstanding {s : State} {d : Desc} {t b : Nat} {c : BcpSt} {i : Inst} {e : TaskEnt} (ht : t = d.rf.toNat % 16)
    (hb : b = d.rf.toNat / 16 % 4) (hc : c = s.cpu b) (hi : c.insts.find? (fun i => i.host && i.task = t) = some i)
    (hs : s.inSt [DAWN, NIGHT] = false) (he : e = taskEnt c.img t) (buf : List Byte) :
    bcpTout d buf s = if d.a.toNat % 65536 ≠ i.relCount then s.complete d 0x0811 ST_LATE
      else (s.taskEnd b { i with aflag := d.b.getLsbD 0 }
        ((splitItems buf 0 (mapEnts c.img 4 e.outFirst e.outCount)).map fun (m, l) => (m, c.withForces m.off l))).complete d
          0x0811 ST_DONE := by
  subst he hc hb ht
  simp only [bcpTout, hi, hs, Bool.false_eq_true, if_false]

theorem filter_never {α : Type} (l : List α) : l.filter (fun _ => false) = [] := List.filter_eq_nil_iff.mpr fun _ _ => nofun

/-- Settles O40: forces by the variable, and the host's outputs by the outstanding task run. -/
theorem forceAndHostOutput : Obligations.ForceAndHostOutput := by
  intro s d hr
  refine ⟨fun b c v x f hb hc hk hs hv hl hx => ?force, fun b c hb hc h => ?noForce, fun b hb hs => ⟨fun h => ?all, fun h => ?key⟩,
    fun h => ?noUnforce, fun buf h => ?noTout, fun buf t b c ht hb hc => ⟨fun h => ?none, fun i e hi hs he => ⟨fun h => ?late,
      fun h => ?ends⟩⟩⟩
  case force => rw [exec_bcpForce _ hr, bcpForce_done (s := s.open_ d) hb hc hk hs hv hl hx]
  case noForce => rw [exec_bcpForce _ hr, bcpForce_refused (s := s.open_ d) hb hc h]
  case all =>
    rw [exec_bcpUnforce _ hr, bcpUnforce_done (s := s.open_ d) hb hs]
    simp only [h, Bool.not_true, Bool.false_and, filter_never]
    rfl
  case key =>
    rw [exec_bcpUnforce _ hr, bcpUnforce_done (s := s.open_ d) hb hs]
    simp only [h, Bool.not_false, Bool.true_and]
    rfl
  case noUnforce => rw [exec_bcpUnforce _ hr, bcpUnforce_refused (s := s.open_ d) h]
  case noTout => rw [exec_bcpTout _ _ hr, bcpTout_refused (s := s.open_ d) rfl rfl (.inl h)]
  case none =>
    subst hc
    rw [exec_bcpTout _ _ hr, bcpTout_refused (s := s.open_ d) ht hb (.inr h)]
  case late => rw [exec_bcpTout _ _ hr, bcpTout_outstanding (s := s.open_ d) ht hb hc hi hs he, if_pos h]
  case ends => rw [exec_bcpTout _ _ hr, bcpTout_outstanding (s := s.open_ d) ht hb hc hi hs he, if_neg (Decidable.not_not.mpr h)]

end Sys2Proof.Machine
end

section
/-! Rules of the block-code machine (R315, R359 to R361, R369): the operand stack of a task run, the BCP that an instruction leaves,
and the copy-in before the first instruction, which changes neither the task that runs nor its code. -/

open Sys2Proof Sys2Proof.Machine

namespace Sys2Proof.Machine

/-! ### The operand stack -/

/-- The task run behind its instruction, with a stack and a flag that joins its own. -/
def Inst.stepTo (i : Inst) (l : List Cell) (f : Bool) : Inst := { i.next with stack := l, aflag := i.aflag || f }

theorem State.stepped_eq (s : State) (b : Nat) (i : Inst) (l : List Cell) (f : Bool) : s.stepped b i l f = s.putInst b (i.stepTo l f) := rfl

theorem Inst.next_eq (i : Inst) : i.next = i.stepTo i.stack false := by
  rw [Inst.stepTo, Bool.or_false]; rfl

@[simp] theorem Inst.stepTo_stack (i : Inst) (l : List Cell) (f : Bool) : (i.stepTo l f).stack = l := rfl

theorem Inst.pop_cons (i : Inst) (x : Cell) (r : List Cell) (f : Bool) : (i.stepTo (x :: r) f).pop = (x, i.stepTo r f) := rfl

theorem Inst.setFlag_stepTo (i : Inst) (l : List Cell) (f g : Bool) : (i.stepTo l f).setFlag g = i.stepTo l (f || g) := by
  rw [Inst.setFlag, Inst.stepTo, Inst.stepTo, Bool.or_assoc]

theorem Inst.pop_nil (i : Inst) (f : Bool) : (i.stepTo [] f).pop = ((0, 0), i.stepTo [] true) := by
  rw [Inst.pop, Inst.stepTo_stack]
  simp only [Inst.setFlag_stepTo, Bool.or_true]

theorem Inst.push_room (i : Inst) {l : List Cell} (h : l.length < 64) (f : Bool) (v : BitVec 64) (t : Byte) :
    (i.stepTo l f).push v t = i.stepTo ((v, t) :: l) f := if_neg (Nat.not_le.mpr h)

theorem Inst.push_full (i : Inst) {l : List Cell} (h : 64 ≤ l.length) (f : Bool) (v : BitVec 64) (t : Byte) :
    (i.stepTo l f).push v t = i.stepTo l true := by
  rw [Inst.push, Inst.stepTo_stack, if_pos h, Inst.setFlag_stepTo, Bool.or_true]

/-- A one-operand operation. -/
theorem Inst.un_step (i : Inst) {x : Cell} {r : List Cell} (h : r.length < 64) {f : BitVec 64 → BitVec 64 × Bool} {v : BitVec 64} {g : Bool}
    (hf : f x.1 = (v, g)) : (i.stepTo (x :: r) false).un f = i.stepTo ((v, x.2) :: r) g := by
  simp only [Inst.un, Inst.pop_cons, hf, Inst.setFlag_stepTo, Bool.false_or, Inst.push_room i h]

/-- A two-operand operation. -/
theorem Inst.bin_step (i : Inst) {x y : Cell} {r : List Cell} (h : r.length < 64) {f : BitVec 64 → BitVec 64 → BitVec 64 × Bool}
    {v : BitVec 64} {g : Bool} (hf : f x.1 y.1 = (v, g)) :
    (i.stepTo (y :: x :: r) false).bin f = i.stepTo ((v, x.2 ||| y.2) :: r) g := by
  simp only [Inst.bin, Inst.pop_cons, hf, Inst.setFlag_stepTo, Bool.false_or, Inst.push_room i h]

/-! ### One BCP of the state -/

theorem getD_of_lt {α : Type} {l : List α} {i : Nat} (h : i < l.length) (d : α) : l.getD i d = l[i] := by
  rw [List.getD_eq_getElem?_getD, List.getElem?_eq_getElem h, Option.getD_some]

theorem getD_of_le {α : Type} {l : List α} {i : Nat} (h : l.length ≤ i) (d : α) : l.getD i d = d := by
  rw [List.getD_eq_getElem?_getD, List.getElem?_eq_none h, Option.getD_none]

/-- A BCP that is put back leaves the state. -/
theorem State.putCpu_self (s : State) (b : Nat) : s.putCpu b (s.cpu b) = s := by
  have h : s.bcp.set b (s.cpu b) = s.bcp := by
    by_cases hb : b < s.bcp.length
    · rw [show s.cpu b = s.bcp[b] from getD_of_lt hb emptyBcp, List.set_getElem_self]
    · exact List.set_eq_of_length_le (Nat.le_of_not_lt hb)
  rw [State.putCpu, h]

theorem State.cpu_putCpu {s : State} {b : Nat} (hb : b < s.bcp.length) (c : BcpSt) : (s.putCpu b c).cpu b = c := by
  show (s.bcp.set b c).getD b emptyBcp = c
  rw [getD_of_lt (by rwa [List.length_set]), List.getElem_set_self]

/-- A BCP that has a task run is one of the state's. -/
theorem State.lt_bcp {s : State} {b : Nat} (h : (s.cpu b).insts ≠ []) : b < s.bcp.length := by
  refine Nat.lt_of_not_le fun hb => h ?_
  rw [State.cpu, nth, getD_of_le hb]
  rfl

/-! ### The copy-in -/

/-- A copy-in writes the region. -/
theorem BcpSt.copyIn_setMem (c : BcpSt) (a : Nat) (l : List Byte) : ∃ m, c.copyIn a l = c.setMem m := by
  rw [BcpSt.copyIn]
  split
  · exact ⟨_, rfl⟩
  · exact ⟨_, rfl⟩

/-- The region of a BCP lies beside its code. -/
theorem BcpSt.setMem_img (c : BcpSt) (m : Mem) : (c.setMem m).img = c.img := by
  show (nth (c.banks.set c.active { c.bank c.active with mem := m }) c.active emptyBank).img = c.img
  by_cases h : c.active < c.banks.length
  · rw [nth, getD_of_lt (by rwa [List.length_set]), List.getElem_set_self]
    rfl
  · rw [List.set_eq_of_length_le (Nat.le_of_not_lt h)]
    rfl

/-- What a copy-in keeps of a BCP. -/
def BcpSt.sameCode (c d : BcpSt) : Prop := d.img = c.img ∧ d.insts = c.insts ∧ d.state = c.state

theorem BcpSt.copyIn_sameCode (c : BcpSt) (a : Nat) (l : List Byte) : c.sameCode (c.copyIn a l) := by
  obtain ⟨m, h⟩ := c.copyIn_setMem a l
  rw [h]
  exact ⟨c.setMem_img m, rfl, rfl⟩

theorem BcpSt.copyIns_sameCode (l : List (Nat × List Byte)) (c : BcpSt) : c.sameCode (l.foldl (fun c (o, x) => c.copyIn o x) c) := by
  induction l generalizing c with
  | nil => exact ⟨rfl, rfl, rfl⟩
  | cons x xs ih =>
    obtain ⟨i1, i2, i3⟩ := ih (c.copyIn x.1 x.2)
    obtain ⟨h1, h2, h3⟩ := c.copyIn_sameCode x.1 x.2
    exact ⟨i1.trans h1, i2.trans h2, i3.trans h3⟩

/-- The task run as its copy-in leaves it. -/
def Inst.begun (i : Inst) : Inst := { i with started := true, image := [] }

theorem State.startInst_started {s : State} {b : Nat} {i : Inst} (h : i.started = true) : s.startInst b i = s := if_pos h

/-- The start of a task run changes its BCP alone: its region, its error record and the task run. -/
theorem State.startInst_new {s : State} {b : Nat} {i : Inst} (h : i.started = false) : ∃ c e, (s.cpu b).sameCode c ∧
    s.startInst b i = (s.putCpu b { c with err := e }).putInst b i.begun := by
  rw [State.startInst, if_neg (by rw [h]; exact Bool.false_ne_true)]
  exact ⟨_, _, BcpSt.copyIns_sameCode _ _, rfl⟩

/-- What the start of a task run leaves as it is: everything but the BCPs. -/
theorem State.startInst_parts (s : State) (b : Nat) (i : Inst) :
    (s.startInst b i).regs = s.regs ∧ (s.startInst b i).mer = s.mer ∧ (s.startInst b i).pwr = s.pwr := by
  cases h : i.started with
  | true => rw [State.startInst_started h]; exact ⟨rfl, rfl, rfl⟩
  | false =>
    obtain ⟨c, e, -, hs⟩ := s.startInst_new (b := b) h
    rw [hs]
    exact ⟨rfl, rfl, rfl⟩

theorem State.startInst_mer (s : State) (b : Nat) (i : Inst) : (s.startInst b i).mer = s.mer := (s.startInst_parts b i).2.1

theorem State.startInst_runs {s : State} (hr : s.Runs) (b : Nat) (i : Inst) : (s.startInst b i).Runs := by
  obtain ⟨-, -, hp⟩ := s.startInst_parts b i
  rw [State.Runs, hp]
  exact hr

theorem State.startInst_g (s : State) (b : Nat) (i : Inst) (f : Fld) (ix : List Nat) : (s.startInst b i).g f ix = s.g f ix := by
  obtain ⟨hr, -, -⟩ := s.startInst_parts b i
  rw [State.g, State.rd, hr]
  rfl

/-! ### The task that runs -/

/-- The rank of a task run: the lowest runs (R315, R322). -/
def State.instRank (s : State) (b : Nat) (i : Inst) : List Nat :=
  [if s.taskKind b i.task = K_ERROR then 0 else s.taskPrio b i.task + 1, b2n (!i.started || i.host), i.relCyc, i.task]

/-- One step of the choice of the task that runs. -/
def State.sooner (s : State) (b : Nat) : Option Inst → Inst → Option Inst
  | none, i => some i
  | some j, i => if s.precedes b i j then some i else some j

theorem State.precedes_iff {s : State} {b : Nat} {i j : Inst} : s.precedes b i j = true ↔ s.instRank b i < s.instRank b j :=
  decide_eq_true_iff

theorem State.current_eq (s : State) (b : Nat) : s.current b = (s.cpu b).insts.foldl (s.sooner b) none := by
  rw [State.current]
  congr 1
  funext o i
  cases o with
  | none => rfl
  | some j => rfl

/-- The choice is one of the instances, or the one it began with, and none ranks before it. -/
theorem State.sooner_least (s : State) (b : Nat) (l : List Inst) (o : Option Inst) (i : Inst) (h : l.foldl (s.sooner b) o = some i) :
    (o = some i ∨ i ∈ l) ∧ (∀ j, o = some j → ¬ s.instRank b j < s.instRank b i) ∧ ∀ j ∈ l, ¬ s.instRank b j < s.instRank b i := by
  induction l generalizing o with
  | nil => exact ⟨.inl h, fun j hj => by rw [List.foldl_nil, hj] at h; rw [Option.some.inj h]; exact List.lt_irrefl _, nofun⟩
  | cons x xs ih =>
    obtain ⟨hmem, hacc, hle⟩ := ih _ h
    cases o with
    | none =>
      refine ⟨.inr ?_, nofun, fun j hj => ?_⟩
      · rcases hmem with h' | h'
        · rw [Option.some.inj h']; exact List.mem_cons_self
        · exact List.mem_cons_of_mem _ h'
      · rcases List.mem_cons.mp hj with rfl | hj
        · exact hacc _ rfl
        · exact hle j hj
    | some k =>
      by_cases hx : s.instRank b x < s.instRank b k
      · have hs : s.sooner b (some k) x = some x := if_pos (State.precedes_iff.mpr hx)
        rw [hs] at hmem hacc
        have hxi := hacc x rfl
        refine ⟨.inr ?_, fun j hj => Option.some.inj hj ▸ fun hk => hxi (List.lt_trans hx hk), fun j hj => ?_⟩
        · rcases hmem with h' | h'
          · rw [Option.some.inj h']; exact List.mem_cons_self
          · exact List.mem_cons_of_mem _ h'
        · rcases List.mem_cons.mp hj with rfl | hj
          · exact hxi
          · exact hle j hj
      · have hs : s.sooner b (some k) x = some k := if_neg (mt State.precedes_iff.mp hx)
        rw [hs] at hmem hacc
        have hki := hacc k rfl
        refine ⟨hmem.imp_right (List.mem_cons_of_mem _), fun j hj => Option.some.inj hj ▸ hki, fun j hj => ?_⟩
        rcases List.mem_cons.mp hj with rfl | hj
        · exact List.not_lt.mpr (List.le_trans (List.not_lt.mp hki) (List.not_lt.mp hx))
        · exact hle j hj

/-- A task run that ranks before every other one is the choice. -/
theorem State.sooner_first {s : State} {b : Nat} {i : Inst} (l : List Inst) (o : Option Inst)
    (ho : ∀ j, o = some j → j = i ∨ s.instRank b i < s.instRank b j) (hl : ∀ j ∈ l, j = i ∨ s.instRank b i < s.instRank b j)
    (hm : o = some i ∨ i ∈ l) : l.foldl (s.sooner b) o = some i := by
  induction l generalizing o with
  | nil => exact hm.resolve_right (List.not_mem_nil)
  | cons x xs ih =>
    have hxs : ∀ j ∈ xs, j = i ∨ s.instRank b i < s.instRank b j := fun j hj => hl j (List.mem_cons_of_mem _ hj)
    have hx := hl x List.mem_cons_self
    rw [List.foldl_cons]
    cases o with
    | none =>
      refine ih (some x) (fun j hj => Option.some.inj hj ▸ hx) hxs ?_
      rcases List.mem_cons.mp (hm.resolve_left nofun) with rfl | h
      · exact .inl rfl
      · exact .inr h
    | some k =>
      have hk := ho k rfl
      by_cases hlt : s.instRank b x < s.instRank b k
      · rw [show s.sooner b (some k) x = some x from if_pos (State.precedes_iff.mpr hlt)]
        refine ih (some x) (fun j hj => Option.some.inj hj ▸ hx) hxs ?_
        rcases hm with h | h
        · rcases hx with hx | hx
          · exact .inl (hx ▸ rfl)
          · exact absurd (Option.some.inj h ▸ hlt) (List.not_lt.mpr (List.le_of_lt hx))
        · rcases List.mem_cons.mp h with rfl | h
          · exact .inl rfl
          · exact .inr h
      · rw [show s.sooner b (some k) x = some k from if_neg (mt State.precedes_iff.mp hlt)]
        refine ih (some k) (fun j hj => Option.some.inj hj ▸ hk) hxs ?_
        rcases hm with h | h
        · exact .inl h
        · rcases List.mem_cons.mp h with rfl | h
          · rcases hk with hk | hk
            · exact .inl (hk ▸ rfl)
            · exact absurd hk hlt
          · exact .inr h

/-- A task run that has started ranks before itself as it was released. -/
theorem State.instRank_begun (s : State) (b : Nat) {i : Inst} (h : i.started = false) (hh : i.host = false) :
    s.instRank b i.begun < s.instRank b i := by
  have h0 : b2n (!i.begun.started || i.begun.host) < b2n (!i.started || i.host) := by
    rw [h, hh, show i.begun.host = false from hh, show i.begun.started = true from rfl]; decide
  exact List.cons_lt_cons_iff.mpr (.inr ⟨rfl, List.cons_lt_cons_iff.mpr (.inl h0)⟩)

/-- The start of the task that runs leaves it the one that runs. -/
theorem State.startInst_current {s : State} {b : Nat} {i : Inst} (hc : s.current b = some i) (h : i.started = false)
    (hh : i.host = false) : (s.startInst b i).current b = some i.begun := by
  rw [State.current_eq] at hc
  obtain ⟨hmem, -, hle⟩ := s.sooner_least b _ _ _ hc
  have hi : i ∈ (s.cpu b).insts := hmem.resolve_left nofun
  have hb : b < s.bcp.length := State.lt_bcp (List.ne_nil_of_mem hi)
  obtain ⟨c, e, ⟨-, hci, -⟩, hs⟩ := s.startInst_new (b := b) h
  have hrank (j : Inst) : (s.startInst b i).instRank b j = s.instRank b j := by
    rw [State.instRank, show (s.startInst b i).taskKind b j.task = s.taskKind b j.task from s.startInst_g b i _ _,
      show (s.startInst b i).taskPrio b j.task = s.taskPrio b j.task from s.startInst_g b i _ _, State.instRank]
  have hinsts : ((s.startInst b i).cpu b).insts = (s.cpu b).insts.map fun j => if j.order = i.order then i.begun else j := by
    rw [hs, State.putInst, State.onCpu, State.cpu_putCpu (show b < (s.bcp.set b _).length by rwa [List.length_set]),
      State.cpu_putCpu hb, ← hci]
    rfl
  rw [State.current_eq, hinsts]
  refine State.sooner_first _ none nofun (fun j hj => ?_) (.inr (List.mem_map.mpr ⟨i, hi, if_pos rfl⟩))
  obtain ⟨k, hk, rfl⟩ := List.mem_map.mp hj
  by_cases ho : k.order = i.order
  · exact .inl (if_pos ho)
  · rw [if_neg ho, hrank, hrank]
    refine .inr (List.not_le.mp fun hkb => ?_)
    exact absurd (s.instRank_begun b h hh) (List.not_lt.mpr (List.le_trans (List.not_lt.mp (hle k hk)) hkb))

/-- What makes an instruction the next one of its BCP. -/
theorem State.fbcNow_iff {s : State} {b op : Nat} {i : Inst} {w : Word} : s.fbcNow b op = some (i, w) ↔
    s.current b = some i ∧ s.bcpRuns b = true ∧ i.host = false ∧ i.pc < codeCount (s.cpu b).img ∧
      codeWord (s.cpu b).img i.pc = w ∧ opOf w = op := by
  rw [State.fbcNow]
  split
  · next h => simp [h]
  · next j h =>
    rw [h]
    constructor
    · intro he
      dsimp only at he
      split at he
      · next hcond =>
        obtain ⟨rfl, rfl⟩ := Prod.mk.inj (Option.some.inj he)
        simp only [Bool.and_eq_true, decide_eq_true_eq, Bool.not_eq_true'] at hcond
        obtain ⟨⟨⟨h1, h2⟩, h3⟩, h4⟩ := hcond
        exact ⟨rfl, h1, h2, h3, rfl, h4⟩
      · exact absurd he nofun
    · rintro ⟨hj, h1, h2, h3, h4, h5⟩
      obtain rfl := Option.some.inj hj
      simp [h1, h2, h3, h4, h5]

/-- The start of a task run keeps the code of its BCP. -/
theorem State.startInst_cpu {s : State} {b : Nat} {i : Inst} (hb : b < s.bcp.length) :
    ((s.startInst b i).cpu b).img = (s.cpu b).img ∧ ((s.startInst b i).cpu b).state = (s.cpu b).state := by
  cases h : i.started with
  | true => rw [State.startInst_started h]; exact ⟨rfl, rfl⟩
  | false =>
    obtain ⟨c, e, ⟨h1, -, h3⟩, hs⟩ := s.startInst_new (b := b) h
    rw [hs, State.putInst, State.onCpu, State.cpu_putCpu (show b < (s.bcp.set b _).length by rwa [List.length_set]),
      State.cpu_putCpu hb]
    exact ⟨h1, h3⟩

/-- The next instruction of a BCP is the same before and after its task run has started. -/
theorem State.fbcNow_startInst {s : State} {b op : Nat} {i : Inst} {w : Word} (h : s.fbcNow b op = some (i, w)) :
    ∃ j, (s.startInst b i).fbcNow b op = some (j, w) ∧ j.next = i.next ∧ j.started = true := by
  cases hst : i.started with
  | true => exact ⟨i, by rw [State.startInst_started hst, h], rfl, hst⟩
  | false =>
    obtain ⟨hc, hrun, hh, hpc, hw, hop⟩ := State.fbcNow_iff.mp h
    have hb : b < s.bcp.length := by
      refine State.lt_bcp fun hn => ?_
      rw [State.current, hn] at hc
      exact absurd hc nofun
    obtain ⟨himg, hstate⟩ := State.startInst_cpu (i := i) hb
    have hruns : (s.startInst b i).bcpRuns b = true := by
      have hin : (s.startInst b i).inSt [MORNING, NOON, DUSK] = s.inSt [MORNING, NOON, DUSK] := by
        simp only [State.inSt, State.dev, State.startInst_g]
      rw [State.bcpRuns, hstate, hin]
      exact hrun
    exact ⟨i.begun, State.fbcNow_iff.mpr ⟨State.startInst_current hc hst hh, hruns, hh, by rw [himg]; exact hpc, by rw [himg]; exact hw, hop⟩,
      rfl, rfl⟩

end Sys2Proof.Machine
end

section
/-! The instructions of block code (R315, R357 to R369): what each leaves on the stack, in the region and on the call stack. -/

open Sys2Proof Sys2Proof.Machine

namespace Sys2Proof.Machine

/-! ### Running one instruction -/

/-- An instruction of a task run that has started acts on its BCP and on the task run. -/
theorem State.fbc_executes {s : State} {b op : Nat} {i : Inst} {w : Word} (h : s.Executes b op i w)
    {f : BcpSt → Inst → Word → BcpSt × Inst} {c : BcpSt} {j : Inst} (hf : f (s.cpu b) i.next w = (c, j)) :
    s.fbc b op f = (s.putCpu b c).putInst b j := by
  obtain ⟨hn, hst⟩ := h
  simp only [State.fbc, hn, State.startInst_started hst, hf]

theorem State.fbcI_executes {s : State} {b op : Nat} {i : Inst} {w : Word} (h : s.Executes b op i w) (f : Inst → Word → Inst) :
    s.fbcI b op f = s.putInst b (f i.next w) := by
  rw [State.fbcI, State.fbc_executes h rfl, State.putCpu_self]

/-- An instruction that leaves a stack and a flag. -/
theorem State.fbcI_steps {s : State} {b op : Nat} {i : Inst} {w : Word} (h : s.Executes b op i w) {f : Inst → Word → Inst}
    {l : List Cell} {g : Bool} (hf : f (i.stepTo i.stack false) w = i.stepTo l g) : s.fbcI b op f = s.stepped b i l g := by
  rw [State.fbcI_executes h, Inst.next_eq, hf, State.stepped_eq]

theorem State.fbc_none {s : State} {b op : Nat} (h : s.fbcNow b op = none) (f : BcpSt → Inst → Word → BcpSt × Inst) :
    s.fbc b op f = s := by simp only [State.fbc, h]

/-- An instruction acts alike before and after the start of its task run. -/
theorem State.fbc_startInst {s : State} {b op : Nat} {i : Inst} {w : Word} (h : s.fbcNow b op = some (i, w))
    (f : BcpSt → Inst → Word → BcpSt × Inst) : (s.startInst b i).fbc b op f = s.fbc b op f := by
  obtain ⟨j, hj, hnext, hst⟩ := State.fbcNow_startInst h
  simp only [State.fbc, h, hj, State.startInst_started hst, hnext]

theorem State.endRun_startInst {s : State} {b op : Nat} {i : Inst} {w : Word} (h : s.fbcNow b op = some (i, w)) :
    (s.startInst b i).endRun b op = s.endRun b op := by
  obtain ⟨j, hj, hnext, hst⟩ := State.fbcNow_startInst h
  have htask : j.task = i.task := show j.next.task = i.next.task by rw [hnext]
  have hitems : (s.startInst b i).outItems b j = (s.startInst b i).outItems b i := by
    rw [State.outItems, htask]
    rfl
  simp only [State.endRun, h, hj, State.startInst_started hst, hnext, hitems]

/-- An instruction by the effect on the BCP that it has in a state comes behind the copy-in. -/
theorem first_of_fbc {x : Instr} {b op : Nat} {f : State → BcpSt → Inst → Word → BcpSt × Inst}
    (he : ∀ {t : State}, t.Runs → exec x t = .next (settle (t.fbc b op (f t)))) {s : State} (hr : s.Runs)
    (hf : ∀ i, f (s.startInst b i) = f s) {i : Inst} {w : Word} (h : s.fbcNow b op = some (i, w)) :
    exec x s = exec x (s.startInst b i) := by
  rw [he hr, he (State.startInst_runs hr b i), hf, State.fbc_startInst h]

theorem first_of_fbc_const {s : State} (hr : s.Runs) {x : Instr} {b op : Nat} {f : BcpSt → Inst → Word → BcpSt × Inst}
    (he : ∀ {t : State}, t.Runs → exec x t = .next (settle (t.fbc b op f))) {i : Inst} {w : Word} (h : s.fbcNow b op = some (i, w)) :
    exec x s = exec x (s.startInst b i) := first_of_fbc (f := fun _ => f) he hr (fun _ => rfl) h

theorem ret_startInst {s : State} {b : Nat} {i : Inst} {w : Word} (h : s.fbcNow b 0x44 = some (i, w)) :
    ret b (s.startInst b i) = ret b s := by
  obtain ⟨j, hj, hnext, -⟩ := State.fbcNow_startInst h
  have hcalls : j.calls = i.calls := show j.next.calls = i.next.calls by rw [hnext]
  simp only [ret, h, hj, hcalls, State.endRun_startInst h, State.fbcI, State.fbc_startInst h]

/-- Every instruction but CALLX comes behind the copy-in of its task run. -/
theorem instruction_first {s : State} {b : Fin 4} {i : Inst} {w : Word} (hr : s.Runs) : ∀ e ∈ ([
      (0x00, .fbcNop b), (0x01, .ldi b), (0x02, .ldc b), (0x03, .dup b), (0x04, .drop b), (0x05, .swap b), (0x06, .fbcOver b),
        (0x07, .rot b), (0x10, .ldl b), (0x11, .stl b), (0x12, .ldg b), (0x13, .stg b), (0x14, .ldx b), (0x15, .stx b),
        (0x16, .lea b), (0x18, .qget b), (0x19, .qset b), (0x20, .add b), (0x21, .sub b), (0x22, .mul b), (0x23, .div b),
        (0x24, .mod b), (0x25, .neg b), (0x26, .abs b), (0x27, .min b), (0x28, .max b), (0x29, .limit b), (0x2A, .cvt b),
        (0x2B, .math b), (0x30, .cmp b), (0x31, .sel b), (0x38, .and b), (0x39, .or b), (0x3A, .xor b), (0x3B, .not b),
        (0x3C, .shl b), (0x3D, .shr b), (0x40, .jmp b), (0x41, .jz b), (0x42, .jnz b), (0x43, .call b), (0x44, .ret b),
        (0x46, .tend b), (0x47, .aflag b), (0x48, .now b)] : List (Nat × Instr)),
    s.fbcNow b e.1 = some (i, w) → exec e.2 s = exec e.2 (s.startInst b i) := by
  simp only [List.forall_mem_cons]
  have first {x : Instr} {op : Nat} {f : BcpSt → Inst → Word → BcpSt × Inst}
      (he : ∀ {t : State}, t.Runs → exec x t = .next (settle (t.fbc b op f))) :
      s.fbcNow b op = some (i, w) → exec x s = exec x (s.startInst b i) :=
    first_of_fbc_const hr he
  refine ⟨first (exec_fbcNop b), first (exec_ldi b), first (exec_ldc b), first (exec_dup b), first (exec_drop b),
    first (exec_swap b), first (exec_fbcOver b), first (exec_rot b), first (exec_ldl b), first (exec_stl b),
    first (exec_ldg b), first (exec_stg b), first (exec_ldx b), first (exec_stx b), first (exec_lea b), first (exec_qget b),
    first (exec_qset b), first (exec_add b), first (exec_sub b), first (exec_mul b), first (exec_div b), first (exec_mod b),
    first (exec_neg b), first (exec_abs b), first (exec_min b), first (exec_max b), first (exec_limit b), first (exec_cvt b),
    first (exec_math b), first (exec_cmp b), first (exec_sel b), first (exec_and b), first (exec_or b), first (exec_xor b),
    first (exec_not b), first (exec_shl b), first (exec_shr b), first (exec_jmp b), first (exec_jz b), first (exec_jnz b),
    first (exec_call b), fun h => ?ret, fun h => ?tend, first (exec_aflag b), first_of_fbc (exec_now b) hr fun j => ?now, nofun⟩
  case ret => rw [exec_ret _ hr, exec_ret _ (State.startInst_runs hr b i), ret_startInst h]
  case tend => rw [exec_tend _ hr, exec_tend _ (State.startInst_runs hr b i), tend, tend, State.endRun_startInst h]
  case now => simp only [State.startInst_mer]

/-! ### The stack instructions -/

/-- Settles O41: each instruction by the stack that it finds, behind the copy-in of its task run. -/
theorem stackInstructions : Obligations.StackInstructions := by
  intro s b i w hr
  refine ⟨fun h => ?nop, fun h => ?idle, instruction_first hr, fun h hl => ?ldi, fun h hl => ?full, fun h hl => ?ldc,
    fun h hl => ?aflag, fun h hl => ?now, fun h hn => ?empty, fun x r hx hl => ⟨fun h => ?dup, fun h => ?drop, fun h => ?qget⟩,
    fun x y r hx hl => ⟨fun h => ?swap, fun h => ?beneath, fun h => ?qset⟩, fun x y z r hx hl h => ?rot⟩
  case nop => rw [exec_fbcNop _ hr, fbcNop, State.fbcI_steps h rfl]
  case idle => rw [exec_fbcNop _ hr, fbcNop, State.fbcI, State.fbc_none h]
  case ldi => rw [exec_ldi _ hr, ldi, State.fbcI_steps h (Inst.push_room i hl _ _ _)]
  case full => rw [exec_ldi _ hr, ldi, State.fbcI_steps h (Inst.push_full i hl _ _ _)]
  case ldc =>
    rw [exec_ldc _ hr, ldc, State.fbc_executes h (by rw [Inst.next_eq, Inst.push_room i hl]), State.putCpu_self, State.stepped_eq]
  case aflag =>
    have hf : (i.stepTo i.stack false).aflag = i.aflag := Bool.or_false _
    rw [exec_aflag _ hr, aflag, State.fbcI_steps h (by rw [hf, Inst.push_room i hl])]
  case now => rw [exec_now _ hr, now, State.fbcI_steps h (Inst.push_room i hl _ _ _)]
  case empty => rw [exec_drop _ hr, drop, State.fbcI_steps h (by rw [hn, Inst.pop_nil])]
  case dup =>
    have hl1 : (x :: r).length < 64 := by rw [List.length_cons]; omega
    rw [exec_dup _ hr, dup, State.fbcI_steps h (by
      rw [hx, Inst.pop_cons]; exact (congrArg (·.push x.1 x.2) (Inst.push_room i (by omega) _ _ _)).trans (Inst.push_room i hl1 _ _ _))]
  case drop => rw [exec_drop _ hr, drop, State.fbcI_steps h (by rw [hx, Inst.pop_cons])]
  case qget =>
    have hl1 : (x :: r).length < 64 := by rw [List.length_cons]; omega
    rw [exec_qget _ hr, qget, State.fbcI_steps h (l := (BitVec.ofNat 64 x.2.toNat, 0) :: x :: r) (g := false) (by
      rw [hx]; simp only [Inst.pop_cons, Inst.push_room i (show r.length < 64 by omega), Inst.push_room i hl1])]
  case swap =>
    have hl1 : (y :: r).length < 64 := by rw [List.length_cons]; omega
    rw [exec_swap _ hr, swap, State.fbcI_steps h (l := x :: y :: r) (g := false) (by
      rw [hx]; simp only [Inst.pop_cons, Inst.push_room i (show r.length < 64 by omega), Inst.push_room i hl1])]
  case beneath =>
    have hl1 : (x :: r).length < 64 := by rw [List.length_cons]; omega
    have hl2 : (y :: x :: r).length < 64 := by rw [List.length_cons, List.length_cons]; omega
    rw [exec_fbcOver _ hr, fbcOver, State.fbcI_steps h (l := x :: y :: x :: r) (g := false) (by
      rw [hx]; simp only [Inst.pop_cons, Inst.push_room i (show r.length < 64 by omega), Inst.push_room i hl1, Inst.push_room i hl2])]
  case qset =>
    rw [exec_qset _ hr, qset, State.fbcI_steps h (l := (x.1, y.1.truncate 8) :: r) (g := false) (by
      rw [hx]; simp only [Inst.pop_cons, Inst.push_room i (show r.length < 64 by omega)])]
  case rot =>
    have hl1 : (y :: r).length < 64 := by rw [List.length_cons]; omega
    have hl2 : (z :: y :: r).length < 64 := by rw [List.length_cons, List.length_cons]; omega
    rw [exec_rot _ hr, rot, State.fbcI_steps h (l := x :: z :: y :: r) (g := false) (by
      rw [hx]; simp only [Inst.pop_cons, Inst.push_room i (show r.length < 64 by omega), Inst.push_room i hl1, Inst.push_room i hl2])]

/-! ### Loads and stores -/

/-- A load within the region that reaches no forced variable. -/
theorem BcpSt.load_within {c : BcpSt} {t : Nat} {q : Bool} {a : Int} {l : List Byte} {x : Cell} (ha : accOk (regionSize c.img) t q a = true)
    (hf : c.forcedAt a.toNat (accSize t q) = none) (hl : l = memRead c.mem a.toNat (accSize t q))
    (hx : x = (loadCell t (l.take (baseSize t)), if q then nth l (baseSize t) 0 else 0)) : c.load t q a = (x, false) := by
  subst hx hl
  simp only [BcpSt.load, ha, hf, if_true]

theorem BcpSt.load_outside {c : BcpSt} {t : Nat} {q : Bool} {a : Int} (ha : accOk (regionSize c.img) t q a = false) :
    c.load t q a = ((0, 0), true) := if_neg (Bool.eq_false_iff.mp ha)

theorem BcpSt.store_within {c : BcpSt} {t : Nat} {q : Bool} {a : Int} (ha : accOk (regionSize c.img) t q a = true)
    (hf : c.forcedAt a.toNat (accSize t q) = none) (x : Cell) :
    c.store t q a x = (c.setMem (memWrite c.mem a.toNat (storeBytes t x.1 ++ if q then [x.2] else [])), false) := by
  rw [BcpSt.store, if_pos ha, hf]
  rfl

theorem BcpSt.store_forced {c : BcpSt} {t : Nat} {q : Bool} {a : Int} (ha : accOk (regionSize c.img) t q a = true)
    (hf : c.forcedAt a.toNat (accSize t q) ≠ none) (x : Cell) : c.store t q a x = (c, false) := by
  rw [BcpSt.store, if_pos ha, if_pos (Option.isSome_iff_ne_none.mpr hf)]

theorem BcpSt.store_outside {c : BcpSt} {t : Nat} {q : Bool} {a : Int} (ha : accOk (regionSize c.img) t q a = false) (x : Cell) :
    c.store t q a x = (c, true) := if_neg (Bool.eq_false_iff.mp ha)

theorem loadPush_steps {c : BcpSt} {w : Word} {a : Int} {x : Cell} {g : Bool} (h : c.load (formM w) (formQ w) a = (x, g)) (i : Inst)
    {l : List Cell} (hl : l.length < 64) : loadPush c (i.stepTo l false) w a = (c, i.stepTo (x :: l) g) := by
  simp only [loadPush, h, Inst.setFlag_stepTo, Bool.false_or, Inst.push_room i hl]

theorem storeCell_steps {c d : BcpSt} {w : Word} {a : Int} {x : Cell} {g : Bool} (h : c.store (formM w) (formQ w) a x = (d, g)) (i : Inst)
    (l : List Cell) : storeCell c (i.stepTo l false) w a x = (d, i.stepTo l g) := by
  simp only [storeCell, h, Inst.setFlag_stepTo, Bool.false_or]

/-- An instruction that leaves its BCP, and a stack and a flag. -/
theorem State.fbc_steps {s : State} {b op : Nat} {i : Inst} {w : Word} (h : s.Executes b op i w)
    {f : BcpSt → Inst → Word → BcpSt × Inst} {c : BcpSt} {l : List Cell} {g : Bool}
    (hf : f (s.cpu b) (i.stepTo i.stack false) w = (c, i.stepTo l g)) : s.fbc b op f = (s.putCpu b c).stepped b i l g := by
  rw [State.fbc_executes h (by rw [Inst.next_eq, hf]), State.stepped_eq]

/-- Settles O42: the access by its address, in each instruction that makes it. -/
theorem loadsAndStores : Obligations.LoadsAndStores := by
  intro s b i w c t q hr hc ht hq
  subst hq ht hc
  refine ⟨fun a l x ha hf hl hx => ⟨fun h hs h' => ?ldl, fun h hs h' => ?ldg, fun y r h hs hlen h' => ?ldx⟩,
    fun a ha => ⟨fun h hs h' => ?ldlOut, fun x r h hs h' => ?stgOut⟩,
    fun a x u ha hf hu => ⟨fun r h hs h' => ?stl, fun r h hs h' => ?stg, fun y r h hs h' => ?stx⟩,
    fun a x r ha hf h hs h' => ?forced, fun h hs => ?lea⟩
  case ldl =>
    subst h'
    rw [exec_ldl _ hr, ldl, State.fbc_steps h (loadPush_steps (BcpSt.load_within ha hf hl hx) i hs), State.putCpu_self]
  case ldg =>
    subst h'
    rw [exec_ldg _ hr, ldg, State.fbc_steps h (loadPush_steps (BcpSt.load_within ha hf hl hx) i hs), State.putCpu_self]
  case ldx =>
    subst h'
    rw [exec_ldx _ hr, ldx, State.fbc_steps h (by
      rw [hs]; exact loadPush_steps (BcpSt.load_within ha hf hl hx) i hlen), State.putCpu_self]
  case ldlOut =>
    subst h'
    rw [exec_ldl _ hr, ldl, State.fbc_steps h (loadPush_steps (BcpSt.load_outside ha) i hs), State.putCpu_self]
  case stgOut =>
    subst h'
    rw [exec_stg _ hr, stg, State.fbc_steps h (by rw [hs]; exact storeCell_steps (BcpSt.store_outside ha x) i r), State.putCpu_self]
  case stl =>
    subst h' hu
    rw [exec_stl _ hr, stl, State.fbc_steps h (by rw [hs]; exact storeCell_steps (BcpSt.store_within ha hf x) i r)]
  case stg =>
    subst h' hu
    rw [exec_stg _ hr, stg, State.fbc_steps h (by rw [hs]; exact storeCell_steps (BcpSt.store_within ha hf x) i r)]
  case stx =>
    subst h' hu
    rw [exec_stx _ hr, stx, State.fbc_steps h (by rw [hs]; exact storeCell_steps (BcpSt.store_within ha hf x) i r)]
  case forced =>
    subst h'
    rw [exec_stg _ hr, stg, State.fbc_steps h (by rw [hs]; exact storeCell_steps (BcpSt.store_forced ha hf x) i r), State.putCpu_self]
  case lea => rw [exec_lea _ hr, lea, State.fbcI_steps h (Inst.push_room i hs _ _ _)]; rfl

/-! ### Arithmetic -/

theorem binOp_int {t : Nat} {fi : Int → Int → Int × Bool} {ff : FV → FV → FV} {x y : BitVec 64} {v : Int} {f : Bool}
    (ht : isReal t = false) (h : (v, f) = fi (cellInt x) (cellInt y)) : binOp t fi ff x y = (intCell v, f) := by
  simp only [binOp, ht, Bool.false_eq_true, if_false, ← h]

theorem binOp_real {t : Nat} {fi : Int → Int → Int × Bool} {ff : FV → FV → FV} {x y v : BitVec 64} {f : Bool}
    (ht : isReal t = true) (h : (v, f) = fvCell t (ff (cellFV t x) (cellFV t y))) : binOp t fi ff x y = (v, f) := by
  rw [binOp, if_pos ht, h]

theorem unOp_int {t : Nat} {fi : Int → Int × Bool} {ff : FV → FV} {x : BitVec 64} {v : Int} {f : Bool} (ht : isReal t = false)
    (h : (v, f) = fi (cellInt x)) : unOp t fi ff x = (intCell v, f) := by
  simp only [unOp, ht, Bool.false_eq_true, if_false, ← h]

theorem unOp_real {t : Nat} {fi : Int → Int × Bool} {ff : FV → FV} {x v : BitVec 64} {f : Bool} (ht : isReal t = true)
    (h : (v, f) = fvCell t (ff (cellFV t x))) : unOp t fi ff x = (v, f) := by
  rw [unOp, if_pos ht, h]

/-- An instruction on two operands. -/
theorem State.bin_steps {s : State} {b op : Nat} {i : Inst} {w : Word} {x y : Cell} {r : List Cell} (h : s.Executes b op i w)
    (hs : i.stack = y :: x :: r) (hl : r.length < 64) {f : Word → BitVec 64 → BitVec 64 → BitVec 64 × Bool} {v : BitVec 64} {g : Bool}
    (hf : f w x.1 y.1 = (v, g)) : s.fbcI b op (fun i w => i.bin (f w)) = s.stepped b i ((v, x.2 ||| y.2) :: r) g :=
  State.fbcI_steps h (by rw [hs]; exact Inst.bin_step i hl hf)

/-- An instruction on one operand. -/
theorem State.un_steps {s : State} {b op : Nat} {i : Inst} {w : Word} {x : Cell} {r : List Cell} (h : s.Executes b op i w)
    (hs : i.stack = x :: r) (hl : r.length < 64) {f : Word → BitVec 64 → BitVec 64 × Bool} {v : BitVec 64} {g : Bool}
    (hf : f w x.1 = (v, g)) : s.fbcI b op (fun i w => i.un (f w)) = s.stepped b i ((v, x.2) :: r) g :=
  State.fbcI_steps h (by rw [hs]; exact Inst.un_step i hl hf)

/-- A division by zero gives the end of the range of the dividend's sign, or 0, with the flag. -/
theorem intDiv_zero {t : Nat} {x y v : Int} (hy : y = 0)
    (hv : v = if x = 0 then 0 else if x < 0 then -(2 ^ (intWidth t - 1)) else 2 ^ (intWidth t - 1) - 1) : (v, true) = intDiv t x y := by
  rw [intDiv, if_pos hy, hv]

theorem intDiv_nonzero {t : Nat} {x y : Int} (hy : y ≠ 0) : intDiv t x y = satType t (x.tdiv y) := if_neg hy

/-- Every integer type holds 0. -/
theorem satType_zero (t : Nat) : satType t 0 = (0, false) := by
  have h0 : satI (-(2 ^ (intWidth t - 1))) (2 ^ (intWidth t - 1) - 1) 0 = 0 := by
    have hp : (0 : Int) < 2 ^ (intWidth t - 1) := Int.pow_pos (by decide)
    rw [satI]
    omega
  simp [satType, h0]

theorem satOf_intMod_zero {t : Nat} {x y : Int} (hy : y = 0) : satOf t (intMod x y) = (0, true) := by
  simp only [intMod, hy, if_true, satOf, satType_zero, Bool.true_or]

theorem satOf_intMod {t : Nat} {x y : Int} (hy : y ≠ 0) : satOf t (intMod x y) = satType t (x.tmod y) := by
  simp only [intMod, hy, if_false, satOf, Bool.false_or]

theorem limitCell_int {t : Nat} {mn x mx : BitVec 64} {v : Int} {f : Bool} (ht : isReal t = false)
    (h : (v, f) = satType t (min (max (cellInt x) (cellInt mn)) (cellInt mx))) : limitCell t mn x mx = (intCell v, f) := by
  simp only [limitCell, ht, Bool.false_eq_true, if_false, ← h]

theorem limitCell_real {t : Nat} {mn x mx v : BitVec 64} {f : Bool} (ht : isReal t = true)
    (h : (v, f) = fvCell t (((cellFV t x).max (cellFV t mn)).min (cellFV t mx))) : limitCell t mn x mx = (v, f) := by
  rw [limitCell, if_pos ht, h]

theorem State.limit_steps {s : State} {b : Nat} {i : Inst} {w : Word} {x mn mx : Cell} {r : List Cell} (h : s.Executes b 0x29 i w)
    (hs : i.stack = mx :: x :: mn :: r) (hl : r.length < 64) {v : BitVec 64} {g : Bool}
    (hf : limitCell (formT w) mn.1 x.1 mx.1 = (v, g)) : limit b s = s.stepped b i ((v, mn.2 ||| x.2 ||| mx.2) :: r) g :=
  State.fbcI_steps h (by rw [hs]; simp only [Inst.pop_cons, hf, Inst.setFlag_stepTo, Bool.false_or, Inst.push_room i hl])

theorem State.math_one {s : State} {b : Nat} {i : Inst} {w : Word} {x : Cell} {r : List Cell} (h : s.Executes b 0x2B i w)
    (hs : i.stack = x :: r) (hl : r.length < 64) (hn : bits w 3 0 ≠ 10) {v : BitVec 64} {g : Bool}
    (hf : fvCell (formT w) (mathFn (bits w 3 0) (cellFV (formT w) x.1)) = (v, g)) : math b s = s.stepped b i ((v, x.2) :: r) g :=
  State.fbcI_steps h (by rw [hs]; simp only [hn, if_false]; exact Inst.un_step i hl hf)

theorem State.math_expt {s : State} {b : Nat} {i : Inst} {w : Word} {x y : Cell} {r : List Cell} (h : s.Executes b 0x2B i w)
    (hs : i.stack = y :: x :: r) (hl : r.length < 64) (hn : bits w 3 0 = 10) {v : BitVec 64} {g : Bool}
    (hf : fvCell (formT w) (mathExpt (cellFV (formT w) x.1) (cellFV (formT w) y.1)) = (v, g)) :
    math b s = s.stepped b i ((v, x.2 ||| y.2) :: r) g :=
  State.fbcI_steps h (by rw [hs]; simp only [hn, if_true]; exact Inst.bin_step i hl hf)

/-- Settles O43: each operation by its type, on the operands that the stack holds. -/
theorem arithmetic : Obligations.Arithmetic := by
  intro s b i w t hr ht
  subst ht
  refine ⟨fun x y r hs hl => ⟨fun v f hi => ⟨fun h hv => ?add, fun h hv => ?sub, fun h hv => ?mul, fun h hy hv => ?div,
      fun h hy hx => ?divTop, fun h hy hx => ?divBottom, fun h hy hx => ?divZero, fun h hy => ?modZero, fun h hy hv => ?mod,
      fun h hv => ?min, fun h hv => ?max⟩,
      fun v f hf => ⟨fun h hv => ?addReal, fun h hv => ?mulReal, fun h hv => ?subReal, fun h hv => ?divReal, fun h hv => ?minReal,
        fun h hv => ?maxReal⟩, fun v f h hn hv => ?expt⟩,
    fun x r v f hs hl => ⟨fun hi h hv => ?neg, fun hi h hv => ?abs, fun hf h y hy => ?negReal, fun hf h y hy => ?absReal⟩,
    fun x r v f hs hl => ⟨fun h hv => ?cvt, fun h hn hv => ?math⟩,
    fun x mn mx r f hs hl h => ⟨fun v hi hv => ?limit, fun v hf hv => ?limitReal⟩⟩
  case add => rw [exec_add _ hr, fbcAdd, State.bin_steps h hs hl (binOp_int hi hv)]
  case sub => rw [exec_sub _ hr, fbcSub, State.bin_steps h hs hl (binOp_int hi hv)]
  case mul => rw [exec_mul _ hr, fbcMul, State.bin_steps h hs hl (binOp_int hi hv)]
  case div => rw [exec_div _ hr, fbcDiv, State.bin_steps h hs hl (binOp_int hi (hv.trans (intDiv_nonzero hy).symm))]
  case divTop =>
    rw [exec_div _ hr, fbcDiv, State.bin_steps h hs hl (binOp_int hi (intDiv_zero hy
      (by rw [if_neg (Int.ne_of_gt hx), if_neg (Int.not_lt.mpr (Int.le_of_lt hx))])))]
  case divBottom =>
    rw [exec_div _ hr, fbcDiv, State.bin_steps h hs hl (binOp_int hi (intDiv_zero hy (by rw [if_neg (Int.ne_of_lt hx), if_pos hx])))]
  case divZero => rw [exec_div _ hr, fbcDiv, State.bin_steps h hs hl (binOp_int hi (intDiv_zero hy (by rw [if_pos hx])))]
  case modZero => rw [exec_mod _ hr, fbcMod, State.bin_steps h hs hl (binOp_int hi (satOf_intMod_zero hy).symm)]
  case mod => rw [exec_mod _ hr, fbcMod, State.bin_steps h hs hl (binOp_int hi (hv.trans (satOf_intMod hy).symm))]
  case min => rw [exec_min _ hr, fbcMin, State.bin_steps h hs hl (binOp_int hi hv)]
  case max => rw [exec_max _ hr, fbcMax, State.bin_steps h hs hl (binOp_int hi hv)]
  case addReal => rw [exec_add _ hr, fbcAdd, State.bin_steps h hs hl (binOp_real hf hv)]
  case mulReal => rw [exec_mul _ hr, fbcMul, State.bin_steps h hs hl (binOp_real hf hv)]
  case subReal => rw [exec_sub _ hr, fbcSub, State.bin_steps h hs hl (binOp_real (ff := fun x y => x.add y.neg) hf hv)]
  case divReal => rw [exec_div _ hr, fbcDiv, State.bin_steps h hs hl (binOp_real hf hv)]
  case minReal => rw [exec_min _ hr, fbcMin, State.bin_steps h hs hl (binOp_real hf hv)]
  case maxReal => rw [exec_max _ hr, fbcMax, State.bin_steps h hs hl (binOp_real hf hv)]
  case expt => rw [exec_math _ hr, State.math_expt h hs hl hn hv.symm]
  case neg => rw [exec_neg _ hr, fbcNeg, State.un_steps h hs hl (unOp_int hi hv)]
  case abs => rw [exec_abs _ hr, fbcAbs, State.un_steps h hs hl (unOp_int hi hv)]
  case negReal => rw [exec_neg _ hr, fbcNeg, State.un_steps h hs hl (unOp_real hf hy)]
  case absReal => rw [exec_abs _ hr, fbcAbs, State.un_steps h hs hl (unOp_real hf hy)]
  case cvt => rw [exec_cvt _ hr, cvt, State.un_steps h hs hl hv.symm]
  case math => rw [exec_math _ hr, State.math_one h hs hl hn hv.symm]
  case limit => rw [exec_limit _ hr, State.limit_steps h hs hl (limitCell_int hi hv)]
  case limitReal => rw [exec_limit _ hr, State.limit_steps h hs hl (limitCell_real hf hv)]

/-! ### Logic and control -/

theorem State.sel_steps {s : State} {b : Nat} {i : Inst} {w : Word} {x y g : Cell} {r : List Cell} (h : s.Executes b 0x31 i w)
    (hs : i.stack = g :: y :: x :: r) (hl : r.length < 64) {c : Cell} (hc : (if g.1 = 0 then x else y) = c) :
    sel b s = s.stepped b i ((c.1, g.2 ||| c.2) :: r) false :=
  State.fbcI_steps h (by subst hc; rw [hs]; exact Inst.push_room i hl _ _ _)

/-- The task run behind a jump of its instruction. -/
def Inst.jumped (i : Inst) (w : Word) (r : List Cell) : Inst :=
  { i.next with stack := r, pc := (((i.pc + 1 : Nat) : Int) + opSigned w).toNat }

theorem Inst.jump_stepTo (i : Inst) (w : Word) (r : List Cell) : (i.stepTo r false).jump w = i.jumped w r := by
  rw [Inst.stepTo, Bool.or_false]; rfl

/-- A conditional jump pops its condition. -/
theorem State.jz_steps {s : State} {b : Nat} {i : Inst} {w : Word} {x : Cell} {r : List Cell} (h : s.Executes b 0x41 i w)
    (hs : i.stack = x :: r) : jz b s = s.putInst b (if x.1 = 0 then i.jumped w r else i.stepTo r false) := by
  rw [jz, State.fbcI_executes h, Inst.next_eq, hs, Inst.pop_cons, Inst.jump_stepTo]

theorem State.jnz_steps {s : State} {b : Nat} {i : Inst} {w : Word} {x : Cell} {r : List Cell} (h : s.Executes b 0x42 i w)
    (hs : i.stack = x :: r) : jnz b s = s.putInst b (if x.1 = 0 then i.stepTo r false else i.jumped w r) := by
  rw [jnz, State.fbcI_executes h, Inst.next_eq, hs, Inst.pop_cons, Inst.jump_stepTo]

theorem State.call_steps {s : State} {b : Nat} {i : Inst} {w : Word} {x : Cell} {r : List Cell} (h : s.Executes b 0x43 i w)
    (hs : i.stack = x :: r) : call b s = s.putInst b { i.next with
      stack := r, calls := (i.pc + 1, i.ip) :: i.calls, ip := x.1.toNat, pc := (typeEnt (s.cpu b).img (bits w 23 0)).entry } := by
  have hp : i.next.pop = (x, i.stepTo r false) := by rw [Inst.next_eq, hs, Inst.pop_cons]
  rw [call, State.fbc_executes h (by rw [hp]), State.putCpu_self, Inst.stepTo, Bool.or_false]
  rfl

/-- A CALLX in its NOP form pops its address and sets the flag. -/
theorem State.callx_nop {s : State} {b : Nat} {i : Inst} {w : Word} {x : Cell} {r : List Cell} (h : s.Executes b 0x45 i w)
    (hs : i.stack = x :: r) (hn : ∀ n, blockSize (bits w 23 0) = some n → inRegion (s.cpu b) (cellInt x.1) n = false) :
    callx b s = s.stepped b i r true := by
  obtain ⟨hf, hst⟩ := h
  have hp : i.next.pop = (x, i.stepTo r false) := by rw [Inst.next_eq, hs, Inst.pop_cons]
  have hany : ((blockSize (bits w 23 0)).any fun n => inRegion (s.cpu b) (cellInt x.1) n) = false := by
    cases hb : blockSize (bits w 23 0) with
    | none => rfl
    | some n => exact hn n hb
  simp only [callx, hf, hp, hany, Bool.false_eq_true, if_false, State.startInst_started hst, Inst.setFlag_stepTo, Bool.false_or]
  rfl

theorem State.ret_inner {s : State} {b pc ip : Nat} {i : Inst} {w : Word} {l : List (Nat × Nat)} (h : s.Executes b 0x44 i w)
    (hc : i.calls = (pc, ip) :: l) : ret b s = s.putInst b { i.next with pc := pc, ip := ip, calls := l } := by
  have hn : i.next.calls = (pc, ip) :: l := hc
  simp only [ret, h.1, hc, List.isEmpty_cons, Bool.false_eq_true, if_false, State.fbcI_executes h, hn]

theorem State.endRun_ends {s : State} {b op : Nat} {i : Inst} {w : Word} (h : s.Executes b op i w) :
    s.endRun b op = s.taskEnd b i.next (s.outItems b i) := by
  obtain ⟨hn, hst⟩ := h
  simp only [State.endRun, hn, State.startInst_started hst]

theorem State.ret_outer {s : State} {b : Nat} {i : Inst} {w : Word} (h : s.Executes b 0x44 i w) (hc : i.calls = []) :
    ret b s = s.taskEnd b i.next (s.outItems b i) := by
  simp only [ret, h.1, hc, List.isEmpty_nil, if_true, State.endRun_ends h]

/-- Settles O44: each instruction on the operands that the stack holds, and the jumps, calls and ends on the task run. -/
theorem logicAndControl : Obligations.LogicAndControl := by
  intro s b i w t hr ht
  subst ht
  refine ⟨fun x y r hs hl => ⟨fun h => ?and, fun h => ?or, fun h => ?xor, fun h => ?cmp⟩,
    fun x y g r hs hl h => ⟨fun h0 => ?selFirst, fun h0 => ?selSecond⟩,
    fun x r hs hl => ⟨fun h hb => ?notBool, fun h hb => ?not, fun h hn => ?shlOut, fun h hn => ?shl, fun h hn => ?shrOut,
      fun h hn => ?shr, fun h => ⟨fun h0 => ?jz, fun h0 => ?jzOn⟩, fun h => ⟨fun h0 => ?jnz, fun h0 => ?jnzOn⟩, fun h => ?call,
      fun h hn => ?callx⟩,
    fun h => ?jmp, fun pc ip l h hc => ?ret, fun h hc => ?retEnd, fun h => ?tend⟩
  case and => rw [exec_and _ hr, fbcAnd, State.bin_steps h hs hl rfl]
  case or => rw [exec_or _ hr, fbcOr, State.bin_steps h hs hl rfl]
  case xor => rw [exec_xor _ hr, fbcXor, State.bin_steps h hs hl rfl]
  case cmp => rw [exec_cmp _ hr, cmp, State.bin_steps h hs hl rfl]
  case selFirst => rw [exec_sel _ hr, State.sel_steps h hs hl (if_pos h0)]
  case selSecond => rw [exec_sel _ hr, State.sel_steps h hs hl (if_neg h0)]
  case notBool => rw [exec_not _ hr, fbcNot, State.un_steps h hs hl rfl, notCell, if_pos hb]
  case not => rw [exec_not _ hr, fbcNot, State.un_steps h hs hl rfl, notCell, if_neg hb]
  case shlOut => rw [exec_shl _ hr, shl, State.un_steps h hs hl rfl, shlCell, if_pos hn]
  case shl => rw [exec_shl _ hr, shl, State.un_steps h hs hl rfl, shlCell, if_neg (Nat.not_le.mpr hn)]
  case shrOut => rw [exec_shr _ hr, shr, State.un_steps h hs hl rfl, shrCell, if_pos hn]
  case shr => rw [exec_shr _ hr, shr, State.un_steps h hs hl rfl, shrCell, if_neg (Nat.not_le.mpr hn)]
  case jz => rw [exec_jz _ hr, State.jz_steps h hs, if_pos h0]; rfl
  case jzOn => rw [exec_jz _ hr, State.jz_steps h hs, if_neg h0]; rfl
  case jnz => rw [exec_jnz _ hr, State.jnz_steps h hs, if_neg h0]; rfl
  case jnzOn => rw [exec_jnz _ hr, State.jnz_steps h hs, if_pos h0]; rfl
  case call => rw [exec_call _ hr, State.call_steps h hs]
  case callx => rw [exec_callx _ hr, State.callx_nop h hs hn]
  case jmp => rw [exec_jmp _ hr, jmp, State.fbcI_executes h]; rfl
  case ret => rw [exec_ret _ hr, State.ret_inner h hc]
  case retEnd => rw [exec_ret _ hr, State.ret_outer h hc]
  case tend => rw [exec_tend _ hr, tend, State.endRun_ends h]

end Sys2Proof.Machine
end

section
/-! The library blocks of CALLX (R369 to R374): standard blocks and device blocks. -/

open Sys2Proof Sys2Proof.Machine

namespace Sys2Proof.Machine

/-- A block called on its parameter block acts behind the pop of its address. -/
theorem State.lib_calls {s u : State} {b k : Nat} {i : Inst} {r : List Cell} {p : Nat} (h : s.CallsBlock b k i r p)
    (hu : u = s.stepped b i r false) (f : State → Nat → State) : s.lib b k f = f u p := by
  obtain ⟨w, a, n, ⟨hn, hst⟩, hk, hs, hb, hin, rfl⟩ := h
  have hp : i.next.pop = (a, i.stepTo r false) := by rw [Inst.next_eq, hs, Inst.pop_cons]
  have hany : (decide (bits w 23 0 = k) && (blockSize k).any fun n => inRegion (s.cpu b) (cellInt a.1) n) = true := by
    rw [decide_eq_true hk, hb, Bool.true_and]
    exact hin
  subst hu
  simp only [State.lib, hn, hp, hany, if_true, State.startInst_started hst]
  rfl

/-- A block acts alike before and after the start of its task run. -/
theorem State.lib_startInst {s : State} {b k n : Nat} {i : Inst} {w : Word} {a : Cell} {r : List Cell}
    (h : s.fbcNow b 0x45 = some (i, w)) (hk : bits w 23 0 = k) (hs : i.stack = a :: r) (hb : blockSize k = some n)
    (hin : inRegion (s.cpu b) (cellInt a.1) n = true) (f : State → Nat → State) : (s.startInst b i).lib b k f = s.lib b k f := by
  obtain ⟨j, hj, hnext, hst⟩ := State.fbcNow_startInst h
  obtain ⟨hc, -⟩ := State.fbcNow_iff.mp h
  have hlt : b < s.bcp.length := by
    refine State.lt_bcp fun hn => ?_
    rw [State.current, hn] at hc
    exact absurd hc nofun
  obtain ⟨himg, -⟩ := State.startInst_cpu (i := i) hlt
  have hin' : inRegion ((s.startInst b i).cpu b) (cellInt a.1) n = true := by rw [inRegion, himg]; exact hin
  have hp : i.next.pop = (a, i.stepTo r false) := by rw [Inst.next_eq, hs, Inst.pop_cons]
  simp only [State.lib, h, hj, State.startInst_started hst, hnext, hp, decide_eq_true hk, hb, Option.any_some, hin, hin', Bool.and_self,
    if_true]

/-- Every block that is called on a parameter block within the region comes behind the copy-in of its task run. -/
theorem block_first {s : State} {b : Fin 4} {i : Inst} {w : Word} {a : Cell} {r : List Cell} {n : Nat} (hr : s.Runs)
    (h : s.fbcNow b 0x45 = some (i, w)) (hs : i.stack = a :: r) (hin : inRegion (s.cpu b) (cellInt a.1) n = true) : ∀ e ∈ ([
      (0, .ton b), (1, .tof b), (2, .tp b), (3, .rTrig b), (4, .fTrig b), (5, .ctu b), (6, .ctd b), (7, .sr b), (8, .rs b),
        (16, .eleread b), (17, .qread b), (18, .rowen b), (19, .saarm b), (20, .sacancel b), (21, .saread b),
        (22, .recmark b)] : List (Nat × Instr)),
    bits w 23 0 = e.1 → blockSize e.1 = some n → exec e.2 s = exec e.2 (s.startInst b i) := by
  simp only [List.forall_mem_cons]
  have first {x : Instr} {k : Nat} {f : State → Nat → State} (he : ∀ {t : State}, t.Runs → exec x t = .next (settle (t.lib b k f)))
      (hk : bits w 23 0 = k) (hb : blockSize k = some n) : exec x s = exec x (s.startInst b i) := by
    rw [he hr, he (State.startInst_runs hr b i), State.lib_startInst h hk hs hb hin]
  exact ⟨first (exec_ton b), first (exec_tof b), first (exec_tp b), first (exec_rTrig b), first (exec_fTrig b), first (exec_ctu b),
    first (exec_ctd b), first (exec_sr b), first (exec_rs b), first (exec_eleread b), first (exec_qread b), first (exec_rowen b),
    first (exec_saarm b), first (exec_sacancel b), first (exec_saread b), first (exec_recmark b), nofun⟩

/-! ### The timers by their steps -/

theorem tonStep_off {t : TimerIn} (h : t.in_ = false) : tonStep t = (false, 0, 0) := if_pos (by rw [h]; rfl)

theorem tonStep_on {t : TimerIn} (h : t.in_ = true) (hp : t.phase ≠ 0) :
    tonStep t = (decide (t.pt ≤ min (t.et + t.dt) (max t.pt 0)), min (t.et + t.dt) (max t.pt 0), 1) := by
  simp only [tonStep, h, Bool.not_true, Bool.false_eq_true, if_false, hp, TimerIn.adv]

theorem tofStep_on {t : TimerIn} (h : t.in_ = true) : tofStep t = (true, 0, 2) := if_pos h

theorem tofStep_falls {t : TimerIn} (h : t.in_ = false) (hp : t.phase = 2) (ht : 0 < t.pt) : tofStep t = (true, 0, 1) := by
  simp only [tofStep, h, Bool.false_eq_true, if_false, hp, show ¬ (2 : Nat) = 0 by decide, if_true, Int.not_le.mpr ht]

theorem tpStep_rises {t : TimerIn} (h : t.in_ = true) (hp : t.phase = 0) (ht : 0 < t.pt) : tpStep t = (true, 0, 1) := by
  simp only [tpStep, h, hp, if_true, Int.not_le.mpr ht, if_false]

theorem tpStep_ends {t : TimerIn} (hp : t.phase = 1) (ht : t.pt ≤ min (t.et + t.dt) (max t.pt 0)) (h : t.in_ = false) :
    tpStep t = (false, 0, 0) := by
  simp only [tpStep, hp, h, TimerIn.adv, ht, if_true, Bool.false_eq_true, if_false]

/-- Settles O45: a block by its call, and the timers by what a call finds. -/
theorem standardBlocks : Obligations.StandardBlocks := by
  intro s b i r p u hr hu
  refine ⟨fun e w a n he h hk hs hb hin => block_first hr h hs hin e he hk hb, fun h => ?ton, fun h => ?tof, fun h => ?tp, fun t => tonStep_off,
    fun t => tonStep_on, fun t => tofStep_on, fun t => tofStep_falls, fun t => tpStep_rises, fun t => tpStep_ends, fun h => ?rTrig,
    fun h => ?fTrig, fun v h hv => ?ctu, fun v h hv => ?ctd, fun h => ?sr, fun h => ?rs⟩
  case ton => rw [exec_ton _ hr, ton, State.lib_calls h hu]
  case tof => rw [exec_tof _ hr, tof, State.lib_calls h hu]
  case tp => rw [exec_tp _ hr, tp, State.lib_calls h hu]
  case rTrig => rw [exec_rTrig _ hr, rTrig, State.lib_calls h hu]
  case fTrig => rw [exec_fTrig _ hr, fTrig, State.lib_calls h hu]
  case ctu =>
    subst hv
    rw [exec_ctu _ hr, ctu, State.lib_calls h hu]
  case ctd =>
    subst hv
    rw [exec_ctd _ hr, ctd, State.lib_calls h hu]
  case sr => rw [exec_sr _ hr, sr, State.lib_calls h hu]
  case rs => rw [exec_rs _ hr, rs, State.lib_calls h hu]

/-! ### Device blocks -/

theorem inRange_of {lo hi x : Int} (h1 : lo ≤ x) (h2 : x ≤ hi) : inRange lo hi x = true := by
  rw [inRange, decide_eq_true h1, decide_eq_true h2]; rfl

theorem inRange_not {lo hi x : Int} (h : x < lo ∨ hi < x) : inRange lo hi x = false := by
  rw [inRange, Bool.and_eq_false_iff, decide_eq_false_iff_not, decide_eq_false_iff_not]
  omega

/-- An index lies in the range up to its last value. -/
theorem inRange_index {n : Nat} (k : Fin n) {m : Int} (hm : m = (n : Int) - 1) : inRange 0 m (k.val : Int) = true := by
  have hk := k.isLt
  exact inRange_of (by omega) (by omega)

theorem eleread_entry {s u : State} {b : Nat} {i : Inst} {r : List Cell} {p : Nat} (h : s.CallsBlock b 16 i r p)
    (hu : u = s.stepped b i r false) {n : Fin 256} (hn : u.pint b (p + 2) = (n.val : Int)) :
    eleread b s = (u.pput b (p + 4) (leBytes 4 (nth u.view.stats n.val 0) ++ leBytes 4 (nth u.view.accs n.val 0).toNat ++
      leBytes 2 u.view.seq)).pput b p [0] := by
  rw [eleread, State.lib_calls h hu]
  simp only [hn, inRange_index n (m := 255) rfl, Int.toNat_natCast, Bool.not_true, Bool.false_eq_true, if_false]
  rfl

theorem eleread_range {s u : State} {b : Nat} {i : Inst} {r : List Cell} {p : Nat} (h : s.CallsBlock b 16 i r p)
    (hu : u = s.stepped b i r false) (hn : u.pint b (p + 2) < 0 ∨ 255 < u.pint b (p + 2)) : eleread b s = u.pput b p [0x20] := by
  rw [eleread, State.lib_calls h hu]
  exact if_pos (by rw [inRange_not hn]; rfl)

/-- The first entry that QREAD stores. -/
theorem qread_one {s u v : State} {b : Nat} {i : Inst} {r : List Cell} {p : Nat} (h : s.CallsBlock b 17 i r p)
    (hu : u = s.stepped b i r false) {q : Fin 1024} (hq : u.pint b (p + 2) = (q.val : Int)) (hn : u.pint b (p + 4) = 1)
    (hv : v = u.pput b (p + 8) (leBytes 4 (nth u.wholeTable.1 q.val 0).toNat ++ [nth u.wholeTable.2.1 q.val 0])) :
    qread b s = (v.pput b (p + 24) (leBytes 2 u.wholeTable.2.2)).pput b p [0] := by
  have hlast : (q.val : Int) + 1 ≤ 1024 := by have := q.isLt; omega
  have hin : (inRange 0 1023 (q.val : Int) && inRange 1 2 1 && decide ((q.val : Int) + 1 ≤ 1024)) = true := by
    rw [inRange_index q (m := 1023) rfl, decide_eq_true hlast]; rfl
  subst hv
  rw [qread, State.lib_calls h hu]
  simp only [hq, hn, hin, Int.toNat_natCast, Bool.not_true, Bool.false_eq_true, if_false, show ¬ (1 : Int) = 2 by decide]
  rfl

theorem qread_two {s u v : State} {b : Nat} {i : Inst} {r : List Cell} {p : Nat} (h : s.CallsBlock b 17 i r p)
    (hu : u = s.stepped b i r false) {q : Fin 1024} (hq : u.pint b (p + 2) = (q.val : Int)) (hn : u.pint b (p + 4) = 2)
    (hlt : q.val < 1023)
    (hv : v = u.pput b (p + 8) (leBytes 4 (nth u.wholeTable.1 q.val 0).toNat ++ [nth u.wholeTable.2.1 q.val 0])) :
    qread b s = ((v.pput b (p + 16) (leBytes 4 (nth u.wholeTable.1 (q.val + 1) 0).toNat ++ [nth u.wholeTable.2.1 (q.val + 1) 0])).pput b
      (p + 24) (leBytes 2 u.wholeTable.2.2)).pput b p [0] := by
  have hlast : (q.val : Int) + 2 ≤ 1024 := by omega
  have hin : (inRange 0 1023 (q.val : Int) && inRange 1 2 2 && decide ((q.val : Int) + 2 ≤ 1024)) = true := by
    rw [inRange_index q (m := 1023) rfl, decide_eq_true hlast]; rfl
  subst hv
  rw [qread, State.lib_calls h hu]
  simp only [hq, hn, hin, Int.toNat_natCast, Bool.not_true, Bool.false_eq_true, if_false, if_true]
  rfl

theorem qread_range {s u : State} {b : Nat} {i : Inst} {r : List Cell} {p : Nat} (h : s.CallsBlock b 17 i r p)
    (hu : u = s.stepped b i r false) (hn : u.pint b (p + 2) < 0 ∨ 1024 < u.pint b (p + 2) + u.pint b (p + 4) ∨ u.pint b (p + 4) < 1 ∨
      2 < u.pint b (p + 4)) : qread b s = u.pput b p [0x20] := by
  have hout : (inRange 0 1023 (u.pint b (p + 2)) && inRange 1 2 (u.pint b (p + 4)) &&
      decide (u.pint b (p + 2) + u.pint b (p + 4) ≤ 1024)) = false := by
    rcases hn with hn | hn | hn | hn
    · rw [inRange_not (.inl hn)]; rfl
    · rw [decide_eq_false (Int.not_le.mpr hn), Bool.and_false]
    · rw [inRange_not (.inl hn), Bool.and_false]; rfl
    · rw [inRange_not (.inr hn), Bool.and_false]; rfl
  rw [qread, State.lib_calls h hu]
  exact if_pos (by rw [hout]; rfl)

theorem rowen_placed {s u : State} {b : Nat} {i j : Inst} {r : List Cell} {p : Nat} (h : s.CallsBlock b 18 i r p)
    (hu : u = s.stepped b i r false) {k : Fin 64} (hk : u.pint b (p + 2) = (k.val : Int)) (hc : (u.row k).ctl = b + 1)
    (hj : u.current b = some j) :
    rowen b s = (u.putInst b { j with rowen := (k.val, u.pbool b (p + 4)) :: j.rowen }).pput b p [0] := by
  rw [rowen, State.lib_calls h hu]
  simp only [hk, inRange_index k (m := 63) rfl, Int.toNat_natCast, hc, hj, ne_eq, not_true_eq_false, Bool.not_true, Bool.false_eq_true,
    if_false]
  rfl

theorem rowen_refused {s u : State} {b : Nat} {i : Inst} {r : List Cell} {p : Nat} (h : s.CallsBlock b 18 i r p)
    (hu : u = s.stepped b i r false) {k : Fin 64} (hk : u.pint b (p + 2) = (k.val : Int)) (hc : (u.row k).ctl ≠ b + 1) :
    rowen b s = u.pput b p [2] := by
  rw [rowen, State.lib_calls h hu]
  simp only [hk, inRange_index k (m := 63) rfl, Int.toNat_natCast, hc, ne_eq, not_false_eq_true, Bool.not_true, Bool.false_eq_true,
    if_false, if_true]
  rfl

theorem rowen_range {s u : State} {b : Nat} {i : Inst} {r : List Cell} {p : Nat} (h : s.CallsBlock b 18 i r p)
    (hu : u = s.stepped b i r false) (hk : u.pint b (p + 2) < 0 ∨ 63 < u.pint b (p + 2)) : rowen b s = u.pput b p [0x20] := by
  rw [rowen, State.lib_calls h hu]
  exact if_pos (by rw [inRange_not hk]; rfl)

/-- SAARM with arguments in range, by what becomes of the arm. -/
theorem saarm_inRange {s u : State} {b arg : Nat} {i : Inst} {r : List Cell} {p : Nat} {tm : Time} {q : ArmReq}
    (h : s.CallsBlock b 19 i r p) (hu : u = s.stepped b i r false) {k : Fin 64} {a : Fin 9} (hk : u.pint b (p + 2) = (k.val : Int))
    (ha : u.pint b (p + 4) = (a.val : Int)) (harg : arg = u.pget b (p + 8) 4) (hd : a.val ≠ 4 ∨ arg % 4 ≠ 3)
    (htm : tm = (sgn 64 (u.pget b (p + 16) 8)).toNat * oneNs) (hq : q = ⟨k, a, BitVec.ofNat 32 arg, tm, false⟩) :
    saarm b s =
      if u.armNotNow (b + 1) q then u.pput b p [2]
      else if u.saHeld k && !u.pbool b (p + 24) then u.pput b p [3]
      else (u.armSlot (.bcp b) q).pput b p
        [BitVec.ofNat 8 (if (u.armSlot (.bcp b) q).saHeld k then 0 else ((u.armSlot (.bcp b) q).sas k).lastSt)] := by
  have hin : (!(inRange 0 63 (k.val : Int) && inRange 0 8 (a.val : Int)) || decide ((a.val : Int) = 4) &&
      decide (arg % 4 = 3)) = false := by
    rw [inRange_index k (m := 63) rfl, inRange_index a (m := 8) rfl]
    rcases hd with hd | hd
    · rw [decide_eq_false (p := (a.val : Int) = 4) (by omega)]; rfl
    · rw [decide_eq_false hd, Bool.and_false]; rfl
  rw [saarm, State.lib_calls h hu]
  simp only [hk, ha, hin, Bool.false_eq_true, if_false, Int.toNat_natCast, ← harg, ← htm, ← hq]
  rw [hq]
  rfl

theorem saarm_range {s u : State} {b : Nat} {i : Inst} {r : List Cell} {p : Nat} (h : s.CallsBlock b 19 i r p)
    (hu : u = s.stepped b i r false) (hk : u.pint b (p + 2) < 0 ∨ 63 < u.pint b (p + 2) ∨ u.pint b (p + 4) < 0 ∨ 8 < u.pint b (p + 4) ∨
      (u.pint b (p + 4) = 4 ∧ u.pget b (p + 8) 4 % 4 = 3)) : saarm b s = u.pput b p [0x20] := by
  have hout : (!(inRange 0 63 (u.pint b (p + 2)) && inRange 0 8 (u.pint b (p + 4))) || decide (u.pint b (p + 4) = 4) &&
      decide (u.pget b (p + 8) 4 % 4 = 3)) = true := by
    rcases hk with hk | hk | hk | hk | ⟨hk, hk'⟩
    · rw [inRange_not (.inl hk)]; rfl
    · rw [inRange_not (.inr hk)]; rfl
    · rw [inRange_not (.inl hk), Bool.and_false]; rfl
    · rw [inRange_not (.inr hk), Bool.and_false]; rfl
    · rw [decide_eq_true hk, decide_eq_true hk', Bool.and_self, Bool.or_true]
  rw [saarm, State.lib_calls h hu]
  simp only [hout, if_true]
  rfl

theorem sacancel_done {s u : State} {b : Nat} {i : Inst} {r : List Cell} {p : Nat} (h : s.CallsBlock b 20 i r p)
    (hu : u = s.stepped b i r false) {k : Fin 64} (hk : u.pint b (p + 2) = (k.val : Int)) (ho : u.saOwner k = b + 1)
    (hh : u.saHeld k = true) : sacancel b s = (u.saFree k).pput b p [0] := by
  rw [sacancel, State.lib_calls h hu]
  simp only [hk, inRange_index k (m := 63) rfl, Int.toNat_natCast, ho, hh, ne_eq, not_true_eq_false, decide_false, Bool.not_true,
    Bool.or_self, Bool.false_eq_true, if_false]
  rfl

theorem sacancel_refused {s u : State} {b : Nat} {i : Inst} {r : List Cell} {p : Nat} (h : s.CallsBlock b 20 i r p)
    (hu : u = s.stepped b i r false) {k : Fin 64} (hk : u.pint b (p + 2) = (k.val : Int))
    (hn : u.saOwner k ≠ b + 1 ∨ u.saHeld k = false) : sacancel b s = u.pput b p [2] := by
  have hno : (decide (u.saOwner k ≠ b + 1) || !u.saHeld k) = true := by rcases hn with hn | hn <;> simp [hn]
  rw [sacancel, State.lib_calls h hu]
  simp only [hk, inRange_index k (m := 63) rfl, Int.toNat_natCast, hno, Bool.not_true, Bool.false_eq_true, if_false, if_true]
  rfl

theorem sacancel_range {s u : State} {b : Nat} {i : Inst} {r : List Cell} {p : Nat} (h : s.CallsBlock b 20 i r p)
    (hu : u = s.stepped b i r false) (hk : u.pint b (p + 2) < 0 ∨ 63 < u.pint b (p + 2)) : sacancel b s = u.pput b p [0x20] := by
  rw [sacancel, State.lib_calls h hu]
  exact if_pos (by rw [inRange_not hk]; rfl)

theorem saread_done {s u : State} {b : Nat} {i : Inst} {r : List Cell} {p : Nat} {x : SaSlot} (h : s.CallsBlock b 21 i r p)
    (hu : u = s.stepped b i r false) {k : Fin 64} (hk : u.pint b (p + 2) = (k.val : Int)) (hx : x = u.sas k) :
    saread b s = (u.pput b (p + 4) (leBytes 2 (u.saState k) ++ leBytes 1 x.lastSt ++ [boolByte x.lastCanc] ++
      leBytes 8 (x.lastTime / oneNs))).pput b p [0] := by
  subst hx
  rw [saread, State.lib_calls h hu]
  simp only [hk, inRange_index k (m := 63) rfl, Int.toNat_natCast, Bool.not_true, Bool.false_eq_true, if_false]
  rfl

theorem saread_range {s u : State} {b : Nat} {i : Inst} {r : List Cell} {p : Nat} (h : s.CallsBlock b 21 i r p)
    (hu : u = s.stepped b i r false) (hk : u.pint b (p + 2) < 0 ∨ 63 < u.pint b (p + 2)) : saread b s = u.pput b p [0x20] := by
  rw [saread, State.lib_calls h hu]
  exact if_pos (by rw [inRange_not hk]; rfl)

/-- RECMARK of a mask of streams, by which of them are active. -/
theorem recmark_mask {s u : State} {b : Nat} {i : Inst} {r : List Cell} {p : Nat} (h : s.CallsBlock b 22 i r p)
    (hu : u = s.stepped b i r false) {m : Fin 16} (hm : u.pint b (p + 2) = (m.val : Int)) (h0 : m.val ≠ 0) :
    recmark b s = if ((bitsOf 4 m.val).filter u.recActive).isEmpty then u.pput b p [2]
      else (u.each ((bitsOf 4 m.val).filter u.recActive) fun t k =>
        t.trigger k ⟨t.mer.now, 3, false, 0xFFFF, b, t.pget b (p + 4) 4, none, 5⟩).pput b p [0] := by
  have hin : inRange 1 15 (m.val : Int) = true := inRange_of (by omega) (by have := m.isLt; omega)
  rw [recmark, State.lib_calls h hu]
  simp only [hm, hin, Int.toNat_natCast, Bool.not_true, Bool.false_eq_true, if_false]
  rfl

theorem recmark_range {s u : State} {b : Nat} {i : Inst} {r : List Cell} {p : Nat} (h : s.CallsBlock b 22 i r p)
    (hu : u = s.stepped b i r false) (hm : u.pint b (p + 2) < 1 ∨ 15 < u.pint b (p + 2)) : recmark b s = u.pput b p [0x20] := by
  rw [recmark, State.lib_calls h hu]
  exact if_pos (by rw [inRange_not hm]; rfl)

/-- Settles O46: each block by its arguments, on the state behind the pop of its address. -/
theorem deviceBlocks : Obligations.DeviceBlocks := by
  intro s b i r p u hr hu
  refine ⟨fun n h hn => ?eleread, fun h hn => ?elereadRange, fun q v h hq hv => ⟨fun hn => ?qread, fun hn hlt => ?qreadTwo⟩,
    fun h hn => ?qreadRange, fun k j h hk hc hj => ?rowen, fun k h hk hc => ?rowenNot, fun h hk => ?rowenRange,
    fun k a arg tm q h hk ha harg hd htm hq => ⟨fun hn => ?saarmNot, fun hn hh hb => ?saarmBusy, fun v hn hh hv => ?saarm⟩,
    fun h hk => ?saarmRange, fun k h hk => ⟨fun ho hh => ?cancel, fun hn => ?cancelNot⟩, fun h hk => ?cancelRange,
    fun k x h hk hx => ?saread, fun h hk => ?sareadRange, fun m h hm h0 => ⟨fun ha => ?mark, fun ha => ?markNot⟩, fun h hm => ?markRange⟩
  case eleread => rw [exec_eleread _ hr, eleread_entry h hu hn]
  case elereadRange => rw [exec_eleread _ hr, eleread_range h hu hn]
  case qread => rw [exec_qread _ hr, qread_one h hu hq hn hv]
  case qreadTwo => rw [exec_qread _ hr, qread_two h hu hq hn hlt hv]
  case qreadRange => rw [exec_qread _ hr, qread_range h hu hn]
  case rowen => rw [exec_rowen _ hr, rowen_placed h hu hk hc hj]
  case rowenNot => rw [exec_rowen _ hr, rowen_refused h hu hk hc]
  case rowenRange => rw [exec_rowen _ hr, rowen_range h hu hk]
  case saarmNot => rw [exec_saarm _ hr, saarm_inRange h hu hk ha harg hd htm hq, hn, if_pos rfl]
  case saarmBusy =>
    rw [exec_saarm _ hr, saarm_inRange h hu hk ha harg hd htm hq, hn, hh, hb, if_neg Bool.false_ne_true, Bool.not_false, Bool.and_self,
      if_pos rfl]
  case saarm =>
    have hfree : (u.saHeld k && !u.pbool b (p + 24)) = false := by rcases hh with hh | hh <;> simp [hh]
    rw [exec_saarm _ hr, saarm_inRange h hu hk ha harg hd htm hq, hn, hfree, if_neg Bool.false_ne_true, if_neg Bool.false_ne_true, hv]
  case saarmRange => rw [exec_saarm _ hr, saarm_range h hu hk]
  case cancel => rw [exec_sacancel _ hr, sacancel_done h hu hk ho hh]
  case cancelNot => rw [exec_sacancel _ hr, sacancel_refused h hu hk hn]
  case cancelRange => rw [exec_sacancel _ hr, sacancel_range h hu hk]
  case saread => rw [exec_saread _ hr, saread_done h hu hk hx]
  case sareadRange => rw [exec_saread _ hr, saread_range h hu hk]
  case mark =>
    have hne : ((bitsOf 4 m.val).filter u.recActive).isEmpty = false := by
      obtain ⟨k, hk, hact⟩ := ha
      exact List.isEmpty_eq_false_iff.mpr (List.ne_nil_of_mem (List.mem_filter.mpr ⟨hk, hact⟩))
    rw [exec_recmark _ hr, recmark_mask h hu hm h0, hne, if_neg Bool.false_ne_true]
  case markNot =>
    have hnil : (bitsOf 4 m.val).filter u.recActive = [] := List.filter_eq_nil_iff.mpr fun k hk => by rw [ha k hk]; exact Bool.false_ne_true
    rw [exec_recmark _ hr, recmark_mask h hu hm h0, hnil, List.isEmpty_nil, if_pos rfl]
  case markRange => rw [exec_recmark _ hr, recmark_range h hu hm]

end Sys2Proof.Machine
end

section
/-! The network (R511 to R536): ports and frames, PTP ports, and the subscriptions and publications of SV and GOOSE. -/

open Sys2Proof Sys2Proof.Machine

namespace Sys2Proof.Machine

/-! ### Ports and frames -/

theorem ethLinkChange_same {s : State} {p : Nat} {up v : Bool} (hv : v = (up && s.on NET_PORT_en [p] && s.netRuns))
    (h : s.on NET_PORT_link [p] = v) : ethLinkChange p up s = s := by
  subst hv
  simp only [ethLinkChange, State.putEthLink, h, if_true]

/-- A change of the link's bit reads back as written. -/
theorem State.ethLink_on (s : State) (p : Fin 8) (v : Bool) :
    ((s.p NET_PORT_link [p.val] (b2n v)).flag NET 8).on NET_PORT_link [p.val] = v := by
  have hoff : fldOff NET_PORT_link [p.val] = 0xE0100 + 4 * p.val := by simp [fldOff]
  rw [State.on, State.flag_g _ _ (by decide) (by rw [hoff, apart]; omega)]
  exact State.p_on _ _ _ rfl (by decide)

theorem ethLinkChange_change {s : State} {p : Fin 8} {up v : Bool} (hv : v = (up && s.on NET_PORT_en [p.val] && s.netRuns))
    (h : s.on NET_PORT_link [p.val] = !v) :
    ethLinkChange p.val up s = ((s.p NET_PORT_link [p.val] (b2n v)).flag NET 8).ptpRestart p.val := by
  have hne : s.on NET_PORT_link [p.val] ≠ v := by rw [h]; cases v <;> decide
  have hput : s.putEthLink p.val v = (s.p NET_PORT_link [p.val] (b2n v)).flag NET 8 := if_neg hne
  subst hv
  simp only [ethLinkChange, hput, s.ethLink_on]
  exact if_neg hne.symm

/-- The length of a frame with its redundancy tag and FCS, as reception measures it. -/
theorem RxHead.length_bad {h : RxHead} (hl : h.bytes.length + (if h.tag.isSome then 10 else 4) < 64 ∨ 1518 < h.bytes.length) :
    h.bytes.length + 4 + (if h.tag.isSome then 6 else 0) < 64 ∨
      (if h.tag.isSome then 1528 else 1522) < h.bytes.length + 4 + (if h.tag.isSome then 6 else 0) := by
  split at hl <;> simp_all <;> omega

theorem State.rxAccept_down {s : State} {h : RxHead} (hp : s.portUp h.port = false) : s.rxAccept h = (false, s) := by
  simp only [State.rxAccept, State.rxCheck, hp, Bool.not_false, if_true, Bool.false_eq_true, if_false]

theorem State.rxAccept_bad {s : State} {h : RxHead} (hp : s.portUp h.port = true)
    (hb : h.fcsOk = false ∨ h.bytes.length + (if h.tag.isSome then 10 else 4) < 64 ∨ 1518 < h.bytes.length) :
    s.rxAccept h = (false, s.cnt NET_RXDROP [h.port.val]) := by
  have hcond : (!h.fcsOk || decide (h.bytes.length + 4 + (if h.tag.isSome then 6 else 0) < 64) ||
      decide ((if h.tag.isSome then 1528 else 1522) < h.bytes.length + 4 + (if h.tag.isSome then 6 else 0))) = true := by
    rcases hb with hb | hb
    · rw [hb]; rfl
    · rcases RxHead.length_bad hb with hl | hl
      · rw [decide_eq_true hl, Bool.or_true, Bool.true_or]
      · rw [decide_eq_true hl, Bool.or_true]
  simp only [State.rxAccept, State.rxCheck, hp, Bool.not_true, Bool.false_eq_true, if_false, hcond, if_true]

theorem State.rxAccept_untagged {s : State} {h : RxHead} (hp : s.portUp h.port = true) (hf : h.fcsOk = true) (ht : h.tag = none)
    (h1 : 60 ≤ h.bytes.length) (h2 : h.bytes.length ≤ 1518) : s.rxAccept h = (true, s) := by
  have hlo : ¬ h.bytes.length + 4 + 0 < 64 := by omega
  have hhi : ¬ 1522 < h.bytes.length + 4 + 0 := by omega
  simp only [State.rxAccept, State.rxCheck, hp, hf, ht, Option.isSome_none, Bool.not_true, Bool.false_eq_true, if_false, hlo, hhi,
    decide_false, Bool.or_self]

theorem rxFrame_dropped {s u : State} {h : RxHead} (ha : s.rxAccept h = (false, u)) : rxFrame h s = u := by
  simp only [rxFrame, ha, Bool.not_false, if_true]

theorem rxFrame_host {s u : State} {h : RxHead} (ha : s.rxAccept h = (true, u))
    (hn : u.pairMode (h.port.val / 2) = 0 ∨ etherType h.bytes ≠ 0x88FB) : rxFrame h s = u.rxHost h false := by
  have hcond : (decide (u.pairMode (h.port.val / 2) ≠ 0) && decide (etherType h.bytes = 0x88FB)) = false := by
    rcases hn with hn | hn <;> simp [hn]
  simp only [rxFrame, ha, Bool.not_true, Bool.false_eq_true, if_false, hcond]

theorem rxFrame_supervision {s u : State} {h : RxHead} (ha : s.rxAccept h = (true, u)) (hp : u.pairMode (h.port.val / 2) ≠ 0)
    (he : etherType h.bytes = 0x88FB) : rxFrame h s = u.cnt NET_REDCNT_sup [h.port.val / 2] := by
  have hcond : (decide (u.pairMode (h.port.val / 2) ≠ 0) && decide (etherType h.bytes = 0x88FB)) = true := by
    rw [decide_eq_true hp, decide_eq_true he]; rfl
  simp only [rxFrame, ha, Bool.not_true, Bool.false_eq_true, if_false, hcond, if_true]

theorem prpSupervisionSend_due {s u : State} {k : Nat} {ports : List (Nat × Option Nat)} (hm : s.pairMode k ≠ 0)
    (hp : s.portUp (2 * k) = true ∨ s.portUp (2 * k + 1) = true) (ht : 2 * oneSec ≤ s.since (nth s.net.supCyc k 0))
    (hu : (ports, u) = s.enginePorts (3 * 4 ^ k)) : prpSupervisionSend k s =
      ({ u with net := { u.net with supCyc := u.net.supCyc.set k s.mer.cyc } } : State).transmit (.supervision k ports) := by
  have hcond : (decide (s.pairMode k ≠ 0) && (s.portUp (2 * k) || s.portUp (2 * k + 1)) &&
      decide (2 * oneSec ≤ s.since (nth s.net.supCyc k 0))) = true := by
    rw [decide_eq_true hm, Bool.or_eq_true_iff.mpr hp, decide_eq_true ht]; rfl
  simp only [prpSupervisionSend, hcond, if_true, ← hu]
  rfl

theorem prpSupervisionSend_none {s : State} {k : Nat} (h : s.pairMode k = 0 ∨ (s.portUp (2 * k) = false ∧ s.portUp (2 * k + 1) = false) ∨
    s.since (nth s.net.supCyc k 0) < 2 * oneSec) : prpSupervisionSend k s = s := by
  refine if_neg ?_
  rcases h with h | ⟨h, h'⟩ | h
  · simp [h]
  · simp [h, h']
  · simp [Nat.not_le.mpr h]

/-- The ports of a mask that are down carry nothing. -/
theorem filter_portUp_nil {s : State} {l : List Nat} (h : ∀ p ∈ l, s.portUp p = false) : l.filter s.portUp = [] :=
  List.filter_eq_nil_iff.mpr fun p hp => by rw [h p hp]; exact Bool.false_ne_true

theorem netTx_refused {s : State} {d : Desc}
    (h : s.inSt [DAWN, NIGHT] = true ∨ ∀ p ∈ bitsOf 8 (d.rf.toNat % 256), s.portUp p = false) (buf : List Byte) :
    netTx d buf s = s.complete d 0x0E01 ST_NOT_NOW := by
  refine if_pos ?_
  rcases h with h | h
  · rw [h, Bool.true_or]
  · rw [filter_portUp_nil h, List.isEmpty_nil, Bool.or_true]

/-- What a NET_TX sends: its frame, padded and cut. -/
def txFrame (d : Desc) (buf : List Byte) (hi : Nat) : List Byte :=
  (buf.take (min d.len.toNat hi) ++ List.replicate 1522 Config.pad).take (max (min d.len.toNat hi) 60)

theorem netTx_noBuffer {s : State} {d : Desc} {buf f : List Byte} {ports : List Nat} {hi : Nat} (hs : s.inSt [DAWN, NIGHT] = false)
    (hp : ports = (bitsOf 8 (d.rf.toNat % 256)).filter s.portUp) (hne : ports ≠ [])
    (hhi : hi = (if beAt buf 12 2 = 0x8100 then 1522 else 1518)) (hf : f = txFrame d buf hi) (hq : s.queue 10 0 f = none) :
    netTx d buf s = (s.noBuf 10).complete d 0x0E01 ST_NO_BUFFER := by
  subst hf hhi hp
  simp only [txFrame] at hq
  simp only [netTx, hs, List.isEmpty_eq_false_iff.mpr hne, Bool.or_self, Bool.false_eq_true, if_false, hq]

theorem netTx_sends {s u v w : State} {d : Desc} {buf f : List Byte} {ports : List Nat} {hi : Nat} {l : List (Nat × Option Nat)}
    (hs : s.inSt [DAWN, NIGHT] = false) (hp : ports = (bitsOf 8 (d.rf.toNat % 256)).filter s.portUp) (hne : ports ≠ [])
    (hhi : hi = (if beAt buf 12 2 = 0x8100 then 1522 else 1518)) (hf : f = txFrame d buf hi) (hq : s.queue 10 0 f = some u)
    (hv : v = (u.unqueue 10 0).clampDesc d 4 (b2n (hi < d.len.toNat)))
    (hl : (l, w) = v.redPorts ports (fun p => bitAt d.rf.toNat 8 && s.pairMode (p / 2) ≠ 0)) :
    netTx d buf s = (w.each l fun t p => t.transmit (.eth p.1 p.2 f)).completeWith (if bitAt d.rf.toNat 9 then
      { compOf d 0x0E01 ST_DONE with a := Time.ns s.mer.now + 2 ^ 32 * (Time.sec s.mer.now % 2 ^ 32) } else compOf d 0x0E01 ST_DONE) := by
  subst hf hv hhi hp
  simp only [txFrame] at hq ⊢
  simp only [netTx, hs, List.isEmpty_eq_false_iff.mpr hne, Bool.or_self, Bool.false_eq_true, if_false, hq, ← hl]

/-- Settles O47: a frame by what reception makes of it, and a NET_TX by its ports and its buffer. -/
theorem netPorts : Obligations.NetPorts := by
  intro s hr
  refine ⟨fun p up v hv => ⟨fun h => ?same, fun h => ?change⟩, fun h => ⟨fun hp => ?down, fun hp hb => ?bad,
      fun hp hf ht h1 h2 hn => ?untagged⟩,
    fun h u k ha hk => ⟨fun hn => ?host, fun hp he => ?supervision⟩, fun h u ha => ?dropped,
    fun k => ⟨fun hm hp ht ports u l hu hl => ?supSend, fun h => ?noSup⟩, fun k l hl => ?forget,
    fun d buf ports hi len f hs hp hne hhi hlen hf => ⟨fun hq => ?noBuffer, fun u v l w hq hv hl => ⟨fun h9 => ?sent,
      fun h9 c hc => ?stamped⟩⟩, fun d buf h => ?noTx⟩
  case same => rw [exec_ethLinkChange _ _ hr, ethLinkChange_same hv h]
  case change => rw [exec_ethLinkChange _ _ hr, ethLinkChange_change hv h]
  case down => rw [exec_rxFrame _ hr, rxFrame_dropped (State.rxAccept_down hp)]
  case bad => rw [exec_rxFrame _ hr, rxFrame_dropped (State.rxAccept_bad hp hb)]
  case untagged => rw [exec_rxFrame _ hr, rxFrame_host (State.rxAccept_untagged hp hf ht h1 h2) hn]
  case host =>
    subst hk
    rw [exec_rxFrame _ hr, rxFrame_host ha hn]
  case supervision =>
    subst hk
    rw [exec_rxFrame _ hr, rxFrame_supervision ha hp he]
  case dropped => rw [exec_rxFrame _ hr, rxFrame_dropped ha]
  case supSend =>
    subst hl
    rw [exec_prpSupervisionSend _ hr, prpSupervisionSend_due hm hp ht hu]
  case noSup => rw [exec_prpSupervisionSend _ hr, prpSupervisionSend_none h]
  case forget =>
    subst hl
    rw [exec_duplicateForget _ hr]
    rfl
  case noBuffer =>
    subst hlen
    rw [exec_netTx _ _ hr, netTx_noBuffer (s := s.open_ d) hs hp hne hhi hf hq]
  case sent =>
    subst hlen
    rw [exec_netTx _ _ hr, netTx_sends (s := s.open_ d) hs hp hne hhi hf hq hv hl, h9, if_neg Bool.false_ne_true]
    rfl
  case stamped =>
    subst hlen hc
    rw [exec_netTx _ _ hr, netTx_sends (s := s.open_ d) hs hp hne hhi hf hq hv hl, h9, if_pos rfl]
    rfl
  case noTx => rw [exec_netTx _ _ hr, netTx_refused (s := s.open_ d) h]

/-! ### PTP ports -/

theorem ptpMessageReceive_dropped {s u : State} {h : RxHead} (ha : s.rxAccept h = (false, u)) (dom : Nat) (m : PtpMsg) :
    ptpMessageReceive h dom m s = u := by
  simp only [ptpMessageReceive, ha, Bool.not_false, if_true]

theorem ptpMessageReceive_host {s u : State} {h : RxHead} {dom : Nat} (ha : s.rxAccept h = (true, u))
    (hn : u.g NET_PTP_role [h.port.val] = 0 ∨ dom ≠ u.g NET_PTPCFG_domain) (m : PtpMsg) :
    ptpMessageReceive h dom m s = u.rxHost h false := by
  have hcond : (decide (u.g NET_PTP_role [h.port.val] = 0) || decide (dom ≠ u.g NET_PTPCFG_domain)) = true := by
    rcases hn with hn | hn <;> simp [hn]
  simp only [ptpMessageReceive, ha, Bool.not_true, Bool.false_eq_true, if_false, hcond, if_true]

/-- What lets a PTP port take a message. -/
theorem ptpTaken {u : State} {p dom : Nat} (hr : u.g NET_PTP_role [p] ≠ 0) (hd : dom = u.g NET_PTPCFG_domain) :
    (decide (u.g NET_PTP_role [p] = 0) || decide (dom ≠ u.g NET_PTPCFG_domain)) = false := by simp [hr, hd]

theorem ptpMessageReceive_announce {s u : State} {h : RxHead} {dom : Nat} (ha : s.rxAccept h = (true, u))
    (hr : u.g NET_PTP_role [h.port.val] ≠ 0) (hd : dom = u.g NET_PTPCFG_domain) (d : PtpData) :
    ptpMessageReceive h dom (.announce d) s = u.announced h.port.val d := by
  simp only [ptpMessageReceive, ha, Bool.not_true, Bool.false_eq_true, if_false, ptpTaken hr hd]

theorem ptpMessageReceive_followUp {s u : State} {h : RxHead} {dom q : Nat} {sender : BitVec 64} {origin arr : Time} {corr c : Int}
    (ha : s.rxAccept h = (true, u)) (hr : u.g NET_PTP_role [h.port.val] ≠ 0) (hd : dom = u.g NET_PTPCFG_domain)
    (hs : u.g NET_PTP_state [h.port.val] = PS_SLAVE) (hx : (u.ptpPort h.port.val).synced = some (sender, q, arr, c)) :
    ptpMessageReceive h dom (.followUp sender q origin corr) s =
      (u.putPtp h.port.val { u.ptpPort h.port.val with synced := none }).ptpOffset h.port.val arr origin (c + corr) := by
  simp only [ptpMessageReceive, ha, Bool.not_true, Bool.false_eq_true, if_false, ptpTaken hr hd, hs, ne_eq, not_true_eq_false, hx,
    Option.filter_some, decide_true, Bool.and_self, if_true]

/-- A Follow_Up of another Sync than the one that the port holds. -/
theorem ptpMessageReceive_followUp_other {s u : State} {h : RxHead} {dom q : Nat} {sender : BitVec 64} (ha : s.rxAccept h = (true, u))
    (hr : u.g NET_PTP_role [h.port.val] ≠ 0) (hd : dom = u.g NET_PTPCFG_domain)
    (hn : u.g NET_PTP_state [h.port.val] ≠ PS_SLAVE ∨ ∀ arr c, (u.ptpPort h.port.val).synced ≠ some (sender, q, arr, c))
    (origin : Time) (corr : Int) : ptpMessageReceive h dom (.followUp sender q origin corr) s = u := by
  simp only [ptpMessageReceive, ha, Bool.not_true, Bool.false_eq_true, if_false, ptpTaken hr hd]
  rcases hn with hn | hn
  · exact if_pos hn
  · have hnone : ((u.ptpPort h.port.val).synced.filter fun y => y.1 = sender && y.2.1 = q) = none := by
      rw [Option.filter_eq_none_iff]
      rintro ⟨a, b, arr, c⟩ hy
      simp only [Bool.and_eq_true, decide_eq_true_eq]
      rintro ⟨rfl, rfl⟩
      exact hn arr c hy
    simp only [hnone, ite_self]

theorem ptpMessageReceive_pdelayReq {s u : State} {h : RxHead} {dom : Nat} (ha : s.rxAccept h = (true, u))
    (hr : u.g NET_PTP_role [h.port.val] ≠ 0) (hd : dom = u.g NET_PTPCFG_domain) (q : Nat) :
    ptpMessageReceive h dom (.pdelayReq q) s = u.ptpSend h.port.val (.pdelayResp q h.arr u.mer.now 0) := by
  simp only [ptpMessageReceive, ha, Bool.not_true, Bool.false_eq_true, if_false, ptpTaken hr hd]

theorem ptpMessageReceive_pdelayResp {s u : State} {h : RxHead} {dom : Nat} {t1 : Time} (ha : s.rxAccept h = (true, u))
    (hr : u.g NET_PTP_role [h.port.val] ≠ 0) (hd : dom = u.g NET_PTPCFG_domain) (hq : (u.ptpPort h.port.val).reqAt = some t1)
    (t2 t3 : Time) (corr : Int) :
    ptpMessageReceive h dom (.pdelayResp (u.ptpPort h.port.val).reqSeq t2 t3 corr) s = u.putPtp h.port.val { u.ptpPort h.port.val with
      reqAt := none, delay := (((h.arr : Int) - t1) - ((t3 : Int) - t2) - corr) / 2 } := by
  simp only [ptpMessageReceive, ha, Bool.not_true, Bool.false_eq_true, if_false, ptpTaken hr hd, hq, if_true]

theorem ptpMessageReceive_pdelayResp_other {s u : State} {h : RxHead} {dom q : Nat} (ha : s.rxAccept h = (true, u))
    (hr : u.g NET_PTP_role [h.port.val] ≠ 0) (hd : dom = u.g NET_PTPCFG_domain)
    (hn : (u.ptpPort h.port.val).reqAt = none ∨ q ≠ (u.ptpPort h.port.val).reqSeq) (t2 t3 : Time) (corr : Int) :
    ptpMessageReceive h dom (.pdelayResp q t2 t3 corr) s = u := by
  simp only [ptpMessageReceive, ha, Bool.not_true, Bool.false_eq_true, if_false, ptpTaken hr hd]
  split
  · next t1 ht => exact if_neg (hn.resolve_left (by simp [ht]))
  · rfl

theorem ptpSyncReceive_other {s u v : State} {h : RxHead} {dom res : Nat} {m : PtpSync} {corr : Int} {on : Bool} {sender : BitVec 64}
    (hc : (true, on, u) = s.rxCheck h) (hv : v = u.ptpForward h on true dom m corr res) (hr : v.g NET_PTP_role [h.port.val] ≠ 0)
    (hd : dom = v.g NET_PTPCFG_domain)
    (hn : v.g NET_PTP_state [h.port.val] ≠ PS_SLAVE ∨ ∀ d, v.portBest h.port.val = some d → d.sender ≠ sender) :
    ptpSyncReceive h dom sender m corr res s = v := by
  have hno : (decide (v.g NET_PTP_state [h.port.val] = PS_SLAVE) && (v.portBest h.port.val).any (·.sender = sender)) = false := by
    rcases hn with hn | hn
    · simp [hn]
    · rw [Bool.and_eq_false_iff]
      right
      cases hb : v.portBest h.port.val with
      | none => rfl
      | some d => exact decide_eq_false (hn d hb)
  have htaken := ptpTaken hr hd
  subst hv
  simp only [ptpSyncReceive, ← hc, Bool.not_true, Bool.false_eq_true, if_false, htaken, hno]

theorem ptpSyncSend_due {s : State} {p q : Nat} {x : PtpPort} (hx : x = s.ptpPort p) (hq : q = (x.syncSeq + 1) % 65536)
    (h1 : s.portUp p = true) (h2 : s.g NET_PTP_state [p] = PS_MASTER) (h3 : oneSec ≤ s.since x.syncCyc) :
    ptpSyncSend p s = ((s.putPtp p { x with syncCyc := s.mer.cyc, syncSeq := q }).ptpSend p (.sync ⟨q, s.mer.now, true, 0⟩ 0)).ptpSend p
      (.followUp Config.clockId q s.mer.now 0) := by
  subst hq hx
  exact if_pos (by rw [h1, decide_eq_true h2, decide_eq_true h3]; rfl)

theorem ptpSyncSend_none {s : State} {p : Nat}
    (h : s.portUp p = false ∨ s.g NET_PTP_state [p] ≠ PS_MASTER ∨ s.since (s.ptpPort p).syncCyc < oneSec) : ptpSyncSend p s = s := by
  refine if_neg ?_
  rcases h with h | h | h
  · simp [h]
  · simp [h]
  · simp [Nat.not_le.mpr h]

theorem ptpAnnounceSend_due {s : State} {p : Nat} {x : PtpPort} (hx : x = s.ptpPort p) (h1 : s.portUp p = true)
    (h2 : s.g NET_PTP_state [p] = PS_MASTER) (h3 : oneSec ≤ s.since x.annSent) :
    ptpAnnounceSend p s = (s.putPtp p { x with annSent := s.mer.cyc }).ptpSend p (.announce (s.announceData p)) := by
  subst hx
  exact if_pos (by rw [h1, decide_eq_true h2, decide_eq_true h3]; rfl)

theorem ptpAnnounceSend_none {s : State} {p : Nat}
    (h : s.portUp p = false ∨ s.g NET_PTP_state [p] ≠ PS_MASTER ∨ s.since (s.ptpPort p).annSent < oneSec) : ptpAnnounceSend p s = s := by
  refine if_neg ?_
  rcases h with h | h | h
  · simp [h]
  · simp [h]
  · simp [Nat.not_le.mpr h]

theorem pdelayReqSend_due {s : State} {p r : Nat} {x : PtpPort} (hx : x = s.ptpPort p) (hq : r = (x.reqSeq + 1) % 65536)
    (h1 : s.portUp p = true) (h2 : s.g NET_PTP_role [p] ≠ 0) (h3 : oneSec ≤ s.since x.reqCyc) :
    pdelayReqSend p s = (s.putPtp p { x with reqCyc := s.mer.cyc, reqSeq := r, reqAt := some s.mer.now }).ptpSend p (.pdelayReq r) := by
  subst hq hx
  exact if_pos (by rw [h1, decide_eq_true h2, decide_eq_true h3]; rfl)

theorem pdelayReqSend_none {s : State} {p : Nat}
    (h : s.portUp p = false ∨ s.g NET_PTP_role [p] = 0 ∨ s.since (s.ptpPort p).reqCyc < oneSec) : pdelayReqSend p s = s := by
  refine if_neg ?_
  rcases h with h | h | h
  · simp [h]
  · simp [h]
  · simp [Nat.not_le.mpr h]

theorem announceReceiptTimeout_due {s : State} {p : Nat} {x : PtpPort} (hx : x = s.ptpPort p) (h1 : s.portUp p = true)
    (h2 : s.g NET_PTP_role [p] ≠ 0) (h3 : 3 * oneSec ≤ s.since x.annCyc)
    (h4 : [PS_LISTENING, PS_PASSIVE, PS_SLAVE].contains (s.g NET_PTP_state [p]) = true) :
    announceReceiptTimeout p s = (s.putPtp p { x with foreign := [] }).ptpDecide := by
  subst hx
  exact if_pos (by rw [h1, decide_eq_true h2, decide_eq_true h3, h4]; rfl)

theorem announceReceiptTimeout_none {s : State} {p : Nat} (h : s.portUp p = false ∨ s.g NET_PTP_role [p] = 0 ∨
    s.since (s.ptpPort p).annCyc < 3 * oneSec ∨ [PS_LISTENING, PS_PASSIVE, PS_SLAVE].contains (s.g NET_PTP_state [p]) = false) :
    announceReceiptTimeout p s = s := by
  refine if_neg ?_
  rcases h with h | h | h | h
  · rw [h]; exact Bool.false_ne_true
  · rw [h, decide_eq_false (Decidable.not_not.mpr rfl), Bool.and_false]; exact Bool.false_ne_true
  · rw [decide_eq_false (Nat.not_le.mpr h), Bool.and_false]; exact Bool.false_ne_true
  · rw [h, Bool.and_false]; exact Bool.false_ne_true

/-- Settles O48: a message by its kind and the port's role and state, and what a port sends by its time. -/
theorem ptpPorts : Obligations.PtpPorts := by
  intro s hr
  refine ⟨fun h dom m u ha => ?dropped, fun h dom m u p x ha hp hx => ⟨fun hn => ?host, fun h1 h2 => ⟨fun d hm => ?announce,
      fun sender q origin corr arr c hm hs hy => ?followUp, fun sender q origin corr hm hn => ?noFollowUp, fun q hm => ?req,
      fun t1 t2 t3 corr hm hq => ?resp, fun q t2 t3 corr hm hn => ?noResp⟩⟩,
    fun h dom sender m corr res ok on u v p hc hp hv => ⟨fun ho => ?syncDropped, fun ho hn => ?syncHost,
      fun ho h1 h2 => ⟨fun hn => ?syncOther, fun d hs hb hsend => ⟨fun htwo => ?twoStep, fun htwo => ?oneStep⟩⟩⟩,
    fun p x q r hx hq hr' => ⟨fun h1 h2 h3 => ?sync, fun h => ?noSync, fun h1 h2 h3 => ?ann, fun h => ?noAnn, fun h1 h2 h3 => ?delay,
      fun h => ?noDelay, fun h1 h2 h3 h4 => ?timeout, fun h => ?noTimeout⟩⟩
  case dropped => rw [exec_ptpMessageReceive _ _ _ hr, ptpMessageReceive_dropped ha]
  case host =>
    subst hp
    rw [exec_ptpMessageReceive _ _ _ hr, ptpMessageReceive_host ha hn]
  case announce =>
    subst hm hp
    rw [exec_ptpMessageReceive _ _ _ hr, ptpMessageReceive_announce ha h1 h2]
  case followUp =>
    subst hm hx hp
    rw [exec_ptpMessageReceive _ _ _ hr, ptpMessageReceive_followUp ha h1 h2 hs hy]
  case noFollowUp =>
    subst hm hx hp
    rw [exec_ptpMessageReceive _ _ _ hr, ptpMessageReceive_followUp_other ha h1 h2 hn]
  case req =>
    subst hm hp
    rw [exec_ptpMessageReceive _ _ _ hr, ptpMessageReceive_pdelayReq ha h1 h2]
  case resp =>
    subst hm hx hp
    rw [exec_ptpMessageReceive _ _ _ hr, ptpMessageReceive_pdelayResp ha h1 h2 hq]
  case noResp =>
    subst hm hx hp
    rw [exec_ptpMessageReceive _ _ _ hr, ptpMessageReceive_pdelayResp_other ha h1 h2 hn]
  case syncDropped =>
    subst ho
    rw [exec_ptpSyncReceive _ _ _ _ _ _ hr, ptpSyncReceive_dropped hc.symm, ← hv]
  case syncHost =>
    subst ho hp
    rw [exec_ptpSyncReceive _ _ _ _ _ _ hr, ptpSyncReceive_toHost hc.symm hv.symm hn]
  case syncOther =>
    subst ho hp
    rw [exec_ptpSyncReceive _ _ _ _ _ _ hr, ptpSyncReceive_other hc hv h1 h2 hn]
  case twoStep =>
    subst ho hp
    rw [exec_ptpSyncReceive _ _ _ _ _ _ hr, ptpSyncReceive_parent hc.symm hv.symm h1 h2 hs (by rw [hb]; exact decide_eq_true hsend), htwo]
    rfl
  case oneStep =>
    subst ho hp
    rw [exec_ptpSyncReceive _ _ _ _ _ _ hr, ptpSyncReceive_parent hc.symm hv.symm h1 h2 hs (by rw [hb]; exact decide_eq_true hsend), htwo]
    rfl
  case sync => rw [exec_ptpSyncSend _ hr, ptpSyncSend_due hx hq h1 h2 h3]
  case noSync =>
    subst hx
    rw [exec_ptpSyncSend _ hr, ptpSyncSend_none h]
  case ann => rw [exec_ptpAnnounceSend _ hr, ptpAnnounceSend_due hx h1 h2 h3]
  case noAnn =>
    subst hx
    rw [exec_ptpAnnounceSend _ hr, ptpAnnounceSend_none h]
  case delay => rw [exec_pdelayReqSend _ hr, pdelayReqSend_due hx hr' h1 h2 h3]
  case noDelay =>
    subst hx
    rw [exec_pdelayReqSend _ hr, pdelayReqSend_none h]
  case timeout => rw [exec_announceReceiptTimeout _ hr, announceReceiptTimeout_due hx h1 h2 h3 h4]
  case noTimeout =>
    subst hx
    rw [exec_announceReceiptTimeout _ hr, announceReceiptTimeout_none h]

end Sys2Proof.Machine
end


section
/-!
# Subscriptions and publications

What a received SV or GOOSE frame does, when a subscription is lost and a publication repeats, and the commands of their entries.
-/

open Sys2Proof Sys2Proof.Machine

namespace Sys2Proof.Machine

theorem State.each_singleton {α : Type} (s : State) (a : α) (f : State → α → State) : s.each [a] f = f s a := rfl

/-! ### Sampled values -/

theorem svFrameReceive_dropped {s u : State} {h : RxHead} (ha : s.rxAccept h = (false, u)) (f : SvIn) : svFrameReceive h f s = u := by
  simp only [svFrameReceive, ha, Bool.not_false, if_true]

theorem svFrameReceive_unverified {s u : State} {h : RxHead} {f : SvIn} {a : AuthExt} (ha : s.rxAccept h = (true, u))
    (hf : f.auth = some a) (hok : u.authOk a h.arr = false) :
    svFrameReceive h f s = (u.each (if u.subsRun then (List.range 64).filter (fun k => svMatch (u.svSub k).entry f) else [])
      fun s k => s.cnt NET_SVSTAT_bad [k] f.asdus.length).flag NET 13 := by
  simp only [svFrameReceive, ha, hf, Option.any_some, hok, Bool.not_true, Bool.not_false, Bool.false_eq_true, if_false, if_true]

/-- The extension of a frame verifies where there is none, or where its key does. -/
theorem auth_passes {u : State} {h : RxHead} {o : Option AuthExt} {b : Bool}
    (hb : o = none ∧ b = false ∨ (∃ a, o = some a ∧ u.authOk a h.arr = true) ∧ b = true) :
    (o.any fun a => !u.authOk a h.arr) = false ∧ o.isSome = b := by
  rcases hb with ⟨rfl, rfl⟩ | ⟨⟨a, rfl, hok⟩, rfl⟩
  · exact ⟨rfl, rfl⟩
  · exact ⟨by rw [Option.any_some, hok]; rfl, rfl⟩

theorem svFrameReceive_host {s u : State} {h : RxHead} {f : SvIn} {b : Bool} {l : List Nat} (ha : s.rxAccept h = (true, u))
    (hl : l = (List.range 64).filter (fun k => svMatch (u.svSub k).entry f))
    (hb : (f.auth.any fun a => !u.authOk a h.arr) = false ∧ f.auth.isSome = b) (hn : l = [] ∨ u.subsRun = false) :
    svFrameReceive h f s = u.rxHost h b := by
  obtain ⟨hv, hs⟩ := hb
  have hno : (l.isEmpty || !u.subsRun) = true := by rcases hn with hn | hn <;> simp [hn]
  simp only [svFrameReceive, ha, hv, hs, ← hl, hno, Bool.not_true, Bool.false_eq_true, if_false, if_true]

theorem svFrameReceive_matched {s u : State} {h : RxHead} {f : SvIn} {l : List Nat} (ha : s.rxAccept h = (true, u))
    (hl : l = (List.range 64).filter (fun k => svMatch (u.svSub k).entry f))
    (hv : (f.auth.any fun a => !u.authOk a h.arr) = false) (hne : l ≠ []) (hr : u.subsRun = true) :
    svFrameReceive h f s = u.each l fun s k => s.svFrame k f h.arr := by
  have hno : (l.isEmpty || !u.subsRun) = false := by simp [hne, hr]
  simp only [svFrameReceive, ha, hv, ← hl, hno, Bool.not_true, Bool.false_eq_true, if_false]

/-- A frame of one ASDU whose data set fits and that needs no authentication delivers its ASDU. -/
theorem State.svFrame_single {u : State} {k : Nat} {f : SvIn} {a : SvAsdu} (hs : f.sim = false) (hd : f.dataSet = true)
    (ha : f.asdus = [a]) (hreq : bitAt (leAt (u.svSub k).entry 8 1) 1 = false) (arr : Time) :
    u.svFrame k f arr = u.svAsdu k false arr a := by
  refine (if_neg (by simp [hs, ha])).trans ((if_neg (by simp [hd])).trans ((if_neg (by simp [hreq])).trans ?_))
  rw [ha, hs, State.each_singleton]

theorem State.svAsdu_bad {u : State} {k : Nat} {a : SvAsdu} (h : svRate (u.svSub k).entry ≤ a.smpCnt) (sim : Bool) (arr : Time) :
    u.svAsdu k sim arr a = u.cnt NET_SVSTAT_bad [k] := if_pos (by simp [h])

theorem State.svAsdu_good {u : State} {k : Nat} {a : SvAsdu} (h : a.smpCnt < svRate (u.svSub k).entry) (hl : a.vals.length = 8)
    (sim : Bool) (arr : Time) :
    u.svAsdu k sim arr a = ((u.onSv k fun x => { x with
      samples := (insSamp ⟨svIndex (svRate (u.svSub k).entry) a.smpCnt arr, a.vals.map (·.v.toInt),
        a.vals.map fun v => svQual v a.synch sim, a.vals.map fun v => v.validity = 1 || v.validity = 3⟩ x.samples).take 12000,
      last := some u.mer.cyc }).p NET_SVSTAT_state [k] 2).p NET_SVSTAT_synch [k] (min a.synch 3) := if_neg (by simp [h, hl])

theorem svSubscriptionLost_due {s : State} {k c : Nat} (h1 : s.netRuns = true) (h2 : s.g NET_SVSTAT_state [k] = 2)
    (hc : (s.svSub k).last = some c) (h : 10 * oneSec ≤ s.since c * svRate (s.svSub k).entry) :
    svSubscriptionLost k s = (s.p NET_SVSTAT_state [k] 1).flag NET 12 := by
  have hlost : s.svLost k = (s.p NET_SVSTAT_state [k] 1).flag NET 12 := if_neg (by rw [h2]; decide)
  rw [← hlost]
  exact if_pos (by rw [h1, decide_eq_true h2, hc, Option.any_some, decide_eq_true h]; rfl)

theorem svSubscriptionLost_none {s : State} {k : Nat} (h : s.netRuns = false ∨ s.g NET_SVSTAT_state [k] ≠ 2 ∨
    (∀ c, (s.svSub k).last = some c → s.since c * svRate (s.svSub k).entry < 10 * oneSec)) : svSubscriptionLost k s = s := by
  refine if_neg ?_
  rcases h with h | h | h
  · simp [h]
  · simp [h]
  · cases hc : (s.svSub k).last with
    | none => simp
    | some c => simp [Nat.not_le.mpr (h c hc)]

/-! ### GOOSE -/

theorem gooseFrameReceive_dropped {s u : State} {h : RxHead} (ha : s.rxAccept h = (false, u)) (f : GooseIn) :
    gooseFrameReceive h f s = u := by
  simp only [gooseFrameReceive, ha, Bool.not_false, if_true]

theorem gooseFrameReceive_unverified {s u : State} {h : RxHead} {f : GooseIn} {a : AuthExt} (ha : s.rxAccept h = (true, u))
    (hf : f.auth = some a) (hok : u.authOk a h.arr = false) :
    gooseFrameReceive h f s = (u.each (if u.subsRun then (List.range 256).filter (fun k => gooseMatch (u.gsub k).entry f) else [])
      fun s k => s.cnt NET_GSTAT_bad [k]).flag NET 15 := by
  simp only [gooseFrameReceive, ha, hf, Option.any_some, hok, Bool.not_true, Bool.not_false, Bool.false_eq_true, if_false, if_true]

theorem gooseFrameReceive_host {s u : State} {h : RxHead} {f : GooseIn} {b : Bool} {l : List Nat} (ha : s.rxAccept h = (true, u))
    (hl : l = (List.range 256).filter (fun k => gooseMatch (u.gsub k).entry f))
    (hb : (f.auth.any fun a => !u.authOk a h.arr) = false ∧ f.auth.isSome = b) (hn : l = [] ∨ u.subsRun = false) :
    gooseFrameReceive h f s = u.rxHost h b := by
  obtain ⟨hv, hs⟩ := hb
  have hno : (l.isEmpty || !u.subsRun) = true := by rcases hn with hn | hn <;> simp [hn]
  simp only [gooseFrameReceive, ha, hv, hs, ← hl, hno, Bool.not_true, Bool.false_eq_true, if_false, if_true]

theorem gooseFrameReceive_matched {s u : State} {h : RxHead} {f : GooseIn} {l : List Nat} (ha : s.rxAccept h = (true, u))
    (hl : l = (List.range 256).filter (fun k => gooseMatch (u.gsub k).entry f))
    (hv : (f.auth.any fun a => !u.authOk a h.arr) = false) (hne : l ≠ []) (hr : u.subsRun = true) :
    gooseFrameReceive h f s = (u.each l fun s k => s.gooseFrame k f).gooseBits := by
  have hno : (l.isEmpty || !u.subsRun) = false := by simp [hne, hr]
  simp only [gooseFrameReceive, ha, hv, ← hl, hno, Bool.not_true, Bool.false_eq_true, if_false]

/-- A new frame with the members that its entry expects, and that needs no authentication, makes the subscription live. -/
theorem State.gooseFrame_live {u : State} {k : Nat} {f : GooseIn} (hreq : bitAt (leAt (u.gsub k).entry 8 1) 1 = false)
    (hm : f.members.length = leAt (u.gsub k).entry 10 2) (hn : (u.gsub k).last ≠ some (f.stNum, f.sqNum)) :
    u.gooseFrame k f = (((u.putGsub k { u.gsub k with
      last := some (f.stNum, f.sqNum), members := f.members, until_ := u.mer.cyc + f.tal * 250000 }).p NET_GSTAT_state
        [k] 2).p NET_GSTAT_test [k] (b2n f.test)).p NET_GSTAT_sim [k] (b2n f.sim) :=
  (if_neg (by simp [hreq])).trans (if_neg (by simp [hm, hn]))

theorem gooseTalExpiry_due {s : State} {k : Nat} (h1 : s.netRuns = true) (h2 : s.g NET_GSTAT_state [k] = 2)
    (h3 : (s.gsub k).until_ ≤ s.mer.cyc) : gooseTalExpiry k s = ((s.p NET_GSTAT_state [k] 1).flag NET 14).gooseBits := by
  have hlost : s.gooseLost k = (s.p NET_GSTAT_state [k] 1).flag NET 14 := if_neg (by rw [h2]; decide)
  rw [← hlost]
  exact if_pos (by rw [h1, decide_eq_true h2, decide_eq_true h3]; rfl)

theorem gooseTalExpiry_none {s : State} {k : Nat}
    (h : s.netRuns = false ∨ s.g NET_GSTAT_state [k] ≠ 2 ∨ s.mer.cyc < (s.gsub k).until_) : gooseTalExpiry k s = s := by
  refine if_neg ?_
  rcases h with h | h | h
  · simp [h]
  · simp [h]
  · simp [Nat.not_le.mpr h]

theorem gooseRepeat_due {s : State} {j : Nat} (h1 : s.netRuns = true) (h2 : (s.gpub j).enabled = true)
    (h3 : (s.gpub j).nextAt ≤ s.mer.cyc) :
    gooseRepeat j s = s.gooseSend j { s.gpub j with sq := (s.gpub j).sq + 1 }
      (min (2 * (s.gpub j).interval) (leAt (s.gpub j).entry 16 4)) :=
  if_pos (by rw [h1, h2, decide_eq_true h3]; rfl)

theorem gooseRepeat_none {s : State} {j : Nat}
    (h : s.netRuns = false ∨ (s.gpub j).enabled = false ∨ s.mer.cyc < (s.gpub j).nextAt) : gooseRepeat j s = s := by
  refine if_neg ?_
  rcases h with h | h | h
  · simp [h]
  · simp [h]
  · simp [Nat.not_le.mpr h]

/-! ### Commands -/

theorem netCommands_refused {s : State} (h : s.inSt [DAWN, NIGHT] = true) (d : Desc) (buf : List Byte) :
    netSvsub d buf s = s.complete d 0x0E04 ST_NOT_NOW ∧ netSvpub d buf s = s.complete d 0x0E05 ST_NOT_NOW ∧
    netGsub d buf s = s.complete d 0x0E02 ST_NOT_NOW ∧ netGpub d buf s = s.complete d 0x0E03 ST_NOT_NOW ∧
    netKey d buf s = s.complete d 0x0E06 ST_NOT_NOW := ⟨if_pos h, if_pos h, if_pos h, if_pos h, if_pos h⟩

theorem netSvsub_done {s : State} {d : Desc} {buf e : List Byte} {n : Nat} (h : s.inSt [DAWN, NIGHT] = false)
    (he : (e, n) = clampLe 9 1 0 2 (padTo 80 buf, 0)) :
    netSvsub d buf s = ((s.clampDesc d 8 n).onSv (d.rf.toNat % 64) fun x => { x with next := some e }).complete d 0x0E04 ST_DONE := by
  simp only [netSvsub, h, Bool.false_eq_true, if_false, ← he]

theorem netGsub_done {s : State} {d : Desc} {buf e : List Byte} {n : Nat} (h : s.inSt [DAWN, NIGHT] = false)
    (he : (e, n) = clampLe 10 2 1 64 (padTo 160 buf, 0)) :
    netGsub d buf s = ((s.clampDesc d 8 n).putGsub (d.rf.toNat % 256)
      { s.gsub (d.rf.toNat % 256) with next := some e }).complete d 0x0E02 ST_DONE := by
  simp only [netGsub, h, Bool.false_eq_true, if_false, ← he]

/-- NET_GPUB stores its entry, and an enabled publication sends its first frame (R532). -/
theorem netGpub_done {s : State} {d : Desc} {buf e : List Byte} {n : Nat} (h : s.inSt [DAWN, NIGHT] = false)
    (he : (e, n) = clampGpub buf) (u : State) (hu : u = (s.clampDesc d 8 n).putGpub (d.rf.toNat % 64) { emptyGPub with entry := e }) :
    netGpub d buf s = (if bitAt (leAt e 10 1) 0 then u.gooseEvent (d.rf.toNat % 64) (u.gooseVals e) else u).complete d 0x0E03
      ST_DONE := by
  simp only [netGpub, h, Bool.false_eq_true, if_false, ← he, hu]

theorem netKey_delete {s : State} {d : Desc} {buf : List Byte} (h : s.inSt [DAWN, NIGHT] = false)
    (hb : bitAt d.rf.toNat 8 = true) :
    netKey d buf s = ((s.onNet fun n => { n with keys := n.keys.set (d.rf.toNat % 32) none }).p NET_KEYST []
      (putBit (s.g NET_KEYST) (d.rf.toNat % 32) false)).complete d 0x0E06 ST_DONE := by
  simp only [netKey, h, hb, Bool.false_eq_true, if_false, if_true]

theorem netKey_store {s : State} {d : Desc} {buf e : List Byte} {n : Nat} (h : s.inSt [DAWN, NIGHT] = false)
    (hb : bitAt d.rf.toNat 8 = false) (he : (e, n) = clampLe 0 1 1 2 (padTo 52 buf, 0)) (v : State)
    (hv : v = (s.clampDesc d 8 n).onNet fun x => { x with
      keys := x.keys.set (d.rf.toNat % 32) (some ⟨leAt e 0 1, leAt e 4 4, leAt e 8 6, leAt e 14 6, (e.drop 20).take (16 * leAt e 0 1)⟩) }) :
    netKey d buf s = (v.p NET_KEYST [] (putBit (v.g NET_KEYST) (d.rf.toNat % 32) true)).complete d 0x0E06 ST_DONE := by
  simp only [netKey, h, hb, Bool.false_eq_true, if_false, ← he, hv]

theorem netSvpub_done {s : State} (h : s.inSt [DAWN, NIGHT] = false) (d : Desc) (buf : List Byte) (x y z : List Byte × Nat)
    (hx : x = clampLe 11 1 0 31 (padTo 128 buf, 0))
    (hy : y = (List.range 8).foldl (fun x c => if c < 4 then clampLe (16 + c) 1 0 15 x else clampLe (16 + c) 1 16 23 x) x)
    (hz : z = (List.range 8).foldl (fun (x : List Byte × Nat) c =>
      let v := leAt x.1 (24 + 4 * c) 4
      let w := if isNaN f32 v then toF32 (1 / 1000) else if isInf f32 v then toF32 (if fmtNeg f32 v then 1 / 1000 else 1000000)
        else if ofF32 v < 1 / 1000 then toF32 (1 / 1000) else if 1000000 < ofF32 v then toF32 1000000 else v
      if v = w then x else (putLe x.1 (24 + 4 * c) 4 w, x.2 + 1)) y) :
    netSvpub d buf s = ((s.clampDesc d 8 z.2).onNet fun n => { n with
      svpubs := n.svpubs.set (d.rf.toNat % 8) { nth s.net.svpubs (d.rf.toNat % 8) ⟨[], none, []⟩ with
        next := some (Time.sec s.mer.now, z.1) } }).complete d 0x0E05 ST_DONE := by
  rw [hz, hy, hx]
  exact if_neg (by rw [h]; decide)

/-! ### The obligation -/

/-- Settles O49: each event by what its frame, its silence or its time says, each command by its state and its clamped entry. -/
theorem subscriptions : Obligations.Subscriptions := by
  intro s hr
  refine ⟨fun h f u l ha hl => ⟨fun a hf hok => ?svUnverified, fun b hb => ⟨fun hn => ?svHost, fun hne hrun => ?svEach⟩,
      fun k a hrun hk hsim hds hauth hreq hone => ⟨fun hle => ?svBad, fun hlt hlen y l' hy hl' => ?svGood⟩⟩,
    fun h f u l ha hl => ⟨fun a hf hok => ?gUnverified, fun b hb => ⟨fun hn => ?gHost, fun hne hrun => ?gEach⟩,
      fun k hrun hauth hk hreq hlen hnew => ?gLive⟩,
    fun h u ha => ⟨fun f => ?svDropped, fun f => ?gDropped⟩,
    fun k => ⟨fun c h1 h2 hc h3 => ?svLost, fun hn => ?svKeeps⟩,
    fun k => ⟨fun h1 h2 h3 => ?tal, fun hn => ?noTal⟩,
    fun j x hx => ⟨fun h1 h2 h3 => ?repeated, fun hn => ?noRepeat⟩,
    fun j v u hu => ⟨fun hsame => ?valsSame, fun hnew => ?valsNew⟩,
    fun d buf hst => ?refused,
    fun d buf hst => ⟨fun k e n u hk he hu => ?svsub, fun k e n hk he => ?gsub, fun j e n u hj he hu => ⟨fun hen => ?gpubOn,
      fun hen => ?gpubOff⟩, fun j x y z p u l hj hx hy hz hp hu hl => ?svpub, fun i l hi hb hl => ?keyDelete,
      fun i e n alg k u l v hi hb he halg hk hu hl hv => ?keyStore⟩⟩
  case svUnverified => rw [exec_svFrameReceive _ _ hr, svFrameReceive_unverified ha hf hok, ← hl]
  case svHost => rw [exec_svFrameReceive _ _ hr, svFrameReceive_host ha hl (auth_passes hb) hn]
  case svEach => rw [exec_svFrameReceive _ _ hr, svFrameReceive_matched ha hl (auth_passes hb).1 hne hrun]
  case svBad =>
    rw [exec_svFrameReceive _ _ hr, svFrameReceive_matched ha hl (auth_passes (b := false) (.inl ⟨hauth, rfl⟩)).1 (by simp [hk]) hrun,
      hk, State.each_singleton, State.svFrame_single hsim hds hone hreq, State.svAsdu_bad hle]
  case svGood =>
    subst hy hl'
    rw [exec_svFrameReceive _ _ hr, svFrameReceive_matched ha hl (auth_passes (b := false) (.inl ⟨hauth, rfl⟩)).1 (by simp [hk]) hrun,
      hk, State.each_singleton, State.svFrame_single hsim hds hone hreq, State.svAsdu_good hlt hlen]
    rfl
  case gUnverified => rw [exec_gooseFrameReceive _ _ hr, gooseFrameReceive_unverified ha hf hok, ← hl]
  case gHost => rw [exec_gooseFrameReceive _ _ hr, gooseFrameReceive_host ha hl (auth_passes hb) hn]
  case gEach => rw [exec_gooseFrameReceive _ _ hr, gooseFrameReceive_matched ha hl (auth_passes hb).1 hne hrun]
  case gLive =>
    rw [exec_gooseFrameReceive _ _ hr, gooseFrameReceive_matched ha hl (auth_passes (b := false) (.inl ⟨hauth, rfl⟩)).1 (by simp [hk])
      hrun, hk, State.each_singleton, State.gooseFrame_live hreq hlen hnew]
  case svDropped => rw [exec_svFrameReceive _ _ hr, svFrameReceive_dropped ha]
  case gDropped => rw [exec_gooseFrameReceive _ _ hr, gooseFrameReceive_dropped ha]
  case svLost => rw [exec_svSubscriptionLost _ hr, svSubscriptionLost_due h1 h2 hc h3]
  case svKeeps => rw [exec_svSubscriptionLost _ hr, svSubscriptionLost_none hn]
  case tal => rw [exec_gooseTalExpiry _ hr, gooseTalExpiry_due h1 h2 h3]
  case noTal => rw [exec_gooseTalExpiry _ hr, gooseTalExpiry_none hn]
  case repeated =>
    subst hx
    rw [exec_gooseRepeat _ hr, gooseRepeat_due h1 h2 h3]
  case noRepeat =>
    subst hx
    rw [exec_gooseRepeat _ hr, gooseRepeat_none hn]
  case valsSame =>
    subst hu
    rw [exec_netGval _ _ hr, hostWrite_netGval]
    exact congrArg (fun x => Host.Outcome.next (settle x)) (if_pos hsame)
  case valsNew =>
    subst hu
    rw [exec_netGval _ _ hr, hostWrite_netGval]
    exact congrArg (fun x => Host.Outcome.next (settle x)) (if_neg hnew)
  case refused =>
    obtain ⟨h1, h2, h3, h4, h5⟩ := netCommands_refused (s := s.open_ d) hst d buf
    rw [exec_netSvsub _ _ hr, exec_netSvpub _ _ hr, exec_netGsub _ _ hr, exec_netGpub _ _ hr, exec_netKey _ _ hr, h1, h2, h3, h4, h5]
    exact ⟨rfl, rfl, rfl, rfl, rfl⟩
  case svsub =>
    subst hk hu
    rw [exec_netSvsub _ _ hr, netSvsub_done (s := s.open_ d) hst he]
    rfl
  case gsub =>
    subst hk
    rw [exec_netGsub _ _ hr, netGsub_done (s := s.open_ d) hst he]
    rfl
  case gpubOn =>
    subst hj
    rw [exec_netGpub _ _ hr, netGpub_done (s := s.open_ d) hst he u hu, hen]
    rfl
  case gpubOff =>
    subst hj
    rw [exec_netGpub _ _ hr, netGpub_done (s := s.open_ d) hst he u hu, hen]
    rfl
  case svpub =>
    subst hj hp hl hu
    rw [exec_netSvpub _ _ hr, netSvpub_done (s := s.open_ d) hst d buf x y z hx hy hz]
    rfl
  case keyDelete =>
    subst hi hl
    rw [exec_netKey _ _ hr, netKey_delete (s := s.open_ d) hst hb]
    rfl
  case keyStore =>
    subst hi halg hk hu hl
    rw [exec_netKey _ _ hr, netKey_store (s := s.open_ d) hst hb he v hv]

end Sys2Proof.Machine

end


section
/-!
# Teleprotection ports

What each event of a teleprotection port does where it is due, and that it does nothing where it is not.
-/

open Sys2Proof Sys2Proof.Machine

namespace Sys2Proof.Machine

/-! ### Sending -/

/-- The echo and the hold of a frame whose time of transmission is ttx: those of the last valid frame, or free ones (R543, log 7). -/
def teleEcho (ttx : Time) (k : Nat) : Option (Nat × Time) → Nat × Nat
  | some (t, arr) => (t, min ((ttx - arr) / oneNs) 0xFFFFFF)
  | none => ((Config.freeWord k).toNat, (Config.freeWord k).toNat % 2 ^ 24)

/-- A frame begins: it is numbered, its time is kept, and its bytes stand but for the command bits (R538, R541). -/
def State.teleBegin (v u : State) (p k : Nat) (ttx : Time) (eh : Nat × Nat) : State :=
  v.putPort p { u.port p with
    seq := ((u.port p).seq + 1) % 16, sent := (Time.ns ttx :: (u.port p).sent).take 16, sendCyc := some u.mer.cyc
    begun := some (u.teleBody k p (u.port p).seq ttx eh.1 eh.2) }

theorem tpFrameSend_due {s : State} {p : Nat} (hr : s.tpcRuns p = true)
    (hc : ∀ c, (s.port p).sendCyc = some c → s.telePeriod p ≤ s.since c) (u : State) (hu : u = s.teleRest p)
    (ttx : Time) (ht : ttx = u.mer.now + u.g TPC_IODLY_txd [p] * oneNs) :
    tpFrameSend p s = u.draw.2.teleBegin u p u.draw.1 ttx (teleEcho ttx u.draw.1 (u.port p).echo) := by
  have hwait : (s.port p).sendCyc.any (fun c => decide (s.since c < s.telePeriod p)) = false := by
    cases hs : (s.port p).sendCyc with
    | none => rfl
    | some c => exact decide_eq_false (Nat.not_lt.mpr (hc c hs))
  subst hu ht
  refine (if_neg (by rw [hr, hwait]; decide)).trans ?_
  cases h : ((s.teleRest p).port p).echo <;> simp only [State.teleBegin, teleEcho, h]

theorem tpFrameSend_none {s : State} {p : Nat}
    (h : s.tpcRuns p = false ∨ ∃ c, (s.port p).sendCyc = some c ∧ s.since c < s.telePeriod p) : tpFrameSend p s = s := by
  refine if_pos ?_
  rcases h with h | ⟨c, hs, hc⟩
  · rw [h]; rfl
  · simp [hs, hc]

theorem State.teleRest_none {s : State} {p : Nat} (h : (s.port p).begun = none) : s.teleRest p = s := by
  simp only [State.teleRest, h]

theorem State.teleRest_begun {s : State} {p : Nat} {l body frame : List Byte} {cmd : Nat} (h : (s.port p).begun = some l)
    (hc : cmd = s.teleBits p) (hb : body = l.take 4 ++ leBytes 2 cmd ++ l.drop 6) (hf : frame = body ++ leBytes 4 (crc32 body).toNat) :
    s.teleRest p = ((s.putPort p { s.port p with begun := none }).p TPC_CMDST_tx [p] cmd).emit
      (.tele p (s.g TPC_CFG_iface [p]) (s.g TPC_CFG_n [p]) (s.teleUnused p)
        (s.g TPC_CFG_iface [p] = 0 && s.g TPC_STAT_state [p] = 1) frame (bitsMsb frame)) := by
  subst hc hb hf
  simp only [State.teleRest, h]

/-! ### Receiving -/

section
variable {s : State} {p : Nat} {l : List Byte} {pin : Time} {rdi : Bool}

theorem tpFrameReceive_stopped (hr : s.tpcRuns p = false) : tpFrameReceive p l pin rdi s = s := if_pos (by rw [hr]; rfl)

theorem State.port_p (s : State) (p : Nat) (f : Fld) (ix : List Nat) (v : Nat) : (s.p f ix v).port p = s.port p :=
  congrArg (nth · p emptyPort) (s.p_tpc f ix v)

/-- A frame without a correct CRC counts where the port has found its frames. -/
theorem tpFrameReceive_badCrc (hr : s.tpcRuns p = true) (hok : teleOk l = false) (u : State)
    (hu : u = s.p TPC_STAT_rdi [p] (b2n (rdi && s.g TPC_CFG_iface [p] = 0))) :
    tpFrameReceive p l pin rdi s = if u.g TPC_STAT_state [p] = 2 then
      ((u.putPort p { s.port p with fails := (s.port p).fails + 1 }).cnt TPC_STAT_crc [p]).flagAt TPC 10 (200 + p) else u := by
  have hport : u.port p = s.port p := by rw [hu, State.port_p]
  rw [← hport]
  subst hu
  exact (if_neg (by rw [hr]; decide)).trans (if_pos (by rw [hok]; rfl))

/-- A frame with a correct CRC makes the port found; one with its own address is a loop. -/
theorem tpFrameReceive_goodCrc (hr : s.tpcRuns p = true) (hok : teleOk l = true) (u : State)
    (hu : u = ((s.p TPC_STAT_rdi [p] (b2n (rdi && s.g TPC_CFG_iface [p] = 0))).putPort p
      { s.port p with fails := 0 }).p TPC_STAT_state [p] 2) :
    tpFrameReceive p l pin rdi s = if leAt l 3 1 / 16 = s.g TPC_CFG_addr [p] then u.flagAt TPC 11 (200 + p)
      else u.teleValid p l (pin - s.g TPC_IODLY_rxd [p] * oneNs) := by
  rw [← State.port_p s p TPC_STAT_rdi [p] (b2n (rdi && s.g TPC_CFG_iface [p] = 0))] at hu
  subst hu
  exact (if_neg (by rw [hr]; decide)).trans (if_neg (by rw [hok]; decide))

end

theorem lossOfFrame_due {s : State} {p : Nat} (h1 : s.tpcRuns p = true) (h2 : s.g TPC_STAT_state [p] = 2)
    (h3 : 3 ≤ (s.port p).fails) :
    lossOfFrame p s = ((s.putPort p { s.port p with fails := 0 }).p TPC_STAT_state [p] 1).flagAt TPC 9 (200 + p) :=
  if_pos (by rw [h1, decide_eq_true h2, decide_eq_true h3]; rfl)

theorem lossOfFrame_none {s : State} {p : Nat}
    (h : s.tpcRuns p = false ∨ s.g TPC_STAT_state [p] ≠ 2 ∨ (s.port p).fails < 3) : lossOfFrame p s = s := by
  refine if_neg ?_
  rcases h with h | h | h
  · simp [h]
  · simp [h]
  · simp [Nat.not_le.mpr h]

/-- Silence for cto: the frames no longer give the received bits, and the fallback stands (R542). -/
theorem tpCommandTimeout_due {s : State} {p : Nat} (h1 : (s.port p).timed = false)
    (h2 : s.g TPC_CFG_cto [p] * oneMs ≤ s.since (s.port p).okCyc) :
    tpCommandTimeout p s = ((s.putPort p { s.port p with timed := true, prev := none, bits := none }).putRx p
      (s.teleFall p)).flagAt TPC 12 (200 + p) :=
  if_pos (by rw [h1, decide_eq_true h2]; rfl)

theorem tpCommandTimeout_none {s : State} {p : Nat}
    (h : (s.port p).timed = true ∨ s.since (s.port p).okCyc < s.g TPC_CFG_cto [p] * oneMs) : tpCommandTimeout p s = s := by
  refine if_neg ?_
  rcases h with h | h
  · simp [h]
  · simp [Nat.not_le.mpr h]

theorem tpcLos_flagged {s : State} {p : Nat} (h1 : (s.port p).los = false) (h2 : s.tpcRuns p = true)
    (h3 : s.g TPC_CFG_iface [p] = 0) :
    tpcLos p true s = (s.putPort p { s.port p with los := true }).flagAt TPC 8 (200 + p) :=
  if_pos (by rw [h1, h2, decide_eq_true h3]; rfl)

theorem tpcLos_unflagged {s : State} {p : Nat} {lost : Bool}
    (h : lost = false ∨ (s.port p).los = true ∨ s.tpcRuns p = false ∨ s.g TPC_CFG_iface [p] ≠ 0) :
    tpcLos p lost s = s.putPort p { s.port p with los := lost } := by
  refine if_neg ?_
  rcases h with h | h | h | h <;> simp [h]

/-! ### The obligation -/

/-- Settles O50: each event of a port by whether it is due. -/
theorem teleprotection : Obligations.Teleprotection := by
  intro s p x hr hx
  subst hx
  refine ⟨fun ttx eh u y k v hrun hc hu hy hkv ht heh => ?send, fun hn => ?noSend,
    ⟨State.teleRest_none, fun l cmd body frame h hc hb hf => State.teleRest_begun h hc hb hf⟩, fun l pin rdi hrun => ?stopped,
    fun l pin rdi u hrun hu hok => ⟨fun hs => ?badFound, fun hs => ?badHunting⟩,
    fun l pin rdi u hrun hu hok => ⟨fun ha => ?loop, fun ha => ?valid⟩, fun h1 h2 h3 => ?lost, fun hn => ?noLoss,
    fun v u h1 h2 hv hu => ⟨fun hsame => ?outSame, fun hnew => ?outNew⟩, fun hn => ?noTimeout, fun h1 h2 h3 => ?los,
    fun hn => ?losQuiet, ?losEnds⟩
  case send =>
    have heq : eh = teleEcho ttx k (u.port p).echo := by
      rw [heh, hy]
      cases (u.port p).echo <;> rfl
    rw [exec_tpFrameSend _ hr, tpFrameSend_due hrun hc u hu ttx ht, ← hkv]
    dsimp only
    rw [← heq, hy]
    rfl
  case noSend => rw [exec_tpFrameSend _ hr, tpFrameSend_none hn]
  case stopped => rw [exec_tpFrameReceive _ _ _ _ hr, tpFrameReceive_stopped hrun]
  case badFound => rw [exec_tpFrameReceive _ _ _ _ hr, tpFrameReceive_badCrc hrun hok u hu, if_pos hs]
  case badHunting => rw [exec_tpFrameReceive _ _ _ _ hr, tpFrameReceive_badCrc hrun hok u hu, if_neg hs]
  case loop => rw [exec_tpFrameReceive _ _ _ _ hr, tpFrameReceive_goodCrc hrun hok u hu, if_pos ha]
  case valid => rw [exec_tpFrameReceive _ _ _ _ hr, tpFrameReceive_goodCrc hrun hok u hu, if_neg ha]
  case lost => rw [exec_lossOfFrame _ hr, lossOfFrame_due h1 h2 h3]
  case noLoss => rw [exec_lossOfFrame _ hr, lossOfFrame_none hn]
  case outSame =>
    rw [exec_tpCommandTimeout _ hr, tpCommandTimeout_due h1 h2, ← hu, show s.teleFall p = v from hv.symm,
      show u.putRx p v = u from if_pos (by rw [hu]; exact hsame)]
  case outNew =>
    rw [exec_tpCommandTimeout _ hr, tpCommandTimeout_due h1 h2, ← hu, show s.teleFall p = v from hv.symm,
      show u.putRx p v = (u.p TPC_CMDST_rx [p.val] v).raise (200 + p) from if_neg (by rw [hu]; exact hnew)]
  case noTimeout => rw [exec_tpCommandTimeout _ hr, tpCommandTimeout_none hn]
  case los => rw [exec_tpcLos _ _ hr, tpcLos_flagged h1 h2 h3]
  case losQuiet => rw [exec_tpcLos _ _ hr, tpcLos_unflagged (.inr hn)]
  case losEnds => rw [exec_tpcLos _ _ hr, tpcLos_unflagged (.inl rfl)]

end Sys2Proof.Machine

end


section
/-!
# The host link

What a change of the link and the resets of the host interface do.
-/

open Sys2Proof Sys2Proof.Machine

namespace Sys2Proof.Machine

theorem State.sendWaiting_off {s : State} (h : s.linkOk = false) : s.sendWaiting = s := if_neg (by simp [h])

/-- Messages that waited leave over a link that may be used. -/
theorem State.sendWaiting_on {s : State} (h : s.linkOk = true) :
    s.sendWaiting = ({ s with hif := { s.hif with msixWait := [] } } : State).each s.hif.msixWait fun s v => s.msix v := if_pos h

/-- A change of the link: what waited for it leaves, and the rings move where it comes. -/
theorem hostLinkChange_eq (s : State) (up bme d3 : Bool) (sp w : Nat) (u : State)
    (hu : u = s.p HIF_LINK [] (b2n d3 * 1024 + b2n bme * 512 + b2n up * 256 + (if up then min (max sp 1) 3 else 0) * 16
      + (if !up then 0 else if w ≤ 1 then 1 else if w ≤ 3 then 2 else 4))) :
    hostLinkChange up bme d3 sp w s = if u.sendWaiting.linkOk && !s.linkOk then u.sendWaiting.each (List.range 128) State.pumpRing
      else u.sendWaiting := by
  subst hu
  rfl

/-- Settles O52: a change of the link by whether it may be used before and after it, the resets by their definition. -/
theorem hostLink : Obligations.HostLink := by
  intro s hr
  refine ⟨fun up bme d3 sp w a b u ha hb hu => ⟨fun hoff => ?off, fun hon t ht hsend => ⟨fun hs => ?stays, fun hs => ?comes⟩⟩,
    fun u v w hu hv hw => ⟨?flr, ?perst⟩⟩
  all_goals try subst ha hb
  case off =>
    rw [exec_hostLinkChange _ _ _ _ _ hr, hostLinkChange_eq s up bme d3 sp w u hu, State.sendWaiting_off hoff, hoff]
    rfl
  case stays =>
    rw [exec_hostLinkChange _ _ _ _ _ hr, hostLinkChange_eq s up bme d3 sp w u hu, State.sendWaiting_on hon, ← ht, hsend, hs]
    rfl
  case comes =>
    rw [exec_hostLinkChange _ _ _ _ _ hr, hostLinkChange_eq s up bme d3 sp w u hu, State.sendWaiting_on hon, ← ht, hsend, hs]
    rfl
  case flr =>
    subst hu hv hw
    exact exec_functionLevelReset hr
  case perst =>
    subst hu hv hw
    exact exec_perstN hr

end Sys2Proof.Machine

end


section
/-!
# Formation of a stack

What the stack keeps of a formation: the position held then (R597, log 183).
-/

open Sys2Proof Sys2Proof.Machine

namespace Sys2Proof.Machine

theorem State.deliver_csc (s : State) (cls idx : Nat) (d : RDesc) (marks : Bool) : (s.deliver cls idx d marks).2.csc = s.csc := by
  unfold State.deliver
  split
  · split <;> rfl
  · split <;> simp [State.ready, State.putGap]

theorem State.cscEvt_csc (s : State) (code pos serial : Nat) : (s.cscEvt code pos serial).csc = s.csc := by
  have h := s.deliver_csc CLS_TUN 8 ⟨0x0F10, 0, 0, serial, 0, code + 256 * pos, 0, ST_DONE, []⟩ false
  simp only [State.cscEvt]
  split
  · rfl
  · split
    · exact h
    · exact (State.cnt_csc _ _ _ _).trans h

/-- The serial numbers of the members, in the order of positions, leave the state of the stack. -/
theorem State.showMembers_csc (s : State) (l : List (BitVec 64 × Nat)) :
    (s.each l fun s (w, i) => (s.p CSC_MEM_0 [i] w.toNat).p CSC_MEM_1 [i] (w.toNat / 2 ^ 32)).csc = s.csc :=
  State.each_same (·.csc) _ (by simp) l s

/-- A master whose stack has formed notes its position (R597, log 183). -/
theorem State.formedAs_lastPos {s : State} {g : StackGroup}
    (hm : (s.membersLeave (groupOrder g (nth (s.groupMasters g) 0 0)).length).on GEN_STATE_master = true) :
    (s.formedAs g).csc.lastPos = some ((groupOrder g (nth (s.groupMasters g) 0 0)).idxOf 0) := by
  simp only [State.formedAs, hm, if_true, State.cscEvt_csc, State.flag_csc]
  split
  · exact congrArg CscSt.lastPos (State.flag_csc _ _ _)
  · rfl

/-- A master in MORNING whose stack forms, and that has been in no stack before. -/
def masterForming : State :=
  (((State.reset.p GEN_STATE_state [] MORNING).p GEN_STATE_master [] 1).p CSC_CFG_en [] 1).p CSC_STAT_state [] CS_FORMING

/-- The group of this device and one other, joined by one link. -/
def pairGroup : StackGroup := ⟨[⟨5, false, 0⟩], [⟨0, 0, 1, 0⟩]⟩

theorem masterForming_runs : masterForming.Runs := by simp [State.Runs, masterForming, State.reset, PwrSt.reset]

theorem masterForming_members : (masterForming.membersLeave 2).on GEN_STATE_stacked = false ∧
    (masterForming.membersLeave 2).on GEN_STATE_master = true := by decide +kernel

/-- The pair forms, with its master at position 0, that has noted no position before. -/
theorem masterForming_pair : masterForming.groupFail pairGroup = 0 ∧
    groupOrder pairGroup (nth (masterForming.groupMasters pairGroup) 0 0) = [0, 1] ∧
    (masterForming.membersLeave 2).csc.lastPos = none := by decide +kernel

/-- Refutes O53: the state that its clause on a formed stack gives leaves the position last held (csc.lastPos) as it was, while
formation notes the new one, by which the next formation finds whether it has changed (R597, log 183). A master that forms a pair for
the first time had none before. -/
theorem not_stackFormation : ¬ Obligations.StackFormation := by
  intro h
  obtain ⟨-, -, -, -, -, -, -, hend, -⟩ := h masterForming masterForming_runs
  obtain ⟨hfree, hmaster⟩ := masterForming_members
  obtain ⟨-, horder, hnone⟩ := masterForming_pair
  have hlen : (groupOrder pairGroup (nth (masterForming.groupMasters pairGroup) 0 0)).length = 2 := by rw [horder]; rfl
  have claim := ((hend pairGroup).2.2 _ 2 0 _ _ _ _ rfl hlen.symm (by rw [horder]; rfl) rfl rfl rfl rfl (.inl hfree)).1 hmaster
  have noted := State.formedAs_lastPos (by rw [hlen]; exact hmaster)
  rw [claim, State.cscEvt_csc, State.flag_csc] at noted
  dsimp only at noted
  rw [State.showMembers_csc, State.p_csc, State.p_csc, State.p_csc, hnone] at noted
  exact absurd noted (by decide)

end Sys2Proof.Machine

end


section
/-!
# Packets of a formed stack

What each packet of the exchange class does by whether the device takes it in, its role and its time.
-/

open Sys2Proof Sys2Proof.Machine

namespace Sys2Proof.Machine

/-! ### SYNC -/

theorem cascadeSyncSend_due {s : State} (h1 : s.isMaster = true) (h2 : s.formed = true) (h3 : s.csc.syncMs ≠ s.mer.now / oneMs) :
    cascadeSyncSend s = ({ s with csc := { s.csc with syncMs := s.mer.now / oneMs, stepSeen := s.mer.stepAt } } : State).stackSend
      PK_SYNC [s.mer.now, s.g MER_STAT_tq, b2n (decide (s.mer.stepAt ≠ s.csc.stepSeen)), 0] :=
  if_pos (by rw [h1, h2, decide_eq_true h3]; rfl)

theorem cascadeSyncSend_none {s : State} (h : s.isMaster = false ∨ s.formed = false ∨ s.csc.syncMs = s.mer.now / oneMs) :
    cascadeSyncSend s = s := by
  refine if_neg ?_
  rcases h with h | h | h <;> simp [h]

section
variable {s u : State} {h : PktHead} {sent : Time} {cum tq : Nat} {step : Bool} {resp : Option Int} {ok : Bool}

theorem syncPacket_dropped
    (hp : (ok, u) = s.packetIn PK_SYNC h none (syncBody (s.g CSC_LINK_dly [h.link.val]) h sent cum tq step resp))
    (hd : ok = false ∨ u.formed = false) : syncPacket h sent cum tq step resp s = u := by
  have hno : (!ok || !u.formed) = true := by rcases hd with hd | hd <;> simp [hd]
  simp only [syncPacket, ← hp, hno, if_true]

/-- The response of a member shows its offset on the master. -/
theorem syncPacket_response {o : Int}
    (hp : (true, u) = s.packetIn PK_SYNC h none (syncBody (s.g CSC_LINK_dly [h.link.val]) h sent cum tq step (some o)))
    (hf : u.formed = true) :
    syncPacket h sent cum tq step (some o) s = if u.isMaster then u.p CSC_MEM_2 [h.src.val] (wrap 32 o) else u := by
  simp only [syncPacket, ← hp, hf, Bool.not_true, Bool.or_self, Bool.false_eq_true, if_false]

theorem syncPacket_notMember
    (hp : (true, u) = s.packetIn PK_SYNC h none (syncBody (s.g CSC_LINK_dly [h.link.val]) h sent cum tq step none))
    (hf : u.formed = true) (hm : u.isMember = false) : syncPacket h sent cum tq step none s = u := by
  simp only [syncPacket, ← hp, hf, hm, Bool.not_true, Bool.not_false, Bool.or_self, Bool.false_eq_true, if_false, if_true]

/-- A SYNC on a member: its offset is shown and counted, its Meridian takes it by its state and the step flag, and it answers (R583). -/
theorem syncPacket_member {off o : Int} {w x : State} {k : Nat}
    (hp : (true, u) = s.packetIn PK_SYNC h none (syncBody (s.g CSC_LINK_dly [h.link.val]) h sent cum tq step none))
    (hf : u.formed = true) (hm : u.isMember = true) (hoff : off = (u.mer.now : Int) - (sent + cum))
    (ho : o = satI (-(2 ^ 31) + 1) (2 ^ 31 - 1) (off / 1024))
    (hw : w = (((((u.noteEvent 10).p CSC_TOFS [] (wrap 32 o)).onCsc fun c => { c with syncCyc := u.mer.cyc }).putAligned 0
      true).setTq tq).alignCount off) (hx : (k, x) = w.draw) :
    syncPacket h sent cum tq step none s = (if u.dev = SAFE then w else if step then w.stepBy (-off)
      else x.correct (u.phaseOf off k)).stackSend PK_SYNC [u.position, wrap 32 o] := by
  simp only [syncPacket, ← hp, hf, hm, Bool.not_true, Bool.or_self, Bool.false_eq_true, if_false, ← hoff, ← ho, ← hw, ← hx]

end

/-! ### Alignment and the tracked grid -/

theorem alignment_due {s : State} (h1 : s.formed = true) (h2 : s.isMember = true) (h3 : s.csc.alignCnt = 16)
    (h4 : bitAt (s.g CSC_STAT_aligned) s.position = false) : alignment s = s.becomeAligned s.position :=
  if_pos (by rw [h1, h2, decide_eq_true h3, h4]; rfl)

theorem alignment_none {s : State}
    (h : s.formed = false ∨ s.isMember = false ∨ s.csc.alignCnt ≠ 16 ∨ bitAt (s.g CSC_STAT_aligned) s.position = true) :
    alignment s = s := by
  refine if_neg ?_
  rcases h with h | h | h | h <;> simp [h]

theorem State.isMaster_of_isMember {s : State} (h : s.isMember = true) : s.isMaster = false := by
  simp only [State.isMember, Bool.and_eq_true, Bool.not_eq_true'] at h
  simp [State.isMaster, h.2]

/-- On a member an alignment shows in its own bit, and only the first after its admission sets the flag (R584). -/
theorem State.becomeAligned_member {s : State} (h : s.isMember = true) (m : Nat) :
    s.becomeAligned m = if bitAt s.csc.wasAligned m then s.putAligned m true
      else ((s.putAligned m true).onCsc fun c => { c with wasAligned := putBit c.wasAligned m true }).flag CSC 15 :=
  if_neg (by simp [State.isMaster_of_isMember h])

/-- The instant before the next one of the tracked grid. -/
def State.lastInstant (s : State) : Time := s.dch.placed.getLast?.elim s.dch.frame.ts (·.now)

theorem gridPacket_taken {s u : State} {x : PktTime} {rate : Nat} (hp : (true, u) = s.packetIn PK_GRID x.head none [x.t, rate])
    (h1 : u.formed = true) (h2 : u.isMember = true) :
    gridPacket x rate s = { (u.onCsc fun c => { c with gridCyc := u.mer.cyc, fresh := false }) with dch := { u.dch with
      nextT := some { placeAt x.t rate with sync := u.csc.fresh || u.dch.nextT.any (·.sync), tstep := u.csc.fresh && u.dch.tstep }
      lost := false, lastRate := rate
      lastDelta := if u.lastInstant < x.t then x.t - u.lastInstant else u.dch.lastDelta } } := by
  cases ho : u.dch.placed.getLast? <;>
    simp only [gridPacket, ← hp, h1, h2, ho, Bool.and_self, Bool.not_true, Bool.false_eq_true, if_false, State.lastInstant,
      Option.elim_none, Option.elim_some] <;> rfl

theorem gridPacket_dropped {s u : State} {x : PktTime} {rate : Nat} {ok : Bool}
    (hp : (ok, u) = s.packetIn PK_GRID x.head none [x.t, rate]) (h : ok = false ∨ u.formed = false ∨ u.isMember = false) :
    gridPacket x rate s = u := by
  have hno : (ok && u.formed && u.isMember) = false := by rcases h with h | h | h <;> simp [h]
  simp only [gridPacket, ← hp, hno, Bool.not_false, if_true]

/-! ### Publications -/

section
variable {s u : State} {h : PktHead} {hdr parts rest l : List Byte} {ok : Bool}

theorem pubPacket_dropped (hl : l = hdr ++ parts ++ rest) (hp : (ok, u) = s.packetIn PK_PUB h none (l.map (·.toNat)))
    (hd : ok = false ∨ u.formed = false) : pubPacket h hdr parts rest s = u := by
  have hno : (!ok || !u.formed) = true := by rcases hd with hd | hd <;> simp [hd]
  simp only [pubPacket, ← hl, ← hp, hno, if_true]

/-- The alignment of a member as its publication shows it. -/
def State.pubAligned (u : State) (m : Nat) (al : Bool) : State :=
  if al && !bitAt (u.g CSC_STAT_aligned) m then u.becomeAligned m
  else if !al && bitAt (u.g CSC_STAT_aligned) m then u.putAligned m false else u

/-- A publication by the deadline of its frame (R589). -/
theorem pubPacket_taken (hl : l = hdr ++ parts ++ rest) (hp : (true, u) = s.packetIn PK_PUB h none (l.map (·.toNat)))
    (hf : u.formed = true) {v : State} (hv : v = u.pubAligned h.src.val (bitAt (leAt l 18 1) 3)) :
    pubPacket h hdr parts rest s =
      if deadline (headerTime l) ≤ u.mer.now then
        if deadline (headerTime l) < u.mer.now then (v.cnt CSC_MEM_3_late [h.src.val]).flag CSC 13 else v
      else if !bitAt (leAt l 18 1) 3 || h.src.val = u.position then v
      else if u.ele.lastTs = some (headerTime l) || (u.tmx.second && u.dch.frame.ts = headerTime l) then v.usePub h.src.val l
      else v.onCsc fun c => { c with early := (c.early ++ [(h.src.val, l)]).drop (c.early.length + 1 - 32) } := by
  subst hv
  simp only [pubPacket, ← hl, ← hp, hf, Bool.not_true, Bool.or_self, Bool.false_eq_true, if_false]
  rfl

end

/-! ### Levels -/

theorem levelPacket_taken {s u : State} {h : PktHead} {lv : Bool} (hp : (true, u) = s.packetIn PK_LEVEL h none [h.src.val, b2n lv])
    (h1 : u.isMaster = true) (h2 : u.formed = true) (h3 : h.src.val ≠ 0) : levelPacket h lv s = u.setLevel (205 + h.src.val) lv := by
  simp only [levelPacket, ← hp, h1, h2, decide_eq_true h3, Bool.and_self, if_true]

theorem levelPacket_dropped {s u : State} {h : PktHead} {lv ok : Bool} (hp : (ok, u) = s.packetIn PK_LEVEL h none [h.src.val, b2n lv])
    (hd : ok = false ∨ u.isMaster = false ∨ u.formed = false ∨ h.src.val = 0) : levelPacket h lv s = u := by
  have hno : (ok && u.isMaster && u.formed && decide (h.src.val ≠ 0)) = false := by rcases hd with hd | hd | hd | hd <;> simp [hd]
  simp only [levelPacket, ← hp, hno, Bool.false_eq_true, if_false]

theorem levelSend_due {s : State} (h1 : s.formed = true) (h2 : s.isMember = true)
    (h3 : s.cascView ≠ s.csc.levelLast ∨ oneMs ≤ s.since s.csc.levelCyc) :
    levelSend s = ({ s with csc := { s.csc with levelLast := s.cascView, levelCyc := s.mer.cyc } } : State).stackSend
      PK_LEVEL [s.position, b2n s.cascView] :=
  if_pos (by rw [h1, h2]; simpa using h3)

theorem levelSend_none {s : State}
    (h : s.formed = false ∨ s.isMember = false ∨ (s.cascView = s.csc.levelLast ∧ s.since s.csc.levelCyc < oneMs)) :
    levelSend s = s := by
  refine if_neg ?_
  rcases h with h | h | ⟨h1, h2⟩
  · simp [h]
  · simp [h]
  · simp [h1, Nat.not_le.mpr h2]

/-! ### The obligation -/

/-- Settles O54: each packet by whether the device takes it in, its role and the packet's time. -/
theorem stackPackets : Obligations.StackPackets := by
  intro s hr
  refine ⟨fun ms hms => ⟨fun h1 h2 h3 => ?sync, fun hn => ?noSync⟩,
    fun h sent cum tq step resp ok u hp => ⟨fun hd => ?dropped, fun hok hf => ⟨fun o ho => ⟨fun hm => ?response, fun hm => ?ignored⟩,
      fun hn hm => ?notMember, fun hn hm off o v w k x hoff ho hv hw hx => ⟨fun hs => ?safe, fun hs hst t ht => ?corrected,
        fun hs hst t ht => ?stepped⟩⟩⟩,
    fun h1 h2 h3 h4 v hv => ⟨fun hw => ?again, fun hw => ?first⟩, fun hn => ?noAlign,
    fun x rate ok u hp => ⟨fun hd => ?gridDropped, fun hok h1 h2 p last v hpl hlast hv => ?grid⟩,
    fun h hdr parts rest l ok u m hl hp hm => ⟨fun hd => ?pubDropped, fun hok hf v al hal hv => ⟨fun hd => ?late, fun hd => ?exact_,
      fun hd => ⟨fun hn => ?unused, fun ha hne => ⟨fun hu => ?used, fun hn1 hn2 => ?early⟩⟩⟩⟩,
    fun h lv ok u m hp hm => ⟨fun hok h1 h2 h3 => ?level, fun hd => ?levelDropped⟩,
    fun lv hlv => ⟨fun h1 h2 h3 => ?send, fun hn => ?noSend⟩⟩
  case sync =>
    subst hms
    rw [exec_cascadeSyncSend hr, cascadeSyncSend_due h1 h2 h3]
  case noSync =>
    subst hms
    rw [exec_cascadeSyncSend hr, cascadeSyncSend_none hn]
  case dropped => rw [exec_syncPacket _ _ _ _ _ _ hr, syncPacket_dropped hp hd]
  case response =>
    subst ho hok
    rw [exec_syncPacket _ _ _ _ _ _ hr, syncPacket_response hp hf, if_pos hm]
  case ignored =>
    subst ho hok
    rw [exec_syncPacket _ _ _ _ _ _ hr, syncPacket_response hp hf, if_neg (by simp [hm])]
  case notMember =>
    subst hn hok
    rw [exec_syncPacket _ _ _ _ _ _ hr, syncPacket_notMember hp hf hm]
  case safe =>
    subst hn hok hv
    rw [exec_syncPacket _ _ _ _ _ _ hr, syncPacket_member hp hf hm hoff ho hw hx, if_pos hs]
  case corrected =>
    subst hn hok hv ht hst
    rw [exec_syncPacket _ _ _ _ _ _ hr, syncPacket_member hp hf hm hoff ho hw hx, if_neg hs, if_neg (by decide)]
  case stepped =>
    subst hn hok hv ht hst
    rw [exec_syncPacket _ _ _ _ _ _ hr, syncPacket_member hp hf hm hoff ho hw hx, if_neg hs, if_pos rfl]
  case again =>
    subst hv
    rw [exec_alignment hr, alignment_due h1 h2 h3 h4, State.becomeAligned_member h2, if_pos hw]
  case first =>
    subst hv
    rw [exec_alignment hr, alignment_due h1 h2 h3 h4, State.becomeAligned_member h2, if_neg (by simp [hw])]
    rfl
  case noAlign => rw [exec_alignment hr, alignment_none hn]
  case gridDropped => rw [exec_gridPacket _ _ hr, gridPacket_dropped hp hd]
  case grid =>
    have hl : last = u.lastInstant := by
      rw [hlast, State.lastInstant]
      cases u.dch.placed.getLast? <;> rfl
    subst hok hv hpl hl
    rw [exec_gridPacket _ _ hr, gridPacket_taken hp h1 h2]
    rfl
  case pubDropped => rw [exec_pubPacket _ _ _ _ hr, pubPacket_dropped hl hp hd]
  case late =>
    subst hok hm hal
    rw [exec_pubPacket _ _ _ _ hr, pubPacket_taken hl hp hf hv, if_pos (Nat.le_of_lt hd), if_pos hd]
  case exact_ =>
    subst hok hm hal
    rw [exec_pubPacket _ _ _ _ hr, pubPacket_taken hl hp hf hv, if_pos (Nat.le_of_eq hd),
      if_neg (Nat.not_lt.mpr (Nat.le_of_eq hd.symm))]
  case unused =>
    subst hok hm hal
    rw [exec_pubPacket _ _ _ _ hr, pubPacket_taken hl hp hf hv, if_neg (Nat.not_le.mpr hd), if_pos (by rcases hn with hn | hn <;> simp [hn])]
  case used =>
    subst hok hm hal
    rw [exec_pubPacket _ _ _ _ hr, pubPacket_taken hl hp hf hv, if_neg (Nat.not_le.mpr hd), if_neg (by rw [ha]; simpa using hne),
      if_pos (by simpa using hu)]
  case early =>
    subst hok hm hal
    rw [exec_pubPacket _ _ _ _ hr, pubPacket_taken hl hp hf hv, if_neg (Nat.not_le.mpr hd), if_neg (by rw [ha]; simpa using hne),
      if_neg (by rcases hn2 with hn2 | hn2 <;> simp [hn1, hn2])]
    rfl
  case level =>
    subst hok hm
    rw [exec_levelPacket _ _ hr, levelPacket_taken hp h1 h2 h3]
  case levelDropped =>
    subst hm
    rw [exec_levelPacket _ _ hr, levelPacket_dropped hp hd]
  case send =>
    subst hlv
    rw [exec_levelSend hr, levelSend_due h1 h2 h3]
  case noSend =>
    subst hlv
    rw [exec_levelSend hr, levelSend_none hn]

end Sys2Proof.Machine

end


section
/-!
# Supply, resets and start-up

What the supply, RST_N, PWR_RESET, REFCLK and the boot image do in each state.
-/

open Sys2Proof Sys2Proof.Machine

namespace Sys2Proof.Machine

/-! ### Supply and resets -/

/-- The supply and RST_N act in every state. -/
theorem exec_supply (s : State) : exec .por s = .next (settle (por s)) ∧ exec .vsupFail s = .next (settle (vsupFail s)) ∧
    exec .rstN s = .next (settle (rstN s)) ∧ exec .rstNRelease s = .next (settle (rstNRelease s)) := ⟨rfl, rfl, rfl, rfl⟩

theorem State.fresh_dev (s : State) : s.fresh.dev = DAWN :=
  (show s.fresh.dev = State.reset.dev from rfl).trans (by decide)

theorem por_off {s : State} (h : s.pwr.off = true) : por s = s.fresh.onPwr fun p => { p with held := s.pwr.held } := if_pos h

theorem por_on {s : State} (h : s.pwr.off = false) : por s = s := if_neg (by simp [h])

theorem rstN_held {s : State} (h : s.pwr.held = true) : rstN s = s := if_pos h

theorem rstN_off {s : State} (h1 : s.pwr.held = false) (h2 : s.pwr.off = true) :
    rstN s = s.onPwr fun p => { p with held := true } := by
  simp only [rstN, h1, h2, Bool.false_eq_true, if_false, if_true]

theorem rstN_on {s : State} (h1 : s.pwr.held = false) (h2 : s.pwr.off = false) :
    rstN s = (s.sysReset 1).onPwr fun p => { p with held := true } := by
  simp only [rstN, h1, h2, Bool.false_eq_true, if_false]

theorem findReg_pwrReset : findReg 0x10120 = some (⟨0x10120, [], .sys, [⟨15, 0, .wo, 0, .any⟩]⟩, []) := by decide

/-- A write of PWR_RESET stores nothing, and acts on its key only (R642). -/
theorem hostWrite_pwrReset (s : State) (v : Word) (p : Nat) (l : List (Nat × Nat)) :
    s.hostWrite p 0x10120 v l = (s.wr 0x10120 (s.rd 0x10120)).pwrReset (bits v 15 0) := by
  rw [hostWrite_accepted findReg_pwrReset (by decide) rfl rfl (by decide) rfl (clampTotal_self _ _ _)]
  rfl

theorem refclkLoss_dawn {s : State} (h1 : s.dev = DAWN) (h2 : s.pwr.otp = false) : refclkLoss s = s.enterSafe 3 :=
  if_pos (by rw [decide_eq_true h1, h2]; rfl)

theorem refclkLoss_later {s : State} (h : s.dev ≠ DAWN ∨ s.pwr.otp = true) :
    refclkLoss s = ({ s with free := s.free + 1 } : State).internalFault (1 + (Config.freeWord s.free).toNat % 5) MER :=
  if_neg (by rcases h with h | h <;> simp [h])

/-! ### The boot image -/

section
variable {s : State} {d : Desc} {buf : List Byte}

theorem pwrBoot_refused (h : s.dev ≠ DAWN ∨ s.pwr.waits = false) : pwrBoot d buf s = s.complete d OP_PWR_BOOT ST_NOT_NOW :=
  if_pos (by rcases h with h | h <;> simp [h])

theorem pwrBoot_busy (h1 : s.dev = DAWN) (h2 : s.pwr.waits = true) (h3 : s.pwr.boot ≠ none) :
    pwrBoot d buf s = s.complete d OP_PWR_BOOT ST_BUSY :=
  (if_neg (by simp [h1, h2])).trans (if_pos (Option.isSome_iff_ne_none.mpr h3))

theorem pwrBoot_taken (h1 : s.dev = DAWN) (h2 : s.pwr.waits = true) (h3 : s.pwr.boot = none) :
    pwrBoot d buf s = (s.clampDesc d 4 (b2n (decide (8388608 < d.len.toNat)))).onPwr fun p =>
      { p with boot := some (d, buf.take (min d.len.toNat 8388608)) } :=
  (if_neg (by simp [h1, h2])).trans (if_neg (by simp [h3]))

end

section
variable {s t : State} (ht : t = s.dawnOtp)
include ht

theorem bootImageChecked_outside (hd : t.dev ≠ DAWN) (f : Option (List Byte)) : bootImageChecked f s = t := by
  simp only [bootImageChecked, ← ht, ne_eq, hd, not_false_eq_true, if_true]

/-- The check of a host image ends: its command completes, and an image that passes goes on to MORNING (R633). -/
theorem bootImageChecked_host (hd : t.dev = DAWN) {d : Desc} {img : List Byte} (hb : t.pwr.boot = some (d, img)) {u : State} {v : Verdict} {c : Nat}
    (hu : u = t.onPwr fun p => { p with boot := none }) (hc : u.bootCheck img img.length = (c, v)) (f : Option (List Byte)) :
    bootImageChecked f s = if c = 0 then ((u.bootRecord img 0 v true).complete d OP_PWR_BOOT ST_DONE).dawnExit img
      else (u.bootRecord img c v true).completeWith { compOf d OP_PWR_BOOT ST_AUTH_FAIL with b := c } := by
  simp only [bootImageChecked, ← ht, hd, hb, ne_eq, not_true_eq_false, if_false, ← hu, State.bootChecked, hc]
  split
  · next h0 => rw [h0]
  · rfl

theorem bootImageChecked_waits (hd : t.dev = DAWN) (hb : t.pwr.boot = none) (hw : t.pwr.waits = true) (f : Option (List Byte)) :
    bootImageChecked f s = t := by
  simp only [bootImageChecked, ← ht, hd, hb, hw, ne_eq, not_true_eq_false, if_false, if_true]

theorem bootImageChecked_noFlash (hd : t.dev = DAWN) (hb : t.pwr.boot = none) (hw : t.pwr.waits = false) :
    bootImageChecked none s = (t.onPwr fun p => { p with waits := true }).flag PWR 11 := by
  simp only [bootImageChecked, ← ht, hd, hb, hw, ne_eq, not_true_eq_false, if_false, Bool.false_eq_true, State.bootWait]

theorem bootImageChecked_flash (hd : t.dev = DAWN) (hb : t.pwr.boot = none) (hw : t.pwr.waits = false) {img : List Byte} {c : Nat}
    {v : Verdict} (hc : t.bootCheck img img.length = (c, v)) :
    bootImageChecked (some img) s = if c = 0 then (t.bootRecord img 0 v false).dawnExit img
      else (t.bootRecord img c v false).bootWait := by
  simp only [bootImageChecked, ← ht, hd, hb, hw, ne_eq, not_true_eq_false, if_false, Bool.false_eq_true, State.bootChecked, hc]
  split
  · next h0 => rw [h0]
  · rfl

end

/-! ### The obligation -/

/-- Settles O57: the supply and the resets by their definitions, the boot image by the state that the straps and OTP leave. -/
theorem startUp : Obligations.StartUp := by
  intro s
  obtain ⟨hpor, hfail, hrst, hrel⟩ := exec_supply s
  refine ⟨⟨rfl, s.fresh_dev, rfl, rfl, rfl, rfl⟩, fun h u hu => ?por, fun h => ?noPor, fun u hu => ?fail, fun h => ?held,
    fun h1 h2 => ?heldOff, fun u h1 h2 hu => ?rst, hrel, fun hr v t ht => ⟨fun hk => ?key, fun hk => ?noKey⟩, fun hr => ?low,
    fun hr => ⟨fun h1 h2 => ?dawnLoss, fun hn => ?laterLoss, fun d buf hn => ?notNow, fun d buf h1 h2 => ⟨fun hb => ?busy,
      fun u hb hu => ?taken⟩, fun t f ht hd => ?outside, fun t ht hd => ⟨fun f d img u c v hb hu hc => ?host, fun f hb hw => ?waits,
      fun hb hw => ⟨?noFlash, fun img c v hc => ?flash⟩⟩⟩⟩
  case por =>
    subst hu
    rw [hpor, por_off h]
    rfl
  case noPor => rw [hpor, por_on h]
  case fail =>
    subst hu
    exact hfail
  case held => rw [hrst, rstN_held h]
  case heldOff =>
    rw [hrst, rstN_off h1 h2]
    rfl
  case rst =>
    subst hu
    rw [hrst, rstN_on h1 h2]
    rfl
  case key =>
    subst ht
    rw [exec_pwrReset _ hr, hostWrite_pwrReset, State.pwrReset, if_pos hk]
    rfl
  case noKey =>
    subst ht
    rw [exec_pwrReset _ hr, hostWrite_pwrReset, State.pwrReset, if_neg hk]
  case low => exact exec_vsupLow hr
  case dawnLoss => rw [exec_refclkLoss hr, refclkLoss_dawn h1 h2]
  case laterLoss => rw [exec_refclkLoss hr, refclkLoss_later hn]
  case notNow => rw [exec_pwrBoot _ _ hr, pwrBoot_refused (s := s.open_ d) hn]
  case busy => rw [exec_pwrBoot _ _ hr, pwrBoot_busy (s := s.open_ d) h1 h2 hb]
  case taken =>
    subst hu
    rw [exec_pwrBoot _ _ hr, pwrBoot_taken (s := s.open_ d) h1 h2 hb]
    rfl
  case outside => rw [exec_bootImageChecked _ hr, bootImageChecked_outside ht hd]
  case host => rw [exec_bootImageChecked _ hr, bootImageChecked_host ht hd hb hu hc]
  case waits => rw [exec_bootImageChecked _ hr, bootImageChecked_waits ht hd hb hw]
  case noFlash =>
    rw [exec_bootImageChecked _ hr, bootImageChecked_noFlash ht hd hb hw]
    rfl
  case flash => rw [exec_bootImageChecked _ hr, bootImageChecked_flash ht hd hb hw hc]

end Sys2Proof.Machine

end


section
/-!
# Power states

What PWR_STATE comes to by the state of the device, the transitions that the device takes by itself, and the measurements of the supply.
-/

open Sys2Proof Sys2Proof.Machine

namespace Sys2Proof.Machine

/-! ### The table of PWR_STATE -/

/-- The requests that the table refuses (R635, R636, R658). -/
theorem State.ask_notNow {s : State} {t : Nat}
    (h : s.dev = DAWN ∨ (s.dev = SAFE ∧ t ≠ SAFE) ∨ (s.dev = NIGHT ∧ t ≠ NIGHT ∧ t ≠ MORNING) ∨
      (t = NIGHT ∧ s.dev ≠ NIGHT ∧ s.dev ≠ MORNING) ∨ (s.dev = MORNING ∧ s.moveNotNow = true ∧ (t = NOON ∨ t = DUSK)) ∨
      (s.on TST_JTAG_bscan = true ∧ (t = NOON ∨ t = DUSK))) : s.ask t = .notNow := by
  unfold State.ask
  rcases h with h | ⟨h, ht⟩ | ⟨h, ht1, ht2⟩ | ⟨rfl, h1, h2⟩ | ⟨h, hm, rfl | rfl⟩ | ⟨hb, rfl | rfl⟩
  · simp [h]
  · simp [h, Ne.symm ht]
  · simp [h, Ne.symm ht1, ht2, show NIGHT ≠ SAFE by decide]
  · simp [h1, h2, show NIGHT ≠ SAFE by decide, show NIGHT ≠ NOON by decide, show NIGHT ≠ DUSK by decide]
  · simp [h, hm, show MORNING ≠ NOON by decide, show MORNING ≠ SAFE by decide, show MORNING ≠ NIGHT by decide,
      show NOON ≠ SAFE by decide, show NOON ≠ NIGHT by decide]
  · simp [h, hm, show MORNING ≠ DUSK by decide, show MORNING ≠ SAFE by decide, show MORNING ≠ NIGHT by decide,
      show DUSK ≠ SAFE by decide, show DUSK ≠ NIGHT by decide]
  · simp [hb]
  · simp [hb]

theorem State.ask_noEffect {s : State} {t : Nat} (h1 : s.dev ≠ DAWN) (h2 : s.on TST_JTAG_bscan = false ∨ (t ≠ NOON ∧ t ≠ DUSK))
    (h3 : s.dev = t) : s.ask t = .noEffect :=
  (if_neg (by rcases h2 with h2 | ⟨h2, h4⟩ <;> simp [*])).trans ((if_neg h1).trans (if_pos h3))

theorem State.ask_safe {s : State} (h1 : s.dev ≠ DAWN) (h2 : s.dev ≠ SAFE) (h3 : s.dev ≠ NIGHT) : s.ask SAFE = .now :=
  (if_neg (by simp [show SAFE ≠ NOON by decide, show SAFE ≠ DUSK by decide])).trans ((if_neg h1).trans ((if_neg h2).trans
    ((if_neg h2).trans ((if_neg h3).trans (if_pos rfl)))))

theorem State.ask_night {s : State} (h : s.dev = MORNING) : s.ask NIGHT = .now := by
  simp [State.ask, h, DAWN, MORNING, NOON, DUSK, NIGHT, SAFE]

theorem State.ask_wake {s : State} (h : s.dev = NIGHT) : s.ask MORNING = .now := by
  simp [State.ask, h, DAWN, MORNING, NOON, DUSK, NIGHT, SAFE]

/-- The moves that wait for their frame (R636, R637). -/
theorem State.ask_waits {s : State} {t : Nat} (hb : s.on TST_JTAG_bscan = false)
    (h : (s.dev = MORNING ∧ s.moveNotNow = false ∧ (t = NOON ∨ t = DUSK)) ∨ (s.dev = NOON ∧ (t = MORNING ∨ t = DUSK)) ∨
      (s.dev = DUSK ∧ (t = MORNING ∨ t = NOON))) : s.ask t = .waits := by
  unfold State.ask
  rcases h with ⟨h, hm, rfl | rfl⟩ | ⟨h, rfl | rfl⟩ | ⟨h, rfl | rfl⟩
  · simp [h, hb, hm, DAWN, MORNING, NOON, DUSK, NIGHT, SAFE]
  · simp [h, hb, hm, DAWN, MORNING, NOON, DUSK, NIGHT, SAFE]
  · simp [h, hb, DAWN, MORNING, NOON, DUSK, NIGHT, SAFE]
  · simp [h, hb, DAWN, MORNING, NOON, DUSK, NIGHT, SAFE]
  · simp [h, hb, DAWN, MORNING, NOON, DUSK, NIGHT, SAFE]
  · simp [h, hb, DAWN, MORNING, NOON, DUSK, NIGHT, SAFE]

/-! ### PWR_STATE -/

/-- The state that a PWR_STATE asks for: one out of range is clamped. -/
def askedState (d : Desc) : Nat := if bits d.b 2 0 < 2 then 2 else min (bits d.b 2 0) 6

theorem pwrState_notNow {s : State} {d : Desc} (h : s.ask (askedState d) = .notNow) :
    pwrState d s = s.complete d OP_PWR_STATE ST_NOT_NOW := by
  simp only [pwrState, show s.ask (if bits d.b 2 0 < 2 then 2 else min (bits d.b 2 0) 6) = .notNow from h]

section
variable {s : State} {d : Desc} {u : State}
  (hu : u = ((s.clampDesc d 24 (b2n (decide (askedState d ≠ bits d.b 2 0)))).dropWant).onPwr fun p => { p with dusk := false })
include hu

theorem pwrState_noEffect (h : s.ask (askedState d) = .noEffect) : pwrState d s = u.complete d OP_PWR_STATE ST_DONE := by
  subst hu
  simp only [pwrState, show s.ask (if bits d.b 2 0 < 2 then 2 else min (bits d.b 2 0) 6) = .noEffect from h]
  rfl

theorem pwrState_now (h : s.ask (askedState d) = .now) :
    pwrState d s = (u.enter (askedState d)).complete d OP_PWR_STATE ST_DONE := by
  subst hu
  simp only [pwrState, show s.ask (if bits d.b 2 0 < 2 then 2 else min (bits d.b 2 0) 6) = .now from h]
  rfl

theorem pwrState_waits (h : s.ask (askedState d) = .waits) :
    pwrState d s = u.onPwr fun p => { p with want := some (d, askedState d) } := by
  subst hu
  simp only [pwrState, show s.ask (if bits d.b 2 0 < 2 then 2 else min (bits d.b 2 0) 6) = .waits from h]
  rfl

end

/-! ### Transitions of the device -/

theorem wake_due {s : State} (h1 : s.dev = NIGHT) (h2 : ∃ n < 256, s.presented n = true ∧ s.on ICU_SRC_wake [n] = true) :
    wake s = s.wakeUp := by
  obtain ⟨n, hn, hp, hw⟩ := h2
  refine if_pos ?_
  rw [decide_eq_true h1, Bool.true_and, List.any_eq_true]
  exact ⟨n, List.mem_range.mpr hn, by rw [hp, hw]; rfl⟩

theorem wake_none {s : State} (h : s.dev ≠ NIGHT ∨ (∀ n < 256, s.presented n = true → s.on ICU_SRC_wake [n] = false)) : wake s = s := by
  refine if_neg ?_
  rcases h with h | h
  · simp [h]
  · rw [Bool.and_eq_true, List.any_eq_true]
    rintro ⟨-, n, hn, hp⟩
    rw [Bool.and_eq_true] at hp
    have hw := h n (List.mem_range.mp hn) hp.1
    rw [hp.2] at hw
    exact Bool.noConfusion hw

theorem duskReturn_due {s : State} (h1 : s.dev = DUSK) (h2 : s.pwr.dusk = true) (h3 : s.icu.level.getLsbD 225 = false)
    (h4 : oneSec * 10 ≤ s.since s.pwr.coolAt) :
    duskReturn s = (s.goto NOON).onPwr fun p => { p with auto := false, dusk := false } :=
  if_pos (by rw [decide_eq_true h1, h2, h3, decide_eq_true h4]; rfl)

theorem duskReturn_none {s : State}
    (h : s.dev ≠ DUSK ∨ s.pwr.dusk = false ∨ s.icu.level.getLsbD 225 = true ∨ s.since s.pwr.coolAt < oneSec * 10) :
    duskReturn s = s := by
  refine if_neg ?_
  rcases h with h | h | h | h
  · simp [h]
  · simp [h]
  · simp only [h, Bool.not_true, Bool.and_false, Bool.false_and, Bool.false_eq_true, not_false_eq_true]
  · simp [Nat.not_le.mpr h]

/-! ### Measurements -/

/-- The temperatures of the dies and VSUP show, and the warning and the fault follow the hottest die (R641, R634). -/
theorem temperatureMeasure_eq (s : State) (dig ana io : Int) (vs : Nat) (l : List Int) (u : State)
    (hl : l = [s.trimTemp 0 dig, s.trimTemp 1 ana, s.trimTemp 2 io])
    (hu : u = ((((s.p PWR_TEMP_dig [] (kelvin (s.trimTemp 0 dig))).p PWR_TEMP_ana [] (kelvin (s.trimTemp 1 ana))).p PWR_TEMP_io []
      (kelvin (s.trimTemp 2 io))).p PWR_VSUP_mv [] (min vs 65535))) :
    temperatureMeasure dig ana io vs s = if l.any (fun t => decide (165000 ≤ t))
      then (u.thermal (l.any fun t => decide (150000 ≤ t))).enterSafe 4 else u.thermal (l.any fun t => decide (150000 ≤ t)) := by
  subst hl hu
  rfl

/-- Whether a die of a list is at or above a temperature. -/
theorem any_le_eq_true {l : List Int} {b : Int} (h : ∃ t ∈ l, b ≤ t) : (l.any fun t => decide (b ≤ t)) = true := by simpa using h

theorem any_le_eq_false {l : List Int} {b : Int} (h : ∀ t ∈ l, t < b) : (l.any fun t => decide (b ≤ t)) = false := by simpa using h

theorem State.thermal_same {s : State} {hot : Bool} (h : s.icu.level.getLsbD 225 = hot) : s.thermal hot = s := if_pos h

theorem State.thermal_changed {s : State} {hot : Bool} (h : s.icu.level.getLsbD 225 = !hot)
    (hn : hot = false ∨ s.dev ≠ NOON ∨ s.on PWR_CFG_tdusk = false) :
    s.thermal hot = (s.setLevel 225 hot).onPwr fun p => { p with coolAt := s.mer.cyc } :=
  (if_neg (by rw [h]; cases hot <;> decide)).trans (if_neg (by rcases hn with hn | hn | hn <;> simp [hn]))

theorem paceMeasure_eq (s : State) (n v : Nat) (u w : State) (hv : v = min n 65535)
    (hu : u = (s.p PWR_PACE_last [] v).p PWR_PACE_min [] (min v (s.g PWR_PACE_min)))
    (hw : w = if v < s.g PWR_CFG_pmin then u.flag PWR 10 else u) :
    paceMeasure n s = if s.inSt [MORNING, NOON] && !s.on PWR_VCFG_mode then
        ({ w with free := w.free + 1 } : State).p PWR_VSTAT_setp [] (min (max (Config.adaptive w.free) 650) 900)
      else w := by
  subst hv hu hw
  rfl

/-! ### The obligation -/

/-- Settles O58: PWR_STATE by the table of its states, each transition by its condition, each measurement by its value. -/
theorem powerStates : Obligations.PowerStates := by
  intro s hr
  refine ⟨fun d c t hc ht w u hw hu => ?states, fun h1 h2 => ?wakes, fun hn => ?noWake, fun h1 h2 h3 h4 u hu => ?returns,
    fun hn => ?noReturn, fun dig ana io vs l u hl hu => ⟨fun h => ?cool, fun h => ?fault, fun h1 h2 => ?hot⟩,
    fun hot u hu => ⟨fun h => State.thermal_same h, fun h hn => ?thermal⟩, fun mv => exec_vcoreConfirm mv hr,
    fun n v u w hv hu hw => ⟨fun hn => ?pace, fun h1 h2 => ?adaptive⟩⟩
  case states =>
    have hask : t = askedState d := by rw [ht, hc]; rfl
    clear ht
    subst hc hw hask
    refine ⟨fun h => ?notNow, fun h1 h2 h3 => ?noEffect, fun h1 h2 h3 hs => ?safe, fun h hs => ?night, fun h hs => ?woken,
      fun hb h => ?waits⟩
    all_goals rw [exec_pwrState _ hr]
    case notNow => rw [pwrState_notNow (s := s.open_ d) (State.ask_notNow (s := s.open_ d) h)]
    case noEffect => rw [pwrState_noEffect (s := s.open_ d) hu (State.ask_noEffect (s := s.open_ d) h1 h2 h3)]
    case safe =>
      rw [pwrState_now (s := s.open_ d) hu (by rw [show askedState d = SAFE from hs]; exact State.ask_safe (s := s.open_ d) h1 h2 h3),
        show askedState d = SAFE from hs]
      rfl
    case night =>
      rw [pwrState_now (s := s.open_ d) hu (by rw [show askedState d = NIGHT from hs]; exact State.ask_night (s := s.open_ d) h),
        show askedState d = NIGHT from hs]
      rfl
    case woken =>
      rw [pwrState_now (s := s.open_ d) hu (by rw [show askedState d = MORNING from hs]; exact State.ask_wake (s := s.open_ d) h),
        show askedState d = MORNING from hs]
    case waits =>
      rw [pwrState_waits (s := s.open_ d) hu (State.ask_waits (s := s.open_ d) hb h)]
      rfl
  case wakes => rw [exec_wake hr, wake_due h1 h2]
  case noWake => rw [exec_wake hr, wake_none hn]
  case returns =>
    subst hu
    rw [exec_duskReturn hr, duskReturn_due h1 h2 h3 h4]
    rfl
  case noReturn => rw [exec_duskReturn hr, duskReturn_none hn]
  case cool =>
    rw [exec_temperatureMeasure _ _ _ _ hr, temperatureMeasure_eq s dig ana io vs l u hl hu, any_le_eq_false h,
      any_le_eq_false fun t ht => Int.lt_trans (h t ht) (by decide)]
    rfl
  case fault =>
    rw [exec_temperatureMeasure _ _ _ _ hr, temperatureMeasure_eq s dig ana io vs l u hl hu, any_le_eq_true h,
      any_le_eq_true (h.imp fun t ht => ⟨ht.1, Int.le_trans (by decide) ht.2⟩)]
    rfl
  case hot =>
    rw [exec_temperatureMeasure _ _ _ _ hr, temperatureMeasure_eq s dig ana io vs l u hl hu, any_le_eq_false h1, any_le_eq_true h2]
    rfl
  case thermal =>
    subst hu
    rw [State.thermal_changed h hn]
    rfl
  case pace => rw [exec_paceMeasure _ hr, paceMeasure_eq s n v u w hv hu hw, if_neg (by rcases hn with hn | hn <;> simp [hn])]
  case adaptive => rw [exec_paceMeasure _ hr, paceMeasure_eq s n v u w hv hu hw, if_pos (by rw [h1, h2]; rfl)]

end Sys2Proof.Machine

end


section
/-!
# Containment of faults and test

What a fault, the scrubber and a stall do, the operands of a slot in TEST mode, and the substitution of the time source.
-/

open Sys2Proof Sys2Proof.Machine

namespace Sys2Proof.Machine

/-! ### Faults -/

/-- A fault of the class-S path, of an inter-die channel or of a memory is an internal fault of its cause and block (R652). -/
theorem exec_internalFault {s : State} (hr : s.Runs) {c : Instr} {b : Nat × Nat}
    (h : (∃ io : Bool, c = Instr.interdieStall io ∧ b = (3, if io = true then FIO else AFE)) ∨
      (∃ k : Fin 3, c = Instr.classSStall k ∧ b = (4, PHE + k.val)) ∨
      (∃ blk : Fin 21, blk.val ≠ CIS ∧ c = Instr.scrub 2 blk ∧ b = (1, blk.val))) :
    exec c s = .next (settle (s.internalFault b.1 b.2)) := by
  rcases h with ⟨io, rfl, rfl⟩ | ⟨k, rfl, rfl⟩ | ⟨blk, hb, rfl, rfl⟩
  · exact exec_interdieStall io hr
  · exact exec_classSStall k hr
  · rw [exec_scrub 2 blk hr, show scrub (2 : Fin 3).val blk.val s = s.internalFault 1 blk.val from if_neg hb]

theorem State.vUpdate_pwr (s : State) : s.vUpdate.pwr = s.pwr := by rw [State.vUpdate, State.p_pwr, State.p_pwr]

/-- VCORE below 0.70 V with a class-S row enabled shows, and is an internal fault of the power block. -/
theorem vcoreLow_due {s : State} {mv : Nat} (h1 : s.anyS = true) (h2 : mv < 700) :
    vcoreLow mv s = ((s.p PWR_VSTAT_meas [] mv).vUpdate).internalFault 5 PWR := by
  have hm : min mv 1023 = mv := Nat.min_eq_left (by omega)
  refine (if_pos (by rw [h1, decide_eq_true h2]; rfl)).trans ?_
  rw [vcoreConfirm, hm]

theorem vcoreLow_none {s : State} {mv : Nat} (h : s.anyS = false ∨ 700 ≤ mv) : vcoreLow mv s = s := by
  refine if_neg ?_
  rcases h with h | h
  · simp [h]
  · simp [Nat.not_lt.mpr h]

theorem blockStall_other {s : State} {blk : Nat} (h : blk ∉ [PHE, ELE, TMX]) :
    blockStall blk s = (((s.blkReset blk).cnt TST_STALL_count).p TST_STALL_blk [] blk).flag TST 11 :=
  if_neg (by rwa [List.contains_iff_mem])

theorem blockStall_classS {s : State} {blk : Nat} (h : blk ∈ [PHE, ELE, TMX]) : blockStall blk s = s :=
  if_pos (by rwa [List.contains_iff_mem])

/-! ### Test -/

theorem tstOpnd_refused {s : State} {d : Desc} (h : s.inSt [DAWN, NIGHT] = true ∨ (s.slot (d.rf.toNat % 256)).mode ≠ M_TEST)
    (buf : List Byte) : tstOpnd d buf s = s.complete d 0x0901 ST_NOT_NOW :=
  if_pos (by rcases h with h | h <;> simp [h])

/-- The operands that a TST_OPND gives wait for the next frame, and those of a PIOC slot stand at once (R646, R648). -/
theorem tstOpnd_taken {s : State} {d : Desc} {buf : List Byte} {n k : Nat} (hn : n = d.rf.toNat % 256)
    (h1 : s.inSt [DAWN, NIGHT] = false) (h2 : (s.slot n).mode = M_TEST) (hk : k = (s.liveOps (s.slot n) s.dch.frame.words).length)
    {u w : State} (hu : u = s.clampDesc d 8 (b2n (decide (leAt buf 4 2 ≠ k)))) {v : List Ent}
    (hv : v = (List.range k).map fun i => (BitVec.ofNat 32 (leAt buf (16 + 8 * i) 4), leAt buf (22 + 8 * i) 1))
    (hw : w = if (s.slot n).typ = T_PIOC then u.putSlot n { u.slot n with subst := some v } else u) :
    tstOpnd d buf s = { w with ele := { w.ele with opnds := w.ele.opnds ++ [(n, d, v)] } } := by
  subst hw hv hu hk hn
  exact if_neg (by simp [h1, h2])

theorem findReg_tstMsub : findReg 0x140110 =
    some (⟨0x140110, [], .blk, [⟨31, 31, .rw, 0, .any⟩, ⟨1, 0, .rw, 0, .range 0 2⟩]⟩, []) := by decide

theorem hostWrite_tstMsub_refused {s : State} (h : s.isMember = true) (v : Word) (p : Nat) (l : List (Nat × Nat)) :
    s.hostWrite p 0x140110 v l = s.notNow 0x140110 :=
  hostWrite_refused findReg_tstMsub (by decide) rfl (.inr h) p l

theorem hostWrite_tstMsub {s : State} {r : Reg} {w : Word} (h : s.isMember = false) (hf : findReg 0x140110 = some (r, [])) (v : Word)
    (hw : w = s.depClamp 0x140110 [] (clampStatic r.fields v)) (p : Nat) (l : List (Nat × Nat)) :
    s.hostWrite p 0x140110 v l =
      ((s.wr 0x140110 (storeWord r.fields (s.rd 0x140110) v w)).clampReg 0x140110 (clampTotal 0x140110 r.fields v w)).msubWritten
        (s.rd 0x140110) w := by
  obtain ⟨rfl, -⟩ := Prod.mk.inj (Option.some.inj (findReg_tstMsub.symm.trans hf))
  rw [hostWrite_plain findReg_tstMsub (by decide), plainWrite_accepted (x := v) rfl hw]
  · rfl
  · rw [s.lockRefuses_false 0x140110 (by decide)]
    exact h

/-- The reported quality is that of the substitution, with its flag at a change. -/
def State.reportTq (s : State) (tq : Nat) : State := if s.g MER_STAT_tq = tq then s else (s.p MER_STAT_tq [] tq).flag MER 9

/-- Another source serves, as at each change of the substitution (R650). -/
def State.switchSrc (s : State) (c : Nat) : State :=
  { (s.p MER_STAT_active [] c).flag MER 8 with
    mer := { ((s.p MER_STAT_active [] c).flag MER 8).mer with switched := true, lockCnt := 0, outCnt := 0 } }

/-- A write of TST_MSUB: the substitution starts, stays or ends (R650). -/
theorem State.msubWritten_eq (s : State) (old w : Word) :
    s.msubWritten old w = if w.msb then (if old.msb then s else s.switchSrc 11).reportTq (bits w 1 0)
      else if old.msb then (s.reportTq TQ_FREE).switchSrc s.bestSrc else s := rfl

/-! ### The obligation -/

/-- Settles O59: each fault by its cause and whether it is the first, each stall by its block, the commands by their state. -/
theorem faultContainment : Obligations.FaultContainment := by
  intro s hr
  refine ⟨⟨fun io => exec_interdieStall io hr, fun k => exec_classSStall k hr, fun blk hb => ?scrub⟩,
    fun c b hcb => ⟨fun hf u hu => ?first, fun hf => ?later⟩, fun mv h1 h2 u hu hf => ?lowAgain,
    fun mv h1 h2 u v hu hf hv => ?lowFirst, fun mv hn => ?notLow, fun blk => ⟨exec_scrub 0 blk hr, exec_scrub 1 blk hr, fun hb => ?cis⟩,
    fun blk => ⟨fun hb => ?stall, fun hb => ?noStall⟩,
    fun d buf n hn => ⟨fun h => ?refused, fun k u h1 h2 hk hu v w hv hw => ?opnd⟩, fun v hm => ?member, fun v r w hm hf hw => ?msub,
    fun old w => ⟨fun hw ho => ?off, fun hw ho => ⟨fun h => ?same, fun h => ?reported⟩,
      fun hw ho t u ht hu => ?starts, fun hw ho q t u hq ht hu => ?ends⟩⟩
  case scrub => exact exec_internalFault hr (b := (1, blk.val)) (.inr (.inr ⟨blk, hb, rfl, rfl⟩))
  case first =>
    subst hu
    rw [exec_internalFault hr hcb, State.internalFault_first hf]
    rfl
  case later => rw [exec_internalFault hr hcb, State.internalFault_again hf]
  case lowAgain => rw [exec_vcoreLow _ hr, vcoreLow_due h1 h2, ← hu, State.internalFault_again hf]
  case lowFirst =>
    have hu' : u.pwr.faulted = false := by rw [hu, State.vUpdate_pwr, State.p_pwr]; exact hf
    subst hv
    rw [exec_vcoreLow _ hr, vcoreLow_due h1 h2, ← hu, State.internalFault_first hu']
    rfl
  case notLow => rw [exec_vcoreLow _ hr, vcoreLow_none hn]
  case cis => rw [exec_scrub 2 blk hr, show scrub (2 : Fin 3).val blk.val s = (s.cnt TST_ECC_cue).flag TST 10 from if_pos hb]
  case stall => rw [exec_blockStall _ hr, blockStall_other hb]
  case noStall => rw [exec_blockStall _ hr, blockStall_classS hb]
  case refused =>
    subst hn
    rw [exec_tstOpnd _ _ hr, tstOpnd_refused (s := s.open_ d) h]
  case opnd => rw [exec_tstOpnd _ _ hr, tstOpnd_taken (s := s.open_ d) hn h1 h2 hk hu hv hw]
  case member => rw [exec_tstMsub _ hr, hostWrite_tstMsub_refused hm]
  case msub => rw [exec_tstMsub _ hr, hostWrite_tstMsub hm hf v hw]
  all_goals rw [State.msubWritten_eq, hw, ho]
  case off => rfl
  case same => exact if_pos h
  case reported => exact if_neg h
  case starts =>
    subst hu ht
    rfl
  case ends =>
    subst hu ht hq
    rfl

end Sys2Proof.Machine

end
